-- ==== Sys2Proof/Word.lean ====
section
/-!
DEFINITION. The words of the machine: a register word (32 bits), a byte, a time-stamp (64 bits).
-/
namespace Sys2Proof

/-- One 32-bit register word (R7, R528). -/
abbrev Word := BitVec 32

/-- One byte of a memory, an image, a descriptor or a packet. -/
abbrev Byte := BitVec 8

end Sys2Proof
end

