-- ==== Sys2Proof/Syntax.lean ====
section
/-!
DEFINITION. The commands of the block: one constructor of `Instr` for each row of spec/opcode_table.json, in the table's order, with
the operands that come from outside the device (a register value, a packet, a code, what a read of host memory gives). Before it,
the types of those operands.
-/
namespace Sys2Proof

/-- What a gather engine's read of an SQ gives (R81, R91). -/
inductive FetchRead where
  | entries (l : List (List Byte)) | failed | cut
deriving DecidableEq, Repr

/-- What a device read of host memory for a descriptor gives (R91): bytes, an Unsupported Request or Completer Abort, a Completion
Timeout. -/
inductive HostRead where
  | bytes (l : List Byte) | refused | timeout
deriving DecidableEq, Repr

/-- An edge of a modulator clock pin: rising or falling, the level of MDAT at it, TCLK cycles since the edge before of the same
direction (R192, R195). -/
structure ModEdge where
  rising : Bool
  mdat : Bool
  interval : Nat
deriving DecidableEq, Repr

/-- What stops the rings' traffic (R69). -/
inductive LinkLoss where
  | link | busMaster
deriving DecidableEq, Repr

/-- What lets it go on (R69, R91): the link at a width and a speed (Table 3.9), or Bus Master Enable. -/
inductive LinkGain where
  | link (width speed : Nat) | busMaster
deriving DecidableEq, Repr

/-- The words of a watch: its control word, the low and the high word of THRESH (Table 4.10). -/
inductive WatchWord where
  | control | threshLo | threshHi
deriving DecidableEq, Repr

/-- The two kinds of counter in the SNS block (Tables 7.7 and 7.9). -/
inductive SnsCounter where
  | axis (n : Fin 6) | modulator (k : Fin 4)
deriving DecidableEq, Repr

/-- How an LPDDR5X training ends (R445, R446): what the package's mode registers give for each channel, its capacity in MiB and
whether it has two ranks, or the failing channels of a timing or ZQ error. -/
inductive Training where
  | read (mib : Vector (BitVec 16) 4) (two : Vector Bool 4) | timing (channels : BitVec 4) | zq (channels : BitVec 4)
deriving DecidableEq, Repr

/-- What the check bits of a read show (R149, R150, R455, R456): nothing, a link error corrected, a stored error corrected, an
uncorrectable error in the given 32-bit half, counted from the start of what is read. -/
inductive Ecc where
  | clean | link | corrected | uncorrectable (half : Nat)
deriving DecidableEq, Repr

/-- An IEEE 1149.1 instruction (R494, R495): the mandatory ones and CLAMP, any other with whether it drives output pins from the
boundary-scan cells. -/
inductive ScanInstr where
  | bypass | samplePreload | extest | idcode | clamp | other (drives : Bool)
deriving DecidableEq, Repr

/-- Who made a read of external memory that meets an uncorrectable error (R458): a descriptor, or the host through BAR4, of `n`
bytes. -/
inductive Reader where
  | descriptor (sq : Fin 64) (seq : BitVec 16) | bar4 (n : Nat)
deriving DecidableEq, Repr

/-- A register of the function's configuration space (Table 3.1): a word of the header, or a word of a capability. -/
inductive PciReg where
  | header (word : Fin 16) | devCap | devCtl | linkCap | linkCtl | pmCsr | msixCtl | msixTable | msixPba
deriving DecidableEq, Repr

/-- Where the host reads or writes a register: BAR0, the doorbells of BAR2 (R77), the configuration space (R66). -/
inductive HostReg where
  | bar0 (off : BitVec 24) | bar2 (off : BitVec 16) | config (r : PciReg)
deriving DecidableEq, Repr

/-- A BAR4 access (R67). -/
inductive Bar4Op where
  | read (len : Nat) | write (bytes : List Byte)
deriving DecidableEq, Repr

/-- The 48-bit RW registers of a timer channel (R303). -/
inductive TmrWide where
  | count | reload | cmp0 | cmp1
deriving DecidableEq, Repr

/-- A register with an audio GAIN, VOL or MUTE (R319). -/
inductive AudReg where
  | mic (m : Fin 4) | lin (l : Fin 4) | hp | spk
deriving DecidableEq, Repr

/-- The two audio outputs (R318). -/
inductive AudOutput where
  | hp | spk
deriving DecidableEq, Repr

/-- The output protection faults (Table 13.3). -/
inductive AudFault where
  | hpSc | spkOc | spkOt | spkUv
deriving DecidableEq, Repr

/-- Which sample instant (R331, R336, R337): of D0, D1 or D2, of the low-latency path, or a frame start of a target port in SINGLE
mode. -/
inductive MixDom where
  | d0 | d1 | d2 | ll | frame (p : Fin 2)
deriving DecidableEq, Repr

/-- What locks (R338, Table 14.4): a channel of a bridge, or an edge converter of the USB streams or of a serial port. -/
inductive MixConv where
  | bridge (d : Fin 6) (c : Fin 8) | usbIn | usbOut | spi (p : Fin 2) | spo (p : Fin 2)
deriving DecidableEq, Repr

/-- A long packet of the camera port (R357): one with an uncorrectable header; else its virtual channel and data type code, the
pixels of its whole groups, and whether its checksum holds, a partial group ends it, the capture buffer could not write it. -/
inductive CsiLong where
  | badHeader
  | line (vc : BitVec 2) (dt : BitVec 6) (pixels : List (BitVec 12)) (crcOk partialGroup busy : Bool)
deriving DecidableEq, Repr

/-- How a two-wire transfer ends (Table 17.3): complete with the bytes read, not acknowledged in its first or second address, not
acknowledged in written byte `n`, or stopped after `n` bytes by an abort or a timeout. -/
inductive TwbEnd where
  | ok (read : List Byte) | nackAddr (second : Bool) | nackData (n : BitVec 16) | stopped (n : BitVec 16)
deriving DecidableEq, Repr

/-- Where a controller loses arbitration (R405, R406): in a data byte or acknowledge slot, at a STOP or repeated START after
`n` bytes, or in an address byte, with the address and direction that the winner completes. -/
inductive TwbLoss where
  | data (n : BitVec 16) (bit : Fin 9)
  | cond (n : BitVec 16) (restart : Bool)
  | addr (n : BitVec 16) (bit : Fin 9) (address : BitVec 7) (read : Bool)
deriving DecidableEq, Repr

/-- What causes a cold reset (R472): supplies becoming valid, PERST# asserted, the sag hold. -/
inductive ColdCause where
  | supplies | perst | sagHold
deriving DecidableEq, Repr

/-- What causes a warm reset (R473). -/
inductive WarmCause where
  | hotReset | flr | soft | fabricPll | xtal
deriving DecidableEq, Repr

/-- The clocks of Table 20.4. -/
inductive Pll where
  | xtal | tick | fabric | nclk (m : Fin 16) | mem | usb | pcie | vxltx
deriving DecidableEq, Repr

/-- The RWL shadows of the FUS block (Table 21.3). -/
inductive FuseShadow where
  | cfg | dislvl0 | dislvl1 | axis (n : Fin 6) | fmax (n : Fin 6) | fpeak (p : Fin 4)
deriving DecidableEq, Repr

/-- What the sensing of a program operation finds (R497): for each copy the requested bits that stay 0 after three pulses, and the
pulses it took. -/
structure Programmed where
  failA : BitVec 32
  failB : BitVec 32
  pulses : BitVec 8
deriving DecidableEq, Repr

/-- The commands that change the state of the block. The rule named is the one that the table gives the row. -/
inductive Instr where
  /-- TICK_EDGE (R17): the gaffer's tick counter reloads: TICKNO increments and every edge-cycle effect of the new tick takes
    place. -/
  | tickEdge
  /-- GAF_RUN (R41): a write of GAF_CTRL.RUN = 1 starts the gaffer on BANK_INIT, or is refused with RUN_ERR. -/
  | gafRun (bank : Bool)
  /-- GAF_STOP_REQUEST (R43): a write of GAF_CTRL.RUN = 0 while running asks the gaffer to stop at the next edge. -/
  | gafStopRequest (bank : Bool)
  /-- GAF_SWITCH_ARM (R60): a write of GAF_SWITCH with ARM = 1 arms a bank switch for GAF_SWTICK, or refuses it. -/
  | gafSwitchArm (bank : Bool)
  /-- GAF_SWITCH_CANCEL (R61): a write of GAF_SWITCH with CANCEL = 1 withdraws an armed switch. -/
  | gafSwitchCancel
  /-- ACTION_CLR (R51): a write of CLR to a per-action register clears OVRCNT and sets MINSLACK to 0xFFFF. -/
  | actionClr (k : Fin 64)
  /-- TICK_PLL_LOCK_LOST (R44): the tick PLL loses lock, so the gaffer starts no further tick and disables every PWMAn. -/
  | tickPllLockLost
  /-- ACTION_OVERRUN (R49): an action not complete by its DEADLINE is stopped and its fallback applied. -/
  | actionOverrun (i : Fin 64)
  /-- SAMPLE_START (R184): a SAMPLE action starts and bounds the landing of the tick's sample sets. -/
  | sampleStart (i : Fin 64)
  /-- OBS_SPEC_START (R209): an OBS_SPEC action stages extrapolated inputs and launches the speculative run. -/
  | obsSpecStart (i : Fin 64)
  /-- OBS_FINAL_DECIDE (R211): OBS_FINAL decides which axes need a recompute and launches one run if it fits. -/
  | obsFinalDecide (i : Fin 64)
  /-- COLLIDE_START (R224): a COLLIDE action stages currents, TLOAD and NPUFEAT words and launches the collision model. -/
  | collideStart (i : Fin 64)
  /-- CONTROL_START (R240): a CONTROL action reads its inputs and computes the current loop of each targeted slot. -/
  | controlStart (i : Fin 64)
  /-- CONTROL_DUTY_WRITE (R233): 96 cycles after start the slots write their duties and the CONTROL action completes. -/
  | controlDutyWrite (i : Fin 64)
  /-- EXCHANGE_START (R426): the EXCHANGE action queues the device's own cascade slot for its TX port. -/
  | exchangeStart (i : Fin 64)
  /-- AUDIO_HANDOFF (R345): the AUDIO action hands off every completed sink sample to capture streams and cascade staging. -/
  | audioHandoff (i : Fin 64)
  /-- SLICE_START (R173): a SLICE action starts and each targeted stream marver selects its job. -/
  | sliceStart (i : Fin 64)
  /-- SIGNAL_ACTION (R46): a SIGNAL action signals its fence with TICKNO in its start cycle. -/
  | signalAction (i : Fin 64)
  /-- PINNED_RUN_DONE (R153): a pinned observer or collision run completes after its D cycles; `corrected`
  is how many single-bit SRAM errors its reads found (R149, R158). -/
  | pinnedRunDone (i : Fin 64) (corrected : Nat)
  /-- COLLISION_VERDICT (R225): the collision model completes and its request set reaches the control engine. -/
  | collisionVerdict (i : Fin 64)
  /-- CHUNK_DONE (R172): a stream chunk ends and the marver starts the next chunk that fits before DEADLINE; `corrected` is
  how many single-bit SRAM errors its reads found (R149). -/
  | chunkDone (m : Fin 16) (corrected : Nat)
  /-- SQ_DOORBELL (R78): a write of an SQ doorbell accepts a new tail or halts the SQ. -/
  | sqDoorbell (n : Fin 64) (v : Word)
  /-- CQ_DOORBELL (R79): a write of a CQ doorbell accepts a new head or sets ERR. -/
  | cqDoorbell (n : Fin 64) (v : Word)
  /-- SQ_CFG_WRITE (R71): a write of SQ_CFG enables, disables or binds an SQ under its rules. -/
  | sqCfgWrite (n : Fin 64) (v : Word)
  /-- CQ_CFG_WRITE (R75): a write of CQ_CFG enables a CQ or is refused with BUSY. -/
  | cqCfgWrite (n : Fin 64) (v : Word)
  /-- DESCRIPTOR_FETCH (R85): a gather engine fetches descriptors from an SQ with a free CQ entry and checks them. -/
  | descriptorFetch (read : FetchRead)
  /-- DESCRIPTOR_DISPATCH (R115): a checked descriptor whose wait is satisfied is dispatched to its unit. -/
  | descriptorDispatch (sq : Fin 64) (seq : BitVec 16)
  /-- RECORD_WRITE (R88): a queued completion record is written to its CQ. -/
  | recordWrite
  /-- CQ_MODERATION_TIMEOUT (R102): CQ_MOD.TIME passes since the first unsignalled record and the message is sent. -/
  | cqModerationTimeout (n : Fin 64)
  /-- MSIX_UNMASK (R104): an unmasked vector with a set PBA bit sends its one message. -/
  | msixUnmask (v : Fin 128)
  /-- RING_ABORT (R98): a write of RING_ABORT latches an abort for one SEQ of an SQ. -/
  | ringAbort (n : Fin 64) (seq : BitVec 16)
  /-- RING_ABORT_ALL (R100): a write of RING_ABORT with ALL = 1 aborts every unwritten descriptor and disables the SQ. -/
  | ringAbortAll (n : Fin 64)
  /-- DESCRIPTOR_TIMEOUT (R96): a descriptor deadline expires with no retry episode and acts as an abort with TIMEOUT. -/
  | descriptorTimeout (sq : Fin 64) (seq : BitVec 16)
  /-- LINK_DOWN (R69): the PCI Express link goes down or bus mastering is cleared, stopping fetch and record writes. -/
  | linkDown (cause : LinkLoss)
  /-- LINK_UP (R91): the link returns and fetch resumes at the ring heads. -/
  | linkUp (how : LinkGain)
  /-- D3HOT_ENTRY (R68): the function enters D3hot, stopping fetch, record writes and MSI-X messages. -/
  | d3hotEntry
  /-- D0_RETURN (R68): the function returns to D0 and fetch resumes. -/
  | d0Return
  /-- BAR4_ACCESS (R67): a BAR4 access reaches marver SRAM or the LPDDR5X window, or is blocked. -/
  | bar4Access (off : BitVec 26) (op : Bar4Op) (ecc : Ecc)
  /-- WIDE_LOW_WORD_READ (R8): a read of the low word of a wide counter latches its high word; it stands for every register read that
    has no row of its own. -/
  | wideLowWordRead (at_ : HostReg) (two : Bool)
  /-- MRV_IRQ_SRC_READ (R530): a read of MRV_IRQ_SRC returns and clears it. -/
  | mrvIrqSrcRead
  /-- REGISTER_WRITE (R24): a write of a register that has no row of its own takes effect per its access code. -/
  | registerWrite (at_ : HostReg) (words : List (BitVec 4 × Word))
  /-- MOTION (R236): a MOTION descriptor is checked and queues a setpoint for its slot. -/
  | motion (sq : Fin 64) (seq : BitVec 16)
  /-- INFER (R170): an INFER descriptor selects a placement and starts a stream job. -/
  | infer (sq : Fin 64) (seq : BitVec 16) (input : HostRead)
  /-- LOAD_PLAN (R502): a LOAD with TARGET 0x00 or 0x01 checks and places a tick plan in a bank. -/
  | loadPlan (sq : Fin 64) (seq : BitVec 16) (image : HostRead)
  /-- LOAD_PARISON (R166): a LOAD with TARGET 0x02 checks a parison and makes it resident in a slot. -/
  | loadParison (sq : Fin 64) (seq : BitVec 16) (image : HostRead)
  /-- UNLOAD_SLOT (R167): a LOAD with TARGET 0x03 invalidates a slot and frees its regions. -/
  | unloadSlot (sq : Fin 64) (seq : BitVec 16)
  /-- SIGNATURE_VERIFY (R500): the signature engine verifies the next waiting image against its key-hash slot. -/
  | signatureVerify (second : HostRead)
  /-- AUDIO_CAPTURE (R347): a capture AUDIO descriptor takes staged frames of a capture stream into memory. -/
  | audioCapture (sq : Fin 64) (seq : BitVec 16)
  /-- AUDIO_PLAYBACK (R348): a playback AUDIO descriptor feeds frames to a MEM source. -/
  | audioPlayback (sq : Fin 64) (seq : BitVec 16) (input : HostRead) (late : List Nat)
  /-- VISION (R363): a VISION descriptor is checked and queues a chain of engines. -/
  | vision (sq : Fin 64) (seq : BitVec 16) (param : HostRead)
  /-- TWB_WRITE (R401): a TWB descriptor with OP WRITE writes bytes to a target. -/
  | twbWrite (sq : Fin 64) (seq : BitVec 16) (input : HostRead)
  /-- TWB_READ (R401): a TWB descriptor with OP READ reads bytes from a target. -/
  | twbRead (sq : Fin 64) (seq : BitVec 16)
  /-- TWB_WRITE_READ (R401): a TWB descriptor with OP WRITE_READ writes, repeats START and reads. -/
  | twbWriteRead (sq : Fin 64) (seq : BitVec 16) (input : HostRead)
  /-- SIGNAL (R122): a SIGNAL descriptor with OP SIGNAL signals its fence and optionally writes back VALUE. -/
  | signal (sq : Fin 64) (seq : BitVec 16)
  /-- UNPOISON (R124): a SIGNAL descriptor with OP UNPOISON signals its fence and clears POISONED. -/
  | unpoison (sq : Fin 64) (seq : BitVec 16)
  /-- WAIT (R120): a WAIT descriptor waits on up to four fence entries in ALL or ANY mode. -/
  | wait (sq : Fin 64) (seq : BitVec 16)
  /-- CFG (R532): a CFG descriptor reads and checks its list and stages a batch for its tick. -/
  | cfg (sq : Fin 64) (seq : BitVec 16) (list : HostRead)
  /-- COPY (R514): a LOG descriptor with OP COPY copies unconsumed log entries to host memory. -/
  | copy (sq : Fin 64) (seq : BitVec 16)
  /-- MARK (R515): a LOG descriptor with OP MARK appends a MARK record with host bytes. -/
  | mark (sq : Fin 64) (seq : BitVec 16)
  /-- SETUP_WAIT (R381): a USB descriptor with OP SETUP_WAIT waits to take a forwarded request or notice. -/
  | setupWait (sq : Fin 64) (seq : BitVec 16)
  /-- ANSWER (R382): a USB descriptor with OP ANSWER answers the pending control request by tag. -/
  | answer (sq : Fin 64) (seq : BitVec 16) (input : HostRead)
  /-- BULK_RX (R385): a USB descriptor with OP BULK_RX receives from EP3 OUT. -/
  | bulkRx (sq : Fin 64) (seq : BitVec 16)
  /-- BULK_TX (R385): a USB descriptor with OP BULK_TX sends on EP3 IN. -/
  | bulkTx (sq : Fin 64) (seq : BitVec 16) (input : HostRead)
  /-- SLEEP_PROPOSE (R434): a CASC descriptor proposes a ring-wide sleep at a commit tick. -/
  | sleepPropose (sq : Fin 64) (seq : BitVec 16)
  /-- RELEASE (R434): a CASC descriptor clears the RESERVED bit of a device. -/
  | release (sq : Fin 64) (seq : BitVec 16)
  /-- REHEAT (R177): a REHEAT descriptor starts scrub, reload and rejoin of a fenced marver. -/
  | reheat (sq : Fin 64) (seq : BitVec 16) (img0 img1 : HostRead)
  /-- REHEAT_SCRUB_DONE (R178): the SCRUB phase of a reheat ends and RELOAD begins, or the reheat fails. -/
  | reheatScrubDone (m : Fin 16) (fail : Option (BitVec 18))
  /-- REHEAT_RELOAD_DONE (R178): the RELOAD phase ends and the marver waits for a switch edge. -/
  | reheatReloadDone (m : Fin 16)
  /-- START (R253): a START descriptor is checked and puts a stopped slot into CATCH. -/
  | start (sq : Fin 64) (seq : BitVec 16)
  /-- STOP (R256): a STOP descriptor requests TORQUE_OFF or RAMP on its listed axes. -/
  | stop (sq : Fin 64) (seq : BitVec 16)
  /-- FEN_HSIG_SIGNAL (R111): a write of FEN_HSIG_CMD with SIGNAL signals a fence with FEN_HSIG. -/
  | fenHsigSignal (v : Word)
  /-- FEN_HSIG_UNPOISON (R124): a write of FEN_HSIG_CMD with UNPOISON signals a fence and clears POISONED. -/
  | fenHsigUnpoison (v : Word)
  /-- FEN_HSIG_POISON (R123): a write of FEN_HSIG_CMD with POISON poisons a fence. -/
  | fenHsigPoison (v : Word)
  /-- FEN_WATCH_WRITE (R130): a write of a watch's control word or THRESH re-evaluates the watch. -/
  | fenWatchWrite (w : Fin 16) (part : WatchWord) (v : Word)
  /-- FEN_EVT_ENABLE (R125): enabling an event binding sets its event count to 0. -/
  | fenEvtEnable (k : Fin 32) (v : Word)
  /-- FEN_STALE_CLR (R110): a write of FEN_STALE.CLR sets the stale count to 0. -/
  | fenStaleClr
  /-- MRV_DVFS_WRITE (R156): a write of MRV_DVFS requests a new point, starts a ramp, or is ignored. -/
  | mrvDvfsWrite (m : Fin 16) (v : Word)
  /-- DVFS_RAMP_DONE (R156): a voltage ramp to a higher point completes. -/
  | dvfsRampDone (m : Fin 16)
  /-- MRV_FENCE_CMD (R175): a write of MRV_FENCE.CMD asks to fence a marver at the next tick edge. -/
  | mrvFenceCmd (m : Fin 16)
  /-- SRAM_UNCORRECTABLE (R150): a marver SRAM read finds an uncorrectable error, stopping and fencing the marver. -/
  | sramUncorrectable (m : Fin 16) (w : BitVec 18)
  /-- SRAM_SCRUB (R151): the scrubber reads the next SRAM line of a marver in an idle bank cycle. -/
  | sramScrub (m : Fin 16) (found : Ecc)
  /-- MRV_COUNTER_CLR (R159): a write of the per-marver CLR clears its counters. -/
  | mrvCounterClr (m : Fin 16)
  /-- PWM_EVENT (R274): a PWM event source occurs and its prescaled output fires to ADC, gaffer and host. -/
  | pwmEvent (m : Fin 7) (v : Fin 6)
  /-- SAR_LATCH (R199): a sample set latches 39 cycles after its trigger and the sample registers update; `volts`
  are the differential voltages of IA, IB, IC, VDC, VA, VB, VC at the trigger, in nV (R185). -/
  | sarLatch (n : Fin 6) (volts : Vector Int 7)
  /-- SINCOS_LATCH (R188): a SIN/COS pair latches 99 cycles after its trigger; the voltages are in nV. -/
  | sincosLatch (n : Fin 6) (sin cos : Int)
  /-- REFERENCE_READY (R208): the reference estimators of a set are ready and outputs may commit. -/
  | referenceReady (n : Fin 6)
  /-- OBS_RECOMPUTE_DONE (R212): a recompute run completes and the affected outputs commit. -/
  | obsRecomputeDone (i : Fin 64)
  /-- OBS_TSLOW_WRITE (R206): a write of OBS_TSLOW.T sets the slow temperature and resets AGE. -/
  | obsTslowWrite (n : Fin 6) (v : Word)
  /-- OBS_THLOAD (R221): a write of OBS_CTRL.THLOAD loads the thermal state at the next tick edge. -/
  | obsThload (n : Fin 6)
  /-- OBS_CTRL_CLR (R230): a write of OBS_CTRL.CLR clears the counters of the axis. -/
  | obsCtrlClr (n : Fin 6)
  /-- QUAD_EDGE (R190): an accepted edge of QA or QB changes QPOS; `na` and `nb` are for how many TCLK cycles in a row the
  pins have stood at these levels. -/
  | quadEdge (n : Fin 6) (a b : Bool) (na nb : Nat)
  /-- QZ_INDEX (R191): an accepted rising edge of QZ captures QPOS and optionally clears it; `na`, `nb`, `nz` as for
  QUAD_EDGE. -/
  | qzIndex (n : Fin 6) (a b : Bool) (na nb nz : Nat)
  /-- MOD_DECIMATION (R192): a modulator filter reaches a decimation boundary and delivers an output; `edges` are the
  clock edges since the last command, the last of them in this cycle. -/
  | modDecimation (k : Fin 4) (edges : List ModEdge)
  /-- MOD_CLOCK_LOST (R195): no modulator sampling edge for 4 x MEXP cycles marks the input INVALID. -/
  | modClockLost (k : Fin 4)
  /-- MOD_GLITCH (R195): a modulator clock interval shorter than MEXP / 2 is discarded. -/
  | modGlitch (k : Fin 4) (edge : ModEdge)
  /-- MOD_RATE_CHANGE (R195): eight out-of-tolerance modulator intervals mark the input INVALID. -/
  | modRateChange (k : Fin 4) (edge : ModEdge)
  /-- MOD_CFG_WRITE (R193): a write of MOD_CFG routes, restarts or reconfigures a modulator input. -/
  | modCfgWrite (k : Fin 4) (v : Word)
  /-- SNS_CNT_CLR (R201): a write of the SNS or MOD counter CLR clears those counters. -/
  | snsCntClr (which : SnsCounter)
  /-- TRIP (R272): a comparator trip input goes high, disabling PWMAn and setting its latch; `volts` are the
  differential voltages at the comparators of IA, IB, IC, VDC, in nV (R196). -/
  | trip (n : Fin 6) (volts : Vector Int 4)
  /-- TRIP_THRESHOLD_WRITE (R197): a write of SNS_TRIPOC or SNS_TRIPOV stores TH, clamped to its fuse ceiling. -/
  | tripThresholdWrite (n : Fin 6) (bus : Bool) (v : Word)
  /-- TRIP_LATCH_CLEAR (R273): a write of 1 to PWM_TRIP.LATCH clears it when the comparator is low. -/
  | tripLatchClear (m : Fin 7) (v : Word)
  /-- PWM_COUNTER_ZERO (R266): a PWM counter reaches zero, starting a lap and loading shadows and compares. -/
  | pwmCounterZero (m : Fin 7)
  /-- PWM_PERIOD_WRITE (R261): a write of PWM_PERIOD loads the period shadow, or loads it at once in IMMEDIATE mode. -/
  | pwmPeriodWrite (m : Fin 7) (v : Word)
  /-- PWM_CFG_WRITE (R265): a write of PWM_CFG sets modes and, setting CEN, makes the next cycle a counter zero. -/
  | pwmCfgWrite (m : Fin 7) (v : Word)
  /-- PWM_EVC_WRITE (R267): a write of an event compare takes effect at a counter zero or at once. -/
  | pwmEvcWrite (m : Fin 7) (e : Fin 4) (v : Word)
  /-- PWM_EVOUT_WRITE (R275): a write of PWM_EVOUT sets routing and restarts the prescaler count. -/
  | pwmEvoutWrite (m : Fin 7) (e : Fin 6) (v : Word)
  /-- PWM_DT_WRITE (R269): a write of PWM_DT stores the dead time, raised to the fuse floor. -/
  | pwmDtWrite (m : Fin 7) (v : Word)
  /-- CTL_DMAX_WRITE (R243): a write of CTL_DMAX stores the duty ceiling, lowered to the fuse maximum. -/
  | ctlDmaxWrite (n : Fin 6) (v : Word)
  /-- PWM_DISABLE_CMD (R271): a write of PWM_CTRL.DIS disables the module. -/
  | pwmDisableCmd (m : Fin 7)
  /-- PWM_CNT_CLR (R279): a write of the PWM counter CLR clears PWM_CNT. -/
  | pwmCntClr (m : Fin 7)
  /-- CTL_CNT_CLR (R259): a write of the CTL counter CLR clears CTL_CNT. -/
  | ctlCntClr (n : Fin 6)
  /-- VLV_SAMPLE_BOUNDARY (R281): all valve sense inputs convert and each channel state machine steps; `volts` are
  the shunt voltages in nV. -/
  | vlvSampleBoundary (volts : Vector Int 8)
  /-- VLV_ON (R282): a write of VLV_CMD.ON requests a peak at the next sample boundary. -/
  | vlvOn (c : Fin 8)
  /-- VLV_OFF (R282): a write of VLV_CMD.OFF turns a channel off or withdraws a deferral. -/
  | vlvOff (c : Fin 8)
  /-- VLV_LEVELS_WRITE (R288): a write of VLV_LEVELS stores IPEAK, clamped to FPEAK. -/
  | vlvLevelsWrite (c : Fin 8) (v : Word)
  /-- VLV_CNT_CLR (R292): a write of the valve counter CLR clears VLV_CNT. -/
  | vlvCntClr (c : Fin 8)
  /-- TMR_GSTART (R298): a write of TMR_GSTART names a release cycle and arms the named channels. -/
  | tmrGstart (v : Word)
  /-- TMR_GSTART_CANCEL (R298): a write of TMR_GSTART with CANCEL withdraws the pending release. -/
  | tmrGstartCancel (v : Word)
  /-- TIMER_RELEASE (R298): in the release cycle every ARMED channel resets and enters RUNNING. -/
  | timerRelease
  /-- TMR_STOP (R299): a write of TMR_CTRL.STOP puts a channel in IDLE. -/
  | tmrStop (k : Fin 16)
  /-- TMR_CNT_CLR (R312): a write of TMR_CTRL.CLR clears TMR_CNT. -/
  | tmrCntClr (k : Fin 16)
  /-- TIMER_COUNT_TICK (R301): the prescaler emits a count tick and the counter advances, wraps or ends. -/
  | timerCountTick (k : Fin 16) (edges : Nat)
  /-- TMR_LOW_WORD_WRITE (R303): a low-word write of a 48-bit TMR register stages that word. -/
  | tmrLowWordWrite (k : Fin 16) (r : TmrWide) (v : Word)
  /-- TMR_HIGH_WORD_COMMIT (R303): a high-word write commits a 48-bit TMR register with its staged low word. -/
  | tmrHighWordCommit (k : Fin 16) (r : TmrWide) (v : Word)
  /-- TIMER_CAPTURE (R305): an accepted capture-pin edge copies COUNT into CAPR or CAPF. -/
  | timerCapture (pin : Fin 8) (rising : Bool)
  /-- TMR_CAPTURE_READ (R306): a read of a capture's low word clears its FRESH bit. -/
  | tmrCaptureRead (k : Fin 16) (falling : Bool)
  /-- TIMER_RESUME (R308): at the resume edge each FREEZE_CATCHUP channel adds its catch-up ticks. -/
  | timerResume (e : Nat)
  /-- TIMER_SLOWRUN_STEP (R309): during a suspension a SLOWRUN channel adds one SCLK period of ticks. -/
  | timerSlowrunStep
  /-- AUD_GAIN_WRITE (R319): a write of a GAIN, VOL or MUTE takes effect at the next internal sample. -/
  | audGainWrite (r : AudReg) (v : Word)
  /-- AUD_OUTPUT_ENABLE (R320): a write of EN = 1 to an output starts its start-up or ramp up. -/
  | audOutputEnable (o : AudOutput) (v : Word)
  /-- AUD_OUTPUT_DISABLE (R320): a write of EN = 0 to an output starts its ramp down. -/
  | audOutputDisable (o : AudOutput) (v : Word)
  /-- AUD_STARTUP_DONE (R320): the 1.0 ms output start-up ends and RAMP_UP begins. -/
  | audStartupDone (o : AudOutput)
  /-- AUD_RAMP_STEP (R320): every RAMP / 64 the ramp attenuation moves by 1.125 dB. -/
  | audRampStep (o : AudOutput)
  /-- AUD_PROTECTION_FAULT (R322): an output protection fault stops its output without a ramp. -/
  | audProtectionFault (f : AudFault)
  /-- AUD_PROT_CLEAR (R322): a write of 1 to an AUD_PROT latch clears it when the fault is absent. -/
  | audProtClear (v : Word) (present : BitVec 4)
  /-- JACK_SAMPLE (R324): every 32 SCLK periods the jack detector measures the jack. -/
  | jackSample (jdet : Bool) (volts : Int)
  /-- MIX_SAMPLE_INSTANT (R334): at a sample instant of a domain each sink forms its sample. -/
  | mixSampleInstant (dom : MixDom) (pins : Vector Int 12) (sdi : Vector (List Bool) 2)
  /-- MIX_NODE_WRITE (R338): a write of a node code changes a gain and allocates or frees bridge channels. -/
  | mixNodeWrite (k : Fin 20) (j : Fin 24) (v : Word)
  /-- MIX_CTRL_WRITE (R339): a write of MIX_CTRL sets mode, rate and domain port while disabled. -/
  | mixCtrlWrite (v : Word)
  /-- BRIDGE_LOCK (R338): a newly allocated bridge channel or edge converter locks. -/
  | bridgeLock (c : MixConv)
  /-- FEAT_FRAME_COMPLETE (R343): an NPUFEAT frame completes and is written to MIX_FEATBUF. -/
  | featFrameComplete
  /-- SELF_HANDOFF (R345): without an AUDIO action the mixer hands off at every DTIME multiple of 6144. -/
  | selfHandoff
  /-- MIX_METCLR (R344): a write of MIX_METCLR sets PEAK of the named sinks to 0. -/
  | mixMetclr (v : Word)
  /-- MIX_CAPDROP_CLR (R355): a write of the MIX counter CLR clears MIX_CAPDROP and HOCNT.DROPS. -/
  | mixCapdropClr
  /-- SP_CFG_WRITE (R337): a write of SP_CFG enables a serial port or is refused with CFGERR. -/
  | spCfgWrite (p : Fin 2) (v : Word)
  /-- SP_LOCK (R351): a target port reports LOCKED after 8 consistent frames. -/
  | spLock (p : Fin 2) (periods : Vector (BitVec 16) 8)
  /-- SP_CLK_LOST (R353): a locked target port sees no frame start in time and loses its clock. -/
  | spClkLost (p : Fin 2)
  /-- SP_GLITCH (R353): a frame start after a wrong BCLK count loses the frame in progress. -/
  | spGlitch (p : Fin 2) (bclks : Nat)
  /-- SP_RATE_CHANGE (R353): eight frames off FPER make the port relock at a new rate. -/
  | spRateChange (p : Fin 2) (periods : Vector (BitVec 16) 8)
  /-- SP_CNT_CLR (R355): a write of the serial-port CLR clears SP_CNT and SP_CNT2. -/
  | spCntClr (p : Fin 2)
  /-- FRAME_START (R359): a CSI-2 Frame Start opens a frame in the next capture slot. -/
  | frameStart (vc : BitVec 2)
  /-- FRAME_END (R359): a CSI-2 Frame End closes the frame, sets VALID and updates VIS_FCNT. -/
  | frameEnd (vc : BitVec 2)
  /-- CSI_LINE (R357): a long packet of the configured type is stored as a line of the open frame. -/
  | csiLine (pkt : CsiLong)
  /-- FRAME_TIMEOUT (R360): no Frame End within FTMO ms closes the frame. -/
  | frameTimeout
  /-- VIS_CAP_WRITE (R360): a write of VIS_CAP enables capture or abandons the open frame. -/
  | visCapWrite (v : Word)
  /-- VISION_ENGINE_DONE (R364): a vision engine writes its last output and the next engine of the chain starts. -/
  | visionEngineDone (input : HostRead)
  /-- VIS_CNT_CLR (R374): a write of VIS_CNT CLR clears the vision counters. -/
  | visCntClr
  /-- USB_CONNECT (R378): a write of USB_CTRL.CONNECT = 1 turns the pull-up on, or is refused. -/
  | usbConnect (v : Word)
  /-- USB_DISCONNECT (R378): a write of CONNECT = 0 turns the pull-up off. -/
  | usbDisconnect (v : Word)
  /-- USB_RWAKE (R391): a write of RWAKE drives resume signalling while suspended with wakeup enabled. -/
  | usbRwake (v : Word)
  /-- SETUP_PACKET (R379): a SETUP is answered by hardware, stalled or forwarded with a new tag. -/
  | setupPacket (setup : Vector Byte 8)
  /-- SETUP_OUT_DATA (R381): the OUT data stage of a forwarded request arrives in the SETUP_WAIT buffer. -/
  | setupOutData (data : List Byte)
  /-- USB_BUS_RESET (R383): a bus reset cancels a pending request and ends partial bulk transfers. -/
  | usbBusReset (hs : Bool)
  /-- SOF (R390): a received SOF updates the frame number, SOFCNT, stamp and feedback value. -/
  | sof (frame : BitVec 11) (uframe : BitVec 3)
  /-- USB_SUSPEND (R391): 3 ms of bus idle put the port in suspend. -/
  | usbSuspend
  /-- USB_RESUME (R391): the USB host resumes the bus and SUSPENDED clears. -/
  | usbResume
  /-- BULK_OUT_PACKET (R385): a bulk OUT packet fills the waiting BULK_RX buffer. -/
  | bulkOutPacket (data : List Byte)
  /-- BULK_IN_ACK (R385): a bulk IN packet is acknowledged and BULK_TX continues or completes. -/
  | bulkInAck
  /-- ISO_OUT_PACKET (R388): a playback packet feeds USBP sources for one microframe. -/
  | isoOutPacket (data : Option (List Byte))
  /-- ISO_IN_PACKET (R388): a record packet carries the D1 frames of the previous microframe. -/
  | isoInPacket
  /-- FEEDBACK_POLL (R389): an EP1 IN poll returns the latest feedback value. -/
  | feedbackPoll
  /-- USB_CNT_CLR (R393): a write of USB_CNT CLR clears the USB counters. -/
  | usbCntClr
  /-- TWB_TRANSFER_START (R401): on a free bus the port sends START and begins its next transfer or retry. -/
  | twbTransferStart (p : Fin 2)
  /-- TWB_TRANSFER_DONE (R402): a transfer ends with STOP or an error and its descriptor completes. -/
  | twbTransferDone (p : Fin 2) (end_ : TwbEnd)
  /-- ARBITRATION_LOST (R405): the controller samples SDA low where it released it and lets go of the bus. -/
  | arbitrationLost (p : Fin 2) (where_ : TwbLoss)
  /-- BUS_START (R396): a START condition makes the bus busy. -/
  | busStart (p : Fin 2)
  /-- BUS_STOP (R396): a STOP condition ends the busy state. -/
  | busStop (p : Fin 2)
  /-- TWB_BUS_FREE (R396): both lines high for LOW cycles make the bus free. -/
  | twbBusFree (p : Fin 2)
  /-- TWB_TARGET_ADDRESSED (R407): an address matching TADDR is acknowledged and the target serves the transfer. -/
  | twbTargetAddressed (p : Fin 2) (address : BitVec 7) (read : Bool)
  /-- TWB_TARGET_WRITE (R408): the end of a write to the target stores its bytes in TWB_TREG. -/
  | twbTargetWrite (p : Fin 2) (bytes : List Byte)
  /-- TWB_TARGET_READ (R409): a read from the target ends at the controller's not-acknowledge. -/
  | twbTargetRead (p : Fin 2) (n : BitVec 16)
  /-- TWB_STRETCH_TIMEOUT (R410): a target clock stretch reaches TSTRETCH and the transfer proceeds. -/
  | twbStretchTimeout (p : Fin 2)
  /-- TWB_TREG_WRITE (R411): a host write of TWB_TREG updates the register and ends a read stretch. -/
  | twbTregWrite (p : Fin 2) (v : Word)
  /-- TWB_TSTAT_CLEAR (R410): clearing TWB_TSTAT.WRITTEN ends a write stretch. -/
  | twbTstatClear (p : Fin 2) (v : Word)
  /-- TWB_ATT_REQUEST (R412): a write of TWB_TCTL.ATT sets ATT_PEND for an attention pulse. -/
  | twbAttRequest (p : Fin 2)
  /-- TWB_ATT_PULSE_DONE (R412): the 8 µs attention pulse ends and ATT_DONE is set. -/
  | twbAttPulseDone (p : Fin 2) (collided : Bool)
  /-- TWB_ATTN_SEEN (R413): the port recognises another device's attention request. -/
  | twbAttnSeen (p : Fin 2) (ns : Nat)
  /-- BUS_STUCK (R414): a line held low for STUCK ms makes the port report BUS_STUCK. -/
  | busStuck (p : Fin 2) (scl : Bool) (n : BitVec 16) (ms : Nat)
  /-- TWB_CFG_WRITE (R415): a write of TWB_CFG enables the port, or with EN = 0 releases its pins. -/
  | twbCfgWrite (p : Fin 2) (v : Word)
  /-- TWB_SCL_WRITE (R398): a write of TWB_SCL stores LOW and HIGH raised to the mode minimums. -/
  | twbSclWrite (p : Fin 2) (v : Word)
  /-- TWB_CNT_CLR (R417): a write of TWB_CNT CLR clears the port counters. -/
  | twbCntClr (p : Fin 2)
  /-- BEACON_RECEIVE (R422): a slave receives a beacon and corrects its tick prediction and TICKNO. -/
  | beaconReceive (frame : List Byte) (age : BitVec 16)
  /-- BEACON_MISSED (R424): a predicted beacon is missing or bad; after four the slave loses lock. -/
  | beaconMissed
  /-- FRAME_TRANSMIT (R420): a forwarded or own frame leaves the TX port when the port is free. -/
  | frameTransmit
  /-- SLOT_RECEIVE (R429): a partner slot with a good CRC updates fences, peer values and the receive ring. -/
  | slotReceive (frame : List Byte)
  /-- SLOT_RETURN (R428): the originator's own slot returns; a bad CRC leads to a retransmit if slack allows. -/
  | slotReturn (frame : List Byte)
  /-- JOIN_RECEIVE (R432): the master receives a JOIN frame from a SYNCED device. -/
  | joinReceive (frame : List Byte)
  /-- PEER_LINK_LOST (R430): a partner misses MISSLIM ticks and is declared LINK_LOST. -/
  | peerLinkLost (d : Fin 8)
  /-- RX_LOSS (R443): symbol lock is lost on a Vexiq lane. -/
  | rxLoss
  /-- VXL_WAKE (R438): a write of VXL_WAKE.REQ drives the WAKE pin low for 20 µs. -/
  | vxlWake
  /-- WAKE_PIN_LOW (R438): a device sees WAKE low for 1 µs and sets WAKE_LATCH. -/
  | wakePinLow (low more : BitVec 32)
  /-- SLEEP_WAKE (R439): at its wake instant a device relocks and waits to resume ticks. -/
  | sleepWake
  /-- KEPT_TICK_EDGE (R437): during sleep TICKNO increments at each kept tick edge, and a waking device resumes there. -/
  | keptTickEdge
  /-- ACQUIRE_TIMEOUT (R441): no beacon within 4096 ticks in ACQUIRE reports LINK_LOST. -/
  | acquireTimeout
  /-- VXL_CNT_CLR (R443): a write of VXL_CNT CLR clears the link counters. -/
  | vxlCntClr
  /-- MEM_TRAINING_DONE (R446): LPDDR5X training ends with READY or TRAIN_ERR. -/
  | memTrainingDone (r : Training)
  /-- MEM_RETRAIN (R448): a write of MEM_CTRL.RETRAIN clears READY and retrains. -/
  | memRetrain
  /-- MEM_REINIT (R457): a write of MEM_CTRL.REINIT applies IECC and zeroes the memory. -/
  | memReinit (iecc : Bool)
  /-- MEM_REINIT_DONE (R457): initialisation ends, IECC_ON and USABLE update and READY sets. -/
  | memReinitDone
  /-- MEM_READ_RETRY (R458): an uncorrectable read starts a retry episode that ends in data or MEMORY_ECC. -/
  | memReadRetry (who : Reader) (address : BitVec 34) (found : Ecc)
  /-- MEM_SCRUB_READ (R459): the memory scrubber reads the next address at the lowest class. -/
  | memScrubRead (found : Ecc)
  /-- MEM_TEMP_HIGH (R453): the package reports above 85 °C and refresh doubles. -/
  | memTempHigh (code : BitVec 3)
  /-- MEM_CNT_CLR (R462): a write of MEM_CNT CLR clears the memory counters. -/
  | memCntClr
  /-- PWR_CMD_RUN (R465): PWR_CMD TARGET RUN requests a return to RUN. -/
  | pwrCmdRun
  /-- PWR_CMD_IDLE (R465): PWR_CMD TARGET IDLE requests IDLE, or leaves SLEEP for IDLE. -/
  | pwrCmdIdle
  /-- PWR_CMD_SLEEP (R466): PWR_CMD TARGET SLEEP requests SLEEP, or is refused. -/
  | pwrCmdSleep
  /-- PWR_CMD_STANDBY (R465): PWR_CMD TARGET STANDBY requests STANDBY from IDLE. -/
  | pwrCmdStandby
  /-- PWR_CMD_OFF (R469): PWR_CMD TARGET OFF saves to the lehr and powers down. -/
  | pwrCmdOff
  /-- PWR_TRANSITION_DONE (R465): a power-state transition reaches its new state and DONE is set. -/
  | pwrTransitionDone
  /-- PWR_CTRL_WARM (R473): a write of PWR_CTRL.WARM causes a warm reset. -/
  | pwrCtrlWarm
  /-- WARM_RESET (R473): a hot reset, FLR, soft write, fabric PLL loss or XTAL loss resets the device warm. -/
  | warmReset (cause : WarmCause)
  /-- COLD_RESET (R472): supplies becoming valid, PERST# or the sag hold cause a cold reset. -/
  | coldReset (cause : ColdCause)
  /-- COLD_RESET_RELEASE (R472): the release conditions hold and cold reset is released. -/
  | coldResetRelease (strap : Fin 8) (vin vhold : BitVec 10)
  /-- SUPPLY_INVALID (R539): a core, analog or I/O supply falls below its valid threshold for 1 µs; VDDIO33 is still valid, or
not. -/
  | supplyInvalid (vddio : Bool)
  /-- FUNCTION_READY (R476): a function's READY bit sets after reset. -/
  | functionReady (bit : Fin 20)
  /-- PWR_FRST (R474): a write of PWR_FRST resets the named functions. -/
  | pwrFrst (v : Word)
  /-- FRST_DONE (R474): a reset function's READY bit sets again. -/
  | frstDone (bit : Fin 20)
  /-- PLL_LOCK_LOST (R471): a PLL or the crystal loses lock and its stated reaction follows. -/
  | pllLockLost (p : Pll)
  /-- VIN_SAG (R477): VIN below VSAG for 1 µs disables the outputs, freezes a snapshot and starts the save. -/
  | vinSag
  /-- LEHR_SAVE_DONE (R478): the lehr image is written and the device is held in reset. -/
  | lehrSaveDone (cut : Option Nat)
  /-- VIN_WARN (R478): VIN falls below PWR_VWARN and VWARN is set. -/
  | vinWarn (vin : BitVec 10)
  /-- HOLD_LOW (R482): VHOLD falls below 11.0 V and HOLD_OK clears. -/
  | holdLow (vhold : BitVec 10)
  /-- LEHR_ERASE (R480): a write of LEHR_CTRL with ERASE and the key zeroes both CRC words. -/
  | lehrErase (key : BitVec 16)
  /-- FUSE_SHADOW_WRITE (R491): a write of an RWL fuse shadow before the lock changes the protection in effect. -/
  | fuseShadowWrite (r : FuseShadow) (v : Word)
  /-- FUSE_PROGRAM (R496): a write of FUS_PCMD with GO starts a program operation or is refused. -/
  | fuseProgram (key : BitVec 16) (vprog : Bool)
  /-- FUSE_PROGRAM_DONE (R497): a program operation completes and FUS_RAW of the word is updated. -/
  | fuseProgramDone (r : Programmed)
  /-- FUS_SIGCNT_CLR (R505): a write of FUS_SIGCNT CLR clears the signature counters. -/
  | fusSigcntClr
  /-- HALTREQ (R521): the JTAG instruction HALTREQ asks for a debug halt. -/
  | haltreq
  /-- HALTREL (R523): the JTAG instruction HALTREL releases a debug halt. -/
  | haltrel
  /-- LOG_APPEND (R510): a queued telemetry record is appended to the event log. -/
  | logAppend
  /-- MIRROR_WRITE (R516): an appended record is written to the host mirror ring. -/
  | mirrorWrite
  /-- LOG_RIDX_WRITE (R511): a write of LOG_RIDX consumes log entries. -/
  | logRidxWrite (v : Word)
  /-- LOG_MHEAD_WRITE (R525): a write of LOG_MHEAD reports mirror consumption. -/
  | logMheadWrite (v : Word)
  /-- LOG_MCFG_WRITE (R516): a write of LOG_MCFG enables the mirror, or clearing EN drops unwritten records. -/
  | logMcfgWrite (v : Word)
  /-- LOG_CNT_CLR (R525): a write of the LOG CLR clears the loss and retry counters. -/
  | logCntClr
  /-- PLL_LOCK_ACQUIRED (R471): a PLL reaches lock, or the crystal has run 2 ms after returning; for the tick PLL
    GAF_STATUS.LOCKED returns to 1, and after XTAL loss the held warm reset ends. -/
  | pllLockAcquired (p : Pll)
  /-- PCIE_RETRIES_EXHAUSTED (R94): a PCI Express retry episode passes its 200 µs allowance, and a descriptor that needs host
    memory completes with LINK_LOST. -/
  | pcieRetriesExhausted (sq : Fin 64) (seq : BitVec 16)
  /-- MOD_CLOCK_RECOVERY (R195): a modulator sampling edge after a clock loss, or the eighth in-tolerance interval after a rate
    change, restarts the filter and puts STATE in SETTLING. -/
  | modClockRecovery (k : Fin 4) (edge : ModEdge)
  /-- RX_LOCK (R443): both lanes of the Vexiq RX port regain symbol lock and VXL_STATUS.RXLOCK becomes 1. -/
  | rxLock
  /-- STATUS_STAGE (R379): the USB host completes the data or status stage of an EP0 control transfer; SET_ADDRESS then takes
    effect, a test mode is entered, or an answered request finishes. -/
  | statusStage
  /-- BOUNDARY_SCAN_INSTRUCTION (R494): an IEEE 1149.1 instruction such as EXTEST or CLAMP is loaded, and the PWM, VLVG and HSWG
    pins follow their scan cells or hold their disable levels, depending on PROT_LOCKED. -/
  | boundaryScanInstruction (i : ScanInstr) (cells : Vector Bool 48)
deriving DecidableEq, Repr

end Sys2Proof
end

