-- ==== Sys2Proof/Decode.lean ====
section
/-!
DEFINITION. The commands of the block come from outside and are no words of a program: no row of spec/opcode_table.json gives bits.
The layouts that the spec does give bits (descriptors, plan images, register words) are read where they are used: Machine/Ops.lean,
Machine/Payload.lean, Machine/Plan.lean, Machine/Regs.lean.
-/
namespace Sys2Proof

/-- The command that a word of the opcode table's bits spells: none, since no row gives bits. -/
def decodeTableWord (_nbits _w : Nat) : Option Instr := none

end Sys2Proof
end

