-- ==== Sys2Proof/Config.lean ====
section
/-!
DEFINITION. What the spec leaves open: free values. Each is an opaque constant with no body, applied to the plain counter
`State.freeCtr` (which every use advances), so that nothing can be proved about the value; log entry 3.
-/
namespace Sys2Proof.Config

/-- The n-th free natural number of a run: a value the spec calls unspecified, or does not state (log entry 3). -/
opaque freeNat : Nat → Nat

/-- Where in a layer's weights weight (n, k) of output channel n and reduction index k stands, for a reduction length K: the
spec states no order of the weights (log entry 13). -/
opaque weightIx : (K n k : Nat) → Nat

/-- Which kernel row, kernel column and input channel reduction index k of a CONV layer names: the spec states no order (log
entry 13). -/
opaque convTap : (KH KW IC k : Nat) → Nat × Nat × Nat

/-- Which operation of Table 5.5, counted from 0 in the table's order, a VOP code of an ELTWISE layer names: the spec states no
codes (log entry 13). -/
opaque vop : Nat → Nat

/-- The byte at offset `i` of a resident region that a placement of an image fills: the spec states no layout of the region
(log entry 14). -/
opaque resident : (image : List Byte) → (place i : Nat) → Byte

/-- The third operand of lane `i` of an ELTWISE layer whose operation takes one (the addend of MAC, the mask of SEL): a layer names two
sources only (log entry 13). -/
opaque thirdLane : (image : List Byte) → (layer i : Nat) → Nat

/-- The recurrent state of an axis that a run of an observer parison writes, from its input and the state before: the spec states
neither its size nor what it holds (log entry 41). -/
opaque newState : (image input state : List Byte) → (axis : Nat) → List Byte

/-- One sample of an input's high-pass filter, from the corner's code, the code of the internal rate, the filter state and the sample to
the next state and the filtered sample: the spec gives the corner and not the arithmetic (R317; log entry 44). -/
opaque highPass : (corner rate : Nat) → (state sample : Int) → Int × Int

/-- How far the part's sensing reference lies above the least that its tolerance allows, in nV (R185). -/
opaque vrefTrim : Nat

/-- VREF in nV: 1.25 V within ±0.6 % (R185, Table 24.5). -/
def vref : Nat := 1242500000 + vrefTrim % 15000001

/-- The same of the valve current reference (R281). -/
opaque vlvrefTrim : Nat

/-- VLVREF in nV: 0.25 V within ±1.0 % (R281, Table 24.5). -/
def vlvref : Nat := 247500000 + vlvrefTrim % 5000001

end Sys2Proof.Config
end

