-- ==== Sys2Proof/Machine/Parts.lean ====
section
/-!
DEFINITION. The pieces of the machine's state that are not BAR0 register words: descriptors in flight, queues, stores, the
per-block sequencers. All plain data. The register words themselves are in `State.regs` (Machine/State.lean).
-/
namespace Sys2Proof.Machine

/-- A sparse store: index and value pairs, indices strictly rising, no pair equal to what an unlisted index reads as. -/
abbrev Store (α : Type) := List (Nat × α)

/-- A register field: the BAR0 offset of its word, its most and least significant bit (R6). -/
structure Field where
  off : Nat
  hi : Nat
  lo : Nat
deriving DecidableEq, Repr

/-- One row of the register map: `n1` × `n2` words at `off + s1·i + s2·j` of a block; which bits a host write stores (RW,
RWS, RWL), which it clears (W1C), which load into the active value (RWS); the reset `rst + rstStep·i`; for a field that
lists its encodings as a range, (msb, lsb, least, greatest) (R23, R24, R25). -/
structure RegDesc where
  off : Nat
  n1 : Nat
  s1 : Nat
  n2 : Nat
  s2 : Nat
  rw : Nat
  w1c : Nat
  rws : Nat
  rwl : Bool
  rst : Nat
  rstStep : Nat
  legal : List (Nat × Nat × Nat × Nat)
deriving DecidableEq, Repr

/-! ### Gaffer -/

/-- The gaffer's state beside its registers (R41 to R61): the images of banks A and B, the bank of an armed switch, a start
accepted whose first edge is to come, the tick PLL's lock lost while running and not back (R44), the actions of this tick that have
started and that have ended, consecutive AUDIO misses (R52). -/
structure Gaf where
  bankA : List Byte
  bankB : List Byte
  swBank : Option Bool
  starting : Option Bool
  lost : Bool
  started : List Nat
  ended : List Nat
  audioMiss : Nat
deriving DecidableEq, Repr

/-! ### Rings and descriptors -/

/-- Where a fetched descriptor stands: waiting on a fence (R115), ready to be dispatched, dispatched to its unit and not yet
begun, or begun. -/
inductive DescStage where
  | waiting | ready | dispatched | active
deriving DecidableEq, Repr

/-- A descriptor fetched and past none of its point of no return (R97): its SQ, the CQ its record goes to, its 64 bytes, the
value of SQ_HEAD after its fetch, its stage, the cycle of its fetch (R92), the allowance added to its deadline in 0.5 µs units
(R89, R93), whether a retry episode is in progress or has succeeded, the entries of its wait that have been satisfied (R120),
what its unit has done so far (bytes, frames or entries), data its unit holds for it, and its place in the order of dispatch across
all SQs, from 1 on (R173, R348, R364, R385, R401, R500, R533). -/
structure Desc where
  sq : Nat
  cq : Nat
  raw : List Byte
  stage : DescStage
  fetchedAt : Nat
  allow : Nat
  episode : Bool
  retried : Bool
  sat : Nat
  prog : Nat
  data : List Byte
  order : Nat
deriving DecidableEq, Repr

/-- A completion record queued and not yet written (R88, R97): the fields of Table 3.4, whether its descriptor had FLAGS.IRQ,
a posted write that precedes it on the link (R122), the cycle of its point of no return (R84). -/
structure Rec where
  sq : Nat
  cq : Nat
  tag : BitVec 32
  seq : Nat
  opcode : Nat
  status : Nat
  retried : Bool
  signalled : Bool
  late : Bool
  sqHead : Nat
  detail : Nat
  tick : Nat
  ofs : Nat
  result : Nat
  irq : Bool
  wb : Option (Nat × List Byte)
  at_ : Nat
deriving DecidableEq, Repr

/-- What is latched in a cycle and resolved at its end (R96, R98, R100): an abort of one SEQ of an SQ, an abort of a whole SQ, the
expiry of a descriptor's deadline. -/
inductive Latch where
  | one (sq seq : Nat) | all (sq : Nat) | expiry (sq seq : Nat)
deriving DecidableEq, Repr

/-- The rings beside their registers: Bus Master Enable (R69), D3hot (R68), descriptors in flight in fetch order, queued
records in order of their points of no return, the aborts held for an SQ and SEQ, and the last abort if it was held (R99), what
is latched in this cycle, counted records not yet signalled per CQ (R102), the MSI-X messages sent, oldest first, round-robin:
the SQ served last at each priority (R81), descriptors dispatched so far. -/
structure Ring where
  bme : Bool
  d3hot : Bool
  flight : List Desc
  recs : List Rec
  held : List (Nat × Nat)
  lastHeld : Option (Nat × Nat)
  latched : List Latch
  counted : Store Nat
  rr : Store Nat
  msix : List Nat
  sent : Nat
deriving DecidableEq, Repr

/-- The settings of the endpoint's configuration space that the host writes (Table 3.1): Max Payload Size and Max Read Request Size
(both as 128 · 2^n bytes), ASPM L1 enabled. Bus Master Enable and the power-management state are in `Ring`. -/
structure Pci where
  mps : Nat
  mrrs : Nat
  aspm : Bool
deriving DecidableEq, Repr

/-! ### Fences -/

/-- The requests that have reached one fence in this cycle (R113): the fence, VALUE and POISONED before the cycle, the values
signalled, a poison and an unpoison request. -/
structure FenReq where
  n : Nat
  value : Nat
  poisoned : Bool
  sigs : List Nat
  poison : Bool
  unpoison : Bool
deriving DecidableEq, Repr

/-- What this cycle has seen so far, forgotten at its end: the requests that have reached fences (R113), whether FEN_POISON_FIRST was
recorded (R123), the SIGNAL descriptors performed, by SQ, SEQ and fence (R122), the status bits that hardware has set and the
lowest bits of the counters that have counted, by word offset (R23, R518), the MARK descriptors whose record has entered the telemetry
queue, by SQ and SEQ (R515). -/
structure Seen where
  reqs : List FenReq
  first : Bool
  signals : List (Nat × Nat × Nat)
  sets : Store Word
  marks : List (Nat × Nat)
deriving DecidableEq, Repr

/-! ### Gaffer: CFG batches -/

/-- A CFG batch in the on-die store (R532): its descriptor's SQ and SEQ, its tick (0: the next edge), its entries. -/
structure Batch where
  sq : Nat
  seq : Nat
  tick : Nat
  entries : List (Nat × Word)
deriving DecidableEq, Repr

/-! ### Telemetry -/

/-- A telemetry record in the queue (Tables 22.1 and 22.2), LSEQ not yet given, with its event cycle (R508). -/
structure TelRec where
  typ : Nat
  flags : Nat
  tick32 : Nat
  ofs : Nat
  src : Nat
  sub : Nat
  payload : List Byte
  at_ : Nat
deriving DecidableEq, Repr

/-- Telemetry beside its registers: the queue (R509), records discarded since the last LOST record and the cycle of that
record, the log RAM by entry (R510), records appended and waiting for the mirror, records mirrored since MIRROR was set
(R516), entries held in the RAM, records lost since cold reset (Table 20.6); a halt asked for, whether the gaffer was running when a halt began, the cycle in which it began (R521 to R523). -/
structure Tel where
  queue : List TelRec
  qlost : Nat
  lostAt : Option Nat
  ram : Store (List Byte)
  mirror : List (List Byte)
  mirCnt : Nat
  stored : Nat
  lostCold : Nat
  haltReq : Bool
  haltRan : Bool
  haltAt : Nat
deriving DecidableEq, Repr

/-! ### PWM and valves -/

/-- A lap of a PWM counter, or a stretch in which it is held at 0 (R265): the PCLK cycle of its start, whether the count is held,
its period and its three compare counts (R268). -/
structure Lap where
  at_ : Nat
  held : Bool
  period : Nat
  cmp : List Nat
deriving DecidableEq, Repr

/-- A PWM module beside its registers: the present lap and the earlier ones that its dead-time delay still reaches, newest
first (R268), the event compares that have matched in this lap (R267), occurrences counted by each prescaler (R275), an enable
waiting for the edge that loads the first duties (R270), the lowest disable code asked for in a cycle, the cycle in which a disable
last took effect (R271). -/
structure Pwm where
  laps : List Lap
  matched : List Nat
  occ : Store Nat
  enable : Bool
  asked : Option (Nat × Nat)
  cut : Option Nat
deriving DecidableEq, Repr

/-- A valve channel beside its registers: requests waiting for the next boundary (R282), samples since its state was entered or
since its deferred request, its low side on, consecutive samples at ISHORT or above and below IOPEN (R289). -/
structure Valve where
  on : Bool
  off : Bool
  timer : Nat
  low : Bool
  shorts : Nat
  opens : Nat
deriving DecidableEq, Repr

/-! ### Sensing -/

/-- What a modulator input gives the sample set of a trigger (R193): its input and channel, the newest output, whether it is
valid, whether the channel holds its last valid value, TCLK cycles from its boundary to the trigger. -/
structure ModTap where
  k : Nat
  chan : Nat
  q : Int
  valid : Bool
  held : Bool
  age : Nat
deriving DecidableEq, Repr

/-- An accepted SAR trigger whose set has not latched: its cycle and TICKNO, whether its tick's SAMPLE action has overrun (R184),
SNS_CFG and SNS_CAL[0..6] in effect, the count, a quadrature error and an index capture since the trigger before (R183, R186, R191). -/
structure Trig where
  at_ : Nat
  tick : Nat
  late : Bool
  cfg : Word
  cal : List Word
  qpos : BitVec 32
  qerr : Bool
  idx : Option (BitVec 32)
  taps : List ModTap
deriving DecidableEq, Repr

/-- An accepted SIN/COS trigger whose pair has not latched: its cycle, SNS_CAL[7] and SNS_CAL[8] in effect (R186, R188). -/
structure ScTrig where
  at_ : Nat
  calSin : Word
  calCos : Word
deriving DecidableEq, Repr

/-- A latched SIN/COS pair: the cycle of its trigger, its values and codes, whether one clipped. -/
structure Pair where
  at_ : Nat
  sin : Int
  cos : Int
  rawSin : Int
  rawCos : Int
  clip : Bool
deriving DecidableEq, Repr

/-- A sample set (R184, R198): the tick of its trigger, IA, IB, IC, VDC, VA, VB, VC in per-unit, SIN and COS, the VALID and
CLIP masks, STALE, the count and its change since the set before, the pair it carries by its trigger cycle, MOD_AGE, and whether a modulator input
is routed to the axis. -/
structure SampleSet where
  tick : Nat
  words : List Int
  sin : Int
  cos : Int
  valid : Nat
  clip : Nat
  stale : Bool
  qpos : BitVec 32
  qdelta : Int
  pairAt : Option Nat
  modAge : Nat
  routed : Bool
deriving DecidableEq, Repr

/-- A sensing group beside its registers: triggers waiting for their latch, whether a SAR and a SIN/COS trigger were accepted
in this tick, the newest pair, the accepted levels of QA and QB, the count, a quadrature error and an index capture since the
last trigger, the tick whose SAMPLE action overran, the last sets, newest first, the codes of a set that waits in its latch cycle for
the pair that latches in the same cycle (R189), the differential voltages at the comparator inputs of IA, IB, IC and VDC in nV
(R196). -/
structure Sns where
  trigs : List Trig
  scTrigs : List ScTrig
  trigSeen : Bool
  scSeen : Bool
  pair : Option Pair
  qa : Bool
  qb : Bool
  qpos : BitVec 32
  qerr : Bool
  idx : Option (BitVec 32)
  missed : Option Nat
  sets : List SampleSet
  hold : Option (List Int)
  vin : List Int
deriving DecidableEq, Repr

/-- A modulator input beside its registers: the sinc3 filter (R192), sampling edges since its last boundary, outputs since the
last restart, its newest output with its validity and the cycle of its boundary, a glitch in the present interval, the last
valid per-unit value of its channel (Table 7.1), an output-mode start waiting for the tick edge and the cycle in which the divider
started (R194); in input mode the cycle of the last edge, whether the clock is lost, whether its rate is off, consecutive intervals
outside the tolerance and within it (Table 7.1). -/
structure Mod where
  i1 : Int
  i2 : Int
  i3 : Int
  p1 : Int
  p2 : Int
  p3 : Int
  edges : Nat
  outs : Nat
  q : Int
  qValid : Bool
  qAt : Nat
  bad : Bool
  good : Int
  startDue : Bool
  divAt : Nat
  last : Nat
  lost : Bool
  off : Bool
  outside : Nat
  within : Nat
deriving DecidableEq, Repr

/-! ### Memory, marvers, images -/

/-- External memory beside its registers: its bytes, a training in progress (R446, R448), a re-initialisation in progress with
its inline ECC setting (R457), the scrubber's next address (R459), a poisoned completion sent (R458), the 64-bit words whose stored
check bits show an uncorrectable error (R456, R457). -/
structure Mem where
  ram : Store Byte
  flaws : Store Nat
  training : Bool
  reinit : Option Bool
  scrubAt : Nat
  poisonSent : Bool
deriving DecidableEq, Repr

/-- A verified image in a parison slot (R164): its bytes and the address of its LPDDR5X copy, 0 for none. -/
structure Par where
  image : List Byte
  dest : Nat
deriving DecidableEq, Repr

/-- A reheat of a marver in progress (R178): its descriptor, the images supplied, the bytes reloaded. -/
structure Reheat where
  sq : Nat
  seq : Nat
  images : List (List Byte)
  bytes : Nat
deriving DecidableEq, Repr

/-- A chunk a marver is running (R171): the SQ and SEQ of its job, its layer and its place among the marver's chunks of the
layer. -/
structure Chunk where
  sq : Nat
  seq : Nat
  layer : Nat
  ix : Nat
deriving DecidableEq, Repr

/-- A marver beside its registers: its SRAM, the 64-bit words whose check bits show an uncorrectable error, with the 32-bit halves that
hold it as a mask (R148, R164), its four resident lookup tables (R143), whether BAR4 has written it since its regions were loaded, the
target of a voltage ramp, a point waiting for the tick edge (R156), a fence asked for (R175), the slice it runs with the DTIME of the
slice's start, its running chunk, the selected job (Table 6.11), the slot of its previous chunk's parison (R173), its reheat, the
scrubber's next line (R151), the TCLK cycles from DTIME to DTIME of this tick in which a completed pinned run kept arrays active
(Table 5.15). -/
structure Mrv where
  sram : Store Byte
  flaws : Store Nat
  tables : Store Byte
  dirty : Bool
  ramp : Option Nat
  due : Option Nat
  fenceDue : Bool
  slice : Option (Nat × BitVec 64)
  chunk : Option Chunk
  job : Option (Nat × Nat)
  prev : Option Nat
  reheat : Option Reheat
  scrubAt : Nat
  busy : List (Nat × Nat)
deriving DecidableEq, Repr

/-- A stream job (R169 to R176): its descriptor, its slot, priority, batch and tick limit, its input bytes, the placement in
use, the DTIME of its dispatch, TICKNO of its first chunk, whether it restarted, whether it must restart, whether it waits for its input
in host memory to be read again (R176), each of its marvers'
next layer and chunk, its layer outputs so far by layer (index: element), the status and DETAIL with which it ends at its next
slice boundary once it is aborted (Table 3.7). -/
structure Job where
  sq : Nat
  seq : Nat
  slot : Nat
  prio : Nat
  batch : Nat
  maxTicks : Nat
  input : List Byte
  place : Nat
  at_ : BitVec 64
  first : Option Nat
  restarted : Bool
  restart : Bool
  reread : Bool
  pos : List (Nat × Nat)
  outs : List (Store Nat)
  stop : Option (Nat × Nat)
deriving DecidableEq, Repr

/-- A pinned run in progress (R168): its action, marver, slot, placement and batch of arrays, its input bytes, the axes whose
results are taken, the DTIME of its start, its output once the run is complete. -/
structure Run where
  action : Nat
  marver : Nat
  slot : Nat
  place : Nat
  second : Bool
  input : List Byte
  axes : Nat
  at_ : BitVec 64
  out : Option (List Byte)
deriving DecidableEq, Repr

/-- How far an image is: it waits for the signature engine (R500); it has passed R166 and is to be read a second time (R503); it is
being written (R167). -/
inductive SigStage where
  | waits | second | writes
deriving DecidableEq, Repr

/-- An image of a LOAD or REHEAT descriptor, by its SQ and SEQ, and how far it is. -/
structure SigJob where
  sq : Nat
  seq : Nat
  image : List Byte
  stage : SigStage
deriving DecidableEq, Repr

/-! ### Control engine and observers -/

/-- A setpoint of a slot (R235, R237): its tick, AUTO or MANUAL, NOPOS, iq or vq, id or vd, acceleration, position, and the SQ
and SEQ of its MOTION descriptor; none for a synthesised point. -/
structure Point where
  tick : Nat
  auto : Bool
  nopos : Bool
  iq : Int
  idr : Int
  acc : Int
  pos : Int
  owner : Option (Nat × Nat)
deriving DecidableEq, Repr

/-- A START in progress (R253 to R255): its descriptor, its mode, CATCH_TICKS, CATCHLIM, the valid ticks and the CONTROL actions
counted, and SPEED at the decision once the slot runs. -/
structure Catch where
  sq : Nat
  seq : Nat
  auto : Bool
  ticks : Nat
  lim : Int
  counted : Nat
  actions : Nat
  speed : Option Int
deriving DecidableEq, Repr

/-- A stop request that has reached a slot in this cycle (R250): RAMP or TORQUE_OFF, its cause, the SQ and SEQ of its STOP descriptor, if it
has one, and whether a CONTROL action raised it. -/
structure Ask where
  ramp : Bool
  cause : Nat
  owner : Option (Nat × Nat)
  action : Bool
deriving DecidableEq, Repr

/-- A TORQUE_OFF on its way (R250): the cycle in which PWMAn is disabled, its cause, the STOP descriptors that asked for it, none
standing for another source. -/
structure TorqueOff where
  due : Nat
  cause : Nat
  askers : List (Option (Nat × Nat))
deriving DecidableEq, Repr

/-- A loop slot beside its registers: the current and the queued points (R237), integrators to be preset (R244), the START in
progress, the references and the mode of the latest CONTROL action, RAMPING ticks, the supervisors' counts, the last valid VDC
since START (R242), underrun ticks, a RAMP request with its cause, the duties computed and not yet written (R233), requests
raised by the running action (ramp, cause), the stop requests of this cycle, a TORQUE_OFF on its way (R250). -/
structure Slot where
  cur : Option Point
  queue : List Point
  first : Bool
  start : Option Catch
  iq : Int
  idr : Int
  auto : Bool
  rampN : Nat
  csup : Nat
  fsup : Nat
  vdc : Option Int
  under : Nat
  ramp : Option Nat
  duties : Option (List Nat)
  post : List (Bool × Nat)
  asks : List Ask
  off : Option TorqueOff
deriving DecidableEq, Repr

/-- A STOP descriptor whose response has yet to begin on the axes of `left` (R256): the axes on which it began, and those that
were in STOPPED. -/
structure StopReq where
  sq : Nat
  seq : Nat
  left : Nat
  began : Nat
  stopped : Nat
deriving DecidableEq, Repr

/-- What OBS_SPEC staged for an axis (R209): its sixteen words, the extrapolated count, the SIN/COS pair staged, whether T has
been written since, whether the real set has been compared and the values culled (R210), whether an overrun dropped them
(R52), the provisional values once they exist, the recurrent state that its run wrote (R207). -/
structure Spec where
  words : List Int
  qext : BitVec 32
  pairAt : Option Nat
  slow : Bool
  judged : Bool
  culled : Bool
  dropped : Bool
  out : Option (List Nat)
  buf : List Byte
deriving DecidableEq, Repr

/-- The observers of an axis beside their registers. Reference estimators: angle `th` and speed `wr` (R220), the Clarke currents
of the last valid set, winding, housing and ambient temperature (R221), the last valid power, disturbance observer `tl` (R222).
The four values committed as they stood at the tick edge, and the SPEED committed in the tick before; the duties applied in
this tick and in the tick before (Table 8.2); whether the sets of the two ticks before were valid for the axis (R206). In this
tick: whether its set is valid, once there is one; references ready, with their values and validity; the speculation; an
OBS_FINAL decision taken; the recompute values, and the recurrent state that the recompute wrote; the outputs committed. THLOAD pending
(R221). The recurrent state of the axis, bytes beyond its end being 0 (R207). -/
structure Obs where
  th : Nat
  wr : Int
  prev : Option (Int × Int)
  tw : Int
  thh : Int
  ta : Int
  power : Int
  tl : Int
  edge : List Int
  w2 : Int
  duty : List Nat
  dutyPrev : List Nat
  ok1 : Bool
  ok2 : Bool
  setOk : Option Bool
  ready : Bool
  refs : List Int
  rok : List Bool
  spec : Option Spec
  decided : Bool
  recomp : Option (List Nat)
  rbuf : List Byte
  done : Nat
  thload : Bool
  recur : List Byte
deriving DecidableEq, Repr

/-! ### Timers -/

/-- A timer channel beside its registers: the prescaler's accumulator (R296), a RELOAD held for the next wrap or release
(R302), for each compare whether it is armed and whether it has matched in this lap (R304), the state to which a withdrawn
release returns the channel (R298). -/
structure Tmr where
  acc : Nat
  reload : Option Nat
  armed : List Bool
  hit : List Bool
  before : Nat
deriving DecidableEq, Repr

/-! ### Audio converters -/

/-- A register word that was in force when a write replaced it, whose new value takes effect 4 TCLK cycles later at the earliest
(R319, R335): the register's offset, the cycle of the write, the word before it. -/
structure Was where
  off : Nat
  at_ : Nat
  word : Word
deriving DecidableEq, Repr

/-- An audio output beside its registers: a start-up in progress, the RAMP code of the present ramp, the cycle in which the start-up
began or the ramp last moved (R320). -/
structure AudOut where
  starting : Bool
  ramp : Nat
  at_ : Nat
deriving DecidableEq, Repr

/-- The jack detector beside its registers (R324 to R326): consecutive samples at the level not accepted, accessory samples
still to come with the class of the first, the latest band (4: none) and its consecutive samples. -/
structure Jack where
  deb : Nat
  acc : Nat
  first : Nat
  band : Nat
  same : Nat
deriving DecidableEq, Repr

/-- The audio converters beside their registers: headphone and speaker outputs, the jack, internal samples since PDMCLK started
(it stays at 32) and the cycle of its start (R316), the state of each input's high-pass filter (R317), words replaced by writes that
wait for their instant (R319). -/
structure Aud where
  hp : AudOut
  spk : AudOut
  jack : Jack
  pdm : Nat
  pdmAt : Nat
  hpf : List Int
  was : List Was
deriving DecidableEq, Repr

/-! ### Mixer -/

/-- The sink samples of a sample instant not yet handed off, or staged for a capture stream: their domain, the cycle and TICKNO
of the instant, the domain's counter, the 20 sinks (R332, R345, R347). -/
structure Frame where
  dom : Nat
  at_ : Nat
  tick : Nat
  cnt : Nat
  y : List Int
deriving DecidableEq, Repr

/-- A feature unit (R342): filter inputs and outputs, and the accumulators of the present frame. -/
structure Feat where
  x1 : Int
  x2 : Int
  y1 : List Int
  y2 : List Int
  pk : Nat
  e : Nat
  n : Nat
  pkb : List Nat
  eb : List Nat
deriving DecidableEq, Repr

/-- A capture stream (R347): whether it collects, its channel list, its staged frames, oldest first. -/
structure CapStream where
  on : Bool
  chs : List Nat
  staged : List Frame
deriving DecidableEq, Repr

/-- A capture descriptor at its stream (R346, R347): its channels, format, space and address, the frames it is to move, its
START_TICK, whether the stream has taken its list, the frames moved, the counter at the first of them. -/
structure Capture where
  sq : Nat
  seq : Nat
  stream : Nat
  chs : List Nat
  fmt : Nat
  space : Nat
  addr : Nat
  frames : Nat
  start : Nat
  begun : Bool
  moved : Nat
  first : Nat
deriving DecidableEq, Repr

/-- A playback descriptor at its MEM sources (R348): its sources, format, the frames still to play and their data, the numbers of the
frames whose data arrives after they are due, its START_TICK, the cycle before which it does not start, the counter at its first
frame, frames due so far and frames fed. -/
structure Play where
  sq : Nat
  seq : Nat
  chs : List Nat
  fmt : Nat
  left : Nat
  data : List Byte
  late : List Nat
  start : Nat
  notBefore : Nat
  first : Option Nat
  due : Nat
  fed : Nat
deriving DecidableEq, Repr

/-- The mixer beside its registers: the latest sample of each sink, frames not handed off (of these, how many were buffered at the
first of consecutive AUDIO misses, R52), bridge channels and edge converters in lock, feature units and a frame waiting for
FEATBUF with its TICKNO and the cycle in which it is complete (R343), streams, captures and playbacks in dispatch order, frames staged for the cascade slot (R345,
R427), playback frames from USB, record frames of this and of the previous microframe (R388), the words each serial port
transmits in this frame and transmitted in the frame before, slot by slot (R350), the cycle of each port's last frame start and of its
last glitch (R353), the least cycle of the next instant of D0, of D1 and of the low-latency path (R331, R387), words replaced by writes that wait for
their instant (R335). -/
structure Mix where
  y : List Int
  frames : List Frame
  old : Nat
  brLock : Nat
  conv : Nat
  feats : List Feat
  featDue : Option (Nat × Nat × List Nat)
  streams : List CapStream
  caps : List Capture
  plays : List Play
  casc : List Frame
  usbPlay : List (List Int)
  recNow : List (List Int)
  recPrev : List (List Int)
  sdo : List (List Nat)
  sdoOld : List (List Nat)
  spAt : List Nat
  spCut : List (Option Nat)
  d0Next : Nat
  d1Next : Nat
  llNext : Nat
  was : List Was
deriving DecidableEq, Repr

/-! ### Camera and vision -/

/-- The open frame of the capture side (R359 to R361): its number, whether it is dropped, its flags and stored lines, the
cycle of its Frame Start. -/
structure CapFrame where
  num : Nat
  dropped : Bool
  flags : Nat
  lines : Nat
  at_ : Nat
deriving DecidableEq, Repr

/-- A VISION chain (R364): its descriptor, its parameter block, the running engine, for a camera source the slot, its address,
row pitch and frame flags, the invalid pixels of level 0, the status it completes with when the running engine ends (R365). -/
structure Chain where
  sq : Nat
  seq : Nat
  blk : List Byte
  eng : Nat
  slot : Option Nat
  base : Nat
  pitch : Nat
  flags : Nat
  invalid : Nat
  stop : Option Nat
deriving DecidableEq, Repr

/-- Camera and vision beside their registers: the number of the next frame, the open frame, chains in dispatch order, the first
of which runs; the model's own: the workspaces that chains have filled, by address, with their ROI_W, ROI_H and LEVELS (R371; log
entry 3). -/
structure Vis where
  next : Nat
  cur : Option CapFrame
  chains : List Chain
  spaces : List (Nat × Nat × Nat × Nat)
deriving DecidableEq, Repr

/-! ### USB -/

/-- What a SETUP_WAIT takes (R383): the notice of a cancelled tag, or the pending request. -/
inductive UsbItem where
  | notice (tag : Nat)
  | request
deriving DecidableEq, Repr

/-- What EP0 does for the present control transfer (R379, R382): the bytes of its IN data stage, a stall, an address and a test
selector that take effect after the status stage, a zero-length packet after the data. -/
structure Ep0 where
  data : List Byte
  stall : Bool
  addr : Option Nat
  test : Option Nat
  zlp : Bool
deriving DecidableEq, Repr

/-- A BULK descriptor at the port (R385): the bytes moved, and for BULK_TX its data. -/
structure Bulk where
  sq : Nat
  seq : Nat
  moved : Nat
  data : List Byte
deriving DecidableEq, Repr

/-- The USB port beside its registers: SETUP_WAITs in dispatch order, what they are to take, the pending request's setup bytes,
the SETUP_WAIT that receives its data stage, EP0, BULK descriptors in dispatch order, EP3's halts and data toggles, the stream
rate in effect (R387), instants of the last microframes in 1/196608000 (R389, at most 128, newest first) with the DTIME of the
last SOF, the packets of the last IN data stage or IN packet, the cycle in which resume signalling ends (R391), the cycle in which
the stream rate took effect. -/
structure Usb where
  waits : List (Nat × Nat)
  inbox : List UsbItem
  req : Option (List Byte)
  taker : Option (Nat × Nat)
  ep0 : Option Ep0
  rx : List Bulk
  tx : List Bulk
  haltIn : Bool
  haltOut : Bool
  togIn : Bool
  togOut : Bool
  fs : Nat
  sofs : List Nat
  lastSof : Option Nat
  sent : List (List Byte)
  rwake : Nat
  fsAt : Nat
deriving DecidableEq, Repr

/-! ### Two-wire ports -/

/-- A TWB descriptor at its port: its written bytes, the retries used, the status it completes with once it is stopped after
its START (R401). -/
structure Xfer where
  sq : Nat
  seq : Nat
  data : List Byte
  retries : Nat
  stop : Option Nat
deriving DecidableEq, Repr

/-- A transfer that the target serves (R407 to R410): a read, a stretch in progress, the snapshot of a read, the cycle in which the
stretch began or the snapshot was taken. -/
structure Target where
  read : Bool
  stretch : Bool
  snap : Option Word
  at_ : Nat
deriving DecidableEq, Repr

/-- A two-wire port beside its registers: descriptors in dispatch order, whether the first has sent its START, whether the bus is
free, and the cycle of the latest STOP or enable (R396), the target's transfer, whether the target ignores the bus until the next STOP
(R407), the latest bus write of TWB_TREG with its cycle (R411), the cycle in which an attention pulse in progress began (R412), the
bytes that the port sent last, as controller with its address bytes or as target. -/
structure Twb where
  queue : List Xfer
  active : Bool
  free : Bool
  idleAt : Nat
  target : Option Target
  deaf : Bool
  wrote : Option (Nat × List Byte)
  pulse : Option Nat
  sent : List Byte
deriving DecidableEq, Repr

/-! ### Vexiq link -/

/-- A SLEEP_PROPOSE at the master (R434 to R436): its descriptor, tick P once PROPOSE is sent, the other members at P, those of
which a slot of P to C - 1 has come, those of which one carried no SLEEPACK, a member declared LINK_LOST since P, WAKE sampled
low since P. -/
structure Proposal where
  sq : Nat
  seq : Nat
  tick : Option Nat
  members : Nat
  heard : Nat
  refused : Nat
  lost : Bool
  wake : Bool
deriving DecidableEq, Repr

/-- The Vexiq link beside its registers: frames waiting for the TX port, each with the cycle in which it became ready, in that order,
the cycle from which the port is free, the frame sent last (R420), the own slot of this tick and whether a copy has left, its retransmits (R428), partners whose good slot of this
tick has come, and those of them before the edge guard (R426, R430), an EXCHANGE overrun in this tick, the latest good slot of
each partner (R433), consecutive predicted beacons missing (R424), good JOINs with the tick of their receipt (R432), the
proposal at the master, the commit tick of a proposal under way (R435), no action starts until the commit tick's beacon is
decoded (R437), tick time is kept (R437), the cycle up to which the WAKE pin reads low; the members whose slot of this tick came
with a bad CRC while the proposal awaits it (R434), the cycle in which the next beacon's first symbol is predicted (R422), the cycle of
the edge from which tick time is kept and the kept edges since (R437), the wake instant W (R438), the cycle in which ACQUIRE began
(R441). -/
structure Vxl where
  tx : List (Nat × List Byte)
  free : Nat
  sent : List Byte
  own : Option (List Byte)
  ownSent : Bool
  retx : Nat
  got : Nat
  inTime : Nat
  overran : Bool
  peers : List (List Byte)
  missed : Nat
  joins : List (Nat × Nat)
  prop : Option Proposal
  commitAt : Option Nat
  hold : Bool
  sleeping : Bool
  wakeUntil : Nat
  retries : Nat
  pred : Nat
  keptFrom : Nat
  kept : Nat
  wakeAt : Nat
  acqAt : Nat
deriving DecidableEq, Repr

/-! ### Fuses -/

/-- The fuse array (R486): the words of its two copies as blown, its words as read at the last cold reset, and the word and bits
of a program operation in progress (R496, R497). -/
structure Fuses where
  a : Store Word
  b : Store Word
  read : Store Word
  prog : Option (Nat × Word)
deriving DecidableEq, Repr

/-! ### Power and reset -/

/-- Whether the device is out of reset, and if not, what holds it: a cold reset (R472), the sag response with its save in
progress and then its hold (R477, R478), a warm reset held until XTAL runs (Table 20.4), OFF (R469). -/
inductive Hold where
  | running | cold | sagSave | sagHold | xtal | off
deriving DecidableEq, Repr

/-- Power beside its registers: what holds the device in reset, the power state a transition in progress ends in (R465), a wake
asked for since the last sleep was (R438, R468), the functions whose READY bit has set since the last cold reset (R476), functions
in a function reset (R474), LEHR_USER written since cold reset (Table 20.6), the 256 KiB of the lehr store by offset (R479), an
erase in progress, the image a save is writing and the store offset of its copy slot (R477, R480), whether PERST# is asserted,
whether the supplies are valid, and whether the signal pins are driven: VDDIO33 valid and the fuse array read (R277, R538). -/
structure Pwr where
  hold : Hold
  target : Option Nat
  wake : Bool
  ever : Nat
  frst : Nat
  userWritten : Bool
  mram : Store Byte
  erasing : Bool
  image : List Byte
  imageAt : Nat
  perst : Bool
  supplies : Bool
  driven : Bool
deriving DecidableEq, Repr

/-! ### After a cold reset -/

/-- A slot at reset. -/
def Slot.init : Slot := ⟨none, [], false, none, 0, 0, false, 0, 0, 0, none, 0, none, none, [], [], none⟩

/-- The observers of an axis at a cold reset. -/
def Obs.init : Obs :=
  ⟨0, 0, none, 0, 0, 0, 0, 0, [0, 0, 0, 0], 0, [0x8000, 0x8000, 0x8000], [0x8000, 0x8000, 0x8000], false, false, none, false,
   [0, 0, 0, 0], [false, false, false, false], none, false, none, [], 0, false, []⟩

/-- A marver at reset. -/
def Mrv.init : Mrv := ⟨[], [], [], false, none, none, false, none, none, none, none, none, 0, []⟩

def Feat.init : Feat := ⟨0, 0, List.replicate 7 0, List.replicate 7 0, 0, 0, 0, List.replicate 7 0, List.replicate 7 0⟩

def CapStream.init : CapStream := ⟨false, [], []⟩

/-- A PWM module whose counter starts in PCLK cycle `t`, its registers at reset (R260). -/
def Pwm.startAt (t : Nat) : Pwm := ⟨[⟨t, false, 0x3000, [0, 0, 0]⟩], [], [], false, none, none⟩

/-- A PWM module at reset. -/
def Pwm.init : Pwm := .startAt 0

/-- A sensing group at reset. -/
def Sns.init : Sns := ⟨[], [], false, false, none, false, false, 0, false, none, none, [], none, [0, 0, 0, 0]⟩

/-- A modulator input at reset. -/
def Mod.init : Mod := ⟨0, 0, 0, 0, 0, 0, 0, 0, 0, false, 0, false, 0, false, 0, 0, false, false, 0, 0⟩

/-- A timer channel after reset. -/
def Tmr.init : Tmr := ⟨0, none, [true, true], [false, false], 0⟩

def Twb.init : Twb := ⟨[], false, false, 0, none, false, none, none, []⟩

/-- A valve channel that is OFF. -/
def Valve.init : Valve := ⟨false, false, 0, false, 0, 0⟩

def Gaf.init : Gaf := ⟨[], [], none, none, false, [], [], 0⟩

def Tel.init : Tel := ⟨[], 0, none, [], [], 0, 0, 0, false, false, 0⟩

def Aud.init : Aud := ⟨⟨false, 0, 0⟩, ⟨false, 0, 0⟩, ⟨0, 0, 0, 4, 0⟩, 0, 0, List.replicate 12 0, []⟩

def Mix.init : Mix :=
  ⟨List.replicate 20 0, [], 0, 0, 0, List.replicate 4 Feat.init, none, List.replicate 4 CapStream.init, [], [], [], [], [], [], [[], []],
    [[], []], [0, 0], [none, none], 0, 0, 0, []⟩

def Vis.init : Vis := ⟨0, none, [], []⟩

def Usb.init : Usb := ⟨[], [], none, none, none, [], [], false, false, false, false, 3, [], none, [], 0, 0⟩

def Vxl.init : Vxl :=
  ⟨[], 0, [], none, false, 0, 0, 0, false, List.replicate 8 [], 0, [], none, none, false, false, 0, 0, 0, 0, 0, 0, 0⟩

end Sys2Proof.Machine
end

