-- ==== Sys2Proof/Machine/State.lean ====
section
/-!
DEFINITION. State as plain data, holding every piece of state the spec gives the machine (INVENTORY.md, State), and
State.reset.
-/
namespace Sys2Proof.Machine

/-- Why the machine stops with a fault. No meaning raises one (NOTES.md, Stops): what the manual lets the device report it
reports in State. -/
inductive Fault where
  /-- Raised by nobody (safe). -/
  | never
deriving DecidableEq, Repr

/-- Why a command has no meaning. -/
inductive Refusal where
  /-- Raised by an arm of `exec` for a command not modelled; its mnemonic (safe: the machine stops). -/
  | notModelled (mnemonic : String)
deriving DecidableEq, Repr

/-- The block. -/
structure State where
  /-- BAR0 register words by offset; an unlisted one reads as its Reset column says (R25, R535). -/
  regs : Store Word
  /-- Active values of registers with a shadow (RWS, R24; VLV_LEVELS, R288), kept as `regs` is. -/
  act : Store Word
  /-- High words latched by a read of the low word, by the high word's offset (R8). -/
  latch : Store (Option Word)
  /-- The model's own: cycles that have passed since the reset (log entry 2), by which events of one cycle are told. -/
  cyc : Nat
  /-- What this cycle has seen so far (R23, R113, R122, R123). -/
  seen : Seen
  /-- DTIME (R63). -/
  dtime : BitVec 64
  /-- The tick PLL has locked since the last cold reset: DTIME counts (R63). -/
  dtimeOn : Bool
  /-- The model's own: how many free values have been used (log entry 3). -/
  freeCtr : Nat
  /-- What the device has written into host memory, by address (log entry 8). -/
  hostMem : Store Byte
  gaf : Gaf
  ring : Ring
  /-- The configuration space of the PCI Express function, as far as the host sets it (R66). -/
  pci : Pci
  /-- CFG batches in the on-die store, in dispatch order (R532, R533). -/
  batches : List Batch
  /-- Full event counts of the fence bindings (R125). -/
  evtCount : Store Nat
  tel : Tel
  pwr : Pwr
  /-- PWMA0 to PWMA5 and PWMX. -/
  pwm : List Pwm
  vlv : List Valve
  sns : List Sns
  mods : List Mod
  /-- The boundary-scan cells that drive the PWM, VLVG and HSWG pins, under an instruction that does so (R494). -/
  scan : Option (List Bool)
  mem : Mem
  mrv : List Mrv
  /-- Parison slots (R164). -/
  slots : List (Option Par)
  /-- Stream jobs, in dispatch order (R169). -/
  jobs : List Job
  /-- Pinned runs in progress (R168). -/
  runs : List Run
  /-- Images waiting for the signature engine (R500). -/
  sig : List SigJob
  ctl : List Slot
  /-- STOP descriptors in progress (R256). -/
  stops : List StopReq
  obs : List Obs
  tmr : List Tmr
  /-- Low words staged for 48-bit timer registers, by offset (R303). -/
  tmrStage : Store Word
  /-- A release at a tick edge fell in a suspension and is due in the first TCLK cycle after it (R307). -/
  tmrDue : Bool
  aud : Aud
  mix : Mix
  vis : Vis
  usb : Usb
  twb : List Twb
  vxl : Vxl
  fus : Fuses
  /-- What the latest read from outside returned. -/
  rdata : List Byte
  /-- The model's own: the commands that wait, first in, first out. -/
  pending : List Instr
deriving DecidableEq, Repr

/-- The words of six axes, 0x100 apart from `off` on. -/
def State.sixWords (off : Nat) (v : Word) : Store Word := (List.range 6).map fun n => (off + 0x100 * n, v)

/-- The register words that a cold reset of a blank part with no strap pin set leaves at another value than a plain number of
their Reset column: GLB_STRAP, CTL_DMAX, PWM_DT, VXL_STATUS, PWR_VSAG, FUS_STATUS, FUS_CFG, FUS_AXIS, FUS_FMAX (R25, R489, R491,
Tables 1.9, 18.4 and 21.3). The list is what `coldState` (Machine/Resets.lean) gives for such a part (`Laws.reset_is_cold`). -/
def State.resetRegs : Store Word :=
  [(0x8, 8)] ++ State.sixWords 0x71018 0x8000 ++ State.sixWords 0x81008 0x3FF ++
    [(0x100014, 0x10000000), (0x120030, 70), (0x130010, 0x30), (0x130020, 70)] ++
    ((List.range 6).map fun n => (0x130030 + 4 * n, 0x3FF00000)) ++ ((List.range 6).map fun n => (0x130050 + 4 * n, 0x8000))

/-- The device right after the release of a power-on cold reset: every register at its Reset value, a part with no fuse blown and
CASC_ID 0, nothing ready, LPDDR5X training about to run (R25, R446, R472, R476; log entry 1). -/
def State.reset : State :=
  { regs := State.resetRegs
    act := State.sixWords 0x81008 0x3FF
    latch := []
    cyc := 0
    seen := ⟨[], false, [], [], []⟩
    dtime := 0
    dtimeOn := false
    freeCtr := 0
    hostMem := []
    gaf := .init
    ring := ⟨false, false, [], [], [], none, [], [], [], [], 0⟩
    pci := ⟨0, 2, false⟩
    batches := []
    evtCount := []
    tel := .init
    pwr := ⟨.running, none, false, 0, 0, false, [], false, [], 0, false, true, true⟩
    pwm := List.replicate 7 .init
    vlv := List.replicate 8 .init
    sns := List.replicate 6 .init
    mods := List.replicate 4 .init
    scan := none
    mem := ⟨[], [], true, none, 0, false⟩
    mrv := List.replicate 16 .init
    slots := List.replicate 32 none
    jobs := []
    runs := []
    sig := []
    ctl := List.replicate 6 .init
    stops := []
    obs := List.replicate 6 .init
    tmr := List.replicate 16 .init
    tmrStage := []
    tmrDue := false
    aud := .init
    mix := .init
    vis := .init
    usb := .init
    twb := List.replicate 2 .init
    vxl := .init
    fus := ⟨[], [], [], none⟩
    rdata := []
    pending := [] }

end Sys2Proof.Machine
end

