-- ==== Sys2Proof/Machine/Regs.lean ====
section
/-! DEFINITION. The BAR0 register map: for each register of Tables 23.4 to 23.24 (R535) its offset, and for each
of its fields the bits, the access code (R24) and the value after a cold reset (R25), as the register tables of the
block chapters give them. `Reg.X` is the BAR0 offset of register X, `Fld.X_F` its field F. -/
namespace Sys2Proof.Machine

/-! ### GLB: 01_device_overview.md R37; 20_power_clocks_reset.md R485 -/
def Reg.GLB_IDENT : Nat := 0
def Fld.GLB_IDENT_PART : Field := ⟨Reg.GLB_IDENT, 31, 16⟩
def Fld.GLB_IDENT_FAMILY : Field := ⟨Reg.GLB_IDENT, 15, 8⟩
def Fld.GLB_IDENT_STEP : Field := ⟨Reg.GLB_IDENT, 7, 0⟩
def Reg.GLB_CAPS : Nat := 4
def Fld.GLB_CAPS_DEBUG_LOCKED : Field := ⟨Reg.GLB_CAPS, 13, 13⟩
def Fld.GLB_CAPS_LEHR_EN : Field := ⟨Reg.GLB_CAPS, 12, 12⟩
def Fld.GLB_CAPS_MARVERS : Field := ⟨Reg.GLB_CAPS, 8, 4⟩
def Fld.GLB_CAPS_AXES : Field := ⟨Reg.GLB_CAPS, 2, 0⟩
def Reg.GLB_STRAP : Nat := 8
def Fld.GLB_STRAP_MASTER : Field := ⟨Reg.GLB_STRAP, 3, 3⟩
def Fld.GLB_STRAP_CASC_ID : Field := ⟨Reg.GLB_STRAP, 2, 0⟩
def Reg.GLB_READY : Nat := 0x10
def Fld.GLB_READY_READY : Field := ⟨Reg.GLB_READY, 19, 0⟩
def Reg.GLB_RDY_IRQ : Nat := 0x14
def Fld.GLB_RDY_IRQ_RDY : Field := ⟨Reg.GLB_RDY_IRQ, 19, 0⟩
def Reg.GLB_RDY_EN : Nat := 0x18
def Fld.GLB_RDY_EN_RDY : Field := ⟨Reg.GLB_RDY_EN, 19, 0⟩

/-! ### GAF: 02_the_tick.md R65; 18_cascade.md R444 -/
def Reg.GAF_CTRL : Nat := 0x10000
def Fld.GAF_CTRL_BANK_INIT : Field := ⟨Reg.GAF_CTRL, 1, 1⟩
def Fld.GAF_CTRL_RUN : Field := ⟨Reg.GAF_CTRL, 0, 0⟩
def Reg.GAF_STATUS : Nat := 0x10004
def Fld.GAF_STATUS_RUN_ERR : Field := ⟨Reg.GAF_STATUS, 12, 12⟩
def Fld.GAF_STATUS_SWITCH_ERR : Field := ⟨Reg.GAF_STATUS, 11, 8⟩
def Fld.GAF_STATUS_TCLK_SRC : Field := ⟨Reg.GAF_STATUS, 6, 6⟩
def Fld.GAF_STATUS_LOCKED : Field := ⟨Reg.GAF_STATUS, 5, 5⟩
def Fld.GAF_STATUS_SW_PENDING : Field := ⟨Reg.GAF_STATUS, 4, 4⟩
def Fld.GAF_STATUS_VALID_B : Field := ⟨Reg.GAF_STATUS, 3, 3⟩
def Fld.GAF_STATUS_VALID_A : Field := ⟨Reg.GAF_STATUS, 2, 2⟩
def Fld.GAF_STATUS_ACTIVE_BANK : Field := ⟨Reg.GAF_STATUS, 1, 1⟩
def Fld.GAF_STATUS_RUNNING : Field := ⟨Reg.GAF_STATUS, 0, 0⟩
def Reg.GAF_TICKDIV : Nat := 0x10008
def Fld.GAF_TICKDIV_TICKDIV : Field := ⟨Reg.GAF_TICKDIV, 15, 0⟩
def Reg.GAF_SWITCH : Nat := 0x1000c
def Fld.GAF_SWITCH_CANCEL : Field := ⟨Reg.GAF_SWITCH, 2, 2⟩
def Fld.GAF_SWITCH_ARM : Field := ⟨Reg.GAF_SWITCH, 1, 1⟩
def Fld.GAF_SWITCH_BANK : Field := ⟨Reg.GAF_SWITCH, 0, 0⟩
def Reg.GAF_SWTICK_LO : Nat := 0x10010
def Fld.GAF_SWTICK_LO_SWTICK : Field := ⟨Reg.GAF_SWTICK_LO, 31, 0⟩
def Reg.GAF_SWTICK_HI : Nat := 0x10014
def Fld.GAF_SWTICK_HI_SWTICK : Field := ⟨Reg.GAF_SWTICK_HI, 15, 0⟩
def Reg.GAF_TICKNO_LO : Nat := 0x10018
def Fld.GAF_TICKNO_LO_TICKNO : Field := ⟨Reg.GAF_TICKNO_LO, 31, 0⟩
def Reg.GAF_TICKNO_HI : Nat := 0x1001c
def Fld.GAF_TICKNO_HI_TICKNO : Field := ⟨Reg.GAF_TICKNO_HI, 15, 0⟩
def Reg.GAF_DTIME_LO : Nat := 0x10020
def Fld.GAF_DTIME_LO_DTIME : Field := ⟨Reg.GAF_DTIME_LO, 31, 0⟩
def Reg.GAF_DTIME_HI : Nat := 0x10024
def Fld.GAF_DTIME_HI_DTIME : Field := ⟨Reg.GAF_DTIME_HI, 31, 0⟩
def Reg.GAF_EDGE_LO : Nat := 0x10028
def Fld.GAF_EDGE_LO_EDGE : Field := ⟨Reg.GAF_EDGE_LO, 31, 0⟩
def Reg.GAF_EDGE_HI : Nat := 0x1002c
def Fld.GAF_EDGE_HI_EDGE : Field := ⟨Reg.GAF_EDGE_HI, 31, 0⟩
def Reg.GAF_OVR_LO : Nat := 0x10030
def Fld.GAF_OVR_LO_OVR : Field := ⟨Reg.GAF_OVR_LO, 31, 0⟩
def Reg.GAF_OVR_HI : Nat := 0x10034
def Fld.GAF_OVR_HI_OVR : Field := ⟨Reg.GAF_OVR_HI, 31, 0⟩
def Reg.GAF_IRQ_STATUS : Nat := 0x10038
def Fld.GAF_IRQ_STATUS_LOCK_LOST : Field := ⟨Reg.GAF_IRQ_STATUS, 4, 4⟩
def Fld.GAF_IRQ_STATUS_PWMOFF : Field := ⟨Reg.GAF_IRQ_STATUS, 3, 3⟩
def Fld.GAF_IRQ_STATUS_SWITCH_ERR : Field := ⟨Reg.GAF_IRQ_STATUS, 2, 2⟩
def Fld.GAF_IRQ_STATUS_SWITCHED : Field := ⟨Reg.GAF_IRQ_STATUS, 1, 1⟩
def Fld.GAF_IRQ_STATUS_OVERRUN : Field := ⟨Reg.GAF_IRQ_STATUS, 0, 0⟩
def Reg.GAF_IRQ_EN : Nat := 0x1003c
def Fld.GAF_IRQ_EN_LOCK_LOST : Field := ⟨Reg.GAF_IRQ_EN, 4, 4⟩
def Fld.GAF_IRQ_EN_PWMOFF : Field := ⟨Reg.GAF_IRQ_EN, 3, 3⟩
def Fld.GAF_IRQ_EN_SWITCH_ERR : Field := ⟨Reg.GAF_IRQ_EN, 2, 2⟩
def Fld.GAF_IRQ_EN_SWITCHED : Field := ⟨Reg.GAF_IRQ_EN, 1, 1⟩
def Fld.GAF_IRQ_EN_OVERRUN : Field := ⟨Reg.GAF_IRQ_EN, 0, 0⟩
def Reg.GAF_CTLMISS : Nat := 0x10040
def Fld.GAF_CTLMISS_MISS : Field := ⟨Reg.GAF_CTLMISS, 23, 0⟩
def Reg.GAF_PWMOFF : Nat := 0x10044
def Fld.GAF_PWMOFF_AXIS : Field := ⟨Reg.GAF_PWMOFF, 5, 0⟩
def Reg.GAF_GUARD : Nat := 0x10048
def Fld.GAF_GUARD_GUARD : Field := ⟨Reg.GAF_GUARD, 15, 0⟩
def Reg.GAF_ACT_CNT (k : Nat) : Nat := 0x10100 + 8 * k
def Fld.GAF_ACT_CNT_CLR (k : Nat) : Field := ⟨Reg.GAF_ACT_CNT k, 31, 31⟩
def Fld.GAF_ACT_CNT_CONSEC (k : Nat) : Field := ⟨Reg.GAF_ACT_CNT k, 19, 16⟩
def Fld.GAF_ACT_CNT_OVRCNT (k : Nat) : Field := ⟨Reg.GAF_ACT_CNT k, 15, 0⟩
def Reg.GAF_ACT_TIME (k : Nat) : Nat := 0x10104 + 8 * k
def Fld.GAF_ACT_TIME_LASTDONE (k : Nat) : Field := ⟨Reg.GAF_ACT_TIME k, 31, 16⟩
def Fld.GAF_ACT_TIME_MINSLACK (k : Nat) : Field := ⟨Reg.GAF_ACT_TIME k, 15, 0⟩

/-! ### RING: 03_rings_and_doorbells.md R107 -/
def Reg.RING_LINK : Nat := 0x20000
def Fld.RING_LINK_UP : Field := ⟨Reg.RING_LINK, 16, 16⟩
def Fld.RING_LINK_WIDTH : Field := ⟨Reg.RING_LINK, 7, 4⟩
def Fld.RING_LINK_SPEED : Field := ⟨Reg.RING_LINK, 3, 0⟩
def Reg.RING_ABORT : Nat := 0x20010
def Fld.RING_ABORT_ALL : Field := ⟨Reg.RING_ABORT, 31, 31⟩
def Fld.RING_ABORT_SQ : Field := ⟨Reg.RING_ABORT, 29, 24⟩
def Fld.RING_ABORT_SEQ : Field := ⟨Reg.RING_ABORT, 15, 0⟩
def Reg.RING_ABORT_STS : Nat := 0x20014
def Fld.RING_ABORT_STS_MATCHED : Field := ⟨Reg.RING_ABORT_STS, 31, 16⟩
def Fld.RING_ABORT_STS_HELD : Field := ⟨Reg.RING_ABORT_STS, 4, 4⟩
def Fld.RING_ABORT_STS_RESULT : Field := ⟨Reg.RING_ABORT_STS, 1, 0⟩
def Reg.RING_IRQ_STATUS : Nat := 0x20020
def Fld.RING_IRQ_STATUS_BAR4_BLOCKED : Field := ⟨Reg.RING_IRQ_STATUS, 3, 3⟩
def Fld.RING_IRQ_STATUS_LINK_EVT : Field := ⟨Reg.RING_IRQ_STATUS, 2, 2⟩
def Fld.RING_IRQ_STATUS_CQ_ERR : Field := ⟨Reg.RING_IRQ_STATUS, 1, 1⟩
def Fld.RING_IRQ_STATUS_SQ_ERR : Field := ⟨Reg.RING_IRQ_STATUS, 0, 0⟩
def Reg.RING_IRQ_EN : Nat := 0x20024
def Fld.RING_IRQ_EN_BAR4_BLOCKED : Field := ⟨Reg.RING_IRQ_EN, 3, 3⟩
def Fld.RING_IRQ_EN_LINK_EVT : Field := ⟨Reg.RING_IRQ_EN, 2, 2⟩
def Fld.RING_IRQ_EN_CQ_ERR : Field := ⟨Reg.RING_IRQ_EN, 1, 1⟩
def Fld.RING_IRQ_EN_SQ_ERR : Field := ⟨Reg.RING_IRQ_EN, 0, 0⟩
def Reg.RING_BVEC (i : Nat) : Nat := 0x20400 + 4 * i
def Fld.RING_BVEC_VECTOR (i : Nat) : Field := ⟨Reg.RING_BVEC i, 6, 0⟩
def Reg.SQ_BASE_LO (n : Nat) : Nat := 0x21000 + 0x40 * n
def Fld.SQ_BASE_LO_BASE_LO (n : Nat) : Field := ⟨Reg.SQ_BASE_LO n, 31, 12⟩
def Reg.SQ_BASE_HI (n : Nat) : Nat := 0x21004 + 0x40 * n
def Fld.SQ_BASE_HI_BASE_HI (n : Nat) : Field := ⟨Reg.SQ_BASE_HI n, 31, 0⟩
def Reg.SQ_CFG (n : Nat) : Nat := 0x21008 + 0x40 * n
def Fld.SQ_CFG_LOG2SIZE (n : Nat) : Field := ⟨Reg.SQ_CFG n, 20, 16⟩
def Fld.SQ_CFG_CQ (n : Nat) : Field := ⟨Reg.SQ_CFG n, 13, 8⟩
def Fld.SQ_CFG_PRIO (n : Nat) : Field := ⟨Reg.SQ_CFG n, 3, 2⟩
def Fld.SQ_CFG_EN (n : Nat) : Field := ⟨Reg.SQ_CFG n, 0, 0⟩
def Reg.SQ_HEAD (n : Nat) : Nat := 0x2100c + 0x40 * n
def Fld.SQ_HEAD_HEAD (n : Nat) : Field := ⟨Reg.SQ_HEAD n, 15, 0⟩
def Reg.SQ_TAIL (n : Nat) : Nat := 0x21010 + 0x40 * n
def Fld.SQ_TAIL_TAIL (n : Nat) : Field := ⟨Reg.SQ_TAIL n, 15, 0⟩
def Reg.SQ_SEQ (n : Nat) : Nat := 0x21014 + 0x40 * n
def Fld.SQ_SEQ_NEXT (n : Nat) : Field := ⟨Reg.SQ_SEQ n, 15, 0⟩
def Reg.SQ_STATUS (n : Nat) : Nat := 0x21018 + 0x40 * n
def Fld.SQ_STATUS_INFLIGHT (n : Nat) : Field := ⟨Reg.SQ_STATUS n, 23, 16⟩
def Fld.SQ_STATUS_ERR (n : Nat) : Field := ⟨Reg.SQ_STATUS n, 7, 4⟩
def Fld.SQ_STATUS_HALTED (n : Nat) : Field := ⟨Reg.SQ_STATUS n, 1, 1⟩
def Fld.SQ_STATUS_ACTIVE (n : Nat) : Field := ⟨Reg.SQ_STATUS n, 0, 0⟩
def Reg.CQ_BASE_LO (n : Nat) : Nat := 0x22000 + 0x40 * n
def Fld.CQ_BASE_LO_BASE_LO (n : Nat) : Field := ⟨Reg.CQ_BASE_LO n, 31, 12⟩
def Reg.CQ_BASE_HI (n : Nat) : Nat := 0x22004 + 0x40 * n
def Fld.CQ_BASE_HI_BASE_HI (n : Nat) : Field := ⟨Reg.CQ_BASE_HI n, 31, 0⟩
def Reg.CQ_CFG (n : Nat) : Nat := 0x22008 + 0x40 * n
def Fld.CQ_CFG_LOG2SIZE (n : Nat) : Field := ⟨Reg.CQ_CFG n, 20, 16⟩
def Fld.CQ_CFG_VECTOR (n : Nat) : Field := ⟨Reg.CQ_CFG n, 14, 8⟩
def Fld.CQ_CFG_ERR_IMM (n : Nat) : Field := ⟨Reg.CQ_CFG n, 1, 1⟩
def Fld.CQ_CFG_EN (n : Nat) : Field := ⟨Reg.CQ_CFG n, 0, 0⟩
def Reg.CQ_MOD (n : Nat) : Nat := 0x2200c + 0x40 * n
def Fld.CQ_MOD_TIME (n : Nat) : Field := ⟨Reg.CQ_MOD n, 25, 16⟩
def Fld.CQ_MOD_COUNT (n : Nat) : Field := ⟨Reg.CQ_MOD n, 7, 0⟩
def Reg.CQ_TAIL (n : Nat) : Nat := 0x22010 + 0x40 * n
def Fld.CQ_TAIL_PHASE (n : Nat) : Field := ⟨Reg.CQ_TAIL n, 16, 16⟩
def Fld.CQ_TAIL_TAIL (n : Nat) : Field := ⟨Reg.CQ_TAIL n, 15, 0⟩
def Reg.CQ_HEAD (n : Nat) : Nat := 0x22014 + 0x40 * n
def Fld.CQ_HEAD_HEAD (n : Nat) : Field := ⟨Reg.CQ_HEAD n, 15, 0⟩
def Reg.CQ_STATUS (n : Nat) : Nat := 0x22018 + 0x40 * n
def Fld.CQ_STATUS_FREE (n : Nat) : Field := ⟨Reg.CQ_STATUS n, 31, 16⟩
def Fld.CQ_STATUS_ERR (n : Nat) : Field := ⟨Reg.CQ_STATUS n, 7, 4⟩
def Fld.CQ_STATUS_ACTIVE (n : Nat) : Field := ⟨Reg.CQ_STATUS n, 0, 0⟩
def Reg.MSIX_ADDR_LO (v : Nat) : Nat := 0x28000 + 0x10 * v
def Fld.MSIX_ADDR_LO_ADDR (v : Nat) : Field := ⟨Reg.MSIX_ADDR_LO v, 31, 2⟩
def Reg.MSIX_ADDR_HI (v : Nat) : Nat := 0x28004 + 0x10 * v
def Fld.MSIX_ADDR_HI_ADDR (v : Nat) : Field := ⟨Reg.MSIX_ADDR_HI v, 31, 0⟩
def Reg.MSIX_DATA (v : Nat) : Nat := 0x28008 + 0x10 * v
def Fld.MSIX_DATA_DATA (v : Nat) : Field := ⟨Reg.MSIX_DATA v, 31, 0⟩
def Reg.MSIX_CTRL (v : Nat) : Nat := 0x2800c + 0x10 * v
def Fld.MSIX_CTRL_MASK (v : Nat) : Field := ⟨Reg.MSIX_CTRL v, 0, 0⟩
def Reg.MSIX_PBA (w : Nat) : Nat := 0x29000 + 4 * w
def Fld.MSIX_PBA_PENDING (w : Nat) : Field := ⟨Reg.MSIX_PBA w, 31, 0⟩

/-! ### FEN: 04_fences.md R132 -/
def Reg.FEN_HSIG_LO : Nat := 0x30010
def Fld.FEN_HSIG_LO_VALUE : Field := ⟨Reg.FEN_HSIG_LO, 31, 0⟩
def Reg.FEN_HSIG_HI : Nat := 0x30014
def Fld.FEN_HSIG_HI_VALUE : Field := ⟨Reg.FEN_HSIG_HI, 31, 0⟩
def Reg.FEN_HSIG_CMD : Nat := 0x30018
def Fld.FEN_HSIG_CMD_POISON : Field := ⟨Reg.FEN_HSIG_CMD, 18, 18⟩
def Fld.FEN_HSIG_CMD_UNPOISON : Field := ⟨Reg.FEN_HSIG_CMD, 17, 17⟩
def Fld.FEN_HSIG_CMD_SIGNAL : Field := ⟨Reg.FEN_HSIG_CMD, 16, 16⟩
def Fld.FEN_HSIG_CMD_INDEX : Field := ⟨Reg.FEN_HSIG_CMD, 9, 0⟩
def Reg.FEN_STALE : Nat := 0x30020
def Fld.FEN_STALE_CLR : Field := ⟨Reg.FEN_STALE, 31, 31⟩
def Fld.FEN_STALE_COUNT : Field := ⟨Reg.FEN_STALE, 15, 0⟩
def Reg.FEN_IRQ_STATUS : Nat := 0x30030
def Fld.FEN_IRQ_STATUS_STALE : Field := ⟨Reg.FEN_IRQ_STATUS, 17, 17⟩
def Fld.FEN_IRQ_STATUS_POISONED : Field := ⟨Reg.FEN_IRQ_STATUS, 16, 16⟩
def Fld.FEN_IRQ_STATUS_WATCH : Field := ⟨Reg.FEN_IRQ_STATUS, 15, 0⟩
def Reg.FEN_IRQ_EN : Nat := 0x30034
def Fld.FEN_IRQ_EN_STALE : Field := ⟨Reg.FEN_IRQ_EN, 17, 17⟩
def Fld.FEN_IRQ_EN_POISONED : Field := ⟨Reg.FEN_IRQ_EN, 16, 16⟩
def Fld.FEN_IRQ_EN_WATCH : Field := ⟨Reg.FEN_IRQ_EN, 15, 0⟩
def Reg.FEN_POISON_FIRST : Nat := 0x30040
def Fld.FEN_POISON_FIRST_VALID : Field := ⟨Reg.FEN_POISON_FIRST, 31, 31⟩
def Fld.FEN_POISON_FIRST_INDEX : Field := ⟨Reg.FEN_POISON_FIRST, 9, 0⟩
def Reg.FEN_WATCH (w : Nat) : Nat := 0x30100 + 0x10 * w
def Fld.FEN_WATCH_EN (w : Nat) : Field := ⟨Reg.FEN_WATCH w, 31, 31⟩
def Fld.FEN_WATCH_INDEX (w : Nat) : Field := ⟨Reg.FEN_WATCH w, 9, 0⟩
def Reg.FEN_WATCH_THRESH_LO (w : Nat) : Nat := 0x30108 + 0x10 * w
def Fld.FEN_WATCH_THRESH_LO_THRESH (w : Nat) : Field := ⟨Reg.FEN_WATCH_THRESH_LO w, 31, 0⟩
def Reg.FEN_WATCH_THRESH_HI (w : Nat) : Nat := 0x3010c + 0x10 * w
def Fld.FEN_WATCH_THRESH_HI_THRESH (w : Nat) : Field := ⟨Reg.FEN_WATCH_THRESH_HI w, 31, 0⟩
def Reg.FEN_EVT (k : Nat) : Nat := 0x30200 + 0x10 * k
def Fld.FEN_EVT_EN (k : Nat) : Field := ⟨Reg.FEN_EVT k, 31, 31⟩
def Fld.FEN_EVT_FENCE (k : Nat) : Field := ⟨Reg.FEN_EVT k, 17, 8⟩
def Fld.FEN_EVT_SOURCE (k : Nat) : Field := ⟨Reg.FEN_EVT k, 7, 0⟩
def Reg.FEN_EVT_COUNT (k : Nat) : Nat := 0x30204 + 0x10 * k
def Fld.FEN_EVT_COUNT_COUNT (k : Nat) : Field := ⟨Reg.FEN_EVT_COUNT k, 31, 0⟩
def Reg.FEN_EVT_BASE_LO (k : Nat) : Nat := 0x30208 + 0x10 * k
def Fld.FEN_EVT_BASE_LO_BASE (k : Nat) : Field := ⟨Reg.FEN_EVT_BASE_LO k, 31, 0⟩
def Reg.FEN_EVT_BASE_HI (k : Nat) : Nat := 0x3020c + 0x10 * k
def Fld.FEN_EVT_BASE_HI_BASE (k : Nat) : Field := ⟨Reg.FEN_EVT_BASE_HI k, 31, 0⟩
def Reg.FEN_EXPORT (e : Nat) : Nat := 0x30400 + 4 * e
def Fld.FEN_EXPORT_EN (e : Nat) : Field := ⟨Reg.FEN_EXPORT e, 31, 31⟩
def Fld.FEN_EXPORT_FENCE (e : Nat) : Field := ⟨Reg.FEN_EXPORT e, 9, 0⟩
def Reg.FEN_IMPORT (i : Nat) : Nat := 0x30420 + 4 * i
def Fld.FEN_IMPORT_EN (i : Nat) : Field := ⟨Reg.FEN_IMPORT i, 31, 31⟩
def Fld.FEN_IMPORT_POISON_ON_LOST (i : Nat) : Field := ⟨Reg.FEN_IMPORT i, 30, 30⟩
def Fld.FEN_IMPORT_EXPORT (i : Nat) : Field := ⟨Reg.FEN_IMPORT i, 21, 20⟩
def Fld.FEN_IMPORT_DEVICE (i : Nat) : Field := ⟨Reg.FEN_IMPORT i, 18, 16⟩
def Fld.FEN_IMPORT_FENCE (i : Nat) : Field := ⟨Reg.FEN_IMPORT i, 9, 0⟩
def Reg.FEN_VALUE_LO (n : Nat) : Nat := 0x32000 + 8 * n
def Fld.FEN_VALUE_LO_VALUE (n : Nat) : Field := ⟨Reg.FEN_VALUE_LO n, 31, 0⟩
def Reg.FEN_VALUE_HI (n : Nat) : Nat := 0x32004 + 8 * n
def Fld.FEN_VALUE_HI_VALUE (n : Nat) : Field := ⟨Reg.FEN_VALUE_HI n, 31, 0⟩
def Reg.FEN_STATE (n : Nat) : Nat := 0x34000 + 4 * n
def Fld.FEN_STATE_POISONED (n : Nat) : Field := ⟨Reg.FEN_STATE n, 8, 8⟩
def Fld.FEN_STATE_POISON_ON_FAIL (n : Nat) : Field := ⟨Reg.FEN_STATE n, 0, 0⟩

/-! ### MRV: 05_marver_arrays.md R159; 06_parisons_and_placement.md R182 -/
def Reg.MRV_CAPS : Nat := 0x40000
def Fld.MRV_CAPS_MODES : Field := ⟨Reg.MRV_CAPS, 26, 22⟩
def Fld.MRV_CAPS_SRAM_KIB : Field := ⟨Reg.MRV_CAPS, 21, 12⟩
def Fld.MRV_CAPS_SRAM_LOG2 : Field := ⟨Reg.MRV_CAPS, 11, 8⟩
def Fld.MRV_CAPS_ARRAYS_M1 : Field := ⟨Reg.MRV_CAPS, 7, 4⟩
def Fld.MRV_CAPS_COUNT_M1 : Field := ⟨Reg.MRV_CAPS, 3, 0⟩
def Reg.MRV_PINNED : Nat := 0x40004
def Fld.MRV_PINNED_PINNED : Field := ⟨Reg.MRV_PINNED, 3, 0⟩
def Reg.MRV_IRQ_STATUS : Nat := 0x40010
def Fld.MRV_IRQ_STATUS_DVFS_ERR : Field := ⟨Reg.MRV_IRQ_STATUS, 4, 4⟩
def Fld.MRV_IRQ_STATUS_DVFS_DONE : Field := ⟨Reg.MRV_IRQ_STATUS, 3, 3⟩
def Fld.MRV_IRQ_STATUS_ACC_SAT : Field := ⟨Reg.MRV_IRQ_STATUS, 2, 2⟩
def Fld.MRV_IRQ_STATUS_ECC_UNCORR : Field := ⟨Reg.MRV_IRQ_STATUS, 1, 1⟩
def Fld.MRV_IRQ_STATUS_ECC_CORR : Field := ⟨Reg.MRV_IRQ_STATUS, 0, 0⟩
def Reg.MRV_IRQ_EN : Nat := 0x40014
def Fld.MRV_IRQ_EN_DVFS_ERR : Field := ⟨Reg.MRV_IRQ_EN, 4, 4⟩
def Fld.MRV_IRQ_EN_DVFS_DONE : Field := ⟨Reg.MRV_IRQ_EN, 3, 3⟩
def Fld.MRV_IRQ_EN_ACC_SAT : Field := ⟨Reg.MRV_IRQ_EN, 2, 2⟩
def Fld.MRV_IRQ_EN_ECC_UNCORR : Field := ⟨Reg.MRV_IRQ_EN, 1, 1⟩
def Fld.MRV_IRQ_EN_ECC_CORR : Field := ⟨Reg.MRV_IRQ_EN, 0, 0⟩
def Reg.MRV_IRQ_SRC : Nat := 0x40018
def Fld.MRV_IRQ_SRC_SRC : Field := ⟨Reg.MRV_IRQ_SRC, 15, 0⟩
def Reg.MRV_SCRUB : Nat := 0x40020
def Fld.MRV_SCRUB_EN : Field := ⟨Reg.MRV_SCRUB, 0, 0⟩
def Reg.MRV_PIRQ_STATUS : Nat := 0x40030
def Fld.MRV_PIRQ_STATUS_RH_FAIL : Field := ⟨Reg.MRV_PIRQ_STATUS, 2, 2⟩
def Fld.MRV_PIRQ_STATUS_REJOINED : Field := ⟨Reg.MRV_PIRQ_STATUS, 1, 1⟩
def Fld.MRV_PIRQ_STATUS_FENCED : Field := ⟨Reg.MRV_PIRQ_STATUS, 0, 0⟩
def Reg.MRV_PIRQ_EN : Nat := 0x40034
def Fld.MRV_PIRQ_EN_RH_FAIL : Field := ⟨Reg.MRV_PIRQ_EN, 2, 2⟩
def Fld.MRV_PIRQ_EN_REJOINED : Field := ⟨Reg.MRV_PIRQ_EN, 1, 1⟩
def Fld.MRV_PIRQ_EN_FENCED : Field := ⟨Reg.MRV_PIRQ_EN, 0, 0⟩
def Reg.MRV_FENCED : Nat := 0x40038
def Fld.MRV_FENCED_FENCED : Field := ⟨Reg.MRV_FENCED, 15, 0⟩
def Reg.MRV_SLOT_ID (s : Nat) : Nat := 0x40800 + 8 * s
def Fld.MRV_SLOT_ID_ID (s : Nat) : Field := ⟨Reg.MRV_SLOT_ID s, 31, 0⟩
def Reg.MRV_SLOT_FLAGS (s : Nat) : Nat := 0x40804 + 8 * s
def Fld.MRV_SLOT_FLAGS_VALID (s : Nat) : Field := ⟨Reg.MRV_SLOT_FLAGS s, 31, 31⟩
def Fld.MRV_SLOT_FLAGS_COPY (s : Nat) : Field := ⟨Reg.MRV_SLOT_FLAGS s, 30, 30⟩
def Fld.MRV_SLOT_FLAGS_KIND (s : Nat) : Field := ⟨Reg.MRV_SLOT_FLAGS s, 25, 24⟩
def Fld.MRV_SLOT_FLAGS_NPLACE_M1 (s : Nat) : Field := ⟨Reg.MRV_SLOT_FLAGS s, 21, 20⟩
def Fld.MRV_SLOT_FLAGS_JOBS (s : Nat) : Field := ⟨Reg.MRV_SLOT_FLAGS s, 15, 0⟩
def Reg.MRV_STATE (n : Nat) : Nat := 0x41000 + 0x200 * n
def Fld.MRV_STATE_RAMP (n : Nat) : Field := ⟨Reg.MRV_STATE n, 7, 7⟩
def Fld.MRV_STATE_DVFS_CUR (n : Nat) : Field := ⟨Reg.MRV_STATE n, 5, 4⟩
def Fld.MRV_STATE_BUSY (n : Nat) : Field := ⟨Reg.MRV_STATE n, 2, 2⟩
def Fld.MRV_STATE_FENCED (n : Nat) : Field := ⟨Reg.MRV_STATE n, 1, 1⟩
def Fld.MRV_STATE_PINNED (n : Nat) : Field := ⟨Reg.MRV_STATE n, 0, 0⟩
def Reg.MRV_DVFS (n : Nat) : Nat := 0x41004 + 0x200 * n
def Fld.MRV_DVFS_POINT (n : Nat) : Field := ⟨Reg.MRV_DVFS n, 1, 0⟩
def Reg.MRV_ECC_CORR (n : Nat) : Nat := 0x41008 + 0x200 * n
def Fld.MRV_ECC_CORR_ECC_CORR (n : Nat) : Field := ⟨Reg.MRV_ECC_CORR n, 15, 0⟩
def Reg.MRV_ECC_UNCORR (n : Nat) : Nat := 0x4100c + 0x200 * n
def Fld.MRV_ECC_UNCORR_ECC_UNCORR (n : Nat) : Field := ⟨Reg.MRV_ECC_UNCORR n, 15, 0⟩
def Reg.MRV_ECC_ADDR (n : Nat) : Nat := 0x41010 + 0x200 * n
def Fld.MRV_ECC_ADDR_ECC_ADDR (n : Nat) : Field := ⟨Reg.MRV_ECC_ADDR n, 20, 3⟩
def Reg.MRV_ACC_SAT (n : Nat) : Nat := 0x41014 + 0x200 * n
def Fld.MRV_ACC_SAT_ACC_SAT (n : Nat) : Field := ⟨Reg.MRV_ACC_SAT n, 15, 0⟩
def Reg.MRV_BUSYCYC (n : Nat) : Nat := 0x41018 + 0x200 * n
def Fld.MRV_BUSYCYC_BUSYCYC (n : Nat) : Field := ⟨Reg.MRV_BUSYCYC n, 31, 0⟩
def Reg.MRV_CNT_CLR (n : Nat) : Nat := 0x4101c + 0x200 * n
def Fld.MRV_CNT_CLR_CLR (n : Nat) : Field := ⟨Reg.MRV_CNT_CLR n, 31, 31⟩
def Reg.MRV_FENCE (n : Nat) : Nat := 0x41100 + 0x200 * n
def Fld.MRV_FENCE_CMD (n : Nat) : Field := ⟨Reg.MRV_FENCE n, 31, 31⟩
def Fld.MRV_FENCE_CAUSE (n : Nat) : Field := ⟨Reg.MRV_FENCE n, 17, 16⟩
def Fld.MRV_FENCE_COUNT (n : Nat) : Field := ⟨Reg.MRV_FENCE n, 15, 0⟩
def Reg.MRV_RHST (n : Nat) : Nat := 0x41104 + 0x200 * n
def Fld.MRV_RHST_RELOAD_KIB (n : Nat) : Field := ⟨Reg.MRV_RHST n, 31, 16⟩
def Fld.MRV_RHST_PHASE (n : Nat) : Field := ⟨Reg.MRV_RHST n, 1, 0⟩
def Reg.MRV_PIN_ID (n : Nat) : Nat := 0x41108 + 0x200 * n
def Fld.MRV_PIN_ID_PIN_ID (n : Nat) : Field := ⟨Reg.MRV_PIN_ID n, 31, 0⟩
def Reg.MRV_ARRAYS (n : Nat) : Nat := 0x4110c + 0x200 * n
def Fld.MRV_ARRAYS_ARRAYS (n : Nat) : Field := ⟨Reg.MRV_ARRAYS n, 15, 0⟩
def Reg.MRV_JOB (n : Nat) : Nat := 0x41110 + 0x200 * n
def Fld.MRV_JOB_JOB_VALID (n : Nat) : Field := ⟨Reg.MRV_JOB n, 31, 31⟩
def Fld.MRV_JOB_SLOT (n : Nat) : Field := ⟨Reg.MRV_JOB n, 20, 16⟩
def Fld.MRV_JOB_PLACE (n : Nat) : Field := ⟨Reg.MRV_JOB n, 13, 12⟩
def Fld.MRV_JOB_LAYER (n : Nat) : Field := ⟨Reg.MRV_JOB n, 9, 0⟩

/-! ### OBS: 08_observers.md R230 -/
def Reg.OBS_IRQ_STATUS : Nat := 0x50000
def Fld.OBS_IRQ_STATUS_ADV_SAT : Field := ⟨Reg.OBS_IRQ_STATUS, 5, 5⟩
def Fld.OBS_IRQ_STATUS_COLLISION : Field := ⟨Reg.OBS_IRQ_STATUS, 4, 4⟩
def Fld.OBS_IRQ_STATUS_COAST : Field := ⟨Reg.OBS_IRQ_STATUS, 3, 3⟩
def Fld.OBS_IRQ_STATUS_RETURN : Field := ⟨Reg.OBS_IRQ_STATUS, 2, 2⟩
def Fld.OBS_IRQ_STATUS_FALLBACK : Field := ⟨Reg.OBS_IRQ_STATUS, 1, 1⟩
def Fld.OBS_IRQ_STATUS_CULL : Field := ⟨Reg.OBS_IRQ_STATUS, 0, 0⟩
def Reg.OBS_IRQ_EN : Nat := 0x50004
def Fld.OBS_IRQ_EN_ADV_SAT : Field := ⟨Reg.OBS_IRQ_EN, 5, 5⟩
def Fld.OBS_IRQ_EN_COLLISION : Field := ⟨Reg.OBS_IRQ_EN, 4, 4⟩
def Fld.OBS_IRQ_EN_COAST : Field := ⟨Reg.OBS_IRQ_EN, 3, 3⟩
def Fld.OBS_IRQ_EN_RETURN : Field := ⟨Reg.OBS_IRQ_EN, 2, 2⟩
def Fld.OBS_IRQ_EN_FALLBACK : Field := ⟨Reg.OBS_IRQ_EN, 1, 1⟩
def Fld.OBS_IRQ_EN_CULL : Field := ⟨Reg.OBS_IRQ_EN, 0, 0⟩
def Reg.OBS_TLM : Nat := 0x50008
def Fld.OBS_TLM_COMMIT : Field := ⟨Reg.OBS_TLM, 1, 1⟩
def Fld.OBS_TLM_PROV : Field := ⟨Reg.OBS_TLM, 0, 0⟩
def Reg.OBS_COL_CFG : Nat := 0x50010
def Fld.OBS_COL_CFG_EN : Field := ⟨Reg.OBS_COL_CFG, 31, 31⟩
def Fld.OBS_COL_CFG_AXES : Field := ⟨Reg.OBS_COL_CFG, 29, 24⟩
def Fld.OBS_COL_CFG_SCOPE : Field := ⟨Reg.OBS_COL_CFG, 20, 20⟩
def Fld.OBS_COL_CFG_RESP : Field := ⟨Reg.OBS_COL_CFG, 16, 16⟩
def Fld.OBS_COL_CFG_TH : Field := ⟨Reg.OBS_COL_CFG, 15, 8⟩
def Fld.OBS_COL_CFG_NFEAT : Field := ⟨Reg.OBS_COL_CFG, 6, 0⟩
def Reg.OBS_COL_ISH : Nat := 0x50014
def Fld.OBS_COL_ISH_ISH_FEAT : Field := ⟨Reg.OBS_COL_ISH, 7, 4⟩
def Fld.OBS_COL_ISH_ISH_AXIS : Field := ⟨Reg.OBS_COL_ISH, 3, 0⟩
def Reg.OBS_COL_STATUS : Nat := 0x50018
def Fld.OBS_COL_STATUS_STOPPED : Field := ⟨Reg.OBS_COL_STATUS, 29, 24⟩
def Fld.OBS_COL_STATUS_LASTREQ : Field := ⟨Reg.OBS_COL_STATUS, 5, 0⟩
def Reg.OBS_COL_TICK_LO : Nat := 0x50020
def Fld.OBS_COL_TICK_LO_TICK : Field := ⟨Reg.OBS_COL_TICK_LO, 31, 0⟩
def Reg.OBS_COL_TICK_HI : Nat := 0x50024
def Fld.OBS_COL_TICK_HI_TICK : Field := ⟨Reg.OBS_COL_TICK_HI, 15, 0⟩
def Reg.OBS_COL_SCORE_LO : Nat := 0x50028
def Fld.OBS_COL_SCORE_LO_SCORE : Field := ⟨Reg.OBS_COL_SCORE_LO, 31, 0⟩
def Reg.OBS_COL_SCORE_HI : Nat := 0x5002c
def Fld.OBS_COL_SCORE_HI_SCORE : Field := ⟨Reg.OBS_COL_SCORE_HI, 15, 0⟩
def Reg.OBS_CFG (n : Nat) : Nat := 0x51000 + 0x200 * n
def Fld.OBS_CFG_START_SRC (n : Nat) : Field := ⟨Reg.OBS_CFG n, 24, 24⟩
def Fld.OBS_CFG_REFSRC (n : Nat) : Field := ⟨Reg.OBS_CFG n, 20, 20⟩
def Fld.OBS_CFG_SPEC_EN (n : Nat) : Field := ⟨Reg.OBS_CFG n, 16, 16⟩
def Fld.OBS_CFG_FORCE_REF (n : Nat) : Field := ⟨Reg.OBS_CFG n, 11, 8⟩
def Fld.OBS_CFG_OUTEN (n : Nat) : Field := ⟨Reg.OBS_CFG n, 3, 0⟩
def Reg.OBS_NEED (n : Nat) : Nat := 0x51004 + 0x200 * n
def Fld.OBS_NEED_NEED (n : Nat) : Field := ⟨Reg.OBS_NEED n, 9, 0⟩
def Reg.OBS_SPECTOL (n : Nat) : Nat := 0x51008 + 0x200 * n
def Fld.OBS_SPECTOL_TOL_V (n : Nat) : Field := ⟨Reg.OBS_SPECTOL n, 31, 16⟩
def Fld.OBS_SPECTOL_TOL_I (n : Nat) : Field := ⟨Reg.OBS_SPECTOL n, 15, 0⟩
def Reg.OBS_SPECTOLQ (n : Nat) : Nat := 0x5100c + 0x200 * n
def Fld.OBS_SPECTOLQ_TOL_Q (n : Nat) : Field := ⟨Reg.OBS_SPECTOLQ n, 15, 0⟩
def Reg.OBS_SPDFS (n : Nat) : Nat := 0x51010 + 0x200 * n
def Fld.OBS_SPDFS_KADV (n : Nat) : Field := ⟨Reg.OBS_SPDFS n, 31, 16⟩
def Fld.OBS_SPDFS_SPDFS (n : Nat) : Field := ⟨Reg.OBS_SPDFS n, 15, 0⟩
def Reg.OBS_GDLY (n : Nat) : Nat := 0x51014 + 0x200 * n
def Fld.OBS_GDLY_GDLY (n : Nat) : Field := ⟨Reg.OBS_GDLY n, 15, 0⟩
def Reg.OBS_ISH (n w : Nat) : Nat := 0x51018 + 0x200 * n + 4 * w
def Fld.OBS_ISH_W0 (n w : Nat) : Field := ⟨Reg.OBS_ISH n w, 3, 0⟩
def Fld.OBS_ISH_W1 (n w : Nat) : Field := ⟨Reg.OBS_ISH n w, 7, 4⟩
def Fld.OBS_ISH_W2 (n w : Nat) : Field := ⟨Reg.OBS_ISH n w, 11, 8⟩
def Fld.OBS_ISH_W3 (n w : Nat) : Field := ⟨Reg.OBS_ISH n w, 15, 12⟩
def Fld.OBS_ISH_W4 (n w : Nat) : Field := ⟨Reg.OBS_ISH n w, 19, 16⟩
def Fld.OBS_ISH_W5 (n w : Nat) : Field := ⟨Reg.OBS_ISH n w, 23, 20⟩
def Fld.OBS_ISH_W6 (n w : Nat) : Field := ⟨Reg.OBS_ISH n w, 27, 24⟩
def Fld.OBS_ISH_W7 (n w : Nat) : Field := ⟨Reg.OBS_ISH n w, 31, 28⟩
def Reg.OBS_CLAMP (n o : Nat) : Nat := 0x51020 + 0x200 * n + 0x20 * o
def Fld.OBS_CLAMP_HI (n o : Nat) : Field := ⟨Reg.OBS_CLAMP n o, 31, 16⟩
def Fld.OBS_CLAMP_LO (n o : Nat) : Field := ⟨Reg.OBS_CLAMP n o, 15, 0⟩
def Reg.OBS_BAND (n o : Nat) : Nat := 0x51024 + 0x200 * n + 0x20 * o
def Fld.OBS_BAND_BAND (n o : Nat) : Field := ⟨Reg.OBS_BAND n o, 31, 16⟩
def Fld.OBS_BAND_SLEW (n o : Nat) : Field := ⟨Reg.OBS_BAND n o, 15, 0⟩
def Reg.OBS_TICKS (n o : Nat) : Nat := 0x51028 + 0x200 * n + 0x20 * o
def Fld.OBS_TICKS_RET_TICKS (n o : Nat) : Field := ⟨Reg.OBS_TICKS n o, 31, 24⟩
def Fld.OBS_TICKS_FB_TICKS (n o : Nat) : Field := ⟨Reg.OBS_TICKS n o, 23, 16⟩
def Fld.OBS_TICKS_RBAND (n o : Nat) : Field := ⟨Reg.OBS_TICKS n o, 15, 0⟩
def Reg.OBS_STATE (n o : Nat) : Nat := 0x5102c + 0x200 * n + 0x20 * o
def Fld.OBS_STATE_NVALID (n o : Nat) : Field := ⟨Reg.OBS_STATE n o, 25, 25⟩
def Fld.OBS_STATE_RVALID (n o : Nat) : Field := ⟨Reg.OBS_STATE n o, 24, 24⟩
def Fld.OBS_STATE_INB (n o : Nat) : Field := ⟨Reg.OBS_STATE n o, 23, 16⟩
def Fld.OBS_STATE_OOB (n o : Nat) : Field := ⟨Reg.OBS_STATE n o, 15, 8⟩
def Fld.OBS_STATE_STATE (n o : Nat) : Field := ⟨Reg.OBS_STATE n o, 2, 2⟩
def Fld.OBS_STATE_SRC (n o : Nat) : Field := ⟨Reg.OBS_STATE n o, 1, 0⟩
def Reg.OBS_VAL (n o : Nat) : Nat := 0x51030 + 0x200 * n + 0x20 * o
def Fld.OBS_VAL_REF (n o : Nat) : Field := ⟨Reg.OBS_VAL n o, 31, 16⟩
def Fld.OBS_VAL_VAL (n o : Nat) : Field := ⟨Reg.OBS_VAL n o, 15, 0⟩
def Reg.OBS_PROV (n o : Nat) : Nat := 0x51034 + 0x200 * n + 0x20 * o
def Fld.OBS_PROV_CULLED (n o : Nat) : Field := ⟨Reg.OBS_PROV n o, 17, 17⟩
def Fld.OBS_PROV_PVALID (n o : Nat) : Field := ⟨Reg.OBS_PROV n o, 16, 16⟩
def Fld.OBS_PROV_PROV (n o : Nat) : Field := ⟨Reg.OBS_PROV n o, 15, 0⟩
def Reg.OBS_OCNT (n o : Nat) : Nat := 0x51038 + 0x200 * n + 0x20 * o
def Fld.OBS_OCNT_COASTCNT (n o : Nat) : Field := ⟨Reg.OBS_OCNT n o, 31, 16⟩
def Fld.OBS_OCNT_FBCNT (n o : Nat) : Field := ⟨Reg.OBS_OCNT n o, 15, 0⟩
def Reg.OBS_KLR (n : Nat) : Nat := 0x510a0 + 0x200 * n
def Fld.OBS_KLR_KL (n : Nat) : Field := ⟨Reg.OBS_KLR n, 31, 16⟩
def Fld.OBS_KLR_KR (n : Nat) : Field := ⟨Reg.OBS_KLR n, 15, 0⟩
def Reg.OBS_KPI (n : Nat) : Nat := 0x510a4 + 0x200 * n
def Fld.OBS_KPI_KI (n : Nat) : Field := ⟨Reg.OBS_KPI n, 31, 16⟩
def Fld.OBS_KPI_KP (n : Nat) : Field := ⟨Reg.OBS_KPI n, 15, 0⟩
def Reg.OBS_MINSPD (n : Nat) : Nat := 0x510a8 + 0x200 * n
def Fld.OBS_MINSPD_MINSPD (n : Nat) : Field := ⟨Reg.OBS_MINSPD n, 15, 0⟩
def Reg.OBS_QOFS (n : Nat) : Nat := 0x510ac + 0x200 * n
def Fld.OBS_QOFS_QOFS (n : Nat) : Field := ⟨Reg.OBS_QOFS n, 31, 0⟩
def Reg.OBS_KQ (n : Nat) : Nat := 0x510b0 + 0x200 * n
def Fld.OBS_KQ_KQ (n : Nat) : Field := ⟨Reg.OBS_KQ n, 31, 0⟩
def Reg.OBS_KPW (n : Nat) : Nat := 0x510b4 + 0x200 * n
def Fld.OBS_KPW_KPW (n : Nat) : Field := ⟨Reg.OBS_KPW n, 15, 0⟩
def Reg.OBS_KWH (n : Nat) : Nat := 0x510b8 + 0x200 * n
def Fld.OBS_KWH_KWH (n : Nat) : Field := ⟨Reg.OBS_KWH n, 31, 0⟩
def Reg.OBS_KHW (n : Nat) : Nat := 0x510bc + 0x200 * n
def Fld.OBS_KHW_KHW (n : Nat) : Field := ⟨Reg.OBS_KHW n, 31, 0⟩
def Reg.OBS_KHA (n : Nat) : Nat := 0x510c0 + 0x200 * n
def Fld.OBS_KHA_KHA (n : Nat) : Field := ⟨Reg.OBS_KHA n, 31, 0⟩
def Reg.OBS_KTB (n : Nat) : Nat := 0x510c4 + 0x200 * n
def Fld.OBS_KTB_KB (n : Nat) : Field := ⟨Reg.OBS_KTB n, 31, 16⟩
def Fld.OBS_KTB_KT (n : Nat) : Field := ⟨Reg.OBS_KTB n, 15, 0⟩
def Reg.OBS_KFJ (n : Nat) : Nat := 0x510c8 + 0x200 * n
def Fld.OBS_KFJ_KF (n : Nat) : Field := ⟨Reg.OBS_KFJ n, 31, 16⟩
def Fld.OBS_KFJ_KJ (n : Nat) : Field := ⟨Reg.OBS_KFJ n, 15, 0⟩
def Reg.OBS_TSLOW (n : Nat) : Nat := 0x510cc + 0x200 * n
def Fld.OBS_TSLOW_MAXAGE (n : Nat) : Field := ⟨Reg.OBS_TSLOW n, 31, 24⟩
def Fld.OBS_TSLOW_AGE (n : Nat) : Field := ⟨Reg.OBS_TSLOW n, 23, 16⟩
def Fld.OBS_TSLOW_T (n : Nat) : Field := ⟨Reg.OBS_TSLOW n, 15, 0⟩
def Reg.OBS_THINIT (n : Nat) : Nat := 0x510d0 + 0x200 * n
def Fld.OBS_THINIT_TH (n : Nat) : Field := ⟨Reg.OBS_THINIT n, 31, 16⟩
def Fld.OBS_THINIT_TW (n : Nat) : Field := ⟨Reg.OBS_THINIT n, 15, 0⟩
def Reg.OBS_CTRL (n : Nat) : Nat := 0x510d4 + 0x200 * n
def Fld.OBS_CTRL_CLR (n : Nat) : Field := ⟨Reg.OBS_CTRL n, 31, 31⟩
def Fld.OBS_CTRL_THLOAD (n : Nat) : Field := ⟨Reg.OBS_CTRL n, 30, 30⟩
def Reg.OBS_THSTATE (n : Nat) : Nat := 0x510d8 + 0x200 * n
def Fld.OBS_THSTATE_TH (n : Nat) : Field := ⟨Reg.OBS_THSTATE n, 31, 16⟩
def Fld.OBS_THSTATE_TW (n : Nat) : Field := ⟨Reg.OBS_THSTATE n, 15, 0⟩
def Reg.OBS_CULLCNT (n : Nat) : Nat := 0x510dc + 0x200 * n
def Fld.OBS_CULLCNT_CULLCNT (n : Nat) : Field := ⟨Reg.OBS_CULLCNT n, 31, 0⟩
def Reg.OBS_RECOMP (n : Nat) : Nat := 0x510e0 + 0x200 * n
def Fld.OBS_RECOMP_RECOMP (n : Nat) : Field := ⟨Reg.OBS_RECOMP n, 31, 16⟩
def Fld.OBS_RECOMP_SPECSKIP (n : Nat) : Field := ⟨Reg.OBS_RECOMP n, 15, 0⟩
def Reg.OBS_SEQ (n : Nat) : Nat := 0x510e4 + 0x200 * n
def Fld.OBS_SEQ_SEQ (n : Nat) : Field := ⟨Reg.OBS_SEQ n, 15, 0⟩

/-! ### SNS: 07_sensing_front_end.md R201 -/
def Reg.SNS_IRQ_STATUS : Nat := 0x60000
def Fld.SNS_IRQ_STATUS_MGLITCH : Field := ⟨Reg.SNS_IRQ_STATUS, 29, 26⟩
def Fld.SNS_IRQ_STATUS_MRATE : Field := ⟨Reg.SNS_IRQ_STATUS, 25, 22⟩
def Fld.SNS_IRQ_STATUS_MLOST : Field := ⟨Reg.SNS_IRQ_STATUS, 21, 18⟩
def Fld.SNS_IRQ_STATUS_SCAMP : Field := ⟨Reg.SNS_IRQ_STATUS, 17, 12⟩
def Fld.SNS_IRQ_STATUS_QERR : Field := ⟨Reg.SNS_IRQ_STATUS, 11, 6⟩
def Fld.SNS_IRQ_STATUS_TRIP : Field := ⟨Reg.SNS_IRQ_STATUS, 5, 0⟩
def Reg.SNS_IRQ_EN : Nat := 0x60004
def Fld.SNS_IRQ_EN_MGLITCH : Field := ⟨Reg.SNS_IRQ_EN, 29, 26⟩
def Fld.SNS_IRQ_EN_MRATE : Field := ⟨Reg.SNS_IRQ_EN, 25, 22⟩
def Fld.SNS_IRQ_EN_MLOST : Field := ⟨Reg.SNS_IRQ_EN, 21, 18⟩
def Fld.SNS_IRQ_EN_SCAMP : Field := ⟨Reg.SNS_IRQ_EN, 17, 12⟩
def Fld.SNS_IRQ_EN_QERR : Field := ⟨Reg.SNS_IRQ_EN, 11, 6⟩
def Fld.SNS_IRQ_EN_TRIP : Field := ⟨Reg.SNS_IRQ_EN, 5, 0⟩
def Reg.MOD_CFG (k : Nat) : Nat := 0x60800 + 0x40 * k
def Fld.MOD_CFG_CHAN (k : Nat) : Field := ⟨Reg.MOD_CFG k, 21, 20⟩
def Fld.MOD_CFG_AXIS (k : Nat) : Field := ⟨Reg.MOD_CFG k, 18, 16⟩
def Fld.MOD_CFG_PERIOD (k : Nat) : Field := ⟨Reg.MOD_CFG k, 15, 8⟩
def Fld.MOD_CFG_OSR (k : Nat) : Field := ⟨Reg.MOD_CFG k, 5, 4⟩
def Fld.MOD_CFG_EDGE (k : Nat) : Field := ⟨Reg.MOD_CFG k, 2, 2⟩
def Fld.MOD_CFG_CLKOUT (k : Nat) : Field := ⟨Reg.MOD_CFG k, 1, 1⟩
def Fld.MOD_CFG_EN (k : Nat) : Field := ⟨Reg.MOD_CFG k, 0, 0⟩
def Reg.MOD_STATUS (k : Nat) : Nat := 0x60808 + 0x40 * k
def Fld.MOD_STATUS_PERIOD (k : Nat) : Field := ⟨Reg.MOD_STATUS k, 15, 8⟩
def Fld.MOD_STATUS_STATE (k : Nat) : Field := ⟨Reg.MOD_STATUS k, 1, 0⟩
def Reg.MOD_CNT (k : Nat) : Nat := 0x6080c + 0x40 * k
def Fld.MOD_CNT_LOST (k : Nat) : Field := ⟨Reg.MOD_CNT k, 31, 16⟩
def Fld.MOD_CNT_GLITCH (k : Nat) : Field := ⟨Reg.MOD_CNT k, 15, 0⟩
def Reg.MOD_CNT_CLR (k : Nat) : Nat := 0x60810 + 0x40 * k
def Fld.MOD_CNT_CLR_CLR (k : Nat) : Field := ⟨Reg.MOD_CNT_CLR k, 31, 31⟩
def Reg.MOD_OUT (k : Nat) : Nat := 0x60814 + 0x40 * k
def Fld.MOD_OUT_COUNT (k : Nat) : Field := ⟨Reg.MOD_OUT k, 31, 16⟩
def Fld.MOD_OUT_Q (k : Nat) : Field := ⟨Reg.MOD_OUT k, 15, 0⟩
def Reg.SNS_CFG (n : Nat) : Nat := 0x61000 + 0x100 * n
def Fld.SNS_CFG_Q_EN (n : Nat) : Field := ⟨Reg.SNS_CFG n, 21, 21⟩
def Fld.SNS_CFG_SC_EN (n : Nat) : Field := ⟨Reg.SNS_CFG n, 20, 20⟩
def Fld.SNS_CFG_SC_TRIG_EVT (n : Nat) : Field := ⟨Reg.SNS_CFG n, 19, 16⟩
def Fld.SNS_CFG_SC_TRIG_MOD (n : Nat) : Field := ⟨Reg.SNS_CFG n, 14, 12⟩
def Fld.SNS_CFG_TRIG_EVT (n : Nat) : Field := ⟨Reg.SNS_CFG n, 11, 8⟩
def Fld.SNS_CFG_TRIG_MOD (n : Nat) : Field := ⟨Reg.SNS_CFG n, 6, 4⟩
def Fld.SNS_CFG_DERIVE (n : Nat) : Field := ⟨Reg.SNS_CFG n, 3, 2⟩
def Fld.SNS_CFG_SHOWRAW (n : Nat) : Field := ⟨Reg.SNS_CFG n, 1, 1⟩
def Fld.SNS_CFG_EN (n : Nat) : Field := ⟨Reg.SNS_CFG n, 0, 0⟩
def Reg.SNS_QCFG (n : Nat) : Nat := 0x61004 + 0x100 * n
def Fld.SNS_QCFG_ZRST (n : Nat) : Field := ⟨Reg.SNS_QCFG n, 6, 6⟩
def Fld.SNS_QCFG_ZEN (n : Nat) : Field := ⟨Reg.SNS_QCFG n, 5, 5⟩
def Fld.SNS_QCFG_DIR (n : Nat) : Field := ⟨Reg.SNS_QCFG n, 4, 4⟩
def Fld.SNS_QCFG_FILT (n : Nat) : Field := ⟨Reg.SNS_QCFG n, 3, 0⟩
def Reg.SNS_SCAMP (n : Nat) : Nat := 0x61008 + 0x100 * n
def Fld.SNS_SCAMP_MAX (n : Nat) : Field := ⟨Reg.SNS_SCAMP n, 31, 16⟩
def Fld.SNS_SCAMP_MIN (n : Nat) : Field := ⟨Reg.SNS_SCAMP n, 15, 0⟩
def Reg.SNS_CAL (n c : Nat) : Nat := 0x61010 + 0x100 * n + 4 * c
def Fld.SNS_CAL_GAIN (n c : Nat) : Field := ⟨Reg.SNS_CAL n c, 31, 16⟩
def Fld.SNS_CAL_OFS (n c : Nat) : Field := ⟨Reg.SNS_CAL n c, 15, 0⟩
def Reg.SNS_TRIPOC (n : Nat) : Nat := 0x61040 + 0x100 * n
def Fld.SNS_TRIPOC_CLAMPED (n : Nat) : Field := ⟨Reg.SNS_TRIPOC n, 16, 16⟩
def Fld.SNS_TRIPOC_TH (n : Nat) : Field := ⟨Reg.SNS_TRIPOC n, 9, 0⟩
def Reg.SNS_TRIPOV (n : Nat) : Nat := 0x61044 + 0x100 * n
def Fld.SNS_TRIPOV_CLAMPED (n : Nat) : Field := ⟨Reg.SNS_TRIPOV n, 16, 16⟩
def Fld.SNS_TRIPOV_TH (n : Nat) : Field := ⟨Reg.SNS_TRIPOV n, 9, 0⟩
def Reg.SNS_TRIPST (n : Nat) : Nat := 0x61048 + 0x100 * n
def Fld.SNS_TRIPST_SEEN (n : Nat) : Field := ⟨Reg.SNS_TRIPST n, 11, 8⟩
def Fld.SNS_TRIPST_LIVE (n : Nat) : Field := ⟨Reg.SNS_TRIPST n, 3, 0⟩
def Reg.SNS_SEQ (n : Nat) : Nat := 0x61050 + 0x100 * n
def Fld.SNS_SEQ_SEQ (n : Nat) : Field := ⟨Reg.SNS_SEQ n, 15, 0⟩
def Reg.SNS_IAB (n : Nat) : Nat := 0x61054 + 0x100 * n
def Fld.SNS_IAB_IB (n : Nat) : Field := ⟨Reg.SNS_IAB n, 31, 16⟩
def Fld.SNS_IAB_IA (n : Nat) : Field := ⟨Reg.SNS_IAB n, 15, 0⟩
def Reg.SNS_ICV (n : Nat) : Nat := 0x61058 + 0x100 * n
def Fld.SNS_ICV_VDC (n : Nat) : Field := ⟨Reg.SNS_ICV n, 31, 16⟩
def Fld.SNS_ICV_IC (n : Nat) : Field := ⟨Reg.SNS_ICV n, 15, 0⟩
def Reg.SNS_VAB (n : Nat) : Nat := 0x6105c + 0x100 * n
def Fld.SNS_VAB_VB (n : Nat) : Field := ⟨Reg.SNS_VAB n, 31, 16⟩
def Fld.SNS_VAB_VA (n : Nat) : Field := ⟨Reg.SNS_VAB n, 15, 0⟩
def Reg.SNS_VC (n : Nat) : Nat := 0x61060 + 0x100 * n
def Fld.SNS_VC_VC (n : Nat) : Field := ⟨Reg.SNS_VC n, 15, 0⟩
def Reg.SNS_SC (n : Nat) : Nat := 0x61064 + 0x100 * n
def Fld.SNS_SC_COS (n : Nat) : Field := ⟨Reg.SNS_SC n, 31, 16⟩
def Fld.SNS_SC_SIN (n : Nat) : Field := ⟨Reg.SNS_SC n, 15, 0⟩
def Reg.SNS_QPOS (n : Nat) : Nat := 0x61068 + 0x100 * n
def Fld.SNS_QPOS_QPOS (n : Nat) : Field := ⟨Reg.SNS_QPOS n, 31, 0⟩
def Reg.SNS_FLAGS (n : Nat) : Nat := 0x6106c + 0x100 * n
def Fld.SNS_FLAGS_IDX (n : Nat) : Field := ⟨Reg.SNS_FLAGS n, 25, 25⟩
def Fld.SNS_FLAGS_STALE (n : Nat) : Field := ⟨Reg.SNS_FLAGS n, 24, 24⟩
def Fld.SNS_FLAGS_CLIP (n : Nat) : Field := ⟨Reg.SNS_FLAGS n, 22, 16⟩
def Fld.SNS_FLAGS_VALID (n : Nat) : Field := ⟨Reg.SNS_FLAGS n, 8, 0⟩
def Reg.SNS_AGE (n : Nat) : Nat := 0x61070 + 0x100 * n
def Fld.SNS_AGE_MOD_AGE (n : Nat) : Field := ⟨Reg.SNS_AGE n, 31, 16⟩
def Fld.SNS_AGE_SC_AGE (n : Nat) : Field := ⟨Reg.SNS_AGE n, 15, 0⟩
def Reg.SNS_QIDX (n : Nat) : Nat := 0x61074 + 0x100 * n
def Fld.SNS_QIDX_QIDX (n : Nat) : Field := ⟨Reg.SNS_QIDX n, 31, 0⟩
def Reg.SNS_CNT (n : Nat) : Nat := 0x61078 + 0x100 * n
def Fld.SNS_CNT_TRIG_EXTRA (n : Nat) : Field := ⟨Reg.SNS_CNT n, 31, 16⟩
def Fld.SNS_CNT_QERR (n : Nat) : Field := ⟨Reg.SNS_CNT n, 15, 0⟩
def Reg.SNS_CNT_CLR (n : Nat) : Nat := 0x6107c + 0x100 * n
def Fld.SNS_CNT_CLR_CLR (n : Nat) : Field := ⟨Reg.SNS_CNT_CLR n, 31, 31⟩

/-! ### CTL: 09_control_engine.md R259 -/
def Reg.CTL_IRQ_STATUS : Nat := 0x70000
def Fld.CTL_IRQ_STATUS_LOWBUS : Field := ⟨Reg.CTL_IRQ_STATUS, 29, 24⟩
def Fld.CTL_IRQ_STATUS_REFUSED : Field := ⟨Reg.CTL_IRQ_STATUS, 21, 16⟩
def Fld.CTL_IRQ_STATUS_UNDERRUN : Field := ⟨Reg.CTL_IRQ_STATUS, 13, 8⟩
def Fld.CTL_IRQ_STATUS_STOPPED : Field := ⟨Reg.CTL_IRQ_STATUS, 5, 0⟩
def Reg.CTL_IRQ_EN : Nat := 0x70004
def Fld.CTL_IRQ_EN_LOWBUS : Field := ⟨Reg.CTL_IRQ_EN, 29, 24⟩
def Fld.CTL_IRQ_EN_REFUSED : Field := ⟨Reg.CTL_IRQ_EN, 21, 16⟩
def Fld.CTL_IRQ_EN_UNDERRUN : Field := ⟨Reg.CTL_IRQ_EN, 13, 8⟩
def Fld.CTL_IRQ_EN_STOPPED : Field := ⟨Reg.CTL_IRQ_EN, 5, 0⟩
def Reg.CTL_CFG (n : Nat) : Nat := 0x71000 + 0x100 * n
def Fld.CTL_CFG_COEFMODE (n : Nat) : Field := ⟨Reg.CTL_CFG n, 24, 24⟩
def Fld.CTL_CFG_VDCFF (n : Nat) : Field := ⟨Reg.CTL_CFG n, 20, 20⟩
def Fld.CTL_CFG_DEC (n : Nat) : Field := ⟨Reg.CTL_CFG n, 16, 16⟩
def Fld.CTL_CFG_SUPRESP (n : Nat) : Field := ⟨Reg.CTL_CFG n, 8, 8⟩
def Reg.CTL_KPI (n : Nat) : Nat := 0x71004 + 0x100 * n
def Fld.CTL_KPI_KP (n : Nat) : Field := ⟨Reg.CTL_KPI n, 31, 16⟩
def Fld.CTL_KPI_KI (n : Nat) : Field := ⟨Reg.CTL_KPI n, 15, 0⟩
def Reg.CTL_KDEC (n : Nat) : Nat := 0x71008 + 0x100 * n
def Fld.CTL_KDEC_KPSI (n : Nat) : Field := ⟨Reg.CTL_KDEC n, 31, 16⟩
def Fld.CTL_KDEC_KDC (n : Nat) : Field := ⟨Reg.CTL_KDEC n, 15, 0⟩
def Reg.CTL_FF (n : Nat) : Nat := 0x7100c + 0x100 * n
def Fld.CTL_FF_KACC (n : Nat) : Field := ⟨Reg.CTL_FF n, 31, 16⟩
def Fld.CTL_FF_PHADV (n : Nat) : Field := ⟨Reg.CTL_FF n, 7, 0⟩
def Reg.CTL_LIM (n : Nat) : Nat := 0x71010 + 0x100 * n
def Fld.CTL_LIM_ILIM (n : Nat) : Field := ⟨Reg.CTL_LIM n, 31, 16⟩
def Fld.CTL_LIM_MODLIM (n : Nat) : Field := ⟨Reg.CTL_LIM n, 15, 0⟩
def Reg.CTL_VDC (n : Nat) : Nat := 0x71014 + 0x100 * n
def Fld.CTL_VDC_VDCMIN (n : Nat) : Field := ⟨Reg.CTL_VDC n, 31, 16⟩
def Fld.CTL_VDC_VDCNOM (n : Nat) : Field := ⟨Reg.CTL_VDC n, 15, 0⟩
def Reg.CTL_DMAX (n : Nat) : Nat := 0x71018 + 0x100 * n
def Fld.CTL_DMAX_CLAMPED (n : Nat) : Field := ⟨Reg.CTL_DMAX n, 16, 16⟩
def Fld.CTL_DMAX_DMAX (n : Nat) : Field := ⟨Reg.CTL_DMAX n, 15, 0⟩
def Reg.CTL_UNDERRUN (n : Nat) : Nat := 0x7101c + 0x100 * n
def Fld.CTL_UNDERRUN_RAMP (n : Nat) : Field := ⟨Reg.CTL_UNDERRUN n, 31, 16⟩
def Fld.CTL_UNDERRUN_TICKS (n : Nat) : Field := ⟨Reg.CTL_UNDERRUN n, 15, 0⟩
def Reg.CTL_DECEL (n : Nat) : Nat := 0x71020 + 0x100 * n
def Fld.CTL_DECEL_STEP (n : Nat) : Field := ⟨Reg.CTL_DECEL n, 31, 16⟩
def Fld.CTL_DECEL_DECI (n : Nat) : Field := ⟨Reg.CTL_DECEL n, 15, 0⟩
def Reg.CTL_DECEL2 (n : Nat) : Nat := 0x71024 + 0x100 * n
def Fld.CTL_DECEL2_MAXTICKS (n : Nat) : Field := ⟨Reg.CTL_DECEL2 n, 31, 16⟩
def Fld.CTL_DECEL2_STOPSPD (n : Nat) : Field := ⟨Reg.CTL_DECEL2 n, 15, 0⟩
def Reg.CTL_CSUP (n : Nat) : Nat := 0x71028 + 0x100 * n
def Fld.CTL_CSUP_TICKS (n : Nat) : Field := ⟨Reg.CTL_CSUP n, 31, 16⟩
def Fld.CTL_CSUP_LIM (n : Nat) : Field := ⟨Reg.CTL_CSUP n, 15, 0⟩
def Reg.CTL_FSUP (n : Nat) : Nat := 0x7102c + 0x100 * n
def Fld.CTL_FSUP_TICKS (n : Nat) : Field := ⟨Reg.CTL_FSUP n, 15, 0⟩
def Reg.CTL_FLIM (n : Nat) : Nat := 0x71030 + 0x100 * n
def Fld.CTL_FLIM_LIM (n : Nat) : Field := ⟨Reg.CTL_FLIM n, 31, 0⟩
def Reg.CTL_STATE (n : Nat) : Nat := 0x71040 + 0x100 * n
def Fld.CTL_STATE_CAUSE (n : Nat) : Field := ⟨Reg.CTL_STATE n, 19, 16⟩
def Fld.CTL_STATE_QDEPTH (n : Nat) : Field := ⟨Reg.CTL_STATE n, 12, 8⟩
def Fld.CTL_STATE_VLIM (n : Nat) : Field := ⟨Reg.CTL_STATE n, 7, 7⟩
def Fld.CTL_STATE_LOWBUS (n : Nat) : Field := ⟨Reg.CTL_STATE n, 6, 6⟩
def Fld.CTL_STATE_UNDERRUN (n : Nat) : Field := ⟨Reg.CTL_STATE n, 5, 5⟩
def Fld.CTL_STATE_MODE (n : Nat) : Field := ⟨Reg.CTL_STATE n, 4, 4⟩
def Fld.CTL_STATE_STATE (n : Nat) : Field := ⟨Reg.CTL_STATE n, 1, 0⟩
def Reg.CTL_REF (n : Nat) : Nat := 0x71044 + 0x100 * n
def Fld.CTL_REF_IQR (n : Nat) : Field := ⟨Reg.CTL_REF n, 31, 16⟩
def Fld.CTL_REF_IDR (n : Nat) : Field := ⟨Reg.CTL_REF n, 15, 0⟩
def Reg.CTL_IDQ (n : Nat) : Nat := 0x71048 + 0x100 * n
def Fld.CTL_IDQ_IQ (n : Nat) : Field := ⟨Reg.CTL_IDQ n, 31, 16⟩
def Fld.CTL_IDQ_ID (n : Nat) : Field := ⟨Reg.CTL_IDQ n, 15, 0⟩
def Reg.CTL_VOUT (n : Nat) : Nat := 0x7104c + 0x100 * n
def Fld.CTL_VOUT_VQ (n : Nat) : Field := ⟨Reg.CTL_VOUT n, 31, 16⟩
def Fld.CTL_VOUT_VD (n : Nat) : Field := ⟨Reg.CTL_VOUT n, 15, 0⟩
def Reg.CTL_XD (n : Nat) : Nat := 0x71050 + 0x100 * n
def Fld.CTL_XD_XD (n : Nat) : Field := ⟨Reg.CTL_XD n, 31, 0⟩
def Reg.CTL_XQ (n : Nat) : Nat := 0x71054 + 0x100 * n
def Fld.CTL_XQ_XQ (n : Nat) : Field := ⟨Reg.CTL_XQ n, 31, 0⟩
def Reg.CTL_DUTY_AB (n : Nat) : Nat := 0x71058 + 0x100 * n
def Fld.CTL_DUTY_AB_DB (n : Nat) : Field := ⟨Reg.CTL_DUTY_AB n, 31, 16⟩
def Fld.CTL_DUTY_AB_DA (n : Nat) : Field := ⟨Reg.CTL_DUTY_AB n, 15, 0⟩
def Reg.CTL_DUTY_C (n : Nat) : Nat := 0x7105c + 0x100 * n
def Fld.CTL_DUTY_C_DC (n : Nat) : Field := ⟨Reg.CTL_DUTY_C n, 15, 0⟩
def Reg.CTL_POS_LO (n : Nat) : Nat := 0x71060 + 0x100 * n
def Fld.CTL_POS_LO_POS (n : Nat) : Field := ⟨Reg.CTL_POS_LO n, 31, 0⟩
def Reg.CTL_POS_HI (n : Nat) : Nat := 0x71064 + 0x100 * n
def Fld.CTL_POS_HI_POS (n : Nat) : Field := ⟨Reg.CTL_POS_HI n, 15, 0⟩
def Reg.CTL_FERR_LO (n : Nat) : Nat := 0x71068 + 0x100 * n
def Fld.CTL_FERR_LO_FERR (n : Nat) : Field := ⟨Reg.CTL_FERR_LO n, 31, 0⟩
def Reg.CTL_FERR_HI (n : Nat) : Nat := 0x7106c + 0x100 * n
def Fld.CTL_FERR_HI_FERR (n : Nat) : Field := ⟨Reg.CTL_FERR_HI n, 15, 0⟩
def Reg.CTL_CNT (n : Nat) : Nat := 0x71070 + 0x100 * n
def Fld.CTL_CNT_UNDERRUNS (n : Nat) : Field := ⟨Reg.CTL_CNT n, 31, 16⟩
def Fld.CTL_CNT_STOPS (n : Nat) : Field := ⟨Reg.CTL_CNT n, 15, 0⟩
def Reg.CTL_CNT2 (n : Nat) : Nat := 0x71074 + 0x100 * n
def Fld.CTL_CNT2_INVALID (n : Nat) : Field := ⟨Reg.CTL_CNT2 n, 31, 16⟩
def Fld.CTL_CNT2_REFUSED (n : Nat) : Field := ⟨Reg.CTL_CNT2 n, 15, 0⟩
def Reg.CTL_CNT_CLR (n : Nat) : Nat := 0x71078 + 0x100 * n
def Fld.CTL_CNT_CLR_CLR (n : Nat) : Field := ⟨Reg.CTL_CNT_CLR n, 31, 31⟩
def Reg.CTL_SEQ (n : Nat) : Nat := 0x7107c + 0x100 * n
def Fld.CTL_SEQ_SEQ (n : Nat) : Field := ⟨Reg.CTL_SEQ n, 15, 0⟩

/-! ### PWM: 10_pwm.md R279 -/
def Reg.PWM_IRQ_STATUS : Nat := 0x80000
def Fld.PWM_IRQ_STATUS_EVT : Field := ⟨Reg.PWM_IRQ_STATUS, 30, 24⟩
def Fld.PWM_IRQ_STATUS_LOCK_MISMATCH : Field := ⟨Reg.PWM_IRQ_STATUS, 22, 16⟩
def Fld.PWM_IRQ_STATUS_PERIOD_SHORT : Field := ⟨Reg.PWM_IRQ_STATUS, 14, 8⟩
def Fld.PWM_IRQ_STATUS_TRIP : Field := ⟨Reg.PWM_IRQ_STATUS, 5, 0⟩
def Reg.PWM_IRQ_EN : Nat := 0x80004
def Fld.PWM_IRQ_EN_EVT : Field := ⟨Reg.PWM_IRQ_EN, 30, 24⟩
def Fld.PWM_IRQ_EN_LOCK_MISMATCH : Field := ⟨Reg.PWM_IRQ_EN, 22, 16⟩
def Fld.PWM_IRQ_EN_PERIOD_SHORT : Field := ⟨Reg.PWM_IRQ_EN, 14, 8⟩
def Fld.PWM_IRQ_EN_TRIP : Field := ⟨Reg.PWM_IRQ_EN, 5, 0⟩
def Reg.PWM_CFG (m : Nat) : Nat := 0x81000 + 0x100 * m
def Fld.PWM_CFG_CLOAD (m : Nat) : Field := ⟨Reg.PWM_CFG m, 3, 3⟩
def Fld.PWM_CFG_PLOAD (m : Nat) : Field := ⟨Reg.PWM_CFG m, 2, 2⟩
def Fld.PWM_CFG_CEN (m : Nat) : Field := ⟨Reg.PWM_CFG m, 1, 1⟩
def Fld.PWM_CFG_TICKLOCK (m : Nat) : Field := ⟨Reg.PWM_CFG m, 0, 0⟩
def Reg.PWMX_CFG : Nat := 0x81600
def Fld.PWMX_CFG_CLOAD : Field := ⟨Reg.PWMX_CFG, 3, 3⟩
def Fld.PWMX_CFG_PLOAD : Field := ⟨Reg.PWMX_CFG, 2, 2⟩
def Fld.PWMX_CFG_CEN : Field := ⟨Reg.PWMX_CFG, 1, 1⟩
def Fld.PWMX_CFG_TICKLOCK : Field := ⟨Reg.PWMX_CFG, 0, 0⟩
def Reg.PWM_PERIOD (m : Nat) : Nat := 0x81004 + 0x100 * m
def Fld.PWM_PERIOD_ACTIVE (m : Nat) : Field := ⟨Reg.PWM_PERIOD m, 31, 16⟩
def Fld.PWM_PERIOD_PERIOD (m : Nat) : Field := ⟨Reg.PWM_PERIOD m, 15, 0⟩
def Reg.PWM_DT (m : Nat) : Nat := 0x81008 + 0x100 * m
def Fld.PWM_DT_CLAMPED (m : Nat) : Field := ⟨Reg.PWM_DT m, 16, 16⟩
def Fld.PWM_DT_DT (m : Nat) : Field := ⟨Reg.PWM_DT m, 9, 0⟩
def Reg.PWM_CTRL (m : Nat) : Nat := 0x8100c + 0x100 * m
def Fld.PWM_CTRL_DIS (m : Nat) : Field := ⟨Reg.PWM_CTRL m, 0, 0⟩
def Reg.PWM_STATUS (m : Nat) : Nat := 0x81010 + 0x100 * m
def Fld.PWM_STATUS_COUNT (m : Nat) : Field := ⟨Reg.PWM_STATUS m, 31, 16⟩
def Fld.PWM_STATUS_DISCAUSE (m : Nat) : Field := ⟨Reg.PWM_STATUS m, 11, 8⟩
def Fld.PWM_STATUS_LOCKMIS (m : Nat) : Field := ⟨Reg.PWM_STATUS m, 2, 2⟩
def Fld.PWM_STATUS_TRIPPED (m : Nat) : Field := ⟨Reg.PWM_STATUS m, 1, 1⟩
def Fld.PWM_STATUS_EN (m : Nat) : Field := ⟨Reg.PWM_STATUS m, 0, 0⟩
def Reg.PWM_TRIP (m : Nat) : Nat := 0x81014 + 0x100 * m
def Fld.PWM_TRIP_LIVE (m : Nat) : Field := ⟨Reg.PWM_TRIP m, 11, 8⟩
def Fld.PWM_TRIP_LATCH (m : Nat) : Field := ⟨Reg.PWM_TRIP m, 3, 0⟩
def Reg.PWM_DUTY_AB (m : Nat) : Nat := 0x81018 + 0x100 * m
def Fld.PWM_DUTY_AB_DB (m : Nat) : Field := ⟨Reg.PWM_DUTY_AB m, 31, 16⟩
def Fld.PWM_DUTY_AB_DA (m : Nat) : Field := ⟨Reg.PWM_DUTY_AB m, 15, 0⟩
def Reg.PWM_DUTY_C (m : Nat) : Nat := 0x8101c + 0x100 * m
def Fld.PWM_DUTY_C_DC (m : Nat) : Field := ⟨Reg.PWM_DUTY_C m, 15, 0⟩
def Reg.PWM_CMP_AB (m : Nat) : Nat := 0x81020 + 0x100 * m
def Fld.PWM_CMP_AB_CB (m : Nat) : Field := ⟨Reg.PWM_CMP_AB m, 31, 16⟩
def Fld.PWM_CMP_AB_CA (m : Nat) : Field := ⟨Reg.PWM_CMP_AB m, 15, 0⟩
def Reg.PWM_CMP_C (m : Nat) : Nat := 0x81024 + 0x100 * m
def Fld.PWM_CMP_C_CC (m : Nat) : Field := ⟨Reg.PWM_CMP_C m, 15, 0⟩
def Reg.PWM_EVC (m e : Nat) : Nat := 0x81028 + 0x100 * m + 4 * e
def Fld.PWM_EVC_ACTIVE (m e : Nat) : Field := ⟨Reg.PWM_EVC m e, 31, 16⟩
def Fld.PWM_EVC_VALUE (m e : Nat) : Field := ⟨Reg.PWM_EVC m e, 15, 0⟩
def Reg.PWM_EVOUT (m v : Nat) : Nat := 0x81040 + 0x100 * m + 4 * v
def Fld.PWM_EVOUT_IRQ (m v : Nat) : Field := ⟨Reg.PWM_EVOUT m v, 9, 9⟩
def Fld.PWM_EVOUT_GAF (m v : Nat) : Field := ⟨Reg.PWM_EVOUT m v, 8, 8⟩
def Fld.PWM_EVOUT_PRESC (m v : Nat) : Field := ⟨Reg.PWM_EVOUT m v, 3, 0⟩
def Reg.PWM_EVSTAMP_LO (m : Nat) : Nat := 0x81058 + 0x100 * m
def Fld.PWM_EVSTAMP_LO_EVSTAMP (m : Nat) : Field := ⟨Reg.PWM_EVSTAMP_LO m, 31, 0⟩
def Reg.PWM_EVSTAMP_HI (m : Nat) : Nat := 0x8105c + 0x100 * m
def Fld.PWM_EVSTAMP_HI_EVSTAMP (m : Nat) : Field := ⟨Reg.PWM_EVSTAMP_HI m, 31, 0⟩
def Reg.PWM_CNT (m : Nat) : Nat := 0x81060 + 0x100 * m
def Fld.PWM_CNT_TRIPS (m : Nat) : Field := ⟨Reg.PWM_CNT m, 31, 16⟩
def Fld.PWM_CNT_PERIOD_SHORT (m : Nat) : Field := ⟨Reg.PWM_CNT m, 15, 0⟩
def Reg.PWM_CNT_CLR (m : Nat) : Nat := 0x81064 + 0x100 * m
def Fld.PWM_CNT_CLR_CLR (m : Nat) : Field := ⟨Reg.PWM_CNT_CLR m, 31, 31⟩

/-! ### VLV: 11_valve_drivers.md R292 -/
def Reg.VLV_IRQ_STATUS : Nat := 0x90000
def Fld.VLV_IRQ_STATUS_LIMITED : Field := ⟨Reg.VLV_IRQ_STATUS, 23, 16⟩
def Fld.VLV_IRQ_STATUS_FAULT : Field := ⟨Reg.VLV_IRQ_STATUS, 15, 8⟩
def Fld.VLV_IRQ_STATUS_REJECT : Field := ⟨Reg.VLV_IRQ_STATUS, 7, 0⟩
def Reg.VLV_IRQ_EN : Nat := 0x90004
def Fld.VLV_IRQ_EN_LIMITED : Field := ⟨Reg.VLV_IRQ_EN, 23, 16⟩
def Fld.VLV_IRQ_EN_FAULT : Field := ⟨Reg.VLV_IRQ_EN, 15, 8⟩
def Fld.VLV_IRQ_EN_REJECT : Field := ⟨Reg.VLV_IRQ_EN, 7, 0⟩
def Reg.VLV_PAIR (p : Nat) : Nat := 0x90100 + 0x10 * p
def Fld.VLV_PAIR_HSWDLY (p : Nat) : Field := ⟨Reg.VLV_PAIR p, 23, 16⟩
def Fld.VLV_PAIR_MAXDEFER (p : Nat) : Field := ⟨Reg.VLV_PAIR p, 15, 0⟩
def Reg.VLV_FPEAK (p : Nat) : Nat := 0x90104 + 0x10 * p
def Fld.VLV_FPEAK_FPEAK (p : Nat) : Field := ⟨Reg.VLV_FPEAK p, 11, 0⟩
def Reg.VLV_PSTAT (p : Nat) : Nat := 0x90108 + 0x10 * p
def Fld.VLV_PSTAT_SUMLIM (p : Nat) : Field := ⟨Reg.VLV_PSTAT p, 31, 16⟩
def Fld.VLV_PSTAT_HSW (p : Nat) : Field := ⟨Reg.VLV_PSTAT p, 0, 0⟩
def Reg.VLV_LEVELS (c : Nat) : Nat := 0x91000 + 0x40 * c
def Fld.VLV_LEVELS_CLAMPED (c : Nat) : Field := ⟨Reg.VLV_LEVELS c, 31, 31⟩
def Fld.VLV_LEVELS_IHOLD (c : Nat) : Field := ⟨Reg.VLV_LEVELS c, 27, 16⟩
def Fld.VLV_LEVELS_IPEAK (c : Nat) : Field := ⟨Reg.VLV_LEVELS c, 11, 0⟩
def Reg.VLV_FAULTLIM (c : Nat) : Nat := 0x91004 + 0x40 * c
def Fld.VLV_FAULTLIM_ISHORT (c : Nat) : Field := ⟨Reg.VLV_FAULTLIM c, 27, 16⟩
def Fld.VLV_FAULTLIM_IOPEN (c : Nat) : Field := ⟨Reg.VLV_FAULTLIM c, 11, 0⟩
def Reg.VLV_TPEAK (c : Nat) : Nat := 0x91008 + 0x40 * c
def Fld.VLV_TPEAK_TPEAK (c : Nat) : Field := ⟨Reg.VLV_TPEAK c, 15, 0⟩
def Reg.VLV_CMD (c : Nat) : Nat := 0x9100c + 0x40 * c
def Fld.VLV_CMD_OFF (c : Nat) : Field := ⟨Reg.VLV_CMD c, 1, 1⟩
def Fld.VLV_CMD_ON (c : Nat) : Field := ⟨Reg.VLV_CMD c, 0, 0⟩
def Reg.VLV_STATUS (c : Nat) : Nat := 0x91010 + 0x40 * c
def Fld.VLV_STATUS_RESULT (c : Nat) : Field := ⟨Reg.VLV_STATUS c, 31, 24⟩
def Fld.VLV_STATUS_I (c : Nat) : Field := ⟨Reg.VLV_STATUS c, 23, 12⟩
def Fld.VLV_STATUS_FAULT (c : Nat) : Field := ⟨Reg.VLV_STATUS c, 9, 8⟩
def Fld.VLV_STATUS_LIMITED (c : Nat) : Field := ⟨Reg.VLV_STATUS c, 5, 5⟩
def Fld.VLV_STATUS_PTIMEOUT (c : Nat) : Field := ⟨Reg.VLV_STATUS c, 4, 4⟩
def Fld.VLV_STATUS_STATE (c : Nat) : Field := ⟨Reg.VLV_STATUS c, 2, 0⟩
def Reg.VLV_DEFER (c : Nat) : Nat := 0x91014 + 0x40 * c
def Fld.VLV_DEFER_DEFER (c : Nat) : Field := ⟨Reg.VLV_DEFER c, 15, 0⟩
def Reg.VLV_CNT (c : Nat) : Nat := 0x91018 + 0x40 * c
def Fld.VLV_CNT_REJECTS (c : Nat) : Field := ⟨Reg.VLV_CNT c, 31, 16⟩
def Fld.VLV_CNT_FAULTS (c : Nat) : Field := ⟨Reg.VLV_CNT c, 15, 0⟩
def Reg.VLV_CNT_CLR (c : Nat) : Nat := 0x9101c + 0x40 * c
def Fld.VLV_CNT_CLR_CLR (c : Nat) : Field := ⟨Reg.VLV_CNT_CLR c, 31, 31⟩

/-! ### TMR: 12_timers.md R312 -/
def Reg.TMR_IRQ_SUM : Nat := 0xa0000
def Fld.TMR_IRQ_SUM_SUM : Field := ⟨Reg.TMR_IRQ_SUM, 15, 0⟩
def Reg.TMR_GSTART : Nat := 0xa0010
def Fld.TMR_GSTART_CANCEL : Field := ⟨Reg.TMR_GSTART, 31, 31⟩
def Fld.TMR_GSTART_EDGE : Field := ⟨Reg.TMR_GSTART, 30, 30⟩
def Fld.TMR_GSTART_MASK : Field := ⟨Reg.TMR_GSTART, 15, 0⟩
def Reg.TMR_GSTAT : Nat := 0xa0014
def Fld.TMR_GSTAT_PENDING : Field := ⟨Reg.TMR_GSTAT, 31, 31⟩
def Fld.TMR_GSTAT_EDGE : Field := ⟨Reg.TMR_GSTAT, 30, 30⟩
def Fld.TMR_GSTAT_PMASK : Field := ⟨Reg.TMR_GSTAT, 15, 0⟩
def Reg.TMR_GSTAMP_LO : Nat := 0xa0018
def Fld.TMR_GSTAMP_LO_GSTAMP : Field := ⟨Reg.TMR_GSTAMP_LO, 31, 0⟩
def Reg.TMR_GSTAMP_HI : Nat := 0xa001c
def Fld.TMR_GSTAMP_HI_GSTAMP : Field := ⟨Reg.TMR_GSTAMP_HI, 31, 0⟩
def Reg.TMR_TINFILT : Nat := 0xa0020
def Fld.TMR_TINFILT_FILT : Field := ⟨Reg.TMR_TINFILT, 31, 0⟩
def Reg.TMR_TINLVL : Nat := 0xa0024
def Fld.TMR_TINLVL_LEVEL : Field := ⟨Reg.TMR_TINLVL, 7, 0⟩
def Reg.TMR_CFG (k : Nat) : Nat := 0xa1000 + 0x80 * k
def Fld.TMR_CFG_CAPEN (k : Nat) : Field := ⟨Reg.TMR_CFG k, 20, 20⟩
def Fld.TMR_CFG_CAPIN (k : Nat) : Field := ⟨Reg.TMR_CFG k, 18, 16⟩
def Fld.TMR_CFG_SUSP (k : Nat) : Field := ⟨Reg.TMR_CFG k, 12, 12⟩
def Fld.TMR_CFG_ZERO (k : Nat) : Field := ⟨Reg.TMR_CFG k, 10, 10⟩
def Fld.TMR_CFG_RLOAD (k : Nat) : Field := ⟨Reg.TMR_CFG k, 9, 9⟩
def Fld.TMR_CFG_MODE (k : Nat) : Field := ⟨Reg.TMR_CFG k, 8, 8⟩
def Fld.TMR_CFG_TEDGE (k : Nat) : Field := ⟨Reg.TMR_CFG k, 5, 4⟩
def Fld.TMR_CFG_SRC (k : Nat) : Field := ⟨Reg.TMR_CFG k, 3, 0⟩
def Reg.TMR_DIV (k : Nat) : Nat := 0xa1004 + 0x80 * k
def Fld.TMR_DIV_INT (k : Nat) : Field := ⟨Reg.TMR_DIV k, 23, 8⟩
def Fld.TMR_DIV_FRAC (k : Nat) : Field := ⟨Reg.TMR_DIV k, 7, 0⟩
def Reg.TMR_CTRL (k : Nat) : Nat := 0xa1008 + 0x80 * k
def Fld.TMR_CTRL_CLR (k : Nat) : Field := ⟨Reg.TMR_CTRL k, 31, 31⟩
def Fld.TMR_CTRL_STOP (k : Nat) : Field := ⟨Reg.TMR_CTRL k, 0, 0⟩
def Reg.TMR_STATE (k : Nat) : Nat := 0xa100c + 0x80 * k
def Fld.TMR_STATE_SUSPENDED (k : Nat) : Field := ⟨Reg.TMR_STATE k, 4, 4⟩
def Fld.TMR_STATE_STATE (k : Nat) : Field := ⟨Reg.TMR_STATE k, 1, 0⟩
def Reg.TMR_COUNT_LO (k : Nat) : Nat := 0xa1010 + 0x80 * k
def Fld.TMR_COUNT_LO_COUNT (k : Nat) : Field := ⟨Reg.TMR_COUNT_LO k, 31, 0⟩
def Reg.TMR_COUNT_HI (k : Nat) : Nat := 0xa1014 + 0x80 * k
def Fld.TMR_COUNT_HI_COUNT (k : Nat) : Field := ⟨Reg.TMR_COUNT_HI k, 15, 0⟩
def Reg.TMR_RELOAD_LO (k : Nat) : Nat := 0xa1018 + 0x80 * k
def Fld.TMR_RELOAD_LO_RELOAD (k : Nat) : Field := ⟨Reg.TMR_RELOAD_LO k, 31, 0⟩
def Reg.TMR_RELOAD_HI (k : Nat) : Nat := 0xa101c + 0x80 * k
def Fld.TMR_RELOAD_HI_RELOAD (k : Nat) : Field := ⟨Reg.TMR_RELOAD_HI k, 15, 0⟩
def Reg.TMR_CMP0_LO (k : Nat) : Nat := 0xa1020 + 0x80 * k
def Fld.TMR_CMP0_LO_CMP0 (k : Nat) : Field := ⟨Reg.TMR_CMP0_LO k, 31, 0⟩
def Reg.TMR_CMP0_HI (k : Nat) : Nat := 0xa1024 + 0x80 * k
def Fld.TMR_CMP0_HI_CMP0 (k : Nat) : Field := ⟨Reg.TMR_CMP0_HI k, 15, 0⟩
def Reg.TMR_CMP1_LO (k : Nat) : Nat := 0xa1028 + 0x80 * k
def Fld.TMR_CMP1_LO_CMP1 (k : Nat) : Field := ⟨Reg.TMR_CMP1_LO k, 31, 0⟩
def Reg.TMR_CMP1_HI (k : Nat) : Nat := 0xa102c + 0x80 * k
def Fld.TMR_CMP1_HI_CMP1 (k : Nat) : Field := ⟨Reg.TMR_CMP1_HI k, 15, 0⟩
def Reg.TMR_CAPR_LO (k : Nat) : Nat := 0xa1030 + 0x80 * k
def Fld.TMR_CAPR_LO_CAPR (k : Nat) : Field := ⟨Reg.TMR_CAPR_LO k, 31, 0⟩
def Reg.TMR_CAPR_HI (k : Nat) : Nat := 0xa1034 + 0x80 * k
def Fld.TMR_CAPR_HI_CAPR (k : Nat) : Field := ⟨Reg.TMR_CAPR_HI k, 15, 0⟩
def Reg.TMR_CAPF_LO (k : Nat) : Nat := 0xa1038 + 0x80 * k
def Fld.TMR_CAPF_LO_CAPF (k : Nat) : Field := ⟨Reg.TMR_CAPF_LO k, 31, 0⟩
def Reg.TMR_CAPF_HI (k : Nat) : Nat := 0xa103c + 0x80 * k
def Fld.TMR_CAPF_HI_CAPF (k : Nat) : Field := ⟨Reg.TMR_CAPF_HI k, 15, 0⟩
def Reg.TMR_CAPSTAT (k : Nat) : Nat := 0xa1040 + 0x80 * k
def Fld.TMR_CAPSTAT_LAPS (k : Nat) : Field := ⟨Reg.TMR_CAPSTAT k, 23, 16⟩
def Fld.TMR_CAPSTAT_FFRESH (k : Nat) : Field := ⟨Reg.TMR_CAPSTAT k, 1, 1⟩
def Fld.TMR_CAPSTAT_RFRESH (k : Nat) : Field := ⟨Reg.TMR_CAPSTAT k, 0, 0⟩
def Reg.TMR_STATUS (k : Nat) : Nat := 0xa1044 + 0x80 * k
def Fld.TMR_STATUS_CATCHUP (k : Nat) : Field := ⟨Reg.TMR_STATUS k, 8, 8⟩
def Fld.TMR_STATUS_CAPOVR (k : Nat) : Field := ⟨Reg.TMR_STATUS k, 7, 7⟩
def Fld.TMR_STATUS_CAPF (k : Nat) : Field := ⟨Reg.TMR_STATUS k, 6, 6⟩
def Fld.TMR_STATUS_CAPR (k : Nat) : Field := ⟨Reg.TMR_STATUS k, 5, 5⟩
def Fld.TMR_STATUS_SHORT (k : Nat) : Field := ⟨Reg.TMR_STATUS k, 4, 4⟩
def Fld.TMR_STATUS_DONE (k : Nat) : Field := ⟨Reg.TMR_STATUS k, 3, 3⟩
def Fld.TMR_STATUS_WRAP (k : Nat) : Field := ⟨Reg.TMR_STATUS k, 2, 2⟩
def Fld.TMR_STATUS_CMP1 (k : Nat) : Field := ⟨Reg.TMR_STATUS k, 1, 1⟩
def Fld.TMR_STATUS_CMP0 (k : Nat) : Field := ⟨Reg.TMR_STATUS k, 0, 0⟩
def Reg.TMR_IEN (k : Nat) : Nat := 0xa1048 + 0x80 * k
def Fld.TMR_IEN_IEN (k : Nat) : Field := ⟨Reg.TMR_IEN k, 8, 0⟩
def Reg.TMR_LAPS (k : Nat) : Nat := 0xa104c + 0x80 * k
def Fld.TMR_LAPS_LAPS (k : Nat) : Field := ⟨Reg.TMR_LAPS k, 31, 0⟩
def Reg.TMR_CNT (k : Nat) : Nat := 0xa1050 + 0x80 * k
def Fld.TMR_CNT_SHORTS (k : Nat) : Field := ⟨Reg.TMR_CNT k, 31, 16⟩
def Fld.TMR_CNT_CAPOVR (k : Nat) : Field := ⟨Reg.TMR_CNT k, 15, 0⟩

/-! ### AUD: 13_audio_converters.md R329 -/
def Reg.AUD_IRQ_STATUS : Nat := 0xb0000
def Fld.AUD_IRQ_STATUS_SPK_UV : Field := ⟨Reg.AUD_IRQ_STATUS, 10, 10⟩
def Fld.AUD_IRQ_STATUS_SPK_OT : Field := ⟨Reg.AUD_IRQ_STATUS, 9, 9⟩
def Fld.AUD_IRQ_STATUS_SPK_OC : Field := ⟨Reg.AUD_IRQ_STATUS, 8, 8⟩
def Fld.AUD_IRQ_STATUS_HP_SC : Field := ⟨Reg.AUD_IRQ_STATUS, 7, 7⟩
def Fld.AUD_IRQ_STATUS_RAMP_DONE : Field := ⟨Reg.AUD_IRQ_STATUS, 6, 6⟩
def Fld.AUD_IRQ_STATUS_BTN_REL : Field := ⟨Reg.AUD_IRQ_STATUS, 5, 5⟩
def Fld.AUD_IRQ_STATUS_BTN_PRESS : Field := ⟨Reg.AUD_IRQ_STATUS, 4, 4⟩
def Fld.AUD_IRQ_STATUS_ACC_DONE : Field := ⟨Reg.AUD_IRQ_STATUS, 3, 3⟩
def Fld.AUD_IRQ_STATUS_JACK_OUT : Field := ⟨Reg.AUD_IRQ_STATUS, 2, 2⟩
def Fld.AUD_IRQ_STATUS_JACK_IN : Field := ⟨Reg.AUD_IRQ_STATUS, 1, 1⟩
def Reg.AUD_IRQ_EN : Nat := 0xb0004
def Fld.AUD_IRQ_EN_SPK_UV : Field := ⟨Reg.AUD_IRQ_EN, 10, 10⟩
def Fld.AUD_IRQ_EN_SPK_OT : Field := ⟨Reg.AUD_IRQ_EN, 9, 9⟩
def Fld.AUD_IRQ_EN_SPK_OC : Field := ⟨Reg.AUD_IRQ_EN, 8, 8⟩
def Fld.AUD_IRQ_EN_HP_SC : Field := ⟨Reg.AUD_IRQ_EN, 7, 7⟩
def Fld.AUD_IRQ_EN_RAMP_DONE : Field := ⟨Reg.AUD_IRQ_EN, 6, 6⟩
def Fld.AUD_IRQ_EN_BTN_REL : Field := ⟨Reg.AUD_IRQ_EN, 5, 5⟩
def Fld.AUD_IRQ_EN_BTN_PRESS : Field := ⟨Reg.AUD_IRQ_EN, 4, 4⟩
def Fld.AUD_IRQ_EN_ACC_DONE : Field := ⟨Reg.AUD_IRQ_EN, 3, 3⟩
def Fld.AUD_IRQ_EN_JACK_OUT : Field := ⟨Reg.AUD_IRQ_EN, 2, 2⟩
def Fld.AUD_IRQ_EN_JACK_IN : Field := ⟨Reg.AUD_IRQ_EN, 1, 1⟩
def Reg.AUD_PROT : Nat := 0xb0008
def Fld.AUD_PROT_SPK_UV : Field := ⟨Reg.AUD_PROT, 3, 3⟩
def Fld.AUD_PROT_SPK_OT : Field := ⟨Reg.AUD_PROT, 2, 2⟩
def Fld.AUD_PROT_SPK_OC : Field := ⟨Reg.AUD_PROT, 1, 1⟩
def Fld.AUD_PROT_HP_SC : Field := ⟨Reg.AUD_PROT, 0, 0⟩
def Reg.AUD_MICBIAS : Nat := 0xb0010
def Fld.AUD_MICBIAS_EN1 : Field := ⟨Reg.AUD_MICBIAS, 4, 4⟩
def Fld.AUD_MICBIAS_V1 : Field := ⟨Reg.AUD_MICBIAS, 3, 3⟩
def Fld.AUD_MICBIAS_EN0 : Field := ⟨Reg.AUD_MICBIAS, 1, 1⟩
def Fld.AUD_MICBIAS_V0 : Field := ⟨Reg.AUD_MICBIAS, 0, 0⟩
def Reg.AUD_MIC (m : Nat) : Nat := 0xb0020 + 4 * m
def Fld.AUD_MIC_EN (m : Nat) : Field := ⟨Reg.AUD_MIC m, 31, 31⟩
def Fld.AUD_MIC_GAIN (m : Nat) : Field := ⟨Reg.AUD_MIC m, 21, 16⟩
def Fld.AUD_MIC_HPF (m : Nat) : Field := ⟨Reg.AUD_MIC m, 9, 8⟩
def Fld.AUD_MIC_MUTE (m : Nat) : Field := ⟨Reg.AUD_MIC m, 4, 4⟩
def Fld.AUD_MIC_SE (m : Nat) : Field := ⟨Reg.AUD_MIC m, 1, 1⟩
def Reg.AUD_MIC3 : Nat := 0xb002c
def Fld.AUD_MIC3_EN : Field := ⟨Reg.AUD_MIC3, 31, 31⟩
def Fld.AUD_MIC3_GAIN : Field := ⟨Reg.AUD_MIC3, 21, 16⟩
def Fld.AUD_MIC3_SRC : Field := ⟨Reg.AUD_MIC3, 12, 12⟩
def Fld.AUD_MIC3_HPF : Field := ⟨Reg.AUD_MIC3, 9, 8⟩
def Fld.AUD_MIC3_MUTE : Field := ⟨Reg.AUD_MIC3, 4, 4⟩
def Fld.AUD_MIC3_SE : Field := ⟨Reg.AUD_MIC3, 1, 1⟩
def Reg.AUD_LIN (l : Nat) : Nat := 0xb0030 + 4 * l
def Fld.AUD_LIN_EN (l : Nat) : Field := ⟨Reg.AUD_LIN l, 31, 31⟩
def Fld.AUD_LIN_GAIN (l : Nat) : Field := ⟨Reg.AUD_LIN l, 20, 16⟩
def Fld.AUD_LIN_HPF (l : Nat) : Field := ⟨Reg.AUD_LIN l, 9, 8⟩
def Fld.AUD_LIN_MUTE (l : Nat) : Field := ⟨Reg.AUD_LIN l, 4, 4⟩
def Reg.AUD_PDM : Nat := 0xb0040
def Fld.AUD_PDM_EN : Field := ⟨Reg.AUD_PDM, 31, 31⟩
def Fld.AUD_PDM_CLKSEL : Field := ⟨Reg.AUD_PDM, 16, 16⟩
def Fld.AUD_PDM_HPF : Field := ⟨Reg.AUD_PDM, 9, 8⟩
def Fld.AUD_PDM_CHEN : Field := ⟨Reg.AUD_PDM, 3, 0⟩
def Reg.AUD_HP : Nat := 0xb0050
def Fld.AUD_HP_EN : Field := ⟨Reg.AUD_HP, 31, 31⟩
def Fld.AUD_HP_RAMP : Field := ⟨Reg.AUD_HP, 29, 28⟩
def Fld.AUD_HP_VOL : Field := ⟨Reg.AUD_HP, 21, 16⟩
def Fld.AUD_HP_MUTE : Field := ⟨Reg.AUD_HP, 8, 8⟩
def Reg.AUD_SPK : Nat := 0xb0054
def Fld.AUD_SPK_EN : Field := ⟨Reg.AUD_SPK, 31, 31⟩
def Fld.AUD_SPK_RAMP : Field := ⟨Reg.AUD_SPK, 29, 28⟩
def Fld.AUD_SPK_VOL : Field := ⟨Reg.AUD_SPK, 20, 16⟩
def Fld.AUD_SPK_MUTE : Field := ⟨Reg.AUD_SPK, 8, 8⟩
def Reg.AUD_OUTSTAT : Nat := 0xb0058
def Fld.AUD_OUTSTAT_SPK : Field := ⟨Reg.AUD_OUTSTAT, 25, 24⟩
def Fld.AUD_OUTSTAT_SPK_A : Field := ⟨Reg.AUD_OUTSTAT, 22, 16⟩
def Fld.AUD_OUTSTAT_HP : Field := ⟨Reg.AUD_OUTSTAT, 9, 8⟩
def Fld.AUD_OUTSTAT_HP_A : Field := ⟨Reg.AUD_OUTSTAT, 6, 0⟩
def Reg.AUD_JACK_CFG : Nat := 0xb0060
def Fld.AUD_JACK_CFG_EN : Field := ⟨Reg.AUD_JACK_CFG, 31, 31⟩
def Fld.AUD_JACK_CFG_JDEB : Field := ⟨Reg.AUD_JACK_CFG, 23, 16⟩
def Fld.AUD_JACK_CFG_BDEB : Field := ⟨Reg.AUD_JACK_CFG, 15, 8⟩
def Fld.AUD_JACK_CFG_HSV : Field := ⟨Reg.AUD_JACK_CFG, 5, 5⟩
def Fld.AUD_JACK_CFG_AUTOMUTE : Field := ⟨Reg.AUD_JACK_CFG, 4, 4⟩
def Fld.AUD_JACK_CFG_BTNMUTE : Field := ⟨Reg.AUD_JACK_CFG, 3, 3⟩
def Fld.AUD_JACK_CFG_JPOL : Field := ⟨Reg.AUD_JACK_CFG, 0, 0⟩
def Reg.AUD_JACK_STAT : Nat := 0xb0064
def Fld.AUD_JACK_STAT_INSERTED : Field := ⟨Reg.AUD_JACK_STAT, 31, 31⟩
def Fld.AUD_JACK_STAT_ACC : Field := ⟨Reg.AUD_JACK_STAT, 26, 24⟩
def Fld.AUD_JACK_STAT_BTN : Field := ⟨Reg.AUD_JACK_STAT, 19, 16⟩
def Fld.AUD_JACK_STAT_JADC : Field := ⟨Reg.AUD_JACK_STAT, 9, 0⟩
def Reg.AUD_BTN_TH0 : Nat := 0xb0068
def Fld.AUD_BTN_TH0_TH1 : Field := ⟨Reg.AUD_BTN_TH0, 25, 16⟩
def Fld.AUD_BTN_TH0_TH0 : Field := ⟨Reg.AUD_BTN_TH0, 9, 0⟩
def Reg.AUD_BTN_TH1 : Nat := 0xb006c
def Fld.AUD_BTN_TH1_TH3 : Field := ⟨Reg.AUD_BTN_TH1, 25, 16⟩
def Fld.AUD_BTN_TH1_TH2 : Field := ⟨Reg.AUD_BTN_TH1, 9, 0⟩
def Reg.AUD_JACK_CNT : Nat := 0xb0070
def Fld.AUD_JACK_CNT_PRESSES : Field := ⟨Reg.AUD_JACK_CNT, 31, 16⟩
def Fld.AUD_JACK_CNT_INSERTS : Field := ⟨Reg.AUD_JACK_CNT, 15, 0⟩

/-! ### MIX: 14_mixer_and_rates.md R355 -/
def Reg.MIX_CTRL : Nat := 0xc0000
def Fld.MIX_CTRL_EN : Field := ⟨Reg.MIX_CTRL, 31, 31⟩
def Fld.MIX_CTRL_MODE : Field := ⟨Reg.MIX_CTRL, 8, 8⟩
def Fld.MIX_CTRL_FS : Field := ⟨Reg.MIX_CTRL, 5, 4⟩
def Fld.MIX_CTRL_D2PORT : Field := ⟨Reg.MIX_CTRL, 0, 0⟩
def Reg.MIX_STATUS : Nat := 0xc0004
def Fld.MIX_STATUS_D2_FROZEN : Field := ⟨Reg.MIX_STATUS, 8, 8⟩
def Fld.MIX_STATUS_BRLOCK : Field := ⟨Reg.MIX_STATUS, 5, 0⟩
def Reg.MIX_IRQ_STATUS : Nat := 0xc0008
def Fld.MIX_IRQ_STATUS_BR_FULL : Field := ⟨Reg.MIX_IRQ_STATUS, 13, 13⟩
def Fld.MIX_IRQ_STATUS_CAPDROP : Field := ⟨Reg.MIX_IRQ_STATUS, 12, 12⟩
def Fld.MIX_IRQ_STATUS_PBUNDER : Field := ⟨Reg.MIX_IRQ_STATUS, 11, 11⟩
def Fld.MIX_IRQ_STATUS_HODROP : Field := ⟨Reg.MIX_IRQ_STATUS, 10, 10⟩
def Fld.MIX_IRQ_STATUS_SPRATE : Field := ⟨Reg.MIX_IRQ_STATUS, 9, 8⟩
def Fld.MIX_IRQ_STATUS_SPGLITCH : Field := ⟨Reg.MIX_IRQ_STATUS, 7, 6⟩
def Fld.MIX_IRQ_STATUS_SPLOST : Field := ⟨Reg.MIX_IRQ_STATUS, 5, 4⟩
def Fld.MIX_IRQ_STATUS_CLIP : Field := ⟨Reg.MIX_IRQ_STATUS, 3, 3⟩
def Fld.MIX_IRQ_STATUS_FEAT : Field := ⟨Reg.MIX_IRQ_STATUS, 2, 2⟩
def Reg.MIX_IRQ_EN : Nat := 0xc000c
def Fld.MIX_IRQ_EN_BR_FULL : Field := ⟨Reg.MIX_IRQ_EN, 13, 13⟩
def Fld.MIX_IRQ_EN_CAPDROP : Field := ⟨Reg.MIX_IRQ_EN, 12, 12⟩
def Fld.MIX_IRQ_EN_PBUNDER : Field := ⟨Reg.MIX_IRQ_EN, 11, 11⟩
def Fld.MIX_IRQ_EN_HODROP : Field := ⟨Reg.MIX_IRQ_EN, 10, 10⟩
def Fld.MIX_IRQ_EN_SPRATE : Field := ⟨Reg.MIX_IRQ_EN, 9, 8⟩
def Fld.MIX_IRQ_EN_SPGLITCH : Field := ⟨Reg.MIX_IRQ_EN, 7, 6⟩
def Fld.MIX_IRQ_EN_SPLOST : Field := ⟨Reg.MIX_IRQ_EN, 5, 4⟩
def Fld.MIX_IRQ_EN_CLIP : Field := ⟨Reg.MIX_IRQ_EN, 3, 3⟩
def Fld.MIX_IRQ_EN_FEAT : Field := ⟨Reg.MIX_IRQ_EN, 2, 2⟩
def Reg.MIX_HOCNT : Nat := 0xc0010
def Fld.MIX_HOCNT_DROPS : Field := ⟨Reg.MIX_HOCNT, 31, 16⟩
def Fld.MIX_HOCNT_LAST : Field := ⟨Reg.MIX_HOCNT, 15, 0⟩
def Reg.MIX_SCNT (d : Nat) : Nat := 0xc0020 + 4 * d
def Fld.MIX_SCNT_SCNT (d : Nat) : Field := ⟨Reg.MIX_SCNT d, 31, 0⟩
def Reg.MIX_FEAT : Nat := 0xc0040
def Fld.MIX_FEAT_EN : Field := ⟨Reg.MIX_FEAT, 31, 31⟩
def Fld.MIX_FEAT_FRM : Field := ⟨Reg.MIX_FEAT, 2, 0⟩
def Reg.MIX_FEATSEQ_LO : Nat := 0xc0044
def Fld.MIX_FEATSEQ_LO_FEATSEQ : Field := ⟨Reg.MIX_FEATSEQ_LO, 31, 0⟩
def Reg.MIX_FEATSEQ_HI : Nat := 0xc0048
def Fld.MIX_FEATSEQ_HI_FEATSEQ : Field := ⟨Reg.MIX_FEATSEQ_HI, 15, 0⟩
def Reg.MIX_LLSEL : Nat := 0xc0060
def Fld.MIX_LLSEL_NF : Field := ⟨Reg.MIX_LLSEL, 18, 15⟩
def Fld.MIX_LLSEL_HP : Field := ⟨Reg.MIX_LLSEL, 1, 0⟩
def Reg.MIX_SPIN (i : Nat) : Nat := 0xc0080 + 4 * i
def Fld.MIX_SPIN_EN (i : Nat) : Field := ⟨Reg.MIX_SPIN i, 31, 31⟩
def Fld.MIX_SPIN_PORT (i : Nat) : Field := ⟨Reg.MIX_SPIN i, 8, 8⟩
def Fld.MIX_SPIN_SLOT (i : Nat) : Field := ⟨Reg.MIX_SPIN i, 2, 0⟩
def Reg.MIX_SPOUT (i : Nat) : Nat := 0xc0090 + 4 * i
def Fld.MIX_SPOUT_EN (i : Nat) : Field := ⟨Reg.MIX_SPOUT i, 31, 31⟩
def Fld.MIX_SPOUT_PORT (i : Nat) : Field := ⟨Reg.MIX_SPOUT i, 8, 8⟩
def Fld.MIX_SPOUT_SLOT (i : Nat) : Field := ⟨Reg.MIX_SPOUT i, 2, 0⟩
def Reg.MIX_METCFG : Nat := 0xc00a0
def Fld.MIX_METCFG_DECAY : Field := ⟨Reg.MIX_METCFG, 3, 0⟩
def Reg.MIX_METCLR : Nat := 0xc00a4
def Fld.MIX_METCLR_CLR : Field := ⟨Reg.MIX_METCLR, 19, 0⟩
def Reg.MIX_CLIP : Nat := 0xc00a8
def Fld.MIX_CLIP_CLIP : Field := ⟨Reg.MIX_CLIP, 19, 0⟩
def Reg.MIX_CAPDROP : Nat := 0xc00b0
def Fld.MIX_CAPDROP_PBU : Field := ⟨Reg.MIX_CAPDROP, 31, 16⟩
def Fld.MIX_CAPDROP_CAP : Field := ⟨Reg.MIX_CAPDROP, 15, 0⟩
def Reg.MIX_CAPDROP_CLR : Nat := 0xc00b4
def Fld.MIX_CAPDROP_CLR_CLR : Field := ⟨Reg.MIX_CAPDROP_CLR, 31, 31⟩
def Reg.MIX_BRMAP (w : Nat) : Nat := 0xc00c0 + 4 * w
def Fld.MIX_BRMAP_SRC (w : Nat) : Field := ⟨Reg.MIX_BRMAP w, 31, 0⟩
def Reg.SP_CFG (p : Nat) : Nat := 0xc0100 + 0x40 * p
def Fld.SP_CFG_EN (p : Nat) : Field := ⟨Reg.SP_CFG p, 31, 31⟩
def Fld.SP_CFG_ROLE (p : Nat) : Field := ⟨Reg.SP_CFG p, 24, 24⟩
def Fld.SP_CFG_FMT (p : Nat) : Field := ⟨Reg.SP_CFG p, 21, 20⟩
def Fld.SP_CFG_SLOTS (p : Nat) : Field := ⟨Reg.SP_CFG p, 18, 16⟩
def Fld.SP_CFG_SLOTW (p : Nat) : Field := ⟨Reg.SP_CFG p, 13, 12⟩
def Fld.SP_CFG_WLEN (p : Nat) : Field := ⟨Reg.SP_CFG p, 8, 8⟩
def Fld.SP_CFG_BCLKINV (p : Nat) : Field := ⟨Reg.SP_CFG p, 4, 4⟩
def Fld.SP_CFG_FSINV (p : Nat) : Field := ⟨Reg.SP_CFG p, 3, 3⟩
def Fld.SP_CFG_TDMDLY (p : Nat) : Field := ⟨Reg.SP_CFG p, 2, 2⟩
def Reg.SP_STATUS (p : Nat) : Nat := 0xc0104 + 0x40 * p
def Fld.SP_STATUS_LOCKED (p : Nat) : Field := ⟨Reg.SP_STATUS p, 31, 31⟩
def Fld.SP_STATUS_LOST (p : Nat) : Field := ⟨Reg.SP_STATUS p, 30, 30⟩
def Fld.SP_STATUS_CFGERR (p : Nat) : Field := ⟨Reg.SP_STATUS p, 29, 29⟩
def Fld.SP_STATUS_FPER (p : Nat) : Field := ⟨Reg.SP_STATUS p, 15, 0⟩
def Reg.SP_CNT (p : Nat) : Nat := 0xc0108 + 0x40 * p
def Fld.SP_CNT_GLITCH (p : Nat) : Field := ⟨Reg.SP_CNT p, 31, 16⟩
def Fld.SP_CNT_LOST (p : Nat) : Field := ⟨Reg.SP_CNT p, 15, 0⟩
def Reg.SP_CNT2 (p : Nat) : Nat := 0xc010c + 0x40 * p
def Fld.SP_CNT2_RATE (p : Nat) : Field := ⟨Reg.SP_CNT2 p, 15, 0⟩
def Reg.SP_CNT_CLR (p : Nat) : Nat := 0xc0110 + 0x40 * p
def Fld.SP_CNT_CLR_CLR (p : Nat) : Field := ⟨Reg.SP_CNT_CLR p, 31, 31⟩
def Reg.MIX_METER (k : Nat) : Nat := 0xc0200 + 4 * k
def Fld.MIX_METER_PEAK (k : Nat) : Field := ⟨Reg.MIX_METER k, 31, 16⟩
def Fld.MIX_METER_LEVEL (k : Nat) : Field := ⟨Reg.MIX_METER k, 15, 0⟩
def Reg.MIX_NODE (k j : Nat) : Nat := 0xc0400 + 0x80 * k + 4 * j
def Fld.MIX_NODE_CODE (k j : Nat) : Field := ⟨Reg.MIX_NODE k j, 8, 0⟩
def Reg.MIX_LLNODE (k j : Nat) : Nat := 0xc1000 + 0x20 * k + 4 * j
def Fld.MIX_LLNODE_CODE (k j : Nat) : Field := ⟨Reg.MIX_LLNODE k j, 8, 0⟩
def Reg.MIX_BQ (b i : Nat) : Nat := 0xc1100 + 0x20 * b + 4 * i
def Fld.MIX_BQ_COEF (b i : Nat) : Field := ⟨Reg.MIX_BQ b i, 23, 0⟩
def Reg.MIX_FEATBUF (w : Nat) : Nat := 0xc1200 + 4 * w
def Fld.MIX_FEATBUF_WORD (w : Nat) : Field := ⟨Reg.MIX_FEATBUF w, 15, 0⟩

/-! ### VIS: 15_camera_and_vision.md R374 -/
def Reg.VIS_IRQ_STATUS : Nat := 0xd0000
def Fld.VIS_IRQ_STATUS_CHAIN_DONE : Field := ⟨Reg.VIS_IRQ_STATUS, 7, 7⟩
def Fld.VIS_IRQ_STATUS_TIMEOUT : Field := ⟨Reg.VIS_IRQ_STATUS, 6, 6⟩
def Fld.VIS_IRQ_STATUS_DROP : Field := ⟨Reg.VIS_IRQ_STATUS, 5, 5⟩
def Fld.VIS_IRQ_STATUS_PKT_ERR : Field := ⟨Reg.VIS_IRQ_STATUS, 4, 4⟩
def Fld.VIS_IRQ_STATUS_LINE_ERR : Field := ⟨Reg.VIS_IRQ_STATUS, 3, 3⟩
def Fld.VIS_IRQ_STATUS_LONG_FRAME : Field := ⟨Reg.VIS_IRQ_STATUS, 2, 2⟩
def Fld.VIS_IRQ_STATUS_SHORT_FRAME : Field := ⟨Reg.VIS_IRQ_STATUS, 1, 1⟩
def Fld.VIS_IRQ_STATUS_FRAME_END : Field := ⟨Reg.VIS_IRQ_STATUS, 0, 0⟩
def Reg.VIS_IRQ_EN : Nat := 0xd0004
def Fld.VIS_IRQ_EN_CHAIN_DONE : Field := ⟨Reg.VIS_IRQ_EN, 7, 7⟩
def Fld.VIS_IRQ_EN_TIMEOUT : Field := ⟨Reg.VIS_IRQ_EN, 6, 6⟩
def Fld.VIS_IRQ_EN_DROP : Field := ⟨Reg.VIS_IRQ_EN, 5, 5⟩
def Fld.VIS_IRQ_EN_PKT_ERR : Field := ⟨Reg.VIS_IRQ_EN, 4, 4⟩
def Fld.VIS_IRQ_EN_LINE_ERR : Field := ⟨Reg.VIS_IRQ_EN, 3, 3⟩
def Fld.VIS_IRQ_EN_LONG_FRAME : Field := ⟨Reg.VIS_IRQ_EN, 2, 2⟩
def Fld.VIS_IRQ_EN_SHORT_FRAME : Field := ⟨Reg.VIS_IRQ_EN, 1, 1⟩
def Fld.VIS_IRQ_EN_FRAME_END : Field := ⟨Reg.VIS_IRQ_EN, 0, 0⟩
def Reg.VIS_CSI : Nat := 0xd0010
def Fld.VIS_CSI_LANES : Field := ⟨Reg.VIS_CSI, 8, 8⟩
def Fld.VIS_CSI_VC : Field := ⟨Reg.VIS_CSI, 5, 4⟩
def Fld.VIS_CSI_DT : Field := ⟨Reg.VIS_CSI, 1, 0⟩
def Reg.VIS_GEOM : Nat := 0xd0014
def Fld.VIS_GEOM_HEIGHT : Field := ⟨Reg.VIS_GEOM, 27, 16⟩
def Fld.VIS_GEOM_WIDTH : Field := ⟨Reg.VIS_GEOM, 12, 0⟩
def Reg.VIS_CAP : Nat := 0xd0018
def Fld.VIS_CAP_EN : Field := ⟨Reg.VIS_CAP, 31, 31⟩
def Fld.VIS_CAP_SLOTS : Field := ⟨Reg.VIS_CAP, 19, 16⟩
def Fld.VIS_CAP_FTMO : Field := ⟨Reg.VIS_CAP, 15, 0⟩
def Reg.VIS_CAP_BASE_LO : Nat := 0xd0020
def Fld.VIS_CAP_BASE_LO_BASE : Field := ⟨Reg.VIS_CAP_BASE_LO, 31, 12⟩
def Reg.VIS_CAP_BASE_HI : Nat := 0xd0024
def Fld.VIS_CAP_BASE_HI_BASE : Field := ⟨Reg.VIS_CAP_BASE_HI, 31, 0⟩
def Reg.VIS_CAP_SIZE : Nat := 0xd0028
def Fld.VIS_CAP_SIZE_SLOTSIZE : Field := ⟨Reg.VIS_CAP_SIZE, 31, 0⟩
def Reg.VIS_FCNT : Nat := 0xd0030
def Fld.VIS_FCNT_FCNT : Field := ⟨Reg.VIS_FCNT, 31, 0⟩
def Reg.VIS_CAP_STAT : Nat := 0xd0034
def Fld.VIS_CAP_STAT_IN_FRAME : Field := ⟨Reg.VIS_CAP_STAT, 31, 31⟩
def Fld.VIS_CAP_STAT_LINES : Field := ⟨Reg.VIS_CAP_STAT, 15, 0⟩
def Reg.VIS_CNT : Nat := 0xd0040
def Fld.VIS_CNT_LONG : Field := ⟨Reg.VIS_CNT, 31, 16⟩
def Fld.VIS_CNT_SHORT : Field := ⟨Reg.VIS_CNT, 15, 0⟩
def Reg.VIS_CNT2 : Nat := 0xd0044
def Fld.VIS_CNT2_PKTERR : Field := ⟨Reg.VIS_CNT2, 31, 16⟩
def Fld.VIS_CNT2_LINEERR : Field := ⟨Reg.VIS_CNT2, 15, 0⟩
def Reg.VIS_CNT3 : Nat := 0xd0048
def Fld.VIS_CNT3_DISCARD : Field := ⟨Reg.VIS_CNT3, 31, 16⟩
def Fld.VIS_CNT3_DROP : Field := ⟨Reg.VIS_CNT3, 15, 0⟩
def Reg.VIS_CNT_CLR : Nat := 0xd004c
def Fld.VIS_CNT_CLR_CLR : Field := ⟨Reg.VIS_CNT_CLR, 31, 31⟩
def Reg.VIS_SLOT_FRAME (s : Nat) : Nat := 0xd0080 + 8 * s
def Fld.VIS_SLOT_FRAME_FRAME (s : Nat) : Field := ⟨Reg.VIS_SLOT_FRAME s, 31, 0⟩
def Reg.VIS_SLOT_FLAGS (s : Nat) : Nat := 0xd0084 + 8 * s
def Fld.VIS_SLOT_FLAGS_VALID (s : Nat) : Field := ⟨Reg.VIS_SLOT_FLAGS s, 31, 31⟩
def Fld.VIS_SLOT_FLAGS_LOCKED (s : Nat) : Field := ⟨Reg.VIS_SLOT_FLAGS s, 30, 30⟩
def Fld.VIS_SLOT_FLAGS_FLAGS (s : Nat) : Field := ⟨Reg.VIS_SLOT_FLAGS s, 4, 0⟩
def Reg.VIS_CHAIN : Nat := 0xd0100
def Fld.VIS_CHAIN_BUSY : Field := ⟨Reg.VIS_CHAIN, 31, 31⟩
def Fld.VIS_CHAIN_QUEUED : Field := ⟨Reg.VIS_CHAIN, 23, 8⟩
def Fld.VIS_CHAIN_ENGINE : Field := ⟨Reg.VIS_CHAIN, 2, 0⟩

/-! ### USB: 16_usb_service_port.md R393 -/
def Reg.USB_IRQ_STATUS : Nat := 0xe0000
def Fld.USB_IRQ_STATUS_ISOERR : Field := ⟨Reg.USB_IRQ_STATUS, 6, 6⟩
def Fld.USB_IRQ_STATUS_CANCEL : Field := ⟨Reg.USB_IRQ_STATUS, 5, 5⟩
def Fld.USB_IRQ_STATUS_ALTSET : Field := ⟨Reg.USB_IRQ_STATUS, 4, 4⟩
def Fld.USB_IRQ_STATUS_CONFIG : Field := ⟨Reg.USB_IRQ_STATUS, 3, 3⟩
def Fld.USB_IRQ_STATUS_RESUME : Field := ⟨Reg.USB_IRQ_STATUS, 2, 2⟩
def Fld.USB_IRQ_STATUS_SUSPEND : Field := ⟨Reg.USB_IRQ_STATUS, 1, 1⟩
def Fld.USB_IRQ_STATUS_RESET : Field := ⟨Reg.USB_IRQ_STATUS, 0, 0⟩
def Reg.USB_IRQ_EN : Nat := 0xe0004
def Fld.USB_IRQ_EN_ISOERR : Field := ⟨Reg.USB_IRQ_EN, 6, 6⟩
def Fld.USB_IRQ_EN_CANCEL : Field := ⟨Reg.USB_IRQ_EN, 5, 5⟩
def Fld.USB_IRQ_EN_ALTSET : Field := ⟨Reg.USB_IRQ_EN, 4, 4⟩
def Fld.USB_IRQ_EN_CONFIG : Field := ⟨Reg.USB_IRQ_EN, 3, 3⟩
def Fld.USB_IRQ_EN_RESUME : Field := ⟨Reg.USB_IRQ_EN, 2, 2⟩
def Fld.USB_IRQ_EN_SUSPEND : Field := ⟨Reg.USB_IRQ_EN, 1, 1⟩
def Fld.USB_IRQ_EN_RESET : Field := ⟨Reg.USB_IRQ_EN, 0, 0⟩
def Reg.USB_CTRL : Nat := 0xe0010
def Fld.USB_CTRL_CONNECT : Field := ⟨Reg.USB_CTRL, 31, 31⟩
def Fld.USB_CTRL_SELFPWR : Field := ⟨Reg.USB_CTRL, 8, 8⟩
def Fld.USB_CTRL_RWAKE : Field := ⟨Reg.USB_CTRL, 4, 4⟩
def Fld.USB_CTRL_FSONLY : Field := ⟨Reg.USB_CTRL, 0, 0⟩
def Reg.USB_STATUS : Nat := 0xe0014
def Fld.USB_STATUS_CONNECTED : Field := ⟨Reg.USB_STATUS, 31, 31⟩
def Fld.USB_STATUS_HS : Field := ⟨Reg.USB_STATUS, 30, 30⟩
def Fld.USB_STATUS_SUSPENDED : Field := ⟨Reg.USB_STATUS, 29, 29⟩
def Fld.USB_STATUS_RWAKE_EN : Field := ⟨Reg.USB_STATUS, 28, 28⟩
def Fld.USB_STATUS_CFGERR : Field := ⟨Reg.USB_STATUS, 27, 27⟩
def Fld.USB_STATUS_TESTMODE : Field := ⟨Reg.USB_STATUS, 26, 24⟩
def Fld.USB_STATUS_CONFIG : Field := ⟨Reg.USB_STATUS, 23, 16⟩
def Fld.USB_STATUS_ADDRESS : Field := ⟨Reg.USB_STATUS, 14, 8⟩
def Fld.USB_STATUS_ALT_REC : Field := ⟨Reg.USB_STATUS, 3, 2⟩
def Fld.USB_STATUS_ALT_PLAY : Field := ⟨Reg.USB_STATUS, 1, 0⟩
def Reg.USB_FRAME : Nat := 0xe0018
def Fld.USB_FRAME_FRNUM : Field := ⟨Reg.USB_FRAME, 13, 3⟩
def Fld.USB_FRAME_UFRAME : Field := ⟨Reg.USB_FRAME, 2, 0⟩
def Reg.USB_SOFSTAMP_LO : Nat := 0xe0020
def Fld.USB_SOFSTAMP_LO_SOFSTAMP : Field := ⟨Reg.USB_SOFSTAMP_LO, 31, 0⟩
def Reg.USB_SOFSTAMP_HI : Nat := 0xe0024
def Fld.USB_SOFSTAMP_HI_SOFSTAMP : Field := ⟨Reg.USB_SOFSTAMP_HI, 31, 0⟩
def Reg.USB_SOFCNT : Nat := 0xe0028
def Fld.USB_SOFCNT_SOFCNT : Field := ⟨Reg.USB_SOFCNT, 31, 0⟩
def Reg.USB_IF : Nat := 0xe0030
def Fld.USB_IF_IF_VEND : Field := ⟨Reg.USB_IF, 31, 24⟩
def Fld.USB_IF_IF_REC : Field := ⟨Reg.USB_IF, 23, 16⟩
def Fld.USB_IF_IF_PLAY : Field := ⟨Reg.USB_IF, 15, 8⟩
def Fld.USB_IF_IF_AC : Field := ⟨Reg.USB_IF, 7, 0⟩
def Reg.USB_CFGVAL : Nat := 0xe0034
def Fld.USB_CFGVAL_VAL : Field := ⟨Reg.USB_CFGVAL, 7, 0⟩
def Reg.USB_UAC : Nat := 0xe0038
def Fld.USB_UAC_FS : Field := ⟨Reg.USB_UAC, 2, 0⟩
def Reg.USB_ALTFMT (i : Nat) : Nat := 0xe0040 + 4 * i
def Fld.USB_ALTFMT_NCH (i : Nat) : Field := ⟨Reg.USB_ALTFMT i, 11, 8⟩
def Fld.USB_ALTFMT_SUBSLOT (i : Nat) : Field := ⟨Reg.USB_ALTFMT i, 1, 0⟩
def Reg.USB_FB : Nat := 0xe0060
def Fld.USB_FB_V : Field := ⟨Reg.USB_FB, 31, 0⟩
def Reg.USB_CNT : Nat := 0xe0070
def Fld.USB_CNT_ISOERR : Field := ⟨Reg.USB_CNT, 31, 16⟩
def Fld.USB_CNT_CANCELS : Field := ⟨Reg.USB_CNT, 15, 0⟩
def Reg.USB_CNT2 : Nat := 0xe0074
def Fld.USB_CNT2_OVERSIZE : Field := ⟨Reg.USB_CNT2, 31, 16⟩
def Fld.USB_CNT2_STALLS : Field := ⟨Reg.USB_CNT2, 15, 0⟩
def Reg.USB_CNT3 : Nat := 0xe0078
def Fld.USB_CNT3_NOTELOST : Field := ⟨Reg.USB_CNT3, 15, 0⟩
def Reg.USB_CNT_CLR : Nat := 0xe007c
def Fld.USB_CNT_CLR_CLR : Field := ⟨Reg.USB_CNT_CLR, 31, 31⟩
def Reg.USB_TAG : Nat := 0xe0080
def Fld.USB_TAG_PENDING : Field := ⟨Reg.USB_TAG, 16, 16⟩
def Fld.USB_TAG_TAG : Field := ⟨Reg.USB_TAG, 15, 0⟩
def Reg.USB_DTDIR (e : Nat) : Nat := 0xe0100 + 0x10 * e
def Fld.USB_DTDIR_VALID (e : Nat) : Field := ⟨Reg.USB_DTDIR e, 31, 31⟩
def Fld.USB_DTDIR_SPEED (e : Nat) : Field := ⟨Reg.USB_DTDIR e, 25, 24⟩
def Fld.USB_DTDIR_TYPE (e : Nat) : Field := ⟨Reg.USB_DTDIR e, 23, 16⟩
def Fld.USB_DTDIR_INDEX (e : Nat) : Field := ⟨Reg.USB_DTDIR e, 7, 0⟩
def Reg.USB_DTLANG (e : Nat) : Nat := 0xe0104 + 0x10 * e
def Fld.USB_DTLANG_LANGID (e : Nat) : Field := ⟨Reg.USB_DTLANG e, 15, 0⟩
def Reg.USB_DTLEN (e : Nat) : Nat := 0xe0108 + 0x10 * e
def Fld.USB_DTLEN_LEN (e : Nat) : Field := ⟨Reg.USB_DTLEN e, 28, 16⟩
def Fld.USB_DTLEN_OFS (e : Nat) : Field := ⟨Reg.USB_DTLEN e, 11, 0⟩
def Reg.USB_TABLE (w : Nat) : Nat := 0xe1000 + 4 * w
def Fld.USB_TABLE_DATA (w : Nat) : Field := ⟨Reg.USB_TABLE w, 31, 0⟩

/-! ### TWB: 17_two_wire_bus.md R417 -/
def Reg.TWB_IRQ_STATUS : Nat := 0xf0000
def Fld.TWB_IRQ_STATUS_P1 : Field := ⟨Reg.TWB_IRQ_STATUS, 14, 8⟩
def Fld.TWB_IRQ_STATUS_P0 : Field := ⟨Reg.TWB_IRQ_STATUS, 6, 0⟩
def Reg.TWB_IRQ_EN : Nat := 0xf0004
def Fld.TWB_IRQ_EN_P1 : Field := ⟨Reg.TWB_IRQ_EN, 14, 8⟩
def Fld.TWB_IRQ_EN_P0 : Field := ⟨Reg.TWB_IRQ_EN, 6, 0⟩
def Reg.TWB_CFG (p : Nat) : Nat := 0xf1000 + 0x100 * p
def Fld.TWB_CFG_EN (p : Nat) : Field := ⟨Reg.TWB_CFG p, 31, 31⟩
def Fld.TWB_CFG_MODE (p : Nat) : Field := ⟨Reg.TWB_CFG p, 25, 24⟩
def Fld.TWB_CFG_RETRY (p : Nat) : Field := ⟨Reg.TWB_CFG p, 19, 16⟩
def Fld.TWB_CFG_STUCK (p : Nat) : Field := ⟨Reg.TWB_CFG p, 15, 8⟩
def Reg.TWB_SCL (p : Nat) : Nat := 0xf1004 + 0x100 * p
def Fld.TWB_SCL_CLAMPED (p : Nat) : Field := ⟨Reg.TWB_SCL p, 31, 31⟩
def Fld.TWB_SCL_LOW (p : Nat) : Field := ⟨Reg.TWB_SCL p, 27, 16⟩
def Fld.TWB_SCL_HIGH (p : Nat) : Field := ⟨Reg.TWB_SCL p, 11, 0⟩
def Reg.TWB_STATUS (p : Nat) : Nat := 0xf1008 + 0x100 * p
def Fld.TWB_STATUS_BUSY (p : Nat) : Field := ⟨Reg.TWB_STATUS p, 31, 31⟩
def Fld.TWB_STATUS_CTRL (p : Nat) : Field := ⟨Reg.TWB_STATUS p, 30, 30⟩
def Fld.TWB_STATUS_TGT (p : Nat) : Field := ⟨Reg.TWB_STATUS p, 29, 29⟩
def Fld.TWB_STATUS_STUCK (p : Nat) : Field := ⟨Reg.TWB_STATUS p, 28, 28⟩
def Fld.TWB_STATUS_SDA (p : Nat) : Field := ⟨Reg.TWB_STATUS p, 27, 27⟩
def Fld.TWB_STATUS_SCL (p : Nat) : Field := ⟨Reg.TWB_STATUS p, 26, 26⟩
def Reg.TWB_TCFG (p : Nat) : Nat := 0xf100c + 0x100 * p
def Fld.TWB_TCFG_EN (p : Nat) : Field := ⟨Reg.TWB_TCFG p, 31, 31⟩
def Fld.TWB_TCFG_WRSYNC (p : Nat) : Field := ⟨Reg.TWB_TCFG p, 30, 30⟩
def Fld.TWB_TCFG_RDSYNC (p : Nat) : Field := ⟨Reg.TWB_TCFG p, 29, 29⟩
def Fld.TWB_TCFG_TADDR (p : Nat) : Field := ⟨Reg.TWB_TCFG p, 22, 16⟩
def Fld.TWB_TCFG_TSTRETCH (p : Nat) : Field := ⟨Reg.TWB_TCFG p, 15, 0⟩
def Reg.TWB_TREG (p : Nat) : Nat := 0xf1010 + 0x100 * p
def Fld.TWB_TREG_TREG (p : Nat) : Field := ⟨Reg.TWB_TREG p, 31, 0⟩
def Reg.TWB_TSTAT (p : Nat) : Nat := 0xf1014 + 0x100 * p
def Fld.TWB_TSTAT_WRITTEN (p : Nat) : Field := ⟨Reg.TWB_TSTAT p, 31, 31⟩
def Fld.TWB_TSTAT_READ (p : Nat) : Field := ⟨Reg.TWB_TSTAT p, 30, 30⟩
def Fld.TWB_TSTAT_ATT_PEND (p : Nat) : Field := ⟨Reg.TWB_TSTAT p, 29, 29⟩
def Fld.TWB_TSTAT_WBYTES (p : Nat) : Field := ⟨Reg.TWB_TSTAT p, 26, 24⟩
def Reg.TWB_TCTL (p : Nat) : Nat := 0xf1018 + 0x100 * p
def Fld.TWB_TCTL_ATT (p : Nat) : Field := ⟨Reg.TWB_TCTL p, 0, 0⟩
def Reg.TWB_CNT (p : Nat) : Nat := 0xf101c + 0x100 * p
def Fld.TWB_CNT_ARBLOST (p : Nat) : Field := ⟨Reg.TWB_CNT p, 31, 16⟩
def Fld.TWB_CNT_NACK (p : Nat) : Field := ⟨Reg.TWB_CNT p, 15, 0⟩
def Reg.TWB_CNT2 (p : Nat) : Nat := 0xf1020 + 0x100 * p
def Fld.TWB_CNT2_STUCK (p : Nat) : Field := ⟨Reg.TWB_CNT2 p, 31, 16⟩
def Fld.TWB_CNT2_ATTN (p : Nat) : Field := ⟨Reg.TWB_CNT2 p, 15, 0⟩
def Reg.TWB_CNT3 (p : Nat) : Nat := 0xf1024 + 0x100 * p
def Fld.TWB_CNT3_OVER (p : Nat) : Field := ⟨Reg.TWB_CNT3 p, 31, 16⟩
def Fld.TWB_CNT3_COLLIDE (p : Nat) : Field := ⟨Reg.TWB_CNT3 p, 15, 0⟩
def Reg.TWB_CNT_CLR (p : Nat) : Nat := 0xf1028 + 0x100 * p
def Fld.TWB_CNT_CLR_CLR (p : Nat) : Field := ⟨Reg.TWB_CNT_CLR p, 31, 31⟩

/-! ### VXL: 18_cascade.md R443 -/
def Reg.VXL_IRQ_STATUS : Nat := 0x100000
def Fld.VXL_IRQ_STATUS_WAKE : Field := ⟨Reg.VXL_IRQ_STATUS, 12, 12⟩
def Fld.VXL_IRQ_STATUS_ACQ_FAIL : Field := ⟨Reg.VXL_IRQ_STATUS, 11, 11⟩
def Fld.VXL_IRQ_STATUS_SLEEP_CANCEL : Field := ⟨Reg.VXL_IRQ_STATUS, 10, 10⟩
def Fld.VXL_IRQ_STATUS_SLEEP_COMMIT : Field := ⟨Reg.VXL_IRQ_STATUS, 9, 9⟩
def Fld.VXL_IRQ_STATUS_JOIN_REFUSED : Field := ⟨Reg.VXL_IRQ_STATUS, 8, 8⟩
def Fld.VXL_IRQ_STATUS_JOINED : Field := ⟨Reg.VXL_IRQ_STATUS, 7, 7⟩
def Fld.VXL_IRQ_STATUS_TICKSLIP : Field := ⟨Reg.VXL_IRQ_STATUS, 6, 6⟩
def Fld.VXL_IRQ_STATUS_TDIV_MIS : Field := ⟨Reg.VXL_IRQ_STATUS, 5, 5⟩
def Fld.VXL_IRQ_STATUS_BEACON_LOST : Field := ⟨Reg.VXL_IRQ_STATUS, 4, 4⟩
def Fld.VXL_IRQ_STATUS_RETX : Field := ⟨Reg.VXL_IRQ_STATUS, 3, 3⟩
def Fld.VXL_IRQ_STATUS_CRC_ERR : Field := ⟨Reg.VXL_IRQ_STATUS, 2, 2⟩
def Fld.VXL_IRQ_STATUS_PEER_LOST : Field := ⟨Reg.VXL_IRQ_STATUS, 1, 1⟩
def Fld.VXL_IRQ_STATUS_RX_LOSS : Field := ⟨Reg.VXL_IRQ_STATUS, 0, 0⟩
def Reg.VXL_IRQ_EN : Nat := 0x100004
def Fld.VXL_IRQ_EN_WAKE : Field := ⟨Reg.VXL_IRQ_EN, 12, 12⟩
def Fld.VXL_IRQ_EN_ACQ_FAIL : Field := ⟨Reg.VXL_IRQ_EN, 11, 11⟩
def Fld.VXL_IRQ_EN_SLEEP_CANCEL : Field := ⟨Reg.VXL_IRQ_EN, 10, 10⟩
def Fld.VXL_IRQ_EN_SLEEP_COMMIT : Field := ⟨Reg.VXL_IRQ_EN, 9, 9⟩
def Fld.VXL_IRQ_EN_JOIN_REFUSED : Field := ⟨Reg.VXL_IRQ_EN, 8, 8⟩
def Fld.VXL_IRQ_EN_JOINED : Field := ⟨Reg.VXL_IRQ_EN, 7, 7⟩
def Fld.VXL_IRQ_EN_TICKSLIP : Field := ⟨Reg.VXL_IRQ_EN, 6, 6⟩
def Fld.VXL_IRQ_EN_TDIV_MIS : Field := ⟨Reg.VXL_IRQ_EN, 5, 5⟩
def Fld.VXL_IRQ_EN_BEACON_LOST : Field := ⟨Reg.VXL_IRQ_EN, 4, 4⟩
def Fld.VXL_IRQ_EN_RETX : Field := ⟨Reg.VXL_IRQ_EN, 3, 3⟩
def Fld.VXL_IRQ_EN_CRC_ERR : Field := ⟨Reg.VXL_IRQ_EN, 2, 2⟩
def Fld.VXL_IRQ_EN_PEER_LOST : Field := ⟨Reg.VXL_IRQ_EN, 1, 1⟩
def Fld.VXL_IRQ_EN_RX_LOSS : Field := ⟨Reg.VXL_IRQ_EN, 0, 0⟩
def Reg.VXL_CFG : Nat := 0x100010
def Fld.VXL_CFG_EN : Field := ⟨Reg.VXL_CFG, 31, 31⟩
def Fld.VXL_CFG_OPEN : Field := ⟨Reg.VXL_CFG, 24, 24⟩
def Fld.VXL_CFG_AUD : Field := ⟨Reg.VXL_CFG, 17, 17⟩
def Fld.VXL_CFG_FEAT : Field := ⟨Reg.VXL_CFG, 16, 16⟩
def Fld.VXL_CFG_MISSLIM : Field := ⟨Reg.VXL_CFG, 15, 8⟩
def Fld.VXL_CFG_MAXRETX : Field := ⟨Reg.VXL_CFG, 1, 0⟩
def Reg.VXL_STATUS : Nat := 0x100014
def Fld.VXL_STATUS_RXLOCK : Field := ⟨Reg.VXL_STATUS, 31, 31⟩
def Fld.VXL_STATUS_WAKE_LOW : Field := ⟨Reg.VXL_STATUS, 30, 30⟩
def Fld.VXL_STATUS_WAKE_LATCH : Field := ⟨Reg.VXL_STATUS, 29, 29⟩
def Fld.VXL_STATUS_MASTER : Field := ⟨Reg.VXL_STATUS, 28, 28⟩
def Fld.VXL_STATUS_CASC_ID : Field := ⟨Reg.VXL_STATUS, 26, 24⟩
def Fld.VXL_STATUS_STATE : Field := ⟨Reg.VXL_STATUS, 18, 16⟩
def Reg.VXL_ROSTER : Nat := 0x100018
def Fld.VXL_ROSTER_RESERVED : Field := ⟨Reg.VXL_ROSTER, 15, 8⟩
def Fld.VXL_ROSTER_PRESENT : Field := ⟨Reg.VXL_ROSTER, 7, 0⟩
def Reg.VXL_LOOP : Nat := 0x10001c
def Fld.VXL_LOOP_LOOP : Field := ⟨Reg.VXL_LOOP, 15, 0⟩
def Reg.VXL_SLPCFG : Nat := 0x100020
def Fld.VXL_SLPCFG_AGREE : Field := ⟨Reg.VXL_SLPCFG, 31, 31⟩
def Fld.VXL_SLPCFG_SETTLE : Field := ⟨Reg.VXL_SLPCFG, 15, 0⟩
def Reg.VXL_WAKE : Nat := 0x100024
def Fld.VXL_WAKE_REQ : Field := ⟨Reg.VXL_WAKE, 0, 0⟩
def Reg.VXL_RXBASE_LO : Nat := 0x100028
def Fld.VXL_RXBASE_LO_RXBASE : Field := ⟨Reg.VXL_RXBASE_LO, 31, 12⟩
def Reg.VXL_RXBASE_HI : Nat := 0x10002c
def Fld.VXL_RXBASE_HI_RXBASE : Field := ⟨Reg.VXL_RXBASE_HI, 31, 0⟩
def Reg.VXL_RXCFG : Nat := 0x100030
def Fld.VXL_RXCFG_EN : Field := ⟨Reg.VXL_RXCFG, 31, 31⟩
def Fld.VXL_RXCFG_NCH : Field := ⟨Reg.VXL_RXCFG, 26, 24⟩
def Fld.VXL_RXCFG_SINKS : Field := ⟨Reg.VXL_RXCFG, 19, 0⟩
def Reg.VXL_SLPTICK_LO : Nat := 0x100038
def Fld.VXL_SLPTICK_LO_SLPTICK : Field := ⟨Reg.VXL_SLPTICK_LO, 31, 0⟩
def Reg.VXL_SLPTICK_HI : Nat := 0x10003c
def Fld.VXL_SLPTICK_HI_SLPTICK : Field := ⟨Reg.VXL_SLPTICK_HI, 15, 0⟩
def Reg.VXL_PEER (d : Nat) : Nat := 0x100040 + 4 * d
def Fld.VXL_PEER_MISS (d : Nat) : Field := ⟨Reg.VXL_PEER d, 31, 24⟩
def Fld.VXL_PEER_STATE (d : Nat) : Field := ⟨Reg.VXL_PEER d, 18, 16⟩
def Fld.VXL_PEER_RUNNING (d : Nat) : Field := ⟨Reg.VXL_PEER d, 13, 8⟩
def Fld.VXL_PEER_LATE (d : Nat) : Field := ⟨Reg.VXL_PEER d, 1, 1⟩
def Fld.VXL_PEER_STALE (d : Nat) : Field := ⟨Reg.VXL_PEER d, 0, 0⟩
def Reg.VXL_CNT : Nat := 0x100060
def Fld.VXL_CNT_RETX : Field := ⟨Reg.VXL_CNT, 31, 16⟩
def Fld.VXL_CNT_CRCERR : Field := ⟨Reg.VXL_CNT, 15, 0⟩
def Reg.VXL_CNT2 : Nat := 0x100064
def Fld.VXL_CNT2_LOST : Field := ⟨Reg.VXL_CNT2, 31, 16⟩
def Fld.VXL_CNT2_RXDROP : Field := ⟨Reg.VXL_CNT2, 15, 0⟩
def Reg.VXL_CNT3 : Nat := 0x100068
def Fld.VXL_CNT3_TICKSLIP : Field := ⟨Reg.VXL_CNT3, 31, 16⟩
def Fld.VXL_CNT3_BLOST : Field := ⟨Reg.VXL_CNT3, 15, 0⟩
def Reg.VXL_CNT_CLR : Nat := 0x10006c
def Fld.VXL_CNT_CLR_CLR : Field := ⟨Reg.VXL_CNT_CLR, 31, 31⟩

/-! ### MEM: 19_lpddr_memory.md R462 -/
def Reg.MEM_IRQ_STATUS : Nat := 0x110000
def Fld.MEM_IRQ_STATUS_TEMP_HI : Field := ⟨Reg.MEM_IRQ_STATUS, 8, 8⟩
def Fld.MEM_IRQ_STATUS_WIN_NR : Field := ⟨Reg.MEM_IRQ_STATUS, 7, 7⟩
def Fld.MEM_IRQ_STATUS_READY : Field := ⟨Reg.MEM_IRQ_STATUS, 6, 6⟩
def Fld.MEM_IRQ_STATUS_TRAIN_ERR : Field := ⟨Reg.MEM_IRQ_STATUS, 5, 5⟩
def Fld.MEM_IRQ_STATUS_RANGE : Field := ⟨Reg.MEM_IRQ_STATUS, 4, 4⟩
def Fld.MEM_IRQ_STATUS_SCRUB_UNCORR : Field := ⟨Reg.MEM_IRQ_STATUS, 3, 3⟩
def Fld.MEM_IRQ_STATUS_RETRY : Field := ⟨Reg.MEM_IRQ_STATUS, 2, 2⟩
def Fld.MEM_IRQ_STATUS_UNCORR : Field := ⟨Reg.MEM_IRQ_STATUS, 1, 1⟩
def Fld.MEM_IRQ_STATUS_CORR : Field := ⟨Reg.MEM_IRQ_STATUS, 0, 0⟩
def Reg.MEM_IRQ_EN : Nat := 0x110004
def Fld.MEM_IRQ_EN_TEMP_HI : Field := ⟨Reg.MEM_IRQ_EN, 8, 8⟩
def Fld.MEM_IRQ_EN_WIN_NR : Field := ⟨Reg.MEM_IRQ_EN, 7, 7⟩
def Fld.MEM_IRQ_EN_READY : Field := ⟨Reg.MEM_IRQ_EN, 6, 6⟩
def Fld.MEM_IRQ_EN_TRAIN_ERR : Field := ⟨Reg.MEM_IRQ_EN, 5, 5⟩
def Fld.MEM_IRQ_EN_RANGE : Field := ⟨Reg.MEM_IRQ_EN, 4, 4⟩
def Fld.MEM_IRQ_EN_SCRUB_UNCORR : Field := ⟨Reg.MEM_IRQ_EN, 3, 3⟩
def Fld.MEM_IRQ_EN_RETRY : Field := ⟨Reg.MEM_IRQ_EN, 2, 2⟩
def Fld.MEM_IRQ_EN_UNCORR : Field := ⟨Reg.MEM_IRQ_EN, 1, 1⟩
def Fld.MEM_IRQ_EN_CORR : Field := ⟨Reg.MEM_IRQ_EN, 0, 0⟩
def Reg.MEM_CTRL : Nat := 0x110010
def Fld.MEM_CTRL_REINIT : Field := ⟨Reg.MEM_CTRL, 31, 31⟩
def Fld.MEM_CTRL_IECC : Field := ⟨Reg.MEM_CTRL, 8, 8⟩
def Fld.MEM_CTRL_RETRAIN : Field := ⟨Reg.MEM_CTRL, 0, 0⟩
def Reg.MEM_STATUS : Nat := 0x110014
def Fld.MEM_STATUS_TRAINED : Field := ⟨Reg.MEM_STATUS, 31, 31⟩
def Fld.MEM_STATUS_INITIALISING : Field := ⟨Reg.MEM_STATUS, 30, 30⟩
def Fld.MEM_STATUS_IECC_ON : Field := ⟨Reg.MEM_STATUS, 29, 29⟩
def Fld.MEM_STATUS_TRAIN_ERR : Field := ⟨Reg.MEM_STATUS, 27, 24⟩
def Fld.MEM_STATUS_TRAIN_CODE : Field := ⟨Reg.MEM_STATUS, 17, 16⟩
def Fld.MEM_STATUS_SIZE : Field := ⟨Reg.MEM_STATUS, 9, 8⟩
def Fld.MEM_STATUS_RANKS : Field := ⟨Reg.MEM_STATUS, 4, 4⟩
def Reg.MEM_USABLE : Nat := 0x110018
def Fld.MEM_USABLE_USABLE_MIB : Field := ⟨Reg.MEM_USABLE, 31, 0⟩
def Reg.MEM_WINBASE_LO : Nat := 0x110020
def Fld.MEM_WINBASE_LO_WINBASE : Field := ⟨Reg.MEM_WINBASE_LO, 31, 25⟩
def Reg.MEM_WINBASE_HI : Nat := 0x110024
def Fld.MEM_WINBASE_HI_WINBASE : Field := ⟨Reg.MEM_WINBASE_HI, 31, 0⟩
def Reg.MEM_SCRUB : Nat := 0x110030
def Fld.MEM_SCRUB_EN : Field := ⟨Reg.MEM_SCRUB, 31, 31⟩
def Fld.MEM_SCRUB_PERIOD : Field := ⟨Reg.MEM_SCRUB, 7, 0⟩
def Reg.MEM_SCRUBPASS : Nat := 0x110034
def Fld.MEM_SCRUBPASS_PASS : Field := ⟨Reg.MEM_SCRUBPASS, 31, 0⟩
def Reg.MEM_CNT : Nat := 0x110040
def Fld.MEM_CNT_LINK_CORR : Field := ⟨Reg.MEM_CNT, 31, 16⟩
def Fld.MEM_CNT_CORR : Field := ⟨Reg.MEM_CNT, 15, 0⟩
def Reg.MEM_CNT2 : Nat := 0x110044
def Fld.MEM_CNT2_RETRY_OK : Field := ⟨Reg.MEM_CNT2, 31, 16⟩
def Fld.MEM_CNT2_UNCORR : Field := ⟨Reg.MEM_CNT2, 15, 0⟩
def Reg.MEM_CNT3 : Nat := 0x110048
def Fld.MEM_CNT3_SCRUB_UNCORR : Field := ⟨Reg.MEM_CNT3, 31, 16⟩
def Fld.MEM_CNT3_SCRUB_CORR : Field := ⟨Reg.MEM_CNT3, 15, 0⟩
def Reg.MEM_CNT_CLR : Nat := 0x11004c
def Fld.MEM_CNT_CLR_CLR : Field := ⟨Reg.MEM_CNT_CLR, 31, 31⟩
def Reg.MEM_ERRADDR_LO : Nat := 0x110050
def Fld.MEM_ERRADDR_LO_ADDR : Field := ⟨Reg.MEM_ERRADDR_LO, 31, 3⟩
def Reg.MEM_ERRADDR_HI : Nat := 0x110054
def Fld.MEM_ERRADDR_HI_ADDR : Field := ⟨Reg.MEM_ERRADDR_HI, 1, 0⟩
def Reg.MEM_ERRSRC : Nat := 0x110058
def Fld.MEM_ERRSRC_VALID : Field := ⟨Reg.MEM_ERRSRC, 31, 31⟩
def Fld.MEM_ERRSRC_SRC : Field := ⟨Reg.MEM_ERRSRC, 2, 0⟩
def Reg.MEM_TEMP : Nat := 0x110060
def Fld.MEM_TEMP_TEMP : Field := ⟨Reg.MEM_TEMP, 2, 0⟩

/-! ### PWR: 20_power_clocks_reset.md R485 -/
def Reg.PWR_IRQ_STATUS : Nat := 0x120000
def Fld.PWR_IRQ_STATUS_FRST_DONE : Field := ⟨Reg.PWR_IRQ_STATUS, 5, 5⟩
def Fld.PWR_IRQ_STATUS_PLL_LOST : Field := ⟨Reg.PWR_IRQ_STATUS, 4, 4⟩
def Fld.PWR_IRQ_STATUS_HOLD_LOW : Field := ⟨Reg.PWR_IRQ_STATUS, 3, 3⟩
def Fld.PWR_IRQ_STATUS_VWARN : Field := ⟨Reg.PWR_IRQ_STATUS, 2, 2⟩
def Fld.PWR_IRQ_STATUS_REFUSED : Field := ⟨Reg.PWR_IRQ_STATUS, 1, 1⟩
def Fld.PWR_IRQ_STATUS_DONE : Field := ⟨Reg.PWR_IRQ_STATUS, 0, 0⟩
def Reg.PWR_IRQ_EN : Nat := 0x120004
def Fld.PWR_IRQ_EN_FRST_DONE : Field := ⟨Reg.PWR_IRQ_EN, 5, 5⟩
def Fld.PWR_IRQ_EN_PLL_LOST : Field := ⟨Reg.PWR_IRQ_EN, 4, 4⟩
def Fld.PWR_IRQ_EN_HOLD_LOW : Field := ⟨Reg.PWR_IRQ_EN, 3, 3⟩
def Fld.PWR_IRQ_EN_VWARN : Field := ⟨Reg.PWR_IRQ_EN, 2, 2⟩
def Fld.PWR_IRQ_EN_REFUSED : Field := ⟨Reg.PWR_IRQ_EN, 1, 1⟩
def Fld.PWR_IRQ_EN_DONE : Field := ⟨Reg.PWR_IRQ_EN, 0, 0⟩
def Reg.PWR_CMD : Nat := 0x120010
def Fld.PWR_CMD_TARGET : Field := ⟨Reg.PWR_CMD, 2, 0⟩
def Reg.PWR_STATUS : Nat := 0x120014
def Fld.PWR_STATUS_VWARN : Field := ⟨Reg.PWR_STATUS, 26, 26⟩
def Fld.PWR_STATUS_LEHR_EN : Field := ⟨Reg.PWR_STATUS, 25, 25⟩
def Fld.PWR_STATUS_HOLD_OK : Field := ⟨Reg.PWR_STATUS, 24, 24⟩
def Fld.PWR_STATUS_ERR : Field := ⟨Reg.PWR_STATUS, 19, 16⟩
def Fld.PWR_STATUS_BUSY : Field := ⟨Reg.PWR_STATUS, 8, 8⟩
def Fld.PWR_STATUS_PREV : Field := ⟨Reg.PWR_STATUS, 6, 4⟩
def Fld.PWR_STATUS_STATE : Field := ⟨Reg.PWR_STATUS, 2, 0⟩
def Reg.PWR_CTRL : Nat := 0x120018
def Fld.PWR_CTRL_WARM : Field := ⟨Reg.PWR_CTRL, 31, 31⟩
def Reg.PWR_FRST : Nat := 0x12001c
def Fld.PWR_FRST_FRST : Field := ⟨Reg.PWR_FRST, 19, 0⟩
def Reg.PWR_RSTCAUSE : Nat := 0x120020
def Fld.PWR_RSTCAUSE_COLD : Field := ⟨Reg.PWR_RSTCAUSE, 8, 8⟩
def Fld.PWR_RSTCAUSE_CAUSE : Field := ⟨Reg.PWR_RSTCAUSE, 3, 0⟩
def Reg.PWR_PLL : Nat := 0x120024
def Fld.PWR_PLL_XTAL_OK : Field := ⟨Reg.PWR_PLL, 24, 24⟩
def Fld.PWR_PLL_VXLTX : Field := ⟨Reg.PWR_PLL, 21, 21⟩
def Fld.PWR_PLL_PCIE : Field := ⟨Reg.PWR_PLL, 20, 20⟩
def Fld.PWR_PLL_USB : Field := ⟨Reg.PWR_PLL, 19, 19⟩
def Fld.PWR_PLL_MEM : Field := ⟨Reg.PWR_PLL, 18, 18⟩
def Fld.PWR_PLL_FABRIC : Field := ⟨Reg.PWR_PLL, 17, 17⟩
def Fld.PWR_PLL_TICK : Field := ⟨Reg.PWR_PLL, 16, 16⟩
def Fld.PWR_PLL_NCLK : Field := ⟨Reg.PWR_PLL, 15, 0⟩
def Reg.PWR_VMON : Nat := 0x120028
def Fld.PWR_VMON_VHOLD : Field := ⟨Reg.PWR_VMON, 25, 16⟩
def Fld.PWR_VMON_VIN : Field := ⟨Reg.PWR_VMON, 9, 0⟩
def Reg.PWR_VWARN : Nat := 0x12002c
def Fld.PWR_VWARN_TH : Field := ⟨Reg.PWR_VWARN, 9, 0⟩
def Reg.PWR_VSAG : Nat := 0x120030
def Fld.PWR_VSAG_CODE : Field := ⟨Reg.PWR_VSAG, 7, 0⟩
def Reg.LEHR_STATUS : Nat := 0x120040
def Fld.LEHR_STATUS_CHECKED : Field := ⟨Reg.LEHR_STATUS, 3, 3⟩
def Fld.LEHR_STATUS_NEWEST : Field := ⟨Reg.LEHR_STATUS, 2, 2⟩
def Fld.LEHR_STATUS_VALID_B : Field := ⟨Reg.LEHR_STATUS, 1, 1⟩
def Fld.LEHR_STATUS_VALID_A : Field := ⟨Reg.LEHR_STATUS, 0, 0⟩
def Reg.LEHR_SEQ_A : Nat := 0x120044
def Fld.LEHR_SEQ_A_SEQ_A : Field := ⟨Reg.LEHR_SEQ_A, 31, 0⟩
def Reg.LEHR_SEQ_B : Nat := 0x120048
def Fld.LEHR_SEQ_B_SEQ_B : Field := ⟨Reg.LEHR_SEQ_B, 31, 0⟩
def Reg.LEHR_CTRL : Nat := 0x12004c
def Fld.LEHR_CTRL_ERASE : Field := ⟨Reg.LEHR_CTRL, 31, 31⟩
def Fld.LEHR_CTRL_KEY : Field := ⟨Reg.LEHR_CTRL, 15, 0⟩
def Reg.LEHR_PAGE : Nat := 0x120050
def Fld.LEHR_PAGE_PAGE : Field := ⟨Reg.LEHR_PAGE, 3, 0⟩
def Reg.LEHR_USER (w : Nat) : Nat := 0x128000 + 4 * w
def Fld.LEHR_USER_DATA (w : Nat) : Field := ⟨Reg.LEHR_USER w, 31, 0⟩

/-! ### FUS: 21_fuses_and_trust.md R505 -/
def Reg.FUS_IRQ_STATUS : Nat := 0x130000
def Fld.FUS_IRQ_STATUS_WREFUSED : Field := ⟨Reg.FUS_IRQ_STATUS, 3, 3⟩
def Fld.FUS_IRQ_STATUS_AUTH_FAIL : Field := ⟨Reg.FUS_IRQ_STATUS, 2, 2⟩
def Fld.FUS_IRQ_STATUS_PROG_ERR : Field := ⟨Reg.FUS_IRQ_STATUS, 1, 1⟩
def Fld.FUS_IRQ_STATUS_PROG_DONE : Field := ⟨Reg.FUS_IRQ_STATUS, 0, 0⟩
def Reg.FUS_IRQ_EN : Nat := 0x130004
def Fld.FUS_IRQ_EN_WREFUSED : Field := ⟨Reg.FUS_IRQ_EN, 3, 3⟩
def Fld.FUS_IRQ_EN_AUTH_FAIL : Field := ⟨Reg.FUS_IRQ_EN, 2, 2⟩
def Fld.FUS_IRQ_EN_PROG_ERR : Field := ⟨Reg.FUS_IRQ_EN, 1, 1⟩
def Fld.FUS_IRQ_EN_PROG_DONE : Field := ⟨Reg.FUS_IRQ_EN, 0, 0⟩
def Reg.FUS_STATUS : Nat := 0x130010
def Fld.FUS_STATUS_MISMATCH : Field := ⟨Reg.FUS_STATUS, 31, 16⟩
def Fld.FUS_STATUS_VPROG_OK : Field := ⟨Reg.FUS_STATUS, 8, 8⟩
def Fld.FUS_STATUS_DEVKEY : Field := ⟨Reg.FUS_STATUS, 7, 7⟩
def Fld.FUS_STATUS_BLANK1 : Field := ⟨Reg.FUS_STATUS, 5, 5⟩
def Fld.FUS_STATUS_BLANK0 : Field := ⟨Reg.FUS_STATUS, 4, 4⟩
def Fld.FUS_STATUS_REVOKED1 : Field := ⟨Reg.FUS_STATUS, 3, 3⟩
def Fld.FUS_STATUS_REVOKED0 : Field := ⟨Reg.FUS_STATUS, 2, 2⟩
def Fld.FUS_STATUS_DEBUG_LOCKED : Field := ⟨Reg.FUS_STATUS, 1, 1⟩
def Fld.FUS_STATUS_PROT_LOCKED : Field := ⟨Reg.FUS_STATUS, 0, 0⟩
def Reg.FUS_CFG : Nat := 0x130020
def Fld.FUS_CFG_LEHR_EN : Field := ⟨Reg.FUS_CFG, 8, 8⟩
def Fld.FUS_CFG_VSAG : Field := ⟨Reg.FUS_CFG, 6, 0⟩
def Reg.FUS_DISLVL0 : Nat := 0x130024
def Fld.FUS_DISLVL0_DIS : Field := ⟨Reg.FUS_DISLVL0, 29, 0⟩
def Reg.FUS_DISLVL1 : Nat := 0x130028
def Fld.FUS_DISLVL1_DIS : Field := ⟨Reg.FUS_DISLVL1, 17, 0⟩
def Reg.FUS_AXIS (n : Nat) : Nat := 0x130030 + 4 * n
def Fld.FUS_AXIS_DTFLOOR (n : Nat) : Field := ⟨Reg.FUS_AXIS n, 29, 20⟩
def Fld.FUS_AXIS_OV_CEIL (n : Nat) : Field := ⟨Reg.FUS_AXIS n, 19, 10⟩
def Fld.FUS_AXIS_OC_CEIL (n : Nat) : Field := ⟨Reg.FUS_AXIS n, 9, 0⟩
def Reg.FUS_FMAX (n : Nat) : Nat := 0x130050 + 4 * n
def Fld.FUS_FMAX_FMAX (n : Nat) : Field := ⟨Reg.FUS_FMAX n, 15, 0⟩
def Reg.FUS_FPEAK (p : Nat) : Nat := 0x130070 + 4 * p
def Fld.FUS_FPEAK_FPEAK (p : Nat) : Field := ⟨Reg.FUS_FPEAK p, 11, 0⟩
def Reg.FUS_KEYHASH0 (i : Nat) : Nat := 0x130080 + 4 * i
def Fld.FUS_KEYHASH0_HASH0 (i : Nat) : Field := ⟨Reg.FUS_KEYHASH0 i, 31, 0⟩
def Reg.FUS_KEYHASH1 (i : Nat) : Nat := 0x1300a0 + 4 * i
def Fld.FUS_KEYHASH1_HASH1 (i : Nat) : Field := ⟨Reg.FUS_KEYHASH1 i, 31, 0⟩
def Reg.FUS_PADDR : Nat := 0x130100
def Fld.FUS_PADDR_WORD : Field := ⟨Reg.FUS_PADDR, 5, 0⟩
def Reg.FUS_PDATA : Nat := 0x130104
def Fld.FUS_PDATA_DATA : Field := ⟨Reg.FUS_PDATA, 31, 0⟩
def Reg.FUS_PCMD : Nat := 0x130108
def Fld.FUS_PCMD_KEY : Field := ⟨Reg.FUS_PCMD, 31, 16⟩
def Fld.FUS_PCMD_GO : Field := ⟨Reg.FUS_PCMD, 0, 0⟩
def Reg.FUS_PSTAT : Nat := 0x13010c
def Fld.FUS_PSTAT_BUSY : Field := ⟨Reg.FUS_PSTAT, 31, 31⟩
def Fld.FUS_PSTAT_PULSES : Field := ⟨Reg.FUS_PSTAT, 23, 16⟩
def Fld.FUS_PSTAT_ERR : Field := ⟨Reg.FUS_PSTAT, 3, 0⟩
def Reg.FUS_SIGCNT : Nat := 0x130110
def Fld.FUS_SIGCNT_FAIL : Field := ⟨Reg.FUS_SIGCNT, 31, 16⟩
def Fld.FUS_SIGCNT_OK : Field := ⟨Reg.FUS_SIGCNT, 15, 0⟩
def Reg.FUS_SIGCNT_CLR : Nat := 0x130114
def Fld.FUS_SIGCNT_CLR_CLR : Field := ⟨Reg.FUS_SIGCNT_CLR, 31, 31⟩
def Reg.FUS_LASTAUTH : Nat := 0x130118
def Fld.FUS_LASTAUTH_SLOT : Field := ⟨Reg.FUS_LASTAUTH, 8, 8⟩
def Fld.FUS_LASTAUTH_REASON : Field := ⟨Reg.FUS_LASTAUTH, 7, 0⟩
def Reg.FUS_RAW (w : Nat) : Nat := 0x130200 + 4 * w
def Fld.FUS_RAW_RAW (w : Nat) : Field := ⟨Reg.FUS_RAW w, 31, 0⟩

/-! ### LOG: 22_telemetry_and_long_run.md R525 -/
def Reg.LOG_IRQ_STATUS : Nat := 0x140000
def Fld.LOG_IRQ_STATUS_HALT : Field := ⟨Reg.LOG_IRQ_STATUS, 5, 5⟩
def Fld.LOG_IRQ_STATUS_MLOST : Field := ⟨Reg.LOG_IRQ_STATUS, 4, 4⟩
def Fld.LOG_IRQ_STATUS_MIRROR : Field := ⟨Reg.LOG_IRQ_STATUS, 3, 3⟩
def Fld.LOG_IRQ_STATUS_QLOST : Field := ⟨Reg.LOG_IRQ_STATUS, 2, 2⟩
def Fld.LOG_IRQ_STATUS_WRAPPED : Field := ⟨Reg.LOG_IRQ_STATUS, 1, 1⟩
def Fld.LOG_IRQ_STATUS_FULL : Field := ⟨Reg.LOG_IRQ_STATUS, 0, 0⟩
def Reg.LOG_IRQ_EN : Nat := 0x140004
def Fld.LOG_IRQ_EN_HALT : Field := ⟨Reg.LOG_IRQ_EN, 5, 5⟩
def Fld.LOG_IRQ_EN_MLOST : Field := ⟨Reg.LOG_IRQ_EN, 4, 4⟩
def Fld.LOG_IRQ_EN_MIRROR : Field := ⟨Reg.LOG_IRQ_EN, 3, 3⟩
def Fld.LOG_IRQ_EN_QLOST : Field := ⟨Reg.LOG_IRQ_EN, 2, 2⟩
def Fld.LOG_IRQ_EN_WRAPPED : Field := ⟨Reg.LOG_IRQ_EN, 1, 1⟩
def Fld.LOG_IRQ_EN_FULL : Field := ⟨Reg.LOG_IRQ_EN, 0, 0⟩
def Reg.LOG_CFG : Nat := 0x140010
def Fld.LOG_CFG_EN : Field := ⟨Reg.LOG_CFG, 31, 31⟩
def Fld.LOG_CFG_MODE : Field := ⟨Reg.LOG_CFG, 0, 0⟩
def Reg.LOG_STATUS : Nat := 0x140014
def Fld.LOG_STATUS_FULL : Field := ⟨Reg.LOG_STATUS, 31, 31⟩
def Fld.LOG_STATUS_COUNT : Field := ⟨Reg.LOG_STATUS, 12, 0⟩
def Reg.LOG_WIDX : Nat := 0x140018
def Fld.LOG_WIDX_WIDX : Field := ⟨Reg.LOG_WIDX, 11, 0⟩
def Reg.LOG_RIDX : Nat := 0x14001c
def Fld.LOG_RIDX_RIDX : Field := ⟨Reg.LOG_RIDX, 11, 0⟩
def Reg.LOG_TOTAL : Nat := 0x140020
def Fld.LOG_TOTAL_TOTAL : Field := ⟨Reg.LOG_TOTAL, 31, 0⟩
def Reg.LOG_LOST : Nat := 0x140024
def Fld.LOG_LOST_LOST : Field := ⟨Reg.LOG_LOST, 31, 0⟩
def Reg.LOG_LOSS : Nat := 0x140028
def Fld.LOG_LOSS_MLOST : Field := ⟨Reg.LOG_LOSS, 31, 16⟩
def Fld.LOG_LOSS_QLOST : Field := ⟨Reg.LOG_LOSS, 15, 0⟩
def Reg.LOG_CNT_CLR : Nat := 0x14002c
def Fld.LOG_CNT_CLR_CLR : Field := ⟨Reg.LOG_CNT_CLR, 31, 31⟩
def Reg.LOG_RETRY : Nat := 0x140030
def Fld.LOG_RETRY_REPLAY : Field := ⟨Reg.LOG_RETRY, 31, 16⟩
def Fld.LOG_RETRY_RETRIED : Field := ⟨Reg.LOG_RETRY, 15, 0⟩
def Reg.LOG_MBASE_LO : Nat := 0x140040
def Fld.LOG_MBASE_LO_MBASE : Field := ⟨Reg.LOG_MBASE_LO, 31, 12⟩
def Reg.LOG_MBASE_HI : Nat := 0x140044
def Fld.LOG_MBASE_HI_MBASE : Field := ⟨Reg.LOG_MBASE_HI, 31, 0⟩
def Reg.LOG_MCFG : Nat := 0x140048
def Fld.LOG_MCFG_EN : Field := ⟨Reg.LOG_MCFG, 31, 31⟩
def Fld.LOG_MCFG_LOG2SIZE : Field := ⟨Reg.LOG_MCFG, 20, 16⟩
def Fld.LOG_MCFG_THRESH : Field := ⟨Reg.LOG_MCFG, 15, 0⟩
def Reg.LOG_MFILT : Nat := 0x14004c
def Fld.LOG_MFILT_MFILT : Field := ⟨Reg.LOG_MFILT, 31, 0⟩
def Reg.LOG_MHEAD : Nat := 0x140050
def Fld.LOG_MHEAD_MHEAD : Field := ⟨Reg.LOG_MHEAD, 15, 0⟩
def Reg.LOG_MTAIL : Nat := 0x140054
def Fld.LOG_MTAIL_MTAIL : Field := ⟨Reg.LOG_MTAIL, 15, 0⟩
def Reg.LOG_MWB_LO : Nat := 0x140058
def Fld.LOG_MWB_LO_MWB : Field := ⟨Reg.LOG_MWB_LO, 31, 3⟩
def Reg.LOG_MWB_HI : Nat := 0x14005c
def Fld.LOG_MWB_HI_MWB : Field := ⟨Reg.LOG_MWB_HI, 31, 0⟩
def Reg.LOG_PAGE : Nat := 0x140060
def Fld.LOG_PAGE_PAGE : Field := ⟨Reg.LOG_PAGE, 1, 0⟩
def Reg.LOG_DBG : Nat := 0x140080
def Fld.LOG_DBG_HALTED : Field := ⟨Reg.LOG_DBG, 31, 31⟩
def Fld.LOG_DBG_HALTS : Field := ⟨Reg.LOG_DBG, 15, 0⟩
def Reg.LOG_HALTSTAMP_LO : Nat := 0x140088
def Fld.LOG_HALTSTAMP_LO_HALTSTAMP : Field := ⟨Reg.LOG_HALTSTAMP_LO, 31, 0⟩
def Reg.LOG_HALTSTAMP_HI : Nat := 0x14008c
def Fld.LOG_HALTSTAMP_HI_HALTSTAMP : Field := ⟨Reg.LOG_HALTSTAMP_HI, 31, 0⟩

/-! ### Access and reset -/
def RegMap.GLB : List RegDesc := [
  ⟨0, 1, 1, 1, 1, 0, 0, 0, false, 0x46205311, 0, []⟩,
  ⟨4, 1, 1, 1, 1, 0, 0, 0, false, 0x106, 0, []⟩,
  ⟨8, 1, 1, 1, 1, 0, 0, 0, false, 0, 0, []⟩,
  ⟨0x10, 1, 1, 1, 1, 0, 0, 0, false, 0, 0, []⟩,
  ⟨0x14, 1, 1, 1, 1, 0, 0xfffff, 0, false, 0, 0, []⟩,
  ⟨0x18, 1, 1, 1, 1, 0xfffff, 0, 0, false, 0, 0, []⟩]
def RegMap.GAF : List RegDesc := [
  ⟨0, 1, 1, 1, 1, 3, 0, 0, false, 0, 0, []⟩,
  ⟨4, 1, 1, 1, 1, 0, 0, 0, false, 0, 0, []⟩,
  ⟨8, 1, 1, 1, 1, 0, 0, 0, false, 0x1800, 0, []⟩,
  ⟨0xc, 1, 1, 1, 1, 0, 0, 0, false, 0, 0, []⟩,
  ⟨0x10, 1, 1, 1, 1, 0xffffffff, 0, 0, false, 0, 0, []⟩,
  ⟨0x14, 1, 1, 1, 1, 0xffff, 0, 0, false, 0, 0, []⟩,
  ⟨0x18, 1, 1, 1, 1, 0xffffffff, 0, 0, false, 0, 0, []⟩,
  ⟨0x1c, 1, 1, 1, 1, 0xffff, 0, 0, false, 0, 0, []⟩,
  ⟨0x20, 1, 1, 1, 1, 0, 0, 0, false, 0, 0, []⟩,
  ⟨0x24, 1, 1, 1, 1, 0, 0, 0, false, 0, 0, []⟩,
  ⟨0x28, 1, 1, 1, 1, 0, 0, 0, false, 0, 0, []⟩,
  ⟨0x2c, 1, 1, 1, 1, 0, 0, 0, false, 0, 0, []⟩,
  ⟨0x30, 1, 1, 1, 1, 0, 0xffffffff, 0, false, 0, 0, []⟩,
  ⟨0x34, 1, 1, 1, 1, 0, 0xffffffff, 0, false, 0, 0, []⟩,
  ⟨0x38, 1, 1, 1, 1, 0, 0x1f, 0, false, 0, 0, []⟩,
  ⟨0x3c, 1, 1, 1, 1, 0x1f, 0, 0, false, 0, 0, []⟩,
  ⟨0x40, 1, 1, 1, 1, 0, 0, 0, false, 0, 0, []⟩,
  ⟨0x44, 1, 1, 1, 1, 0, 0x3f, 0, false, 0, 0, []⟩,
  ⟨0x48, 1, 1, 1, 1, 0xffff, 0, 0, false, 0x400, 0, [(15, 0, 16, 12288)]⟩,
  ⟨0x100, 64, 8, 1, 1, 0, 0, 0, false, 0, 0, []⟩,
  ⟨0x104, 64, 8, 1, 1, 0, 0, 0, false, 0xffffffff, 0, []⟩]
def RegMap.RING0 : List RegDesc := [
  ⟨0, 1, 1, 1, 1, 0, 0, 0, false, 0, 0, []⟩,
  ⟨0x10, 1, 1, 1, 1, 0, 0, 0, false, 0, 0, []⟩,
  ⟨0x14, 1, 1, 1, 1, 0, 0, 0, false, 0, 0, []⟩,
  ⟨0x20, 1, 1, 1, 1, 0, 0xf, 0, false, 0, 0, []⟩,
  ⟨0x24, 1, 1, 1, 1, 0xf, 0, 0, false, 0, 0, []⟩,
  ⟨0x400, 21, 4, 1, 1, 0x7f, 0, 0, false, 0x40, 1, []⟩,
  ⟨0x1000, 64, 0x40, 1, 1, 0xfffff000, 0, 0, false, 0, 0, []⟩,
  ⟨0x1004, 64, 0x40, 1, 1, 0xffffffff, 0, 0, false, 0, 0, []⟩,
  ⟨0x1008, 64, 0x40, 1, 1, 0x1f3f0d, 0, 0, false, 0x40000, 0x100, [(20, 16, 4, 16)]⟩,
  ⟨0x100c, 64, 0x40, 1, 1, 0, 0, 0, false, 0, 0, []⟩,
  ⟨0x1010, 64, 0x40, 1, 1, 0, 0, 0, false, 0, 0, []⟩,
  ⟨0x1014, 64, 0x40, 1, 1, 0xffff, 0, 0, false, 0, 0, []⟩,
  ⟨0x1018, 64, 0x40, 1, 1, 0, 0, 0, false, 0, 0, []⟩,
  ⟨0x2000, 64, 0x40, 1, 1, 0xfffff000, 0, 0, false, 0, 0, []⟩,
  ⟨0x2004, 64, 0x40, 1, 1, 0xffffffff, 0, 0, false, 0, 0, []⟩,
  ⟨0x2008, 64, 0x40, 1, 1, 0x1f7f03, 0, 0, false, 0x40000, 0x100, [(20, 16, 4, 16)]⟩,
  ⟨0x200c, 64, 0x40, 1, 1, 0x3ff00ff, 0, 0, false, 1, 0, []⟩,
  ⟨0x2010, 64, 0x40, 1, 1, 0, 0, 0, false, 0x10000, 0, []⟩,
  ⟨0x2014, 64, 0x40, 1, 1, 0, 0, 0, false, 0, 0, []⟩,
  ⟨0x2018, 64, 0x40, 1, 1, 0, 0, 0, false, 0, 0, []⟩,
  ⟨0x8000, 128, 0x10, 1, 1, 0xfffffffc, 0, 0, false, 0, 0, []⟩,
  ⟨0x8004, 128, 0x10, 1, 1, 0xffffffff, 0, 0, false, 0, 0, []⟩,
  ⟨0x8008, 128, 0x10, 1, 1, 0xffffffff, 0, 0, false, 0, 0, []⟩,
  ⟨0x800c, 128, 0x10, 1, 1, 1, 0, 0, false, 1, 0, []⟩]
def RegMap.RING1 : List RegDesc := [
  ⟨0x9000, 4, 4, 1, 1, 0, 0, 0, false, 0, 0, []⟩]
def RegMap.RING : List RegDesc := RegMap.RING0 ++ RegMap.RING1
def RegMap.FEN : List RegDesc := [
  ⟨0x10, 1, 1, 1, 1, 0xffffffff, 0, 0, false, 0, 0, []⟩,
  ⟨0x14, 1, 1, 1, 1, 0xffffffff, 0, 0, false, 0, 0, []⟩,
  ⟨0x18, 1, 1, 1, 1, 0, 0, 0, false, 0, 0, []⟩,
  ⟨0x20, 1, 1, 1, 1, 0, 0, 0, false, 0, 0, []⟩,
  ⟨0x30, 1, 1, 1, 1, 0, 0x3ffff, 0, false, 0, 0, []⟩,
  ⟨0x34, 1, 1, 1, 1, 0x3ffff, 0, 0, false, 0, 0, []⟩,
  ⟨0x40, 1, 1, 1, 1, 0, 0x80000000, 0, false, 0, 0, []⟩,
  ⟨0x100, 16, 0x10, 1, 1, 0x800003ff, 0, 0, false, 0, 0, []⟩,
  ⟨0x108, 16, 0x10, 1, 1, 0xffffffff, 0, 0, false, 0, 0, []⟩,
  ⟨0x10c, 16, 0x10, 1, 1, 0xffffffff, 0, 0, false, 0, 0, []⟩,
  ⟨0x200, 32, 0x10, 1, 1, 0x8003ffff, 0, 0, false, 0, 0, []⟩,
  ⟨0x204, 32, 0x10, 1, 1, 0, 0, 0, false, 0, 0, []⟩,
  ⟨0x208, 32, 0x10, 1, 1, 0xffffffff, 0, 0, false, 0, 0, []⟩,
  ⟨0x20c, 32, 0x10, 1, 1, 0xffffffff, 0, 0, false, 0, 0, []⟩,
  ⟨0x400, 4, 4, 1, 1, 0x800003ff, 0, 0, false, 0, 0, []⟩,
  ⟨0x420, 16, 4, 1, 1, 0xc03703ff, 0, 0, false, 0x40000000, 0, []⟩,
  ⟨0x2000, 1024, 8, 1, 1, 0, 0, 0, false, 0, 0, []⟩,
  ⟨0x2004, 1024, 8, 1, 1, 0, 0, 0, false, 0, 0, []⟩,
  ⟨0x4000, 1024, 4, 1, 1, 1, 0, 0, false, 1, 0, []⟩]
def RegMap.MRV : List RegDesc := [
  ⟨0, 1, 1, 1, 1, 0, 0, 0, false, 0x7c00bff, 0, []⟩,
  ⟨4, 1, 1, 1, 1, 0, 0, 0, false, 0, 0, []⟩,
  ⟨0x10, 1, 1, 1, 1, 0, 0x1f, 0, false, 0, 0, []⟩,
  ⟨0x14, 1, 1, 1, 1, 0x1f, 0, 0, false, 0, 0, []⟩,
  ⟨0x18, 1, 1, 1, 1, 0, 0, 0, false, 0, 0, []⟩,
  ⟨0x20, 1, 1, 1, 1, 1, 0, 0, false, 1, 0, []⟩,
  ⟨0x30, 1, 1, 1, 1, 0, 7, 0, false, 0, 0, []⟩,
  ⟨0x34, 1, 1, 1, 1, 7, 0, 0, false, 0, 0, []⟩,
  ⟨0x38, 1, 1, 1, 1, 0, 0, 0, false, 0, 0, []⟩,
  ⟨0x800, 32, 8, 1, 1, 0, 0, 0, false, 0, 0, []⟩,
  ⟨0x804, 32, 8, 1, 1, 0, 0, 0, false, 0, 0, []⟩,
  ⟨0x1000, 16, 0x200, 1, 1, 0, 0, 0, false, 0, 0, []⟩,
  ⟨0x1004, 16, 0x200, 1, 1, 3, 0, 3, false, 0, 0, []⟩,
  ⟨0x1008, 16, 0x200, 1, 1, 0, 0, 0, false, 0, 0, []⟩,
  ⟨0x100c, 16, 0x200, 1, 1, 0, 0, 0, false, 0, 0, []⟩,
  ⟨0x1010, 16, 0x200, 1, 1, 0, 0, 0, false, 0, 0, []⟩,
  ⟨0x1014, 16, 0x200, 1, 1, 0, 0, 0, false, 0, 0, []⟩,
  ⟨0x1018, 16, 0x200, 1, 1, 0, 0, 0, false, 0, 0, []⟩,
  ⟨0x101c, 16, 0x200, 1, 1, 0, 0, 0, false, 0, 0, []⟩,
  ⟨0x1100, 16, 0x200, 1, 1, 0, 0, 0, false, 0, 0, []⟩,
  ⟨0x1104, 16, 0x200, 1, 1, 0, 0, 0, false, 0, 0, []⟩,
  ⟨0x1108, 16, 0x200, 1, 1, 0, 0, 0, false, 0, 0, []⟩,
  ⟨0x110c, 16, 0x200, 1, 1, 0, 0, 0, false, 0, 0, []⟩,
  ⟨0x1110, 16, 0x200, 1, 1, 0, 0, 0, false, 0, 0, []⟩]
def RegMap.OBS0 : List RegDesc := [
  ⟨0, 1, 1, 1, 1, 0, 0x3f, 0, false, 0, 0, []⟩,
  ⟨4, 1, 1, 1, 1, 0x3f, 0, 0, false, 0, 0, []⟩,
  ⟨8, 1, 1, 1, 1, 3, 0, 0, false, 0, 0, []⟩,
  ⟨0x10, 1, 1, 1, 1, 0xbf11ff7f, 0, 0xbf11ff7f, false, 0x7f00, 0, [(6, 0, 0, 64)]⟩,
  ⟨0x14, 1, 1, 1, 1, 0xff, 0, 0xff, false, 0x88, 0, [(7, 4, 0, 8), (3, 0, 0, 8)]⟩,
  ⟨0x18, 1, 1, 1, 1, 0, 0x3f000000, 0, false, 0, 0, []⟩,
  ⟨0x20, 1, 1, 1, 1, 0, 0, 0, false, 0, 0, []⟩,
  ⟨0x24, 1, 1, 1, 1, 0, 0, 0, false, 0, 0, []⟩,
  ⟨0x28, 1, 1, 1, 1, 0, 0, 0, false, 0, 0, []⟩,
  ⟨0x2c, 1, 1, 1, 1, 0, 0, 0, false, 0, 0, []⟩,
  ⟨0x1000, 6, 0x200, 1, 1, 0x1110f0f, 0, 0x1110f0f, false, 0, 0, []⟩,
  ⟨0x1004, 6, 0x200, 1, 1, 0x3ff, 0, 0x3ff, false, 0x7f, 0, []⟩,
  ⟨0x1008, 6, 0x200, 1, 1, 0xffffffff, 0, 0xffffffff, false, 0, 0, []⟩,
  ⟨0x100c, 6, 0x200, 1, 1, 0xffff, 0, 0xffff, false, 0, 0, []⟩,
  ⟨0x1010, 6, 0x200, 1, 1, 0xffff, 0, 0xffff, false, 0x100, 0, [(15, 0, 1, 65535)]⟩,
  ⟨0x1014, 6, 0x200, 1, 1, 0xffff, 0, 0xffff, false, 0, 0, []⟩,
  ⟨0x1018, 6, 0x200, 2, 4, 0xffffffff, 0, 0xffffffff, false, 0x88888888, 0, [(3, 0, 0, 8), (7, 4, 0, 8), (11, 8, 0, 8), (15, 12, 0, 8), (19, 16, 0, 8), (23, 20, 0, 8), (27, 24, 0, 8), (31, 28, 0, 8)]⟩,
  ⟨0x1020, 6, 0x200, 4, 0x20, 0xffffffff, 0, 0xffffffff, false, 0x7fff8000, 0, []⟩,
  ⟨0x1024, 6, 0x200, 4, 0x20, 0xffffffff, 0, 0xffffffff, false, 0xffffffff, 0, []⟩,
  ⟨0x1028, 6, 0x200, 4, 0x20, 0xffffffff, 0, 0xffffffff, false, 0x808ffff, 0, [(31, 24, 1, 255), (23, 16, 1, 255)]⟩,
  ⟨0x102c, 6, 0x200, 4, 0x20, 0, 0, 0, false, 1, 0, []⟩,
  ⟨0x1030, 6, 0x200, 4, 0x20, 0, 0, 0, false, 0, 0, []⟩,
  ⟨0x1034, 6, 0x200, 4, 0x20, 0, 0, 0, false, 0, 0, []⟩,
  ⟨0x1038, 6, 0x200, 4, 0x20, 0, 0, 0, false, 0, 0, []⟩]
def RegMap.OBS1 : List RegDesc := [
  ⟨0x10a0, 6, 0x200, 1, 1, 0xffffffff, 0, 0xffffffff, false, 0, 0, []⟩,
  ⟨0x10a4, 6, 0x200, 1, 1, 0xffffffff, 0, 0xffffffff, false, 0, 0, []⟩,
  ⟨0x10a8, 6, 0x200, 1, 1, 0xffff, 0, 0xffff, false, 0, 0, [(15, 0, 0, 32767)]⟩,
  ⟨0x10ac, 6, 0x200, 1, 1, 0xffffffff, 0, 0xffffffff, false, 0, 0, []⟩,
  ⟨0x10b0, 6, 0x200, 1, 1, 0xffffffff, 0, 0xffffffff, false, 0, 0, []⟩,
  ⟨0x10b4, 6, 0x200, 1, 1, 0xffff, 0, 0xffff, false, 0, 0, []⟩,
  ⟨0x10b8, 6, 0x200, 1, 1, 0xffffffff, 0, 0xffffffff, false, 0, 0, []⟩,
  ⟨0x10bc, 6, 0x200, 1, 1, 0xffffffff, 0, 0xffffffff, false, 0, 0, []⟩,
  ⟨0x10c0, 6, 0x200, 1, 1, 0xffffffff, 0, 0xffffffff, false, 0, 0, []⟩,
  ⟨0x10c4, 6, 0x200, 1, 1, 0xffffffff, 0, 0xffffffff, false, 0, 0, []⟩,
  ⟨0x10c8, 6, 0x200, 1, 1, 0xffffffff, 0, 0xffffffff, false, 0, 0, []⟩,
  ⟨0x10cc, 6, 0x200, 1, 1, 0xff00ffff, 0, 0, false, 0x10ff0000, 0, []⟩,
  ⟨0x10d0, 6, 0x200, 1, 1, 0xffffffff, 0, 0, false, 0, 0, []⟩,
  ⟨0x10d4, 6, 0x200, 1, 1, 0, 0, 0, false, 0, 0, []⟩,
  ⟨0x10d8, 6, 0x200, 1, 1, 0, 0, 0, false, 0, 0, []⟩,
  ⟨0x10dc, 6, 0x200, 1, 1, 0, 0, 0, false, 0, 0, []⟩,
  ⟨0x10e0, 6, 0x200, 1, 1, 0, 0, 0, false, 0, 0, []⟩,
  ⟨0x10e4, 6, 0x200, 1, 1, 0, 0, 0, false, 0, 0, []⟩]
def RegMap.OBS : List RegDesc := RegMap.OBS0 ++ RegMap.OBS1
def RegMap.SNS0 : List RegDesc := [
  ⟨0, 1, 1, 1, 1, 0, 0x3fffffff, 0, false, 0, 0, []⟩,
  ⟨4, 1, 1, 1, 1, 0x3fffffff, 0, 0, false, 0, 0, []⟩,
  ⟨0x800, 4, 0x40, 1, 1, 0x37ff37, 0, 0, false, 0x800, 0, [(18, 16, 0, 5)]⟩,
  ⟨0x808, 4, 0x40, 1, 1, 0, 0, 0, false, 0, 0, []⟩,
  ⟨0x80c, 4, 0x40, 1, 1, 0, 0, 0, false, 0, 0, []⟩,
  ⟨0x810, 4, 0x40, 1, 1, 0, 0, 0, false, 0, 0, []⟩,
  ⟨0x814, 4, 0x40, 1, 1, 0, 0, 0, false, 0, 0, []⟩,
  ⟨0x1000, 6, 0x100, 1, 1, 0x3f7f7f, 0, 0x3f7f7f, false, 0, 0x1010, [(19, 16, 0, 5), (14, 12, 0, 5), (11, 8, 0, 5), (6, 4, 0, 5)]⟩,
  ⟨0x1004, 6, 0x100, 1, 1, 0x7f, 0, 0, false, 0, 0, []⟩,
  ⟨0x1008, 6, 0x100, 1, 1, 0xffffffff, 0, 0, false, 0x40001000, 0, []⟩,
  ⟨0x1010, 6, 0x100, 9, 4, 0xffffffff, 0, 0xffffffff, false, 0x40000000, 0, []⟩,
  ⟨0x1040, 6, 0x100, 1, 1, 0x3ff, 0, 0, false, 0, 0, []⟩,
  ⟨0x1044, 6, 0x100, 1, 1, 0x3ff, 0, 0, false, 0, 0, []⟩,
  ⟨0x1048, 6, 0x100, 1, 1, 0, 0xf00, 0, false, 0, 0, []⟩,
  ⟨0x1050, 6, 0x100, 1, 1, 0, 0, 0, false, 0, 0, []⟩,
  ⟨0x1054, 6, 0x100, 1, 1, 0, 0, 0, false, 0, 0, []⟩,
  ⟨0x1058, 6, 0x100, 1, 1, 0, 0, 0, false, 0, 0, []⟩,
  ⟨0x105c, 6, 0x100, 1, 1, 0, 0, 0, false, 0, 0, []⟩,
  ⟨0x1060, 6, 0x100, 1, 1, 0, 0, 0, false, 0, 0, []⟩,
  ⟨0x1064, 6, 0x100, 1, 1, 0, 0, 0, false, 0, 0, []⟩,
  ⟨0x1068, 6, 0x100, 1, 1, 0, 0, 0, false, 0, 0, []⟩,
  ⟨0x106c, 6, 0x100, 1, 1, 0, 0, 0, false, 0, 0, []⟩,
  ⟨0x1070, 6, 0x100, 1, 1, 0, 0, 0, false, 0, 0, []⟩,
  ⟨0x1074, 6, 0x100, 1, 1, 0, 0, 0, false, 0, 0, []⟩]
def RegMap.SNS1 : List RegDesc := [
  ⟨0x1078, 6, 0x100, 1, 1, 0, 0, 0, false, 0, 0, []⟩,
  ⟨0x107c, 6, 0x100, 1, 1, 0, 0, 0, false, 0, 0, []⟩]
def RegMap.SNS : List RegDesc := RegMap.SNS0 ++ RegMap.SNS1
def RegMap.CTL0 : List RegDesc := [
  ⟨0, 1, 1, 1, 1, 0, 0x3f3f3f3f, 0, false, 0, 0, []⟩,
  ⟨4, 1, 1, 1, 1, 0x3f3f3f3f, 0, 0, false, 0, 0, []⟩,
  ⟨0x1000, 6, 0x100, 1, 1, 0x1110100, 0, 0, false, 0x100000, 0, []⟩,
  ⟨0x1004, 6, 0x100, 1, 1, 0xffffffff, 0, 0xffffffff, false, 0, 0, []⟩,
  ⟨0x1008, 6, 0x100, 1, 1, 0xffffffff, 0, 0xffffffff, false, 0, 0, []⟩,
  ⟨0x100c, 6, 0x100, 1, 1, 0xffff00ff, 0, 0xffff00ff, false, 0x18, 0, []⟩,
  ⟨0x1010, 6, 0x100, 1, 1, 0xffffffff, 0, 0xffffffff, false, 0x7fff8000, 0, [(31, 16, 0, 32767), (15, 0, 0, 32768)]⟩,
  ⟨0x1014, 6, 0x100, 1, 1, 0xffffffff, 0, 0, false, 0x4004000, 0, [(31, 16, 1024, 32767)]⟩,
  ⟨0x1018, 6, 0x100, 1, 1, 0xffff, 0, 0, false, 0, 0, []⟩,
  ⟨0x101c, 6, 0x100, 1, 1, 0xffffffff, 0, 0, false, 0x100040, 0, []⟩,
  ⟨0x1020, 6, 0x100, 1, 1, 0xffffffff, 0, 0, false, 0x201000, 0, []⟩,
  ⟨0x1024, 6, 0x100, 1, 1, 0xffffffff, 0, 0, false, 0x20000040, 0, [(31, 16, 1, 65535)]⟩,
  ⟨0x1028, 6, 0x100, 1, 1, 0xffffffff, 0, 0, false, 0x7fff, 0, []⟩,
  ⟨0x102c, 6, 0x100, 1, 1, 0xffff, 0, 0, false, 0, 0, []⟩,
  ⟨0x1030, 6, 0x100, 1, 1, 0xffffffff, 0, 0, false, 0xffffffff, 0, []⟩,
  ⟨0x1040, 6, 0x100, 1, 1, 0, 0, 0, false, 0, 0, []⟩,
  ⟨0x1044, 6, 0x100, 1, 1, 0, 0, 0, false, 0, 0, []⟩,
  ⟨0x1048, 6, 0x100, 1, 1, 0, 0, 0, false, 0, 0, []⟩,
  ⟨0x104c, 6, 0x100, 1, 1, 0, 0, 0, false, 0, 0, []⟩,
  ⟨0x1050, 6, 0x100, 1, 1, 0, 0, 0, false, 0, 0, []⟩,
  ⟨0x1054, 6, 0x100, 1, 1, 0, 0, 0, false, 0, 0, []⟩,
  ⟨0x1058, 6, 0x100, 1, 1, 0, 0, 0, false, 0, 0, []⟩,
  ⟨0x105c, 6, 0x100, 1, 1, 0, 0, 0, false, 0, 0, []⟩,
  ⟨0x1060, 6, 0x100, 1, 1, 0xffffffff, 0, 0, false, 0, 0, []⟩]
def RegMap.CTL1 : List RegDesc := [
  ⟨0x1064, 6, 0x100, 1, 1, 0xffff, 0, 0, false, 0, 0, []⟩,
  ⟨0x1068, 6, 0x100, 1, 1, 0, 0, 0, false, 0, 0, []⟩,
  ⟨0x106c, 6, 0x100, 1, 1, 0, 0, 0, false, 0, 0, []⟩,
  ⟨0x1070, 6, 0x100, 1, 1, 0, 0, 0, false, 0, 0, []⟩,
  ⟨0x1074, 6, 0x100, 1, 1, 0, 0, 0, false, 0, 0, []⟩,
  ⟨0x1078, 6, 0x100, 1, 1, 0, 0, 0, false, 0, 0, []⟩,
  ⟨0x107c, 6, 0x100, 1, 1, 0, 0, 0, false, 0, 0, []⟩]
def RegMap.CTL : List RegDesc := RegMap.CTL0 ++ RegMap.CTL1
def RegMap.PWM : List RegDesc := [
  ⟨0, 1, 1, 1, 1, 0, 0x7f7f7f3f, 0, false, 0, 0, []⟩,
  ⟨4, 1, 1, 1, 1, 0x7f7f7f3f, 0, 0, false, 0, 0, []⟩,
  ⟨0x1000, 6, 0x100, 1, 1, 0xf, 0, 0, false, 3, 0, []⟩,
  ⟨0x1600, 1, 1, 1, 1, 0xf, 0, 0, false, 0, 0, []⟩,
  ⟨0x1004, 7, 0x100, 1, 1, 0xffff, 0, 0xffff, false, 0x30003000, 0, [(15, 0, 16, 65535)]⟩,
  ⟨0x1008, 7, 0x100, 1, 1, 0x3ff, 0, 0x3ff, false, 0, 0, []⟩,
  ⟨0x100c, 7, 0x100, 1, 1, 0, 0, 0, false, 0, 0, []⟩,
  ⟨0x1010, 7, 0x100, 1, 1, 0, 0, 0, false, 0, 0, []⟩,
  ⟨0x1014, 7, 0x100, 1, 1, 0, 0xf, 0, false, 0, 0, []⟩,
  ⟨0x1018, 6, 0x100, 1, 1, 0, 0, 0, false, 0x80008000, 0, []⟩,
  ⟨0x101c, 6, 0x100, 1, 1, 0, 0, 0, false, 0x8000, 0, []⟩,
  ⟨0x1020, 7, 0x100, 1, 1, 0, 0, 0, false, 0, 0, []⟩,
  ⟨0x1024, 7, 0x100, 1, 1, 0, 0, 0, false, 0, 0, []⟩,
  ⟨0x1028, 7, 0x100, 4, 4, 0xffff, 0, 0, false, 0xffffffff, 0, []⟩,
  ⟨0x1040, 7, 0x100, 6, 4, 0x30f, 0, 0, false, 0, 0, []⟩,
  ⟨0x1058, 7, 0x100, 1, 1, 0, 0, 0, false, 0, 0, []⟩,
  ⟨0x105c, 7, 0x100, 1, 1, 0, 0, 0, false, 0, 0, []⟩,
  ⟨0x1060, 7, 0x100, 1, 1, 0, 0, 0, false, 0, 0, []⟩,
  ⟨0x1064, 7, 0x100, 1, 1, 0, 0, 0, false, 0, 0, []⟩]
def RegMap.VLV : List RegDesc := [
  ⟨0, 1, 1, 1, 1, 0, 0xffffff, 0, false, 0, 0, []⟩,
  ⟨4, 1, 1, 1, 1, 0xffffff, 0, 0, false, 0, 0, []⟩,
  ⟨0x100, 4, 0x10, 1, 1, 0xffffff, 0, 0, false, 0x100600, 0, []⟩,
  ⟨0x104, 4, 0x10, 1, 1, 0, 0, 0, false, 0, 0, []⟩,
  ⟨0x108, 4, 0x10, 1, 1, 0, 0, 0, false, 0, 0, []⟩,
  ⟨0x1000, 8, 0x40, 1, 1, 0xfff0fff, 0, 0, false, 0, 0, []⟩,
  ⟨0x1004, 8, 0x40, 1, 1, 0xfff0fff, 0, 0, false, 0xfff0000, 0, []⟩,
  ⟨0x1008, 8, 0x40, 1, 1, 0xffff, 0, 0, false, 0x600, 0, [(15, 0, 1, 65535)]⟩,
  ⟨0x100c, 8, 0x40, 1, 1, 0, 0, 0, false, 0, 0, []⟩,
  ⟨0x1010, 8, 0x40, 1, 1, 0, 0, 0, false, 0, 0, []⟩,
  ⟨0x1014, 8, 0x40, 1, 1, 0, 0, 0, false, 0, 0, []⟩,
  ⟨0x1018, 8, 0x40, 1, 1, 0, 0, 0, false, 0, 0, []⟩,
  ⟨0x101c, 8, 0x40, 1, 1, 0, 0, 0, false, 0, 0, []⟩]
def RegMap.TMR0 : List RegDesc := [
  ⟨0, 1, 1, 1, 1, 0, 0, 0, false, 0, 0, []⟩,
  ⟨0x10, 1, 1, 1, 1, 0, 0, 0, false, 0, 0, []⟩,
  ⟨0x14, 1, 1, 1, 1, 0, 0, 0, false, 0, 0, []⟩,
  ⟨0x18, 1, 1, 1, 1, 0, 0, 0, false, 0, 0, []⟩,
  ⟨0x1c, 1, 1, 1, 1, 0, 0, 0, false, 0, 0, []⟩,
  ⟨0x20, 1, 1, 1, 1, 0xffffffff, 0, 0, false, 0, 0, []⟩,
  ⟨0x24, 1, 1, 1, 1, 0, 0, 0, false, 0, 0, []⟩,
  ⟨0x1000, 16, 0x80, 1, 1, 0x17173f, 0, 0, false, 0x400, 0, [(5, 4, 0, 2), (3, 0, 0, 11)]⟩,
  ⟨0x1004, 16, 0x80, 1, 1, 0xffffff, 0, 0, false, 0x100, 0, [(23, 8, 1, 65535)]⟩,
  ⟨0x1008, 16, 0x80, 1, 1, 0, 0, 0, false, 0, 0, []⟩,
  ⟨0x100c, 16, 0x80, 1, 1, 0, 0, 0, false, 0, 0, []⟩,
  ⟨0x1010, 16, 0x80, 1, 1, 0xffffffff, 0, 0, false, 0, 0, []⟩,
  ⟨0x1014, 16, 0x80, 1, 1, 0xffff, 0, 0, false, 0, 0, []⟩,
  ⟨0x1018, 16, 0x80, 1, 1, 0xffffffff, 0, 0, false, 0xffffffff, 0, []⟩,
  ⟨0x101c, 16, 0x80, 1, 1, 0xffff, 0, 0, false, 0xffff, 0, []⟩,
  ⟨0x1020, 16, 0x80, 1, 1, 0xffffffff, 0, 0, false, 0xffffffff, 0, []⟩,
  ⟨0x1024, 16, 0x80, 1, 1, 0xffff, 0, 0, false, 0xffff, 0, []⟩,
  ⟨0x1028, 16, 0x80, 1, 1, 0xffffffff, 0, 0, false, 0xffffffff, 0, []⟩,
  ⟨0x102c, 16, 0x80, 1, 1, 0xffff, 0, 0, false, 0xffff, 0, []⟩,
  ⟨0x1030, 16, 0x80, 1, 1, 0, 0, 0, false, 0, 0, []⟩,
  ⟨0x1034, 16, 0x80, 1, 1, 0, 0, 0, false, 0, 0, []⟩,
  ⟨0x1038, 16, 0x80, 1, 1, 0, 0, 0, false, 0, 0, []⟩,
  ⟨0x103c, 16, 0x80, 1, 1, 0, 0, 0, false, 0, 0, []⟩,
  ⟨0x1040, 16, 0x80, 1, 1, 0, 0, 0, false, 0, 0, []⟩]
def RegMap.TMR1 : List RegDesc := [
  ⟨0x1044, 16, 0x80, 1, 1, 0, 0x1ff, 0, false, 0, 0, []⟩,
  ⟨0x1048, 16, 0x80, 1, 1, 0x1ff, 0, 0, false, 0, 0, []⟩,
  ⟨0x104c, 16, 0x80, 1, 1, 0, 0, 0, false, 0, 0, []⟩,
  ⟨0x1050, 16, 0x80, 1, 1, 0, 0, 0, false, 0, 0, []⟩]
def RegMap.TMR : List RegDesc := RegMap.TMR0 ++ RegMap.TMR1
def RegMap.AUD : List RegDesc := [
  ⟨0, 1, 1, 1, 1, 0, 0x7fe, 0, false, 0, 0, []⟩,
  ⟨4, 1, 1, 1, 1, 0x7fe, 0, 0, false, 0, 0, []⟩,
  ⟨8, 1, 1, 1, 1, 0, 0xf, 0, false, 0, 0, []⟩,
  ⟨0x10, 1, 1, 1, 1, 0x1b, 0, 0, false, 0, 0, []⟩,
  ⟨0x20, 3, 4, 1, 1, 0x803f0312, 0, 0, false, 0, 0, [(21, 16, 0, 42)]⟩,
  ⟨0x2c, 1, 1, 1, 1, 0x803f1312, 0, 0, false, 0, 0, [(21, 16, 0, 42)]⟩,
  ⟨0x30, 4, 4, 1, 1, 0x801f0310, 0, 0, false, 0x60000, 0, [(20, 16, 0, 18)]⟩,
  ⟨0x40, 1, 1, 1, 1, 0x8001030f, 0, 0, false, 0, 0, []⟩,
  ⟨0x50, 1, 1, 1, 1, 0xb03f0100, 0, 0, false, 0x20140000, 0, []⟩,
  ⟨0x54, 1, 1, 1, 1, 0xb01f0100, 0, 0, false, 0x200c0000, 0, [(20, 16, 0, 30)]⟩,
  ⟨0x58, 1, 1, 1, 1, 0, 0, 0, false, 0x400040, 0, []⟩,
  ⟨0x60, 1, 1, 1, 1, 0x80ffff39, 0, 0, false, 0x201410, 0, [(23, 16, 1, 255), (15, 8, 1, 255)]⟩,
  ⟨0x64, 1, 1, 1, 1, 0, 0, 0, false, 0, 0, []⟩,
  ⟨0x68, 1, 1, 1, 1, 0x3ff03ff, 0, 0, false, 0x700028, 0, []⟩,
  ⟨0x6c, 1, 1, 1, 1, 0x3ff03ff, 0, 0, false, 0x12c00b7, 0, []⟩,
  ⟨0x70, 1, 1, 1, 1, 0, 0, 0, false, 0, 0, []⟩]
def RegMap.MIX0 : List RegDesc := [
  ⟨0, 1, 1, 1, 1, 0x80000131, 0, 0, false, 0x10, 0, [(5, 4, 0, 2)]⟩,
  ⟨4, 1, 1, 1, 1, 0, 0, 0, false, 0, 0, []⟩,
  ⟨8, 1, 1, 1, 1, 0, 0x3ffc, 0, false, 0, 0, []⟩,
  ⟨0xc, 1, 1, 1, 1, 0x3ffc, 0, 0, false, 0, 0, []⟩,
  ⟨0x10, 1, 1, 1, 1, 0, 0, 0, false, 0, 0, []⟩,
  ⟨0x20, 3, 4, 1, 1, 0, 0, 0, false, 0, 0, []⟩,
  ⟨0x40, 1, 1, 1, 1, 0x80000007, 0, 0, false, 0, 0, []⟩,
  ⟨0x44, 1, 1, 1, 1, 0, 0, 0, false, 0, 0, []⟩,
  ⟨0x48, 1, 1, 1, 1, 0, 0, 0, false, 0, 0, []⟩,
  ⟨0x60, 1, 1, 1, 1, 0x78003, 0, 0, false, 0, 0, []⟩,
  ⟨0x80, 4, 4, 1, 1, 0x80000107, 0, 0, false, 0, 0, []⟩,
  ⟨0x90, 4, 4, 1, 1, 0x80000107, 0, 0, false, 0, 0, []⟩,
  ⟨0xa0, 1, 1, 1, 1, 0xf, 0, 0, false, 0xc, 0, [(3, 0, 4, 15)]⟩,
  ⟨0xa4, 1, 1, 1, 1, 0, 0, 0, false, 0, 0, []⟩,
  ⟨0xa8, 1, 1, 1, 1, 0, 0xfffff, 0, false, 0, 0, []⟩,
  ⟨0xb0, 1, 1, 1, 1, 0, 0, 0, false, 0, 0, []⟩,
  ⟨0xb4, 1, 1, 1, 1, 0, 0, 0, false, 0, 0, []⟩,
  ⟨0xc0, 12, 4, 1, 1, 0, 0, 0, false, 0xffffffff, 0, []⟩,
  ⟨0x100, 2, 0x40, 1, 1, 0x8137311c, 0, 0, false, 0x12100, 0, [(21, 20, 0, 2), (13, 12, 0, 2)]⟩,
  ⟨0x104, 2, 0x40, 1, 1, 0, 0, 0, false, 0, 0, []⟩,
  ⟨0x108, 2, 0x40, 1, 1, 0, 0, 0, false, 0, 0, []⟩,
  ⟨0x10c, 2, 0x40, 1, 1, 0, 0, 0, false, 0, 0, []⟩,
  ⟨0x110, 2, 0x40, 1, 1, 0, 0, 0, false, 0, 0, []⟩,
  ⟨0x200, 20, 4, 1, 1, 0, 0, 0, false, 0, 0, []⟩]
def RegMap.MIX1 : List RegDesc := [
  ⟨0x400, 20, 0x80, 24, 4, 0x1ff, 0, 0, false, 0, 0, [(8, 0, 0, 480)]⟩,
  ⟨0x1000, 6, 0x20, 8, 4, 0x1ff, 0, 0, false, 0, 0, [(8, 0, 0, 480)]⟩,
  ⟨0x1100, 7, 0x20, 5, 4, 0xffffff, 0, 0, false, 0, 0, []⟩,
  ⟨0x1200, 64, 4, 1, 1, 0, 0, 0, false, 0, 0, []⟩]
def RegMap.MIX : List RegDesc := RegMap.MIX0 ++ RegMap.MIX1
def RegMap.VIS : List RegDesc := [
  ⟨0, 1, 1, 1, 1, 0, 0xff, 0, false, 0, 0, []⟩,
  ⟨4, 1, 1, 1, 1, 0xff, 0, 0, false, 0, 0, []⟩,
  ⟨0x10, 1, 1, 1, 1, 0x133, 0, 0, false, 0x100, 0, []⟩,
  ⟨0x14, 1, 1, 1, 1, 0xfff1fff, 0, 0, false, 0x6000800, 0, [(27, 16, 1, 3072), (12, 0, 1, 4096)]⟩,
  ⟨0x18, 1, 1, 1, 1, 0x800fffff, 0, 0, false, 0x30000, 0, [(19, 16, 1, 15)]⟩,
  ⟨0x20, 1, 1, 1, 1, 0xfffff000, 0, 0, false, 0, 0, []⟩,
  ⟨0x24, 1, 1, 1, 1, 0xffffffff, 0, 0, false, 0, 0, []⟩,
  ⟨0x28, 1, 1, 1, 1, 0, 0, 0, false, 0, 0, []⟩,
  ⟨0x30, 1, 1, 1, 1, 0, 0, 0, false, 0, 0, []⟩,
  ⟨0x34, 1, 1, 1, 1, 0, 0, 0, false, 0, 0, []⟩,
  ⟨0x40, 1, 1, 1, 1, 0, 0, 0, false, 0, 0, []⟩,
  ⟨0x44, 1, 1, 1, 1, 0, 0, 0, false, 0, 0, []⟩,
  ⟨0x48, 1, 1, 1, 1, 0, 0, 0, false, 0, 0, []⟩,
  ⟨0x4c, 1, 1, 1, 1, 0, 0, 0, false, 0, 0, []⟩,
  ⟨0x80, 16, 8, 1, 1, 0, 0, 0, false, 0, 0, []⟩,
  ⟨0x84, 16, 8, 1, 1, 0, 0, 0, false, 0, 0, []⟩,
  ⟨0x100, 1, 1, 1, 1, 0, 0, 0, false, 0, 0, []⟩]
def RegMap.USB : List RegDesc := [
  ⟨0, 1, 1, 1, 1, 0, 0x7f, 0, false, 0, 0, []⟩,
  ⟨4, 1, 1, 1, 1, 0x7f, 0, 0, false, 0, 0, []⟩,
  ⟨0x10, 1, 1, 1, 1, 0x80000101, 0, 0, false, 0x100, 0, []⟩,
  ⟨0x14, 1, 1, 1, 1, 0, 0, 0, false, 0, 0, []⟩,
  ⟨0x18, 1, 1, 1, 1, 0, 0, 0, false, 0, 0, []⟩,
  ⟨0x20, 1, 1, 1, 1, 0, 0, 0, false, 0, 0, []⟩,
  ⟨0x24, 1, 1, 1, 1, 0, 0, 0, false, 0, 0, []⟩,
  ⟨0x28, 1, 1, 1, 1, 0, 0, 0, false, 0, 0, []⟩,
  ⟨0x30, 1, 1, 1, 1, 0xffffffff, 0, 0, false, 0x3020100, 0, []⟩,
  ⟨0x34, 1, 1, 1, 1, 0xff, 0, 0, false, 1, 0, [(7, 0, 1, 255)]⟩,
  ⟨0x38, 1, 1, 1, 1, 7, 0, 0, false, 3, 0, [(2, 0, 0, 5)]⟩,
  ⟨0x40, 3, 4, 1, 1, 0xf03, 0, 0, false, 0x200, 0, [(11, 8, 1, 4), (1, 0, 0, 2)]⟩,
  ⟨0x4c, 3, 4, 1, 1, 0xf03, 0, 0, false, 0x200, 0, [(11, 8, 1, 8), (1, 0, 0, 2)]⟩,
  ⟨0x60, 1, 1, 1, 1, 0, 0, 0, false, 0, 0, []⟩,
  ⟨0x70, 1, 1, 1, 1, 0, 0, 0, false, 0, 0, []⟩,
  ⟨0x74, 1, 1, 1, 1, 0, 0, 0, false, 0, 0, []⟩,
  ⟨0x78, 1, 1, 1, 1, 0, 0, 0, false, 0, 0, []⟩,
  ⟨0x7c, 1, 1, 1, 1, 0, 0, 0, false, 0, 0, []⟩,
  ⟨0x80, 1, 1, 1, 1, 0, 0, 0, false, 0, 0, []⟩,
  ⟨0x100, 32, 0x10, 1, 1, 0x83ff00ff, 0, 0, false, 0, 0, [(25, 24, 0, 2)]⟩,
  ⟨0x104, 32, 0x10, 1, 1, 0xffff, 0, 0, false, 0, 0, []⟩,
  ⟨0x108, 32, 0x10, 1, 1, 0x1fff0fff, 0, 0, false, 0, 0, [(28, 16, 1, 4096)]⟩,
  ⟨0x1000, 1024, 4, 1, 1, 0xffffffff, 0, 0, false, 0, 0, []⟩]
def RegMap.TWB : List RegDesc := [
  ⟨0, 1, 1, 1, 1, 0, 0x7f7f, 0, false, 0, 0, []⟩,
  ⟨4, 1, 1, 1, 1, 0x7f7f, 0, 0, false, 0, 0, []⟩,
  ⟨0x1000, 2, 0x100, 1, 1, 0x830fff00, 0, 0, false, 0x31900, 0, [(25, 24, 0, 2), (15, 8, 1, 255)]⟩,
  ⟨0x1004, 2, 0x100, 1, 1, 0xfff0fff, 0, 0, false, 0x7b0064, 0, []⟩,
  ⟨0x1008, 2, 0x100, 1, 1, 0, 0, 0, false, 0, 0, []⟩,
  ⟨0x100c, 2, 0x100, 1, 1, 0xe07fffff, 0, 0, false, 0x803e8, 0, [(22, 16, 8, 119), (15, 0, 1, 65535)]⟩,
  ⟨0x1010, 2, 0x100, 1, 1, 0xffffffff, 0, 0, false, 0, 0, []⟩,
  ⟨0x1014, 2, 0x100, 1, 1, 0, 0xc0000000, 0, false, 0, 0, []⟩,
  ⟨0x1018, 2, 0x100, 1, 1, 0, 0, 0, false, 0, 0, []⟩,
  ⟨0x101c, 2, 0x100, 1, 1, 0, 0, 0, false, 0, 0, []⟩,
  ⟨0x1020, 2, 0x100, 1, 1, 0, 0, 0, false, 0, 0, []⟩,
  ⟨0x1024, 2, 0x100, 1, 1, 0, 0, 0, false, 0, 0, []⟩,
  ⟨0x1028, 2, 0x100, 1, 1, 0, 0, 0, false, 0, 0, []⟩]
def RegMap.VXL : List RegDesc := [
  ⟨0, 1, 1, 1, 1, 0, 0x1fff, 0, false, 0, 0, []⟩,
  ⟨4, 1, 1, 1, 1, 0x1fff, 0, 0, false, 0, 0, []⟩,
  ⟨0x10, 1, 1, 1, 1, 0x8103ff03, 0, 0, false, 0x1000803, 0, [(15, 8, 1, 255)]⟩,
  ⟨0x14, 1, 1, 1, 1, 0, 0, 0, false, 0, 0, []⟩,
  ⟨0x18, 1, 1, 1, 1, 0, 0, 0, false, 0, 0, []⟩,
  ⟨0x1c, 1, 1, 1, 1, 0, 0, 0, false, 0xffff, 0, []⟩,
  ⟨0x20, 1, 1, 1, 1, 0x8000ffff, 0, 0, false, 0x1f4, 0, [(15, 0, 100, 65535)]⟩,
  ⟨0x24, 1, 1, 1, 1, 0, 0, 0, false, 0, 0, []⟩,
  ⟨0x28, 1, 1, 1, 1, 0xfffff000, 0, 0, false, 0, 0, []⟩,
  ⟨0x2c, 1, 1, 1, 1, 0xffffffff, 0, 0, false, 0, 0, []⟩,
  ⟨0x30, 1, 1, 1, 1, 0x870fffff, 0, 0, false, 0, 0, [(26, 24, 0, 4)]⟩,
  ⟨0x38, 1, 1, 1, 1, 0, 0, 0, false, 0, 0, []⟩,
  ⟨0x3c, 1, 1, 1, 1, 0, 0, 0, false, 0, 0, []⟩,
  ⟨0x40, 8, 4, 1, 1, 0, 0, 0, false, 0, 0, []⟩,
  ⟨0x60, 1, 1, 1, 1, 0, 0, 0, false, 0, 0, []⟩,
  ⟨0x64, 1, 1, 1, 1, 0, 0, 0, false, 0, 0, []⟩,
  ⟨0x68, 1, 1, 1, 1, 0, 0, 0, false, 0, 0, []⟩,
  ⟨0x6c, 1, 1, 1, 1, 0, 0, 0, false, 0, 0, []⟩]
def RegMap.MEM : List RegDesc := [
  ⟨0, 1, 1, 1, 1, 0, 0x1ff, 0, false, 0, 0, []⟩,
  ⟨4, 1, 1, 1, 1, 0x1ff, 0, 0, false, 0, 0, []⟩,
  ⟨0x10, 1, 1, 1, 1, 0x100, 0, 0, false, 0, 0, []⟩,
  ⟨0x14, 1, 1, 1, 1, 0, 0, 0, false, 0, 0, []⟩,
  ⟨0x18, 1, 1, 1, 1, 0, 0, 0, false, 0, 0, []⟩,
  ⟨0x20, 1, 1, 1, 1, 0xfe000000, 0, 0, false, 0, 0, []⟩,
  ⟨0x24, 1, 1, 1, 1, 0xffffffff, 0, 0, false, 0, 0, []⟩,
  ⟨0x30, 1, 1, 1, 1, 0x800000ff, 0, 0, false, 0x80000018, 0, [(7, 0, 1, 255)]⟩,
  ⟨0x34, 1, 1, 1, 1, 0, 0, 0, false, 0, 0, []⟩,
  ⟨0x40, 1, 1, 1, 1, 0, 0, 0, false, 0, 0, []⟩,
  ⟨0x44, 1, 1, 1, 1, 0, 0, 0, false, 0, 0, []⟩,
  ⟨0x48, 1, 1, 1, 1, 0, 0, 0, false, 0, 0, []⟩,
  ⟨0x4c, 1, 1, 1, 1, 0, 0, 0, false, 0, 0, []⟩,
  ⟨0x50, 1, 1, 1, 1, 0, 0, 0, false, 0, 0, []⟩,
  ⟨0x54, 1, 1, 1, 1, 0, 0, 0, false, 0, 0, []⟩,
  ⟨0x58, 1, 1, 1, 1, 0, 0x80000000, 0, false, 0, 0, []⟩,
  ⟨0x60, 1, 1, 1, 1, 0, 0, 0, false, 0, 0, []⟩]
def RegMap.PWR : List RegDesc := [
  ⟨0, 1, 1, 1, 1, 0, 0x3f, 0, false, 0, 0, []⟩,
  ⟨4, 1, 1, 1, 1, 0x3f, 0, 0, false, 0, 0, []⟩,
  ⟨0x10, 1, 1, 1, 1, 0, 0, 0, false, 0, 0, []⟩,
  ⟨0x14, 1, 1, 1, 1, 0, 0, 0, false, 0x44, 0, []⟩,
  ⟨0x18, 1, 1, 1, 1, 0, 0, 0, false, 0, 0, []⟩,
  ⟨0x1c, 1, 1, 1, 1, 0, 0, 0, false, 0, 0, []⟩,
  ⟨0x20, 1, 1, 1, 1, 0, 0, 0, false, 0x101, 0, []⟩,
  ⟨0x24, 1, 1, 1, 1, 0, 0, 0, false, 0, 0, []⟩,
  ⟨0x28, 1, 1, 1, 1, 0, 0, 0, false, 0, 0, []⟩,
  ⟨0x2c, 1, 1, 1, 1, 0x3ff, 0, 0, false, 0x244, 0, []⟩,
  ⟨0x30, 1, 1, 1, 1, 0, 0, 0, false, 0, 0, []⟩,
  ⟨0x40, 1, 1, 1, 1, 0, 0, 0, false, 0, 0, []⟩,
  ⟨0x44, 1, 1, 1, 1, 0, 0, 0, false, 0, 0, []⟩,
  ⟨0x48, 1, 1, 1, 1, 0, 0, 0, false, 0, 0, []⟩,
  ⟨0x4c, 1, 1, 1, 1, 0, 0, 0, false, 0, 0, []⟩,
  ⟨0x50, 1, 1, 1, 1, 0xf, 0, 0, false, 0, 0, []⟩,
  ⟨0x8000, 4096, 4, 1, 1, 0xffffffff, 0, 0, false, 0, 0, []⟩]
def RegMap.FUS : List RegDesc := [
  ⟨0, 1, 1, 1, 1, 0, 0xf, 0, false, 0, 0, []⟩,
  ⟨4, 1, 1, 1, 1, 0xf, 0, 0, false, 0, 0, []⟩,
  ⟨0x10, 1, 1, 1, 1, 0, 0, 0, false, 0, 0, []⟩,
  ⟨0x20, 1, 1, 1, 1, 0x17f, 0, 0, true, 0, 0, [(6, 0, 0, 70)]⟩,
  ⟨0x24, 1, 1, 1, 1, 0x3fffffff, 0, 0, true, 0, 0, []⟩,
  ⟨0x28, 1, 1, 1, 1, 0x3ffff, 0, 0, true, 0, 0, []⟩,
  ⟨0x30, 6, 4, 1, 1, 0x3fffffff, 0, 0, true, 0, 0, []⟩,
  ⟨0x50, 6, 4, 1, 1, 0xffff, 0, 0, true, 0, 0, [(15, 0, 32768, 65535)]⟩,
  ⟨0x70, 4, 4, 1, 1, 0xfff, 0, 0, true, 0, 0, []⟩,
  ⟨0x80, 8, 4, 1, 1, 0, 0, 0, false, 0, 0, []⟩,
  ⟨0xa0, 8, 4, 1, 1, 0, 0, 0, false, 0, 0, []⟩,
  ⟨0x100, 1, 1, 1, 1, 0x3f, 0, 0, false, 0, 0, []⟩,
  ⟨0x104, 1, 1, 1, 1, 0xffffffff, 0, 0, false, 0, 0, []⟩,
  ⟨0x108, 1, 1, 1, 1, 0, 0, 0, false, 0, 0, []⟩,
  ⟨0x10c, 1, 1, 1, 1, 0, 0, 0, false, 0, 0, []⟩,
  ⟨0x110, 1, 1, 1, 1, 0, 0, 0, false, 0, 0, []⟩,
  ⟨0x114, 1, 1, 1, 1, 0, 0, 0, false, 0, 0, []⟩,
  ⟨0x118, 1, 1, 1, 1, 0, 0, 0, false, 0, 0, []⟩,
  ⟨0x200, 64, 4, 1, 1, 0, 0, 0, false, 0, 0, []⟩]
def RegMap.LOG : List RegDesc := [
  ⟨0, 1, 1, 1, 1, 0, 0x3f, 0, false, 0, 0, []⟩,
  ⟨4, 1, 1, 1, 1, 0x3f, 0, 0, false, 0, 0, []⟩,
  ⟨0x10, 1, 1, 1, 1, 0x80000001, 0, 0, false, 0x80000000, 0, []⟩,
  ⟨0x14, 1, 1, 1, 1, 0, 0, 0, false, 0, 0, []⟩,
  ⟨0x18, 1, 1, 1, 1, 0, 0, 0, false, 0, 0, []⟩,
  ⟨0x1c, 1, 1, 1, 1, 0xfff, 0, 0, false, 0, 0, []⟩,
  ⟨0x20, 1, 1, 1, 1, 0, 0, 0, false, 0, 0, []⟩,
  ⟨0x24, 1, 1, 1, 1, 0, 0, 0, false, 0, 0, []⟩,
  ⟨0x28, 1, 1, 1, 1, 0, 0, 0, false, 0, 0, []⟩,
  ⟨0x2c, 1, 1, 1, 1, 0, 0, 0, false, 0, 0, []⟩,
  ⟨0x30, 1, 1, 1, 1, 0, 0, 0, false, 0, 0, []⟩,
  ⟨0x40, 1, 1, 1, 1, 0xfffff000, 0, 0, false, 0, 0, []⟩,
  ⟨0x44, 1, 1, 1, 1, 0xffffffff, 0, 0, false, 0, 0, []⟩,
  ⟨0x48, 1, 1, 1, 1, 0x801fffff, 0, 0, false, 0x60001, 0, [(20, 16, 6, 16)]⟩,
  ⟨0x4c, 1, 1, 1, 1, 0xffffffff, 0, 0, false, 0xffffffff, 0, []⟩,
  ⟨0x50, 1, 1, 1, 1, 0xffff, 0, 0, false, 0, 0, []⟩,
  ⟨0x54, 1, 1, 1, 1, 0, 0, 0, false, 0, 0, []⟩,
  ⟨0x58, 1, 1, 1, 1, 0xfffffff8, 0, 0, false, 0, 0, []⟩,
  ⟨0x5c, 1, 1, 1, 1, 0xffffffff, 0, 0, false, 0, 0, []⟩,
  ⟨0x60, 1, 1, 1, 1, 3, 0, 0, false, 0, 0, []⟩,
  ⟨0x80, 1, 1, 1, 1, 0, 0, 0, false, 0, 0, []⟩,
  ⟨0x88, 1, 1, 1, 1, 0, 0, 0, false, 0, 0, []⟩,
  ⟨0x8c, 1, 1, 1, 1, 0, 0, 0, false, 0, 0, []⟩]

/-- The registers of the block that BAR0 offset / 0x10000 names (R526, Table 23.1). -/
def RegMap.block (b : Nat) : List RegDesc :=
  match b with
  | 0 => RegMap.GLB
  | 1 => RegMap.GAF
  | 2 => RegMap.RING
  | 3 => RegMap.FEN
  | 4 => RegMap.MRV
  | 5 => RegMap.OBS
  | 6 => RegMap.SNS
  | 7 => RegMap.CTL
  | 8 => RegMap.PWM
  | 9 => RegMap.VLV
  | 10 => RegMap.TMR
  | 11 => RegMap.AUD
  | 12 => RegMap.MIX
  | 13 => RegMap.VIS
  | 14 => RegMap.USB
  | 15 => RegMap.TWB
  | 16 => RegMap.VXL
  | 17 => RegMap.MEM
  | 18 => RegMap.PWR
  | 19 => RegMap.FUS
  | 20 => RegMap.LOG
  | _ => []

end Sys2Proof.Machine
end

