-- ==== Sys2Proof/Machine/Ops.lean ====
section
/-!
DEFINITION. The named operations over the state that every block shares: sparse stores, register words and fields, free
values, interrupts and MSI-X messages, telemetry records, fences, the completion of a descriptor.
-/
namespace Sys2Proof.Machine

/-! ### Sparse stores -/

/-- What a sparse store holds at index `k`; `d` where it lists nothing. -/
def sget {α : Type} (d : α) : Store α → Nat → α
  | [], _ => d
  | (j, v) :: r, k => if j = k then v else if k < j then d else sget d r k

/-- The store with `v` at index `k`, in canonical form: no pair is kept whose value is `d`, what index `k` reads as
unlisted. (In a canonical store no pair after that of `k` has an index up to `k`, so that nothing more is dropped with it.) -/
def sset {α : Type} [DecidableEq α] (d : α) : Store α → Nat → α → Store α
  | [], k, v => if v = d then [] else [(k, v)]
  | (j, w) :: r, k, v =>
    if j = k then (if v = d then r.dropWhile (fun e => decide (e.1 ≤ k)) else (k, v) :: r)
    else if k < j then (if v = d then (j, w) :: r else (k, v) :: (j, w) :: r)
    else (j, w) :: sset d r k v

/-- The canonical form of a sparse store whose unlisted index `k` reads as `d k`: indices strictly rising from `lo` on, no
pair equal to what its index would read as unlisted. -/
def swf {α : Type} [DecidableEq α] (d : Nat → α) : Nat → Store α → Bool
  | _, [] => true
  | lo, (j, v) :: r => decide (lo ≤ j) && decide (v ≠ d j) && swf d (j + 1) r

/-- A list of like things with `x` at place `i`; a place beyond its end is made, with `d` before it. -/
def lput {α : Type} (d : α) : List α → Nat → α → List α
  | [], 0, x => [x]
  | [], n + 1, x => d :: lput d [] n x
  | _ :: r, 0, x => x :: r
  | a :: r, n + 1, x => a :: lput d r n x

/-! ### Bytes, little-endian (R7) -/

/-- The number that bytes spell, least significant byte first (R7). -/
def leNat : List Byte → Nat
  | [] => 0
  | b :: r => b.toNat + 256 * leNat r

/-- The `n` bytes of a number, least significant first (R7). -/
def leBytes : Nat → Nat → List Byte
  | 0, _ => []
  | n + 1, v => BitVec.ofNat 8 v :: leBytes n (v / 256)

/-- `n` bytes of a list from offset `o`; bytes beyond its end read 0. -/
def slice (l : List Byte) (o n : Nat) : List Byte :=
  let r := (l.drop o).take n
  r ++ List.replicate (n - r.length) 0

/-- The little-endian field of `n` bytes at offset `o` of an image, a descriptor or a record. -/
def fieldAt (l : List Byte) (o n : Nat) : Nat := leNat ((l.drop o).take n)

/-- Bit `i` of a number. -/
def bitOf (v i : Nat) : Bool := (v >>> i) % 2 = 1

/-- Bits [hi:lo] of a number (R6). -/
def bitsOf (v hi lo : Nat) : Nat := (v >>> lo) % 2 ^ (hi + 1 - lo)

/-- The number with bit `i` set. -/
def orBit (v i : Nat) : Nat := v ||| (1 <<< i)

/-- The number with bit `i` clear. -/
def clrBit (v i : Nat) : Nat := if bitOf v i then v - 2 ^ i else v

/-- The indices below `n` of the bits set in a mask. -/
def bitList (n mask : Nat) : List Nat := (List.range n).filter (bitOf mask)

/-- The integer that the low `w` bits of a number are in two's complement (R9). -/
def sgn (w v : Nat) : Int := if v % 2 ^ w < 2 ^ (w - 1) then (v % 2 ^ w : Nat) else (v % 2 ^ w : Nat) - (2 ^ w : Nat)

/-- The low `w` bits of an integer. -/
def lowBits (w : Nat) (v : Int) : Nat := (v % (2 ^ w : Nat)).toNat

/-- A number held at the all-ones value of `w` bits (R518). -/
def satU (w v : Nat) : Nat := min v (2 ^ w - 1)

/-! ### Memories -/

/-- One byte of a byte store whose unlisted bytes read 0. -/
def byteAt (m : Store Byte) (a : Nat) : Byte := sget 0 m a

/-- `n` bytes of a byte store from address `a`. -/
def bytesAt (m : Store Byte) (a n : Nat) : List Byte := (List.range n).map fun i => byteAt m (a + i)

/-- A byte store with the bytes `bs` written from address `a` on. -/
def writeBytes (m : Store Byte) (a : Nat) : List Byte → Store Byte
  | [] => m
  | b :: r => writeBytes (sset 0 m a b) (a + 1) r

/-! ### Register words -/

/-- The element of a register row that block offset `o` names. -/
def RegDesc.index (d : RegDesc) (o : Nat) : Option Nat :=
  if o < d.off then none
  else
    let r := o - d.off
    let i := r / d.s1
    let q := r % d.s1
    if d.n1 ≤ 1 then
      if r % d.s2 = 0 ∧ r / d.s2 < d.n2 then some 0 else none
    else if i < d.n1 ∧ q % d.s2 = 0 ∧ q / d.s2 < d.n2 then some i else none

/-- The first row of a register list that names block offset `o`, with its index. -/
def findReg : List RegDesc → Nat → Option (RegDesc × Nat)
  | [], _ => none
  | d :: r, o => match d.index o with
    | some i => some (d, i)
    | none => findReg r o

/-- The register that a BAR0 offset names (R526, R535); none is a reserved offset (R23). -/
def regAt (off : Nat) : Option (RegDesc × Nat) := findReg (RegMap.block (off / 0x10000)) (off % 0x10000)

/-- The value of a register word after a cold reset, fuse and strap values apart (R25). -/
def regReset (off : Nat) : Word :=
  match regAt off with
  | some (d, i) => BitVec.ofNat 32 (d.rst + d.rstStep * i)
  | none => 0

/-- A register word as the device holds it. -/
def State.reg (s : State) (off : Nat) : Word := sget (regReset off) s.regs off

/-- The state with a register word set by hardware. -/
def State.setReg (s : State) (off : Nat) (v : Word) : State :=
  { s with regs := sset (regReset off) s.regs off v }

/-- The active value of a register with a shadow (RWS, R24). -/
def State.actReg (s : State) (off : Nat) : Word := sget (regReset off) s.act off

/-- The state with the active value of a register set. -/
def State.setAct (s : State) (off : Nat) (v : Word) : State :=
  { s with act := sset (regReset off) s.act off v }

/-- The load point of a register: all its shadows become active in one cycle (R24). -/
def State.loadReg (s : State) (off : Nat) : State := s.setAct off (s.reg off)

/-- A field of a word. -/
def Field.get (f : Field) (w : Word) : Nat := bitsOf w.toNat f.hi f.lo

/-- A word with a field set to the low bits of `v`. -/
def Field.put (f : Field) (w : Word) (v : Nat) : Word :=
  let n := f.hi + 1 - f.lo
  let old := f.get w
  BitVec.ofNat 32 (w.toNat - old * 2 ^ f.lo + (v % 2 ^ n) * 2 ^ f.lo)

/-- A register field as the device holds it. -/
def State.get (s : State) (f : Field) : Nat := f.get (s.reg f.off)

/-- A register field's active value (RWS). -/
def State.geta (s : State) (f : Field) : Nat := f.get (s.actReg f.off)

/-- A register field set by hardware. -/
def State.put (s : State) (f : Field) (v : Nat) : State := s.setReg f.off (f.put (s.reg f.off) v)

/-- A one-bit field read as a flag. -/
def State.flag (s : State) (f : Field) : Bool := s.get f = 1

/-- A one-bit field written as a flag. -/
def State.putB (s : State) (f : Field) (b : Bool) : State := s.put f (if b then 1 else 0)

/-- Bit `i` of a field. -/
def State.bitF (s : State) (f : Field) (i : Nat) : Bool := bitOf (s.get f) i

/-- A field with bit `i` set or cleared. -/
def State.putBit (s : State) (f : Field) (i : Nat) (b : Bool) : State :=
  s.put f (if b then orBit (s.get f) i else clrBit (s.get f) i)

/-- The width of a field. -/
def Field.width (f : Field) : Nat := f.hi + 1 - f.lo

/-- Hardware sets status bits of the word at `off`, or moves the counter whose lowest bit is set, in this cycle: a write of the same
cycle does not clear them (R23, R518). -/
def State.noteSet (s : State) (off : Nat) (mask : Word) : State :=
  { s with seen := { s.seen with sets := sset 0 s.seen.sets off (sget 0 s.seen.sets off ||| mask) } }

/-- A field counts `n` more: it becomes `v`. -/
def State.count (s : State) (f : Field) (n v : Nat) : State :=
  (s.put f v).noteSet f.off (BitVec.ofNat 32 (if n = 0 then 0 else 2 ^ f.lo))

/-- A saturating counter that counts `n` more (R518). -/
def State.incSat (s : State) (f : Field) (n : Nat := 1) : State := s.count f n (satU f.width (s.get f + n))

/-- A wrapping counter that counts `n` more (R518). -/
def State.incWrap (s : State) (f : Field) (n : Nat := 1) : State := s.count f n (s.get f + n)

/-- A CLR of the counters in a word: one that has counted in this cycle reads 1, any other 0 (R518). -/
def State.clrReg (s : State) (off : Nat) : State := s.setReg off (sget 0 s.seen.sets off)

/-- A CLR of one counter (R518). -/
def State.clrField (s : State) (f : Field) : State := s.put f (f.get (sget 0 s.seen.sets f.off))

/-- A register of two words, the low word at the lower offset (R7), read as one number. -/
def State.wide (s : State) (lo : Nat) : Nat := (s.reg lo).toNat + 2 ^ 32 * (s.reg (lo + 4)).toNat

/-- A register of two words set by hardware to the low `w` bits of `v`. -/
def State.setWide (s : State) (w lo v : Nat) : State :=
  (s.setReg lo (BitVec.ofNat 32 v)).setReg (lo + 4) (BitVec.ofNat 32 (v % 2 ^ w / 2 ^ 32))

/-! ### Free values -/

/-- A free value below `n`, and the state with the counter advanced: nothing constrains the value (log entry 3). -/
def State.free (s : State) (n : Nat) : Nat × State :=
  (Config.freeNat s.freeCtr % n, { s with freeCtr := s.freeCtr + 1 })

/-- `k` free bytes, and the state with the counter advanced. -/
def State.freeBytes (s : State) (k : Nat) : List Byte × State :=
  ((List.range k).map fun i => BitVec.ofNat 8 (Config.freeNat (s.freeCtr + i)), { s with freeCtr := s.freeCtr + k })

/-! ### Power and time -/

/-- The power state (R463): 0 OFF, 1 STANDBY, 2 SLEEP, 3 IDLE, 4 RUN. -/
def State.pstate (s : State) : Nat := s.get Fld.PWR_STATUS_STATE

/-- Whether a debug halt is in effect (R521). -/
def State.halted (s : State) : Bool := s.flag Fld.LOG_DBG_HALTED

/-- Whether a function's READY bit is set (Table 20.5). -/
def State.ready (s : State) (bit : Nat) : Bool := s.bitF Fld.GLB_READY_READY bit

/-- A function is ready and its clocks run: neither SLEEP nor STANDBY (Table 20.1). -/
def State.up (s : State) (bit : Nat) : Bool := s.ready bit && decide (3 ≤ s.pstate)

/-- TICKNO (R62). -/
def State.tickno (s : State) : Nat := s.wide Reg.GAF_TICKNO_LO

/-- Whether the gaffer is producing ticks. -/
def State.running (s : State) : Bool := s.flag Fld.GAF_STATUS_RUNNING

/-- TCLK cycles from the tick edge to now; 0xFFFF while the gaffer is stopped (Tables 3.4 and 22.1). -/
def State.edgeOfs (s : State) : Nat :=
  if s.running then (s.dtime.toNat + 2 ^ 64 - s.wide Reg.GAF_EDGE_LO) % 2 ^ 64 % 2 ^ 16 else 0xFFFF

/-- Whether the device can write host memory, fetch descriptors and send messages: link up, Bus Master Enable, not in D3hot,
not halted, in RUN or IDLE (R68, R69, R522, Table 20.1). -/
def State.canDma (s : State) : Bool :=
  s.flag Fld.RING_LINK_UP && s.ring.bme && !s.ring.d3hot && !s.halted && decide (3 ≤ s.pstate)

/-- Whether the host's access to a BAR0 offset is served now (R467, R476, R550): GLB, PWR, FUS, RING and MEM from the release
of reset (the SQ and CQ registers from RING READY), any other block once its READY bit has set; in SLEEP and STANDBY only
GLB, PWR and FUS, and in SLEEP VXL_WAKE and VXL_STATUS. -/
def State.served (s : State) (off : Nat) : Bool :=
  let b := off / 0x10000
  let ever := bitOf s.pwr.ever
  let up := match b with
    | 0 => true
    | 1 => ever 0
    | 2 => if 0x21000 ≤ off ∧ off < 0x23000 then ever 1 else true
    | 17 => true
    | 18 => true
    | 19 => true
    | 20 => ever 18
    | _ => ever (b - 1)
  let awake := match s.pstate with
    | 0 => false
    | 1 => b = 0 || b = 18 || b = 19
    | 2 => b = 0 || b = 18 || b = 19 || off = Reg.VXL_WAKE || off = Reg.VXL_STATUS
    | _ => true
  up && awake

/-- The READY bit of block `b` of Table 23.1, for a block that has one. -/
def readyBit (b : Nat) : Option Nat :=
  match b with
  | 0 => none | 18 => none | 19 => none
  | 1 => some 0 | 2 => some 1
  | 17 => some 16
  | 20 => some 18
  | n => some (n - 1)

/-! ### Interrupts (R103, R104) -/

/-- Sends a message on a vector, or sets its PBA bit while it is masked or messages are stopped (R104). -/
def State.sendMsg (s : State) (vec : Nat) : State :=
  let vec := vec % 128
  if s.canDma && !s.flag (Fld.MSIX_CTRL_MASK vec) then
    { s with ring := { s.ring with msix := s.ring.msix ++ [vec] } }
  else s.putBit (Fld.MSIX_PBA_PENDING (vec / 32)) (vec % 32) true

/-- Sends `n` messages on a vector. -/
def State.sendMsgs (s : State) (vec : Nat) : Nat → State
  | 0 => s
  | n + 1 => (s.sendMsg vec).sendMsgs vec n

/-- How many bits of a 32-bit mask are set. -/
def popCount (v : Nat) : Nat := ((List.range 32).filter (bitOf v)).length

/-- A status register or its enable register takes a new value: one message on the block's vector for each status and enable
AND that changes from 0 to 1 (R103). `blk` indexes RING_BVEC. -/
def State.setIrqRegs (s : State) (blk stOff enOff : Nat) (st en : Word) : State :=
  let before := (s.reg stOff &&& s.reg enOff).toNat
  let after := (st &&& en).toNat
  let rose := popCount (after &&& (after ^^^ before))
  ((s.setReg stOff st).setReg enOff en).sendMsgs (s.get (Fld.RING_BVEC_VECTOR blk)) rose

/-- Hardware sets status bits of an interrupt status register (the enable register is `enOff`) (R23, R103). -/
def State.irq (s : State) (blk stOff enOff mask : Nat) : State :=
  (s.setIrqRegs blk stOff enOff (s.reg stOff ||| BitVec.ofNat 32 mask) (s.reg enOff)).noteSet stOff (BitVec.ofNat 32 mask)

/-- Hardware sets bit `i` of a W1C field that raises no interrupt of its own (R23). -/
def State.setBit (s : State) (f : Field) (i : Nat) : State := (s.putBit f i true).noteSet f.off (BitVec.ofNat 32 (2 ^ (f.lo + i)))

/-- Hardware sets a one-bit status field of a block whose enable register is the next word. -/
def State.irqF (s : State) (f : Field) : State := s.irq (f.off / 0x10000) f.off (f.off + 4) (2 ^ f.lo)

/-- Hardware sets bit `i` of a status field of a block whose enable register is the next word. -/
def State.irqBit (s : State) (f : Field) (i : Nat) : State := s.irq (f.off / 0x10000) f.off (f.off + 4) (2 ^ (f.lo + i))

/-! ### Telemetry (R506 to R509) -/

/-- A record placed among those of its own cycle in the order of SRC, SUB and TYPE (R508). -/
def insertTel (r : TelRec) : List TelRec → List TelRec
  | [] => [r]
  | q :: t =>
    if q.at_ = r.at_ ∧ (r.src < q.src ∨ (r.src = q.src ∧ (r.sub < q.sub ∨ (r.sub = q.sub ∧ r.typ < q.typ)))) then
      r :: q :: t
    else q :: insertTel r t

/-- Whether telemetry takes records: not halted (R522), its domain running (Table 20.3), LOG READY. -/
def State.telOn (s : State) : Bool := !s.halted && decide (3 ≤ s.pstate) && s.ready 18

/-- A block hands a record to the telemetry unit: it waits in the queue of 256, or is discarded and counted (R509). -/
def State.tell (s : State) (typ src sub : Nat) (payload : List Byte) (flags : Nat := 0) : State :=
  if !s.telOn then s
  else if 256 ≤ s.tel.queue.length then
    let s := (s.incSat Fld.LOG_LOSS_QLOST).irqF Fld.LOG_IRQ_STATUS_QLOST
    { s with tel := { s.tel with qlost := s.tel.qlost + 1 } }
  else
    let r : TelRec := ⟨typ, flags, s.tickno % 2 ^ 32, s.edgeOfs, src, sub, slice payload 0 20, s.cyc⟩
    { s with tel := { s.tel with queue := insertTel r s.tel.queue } }

/-! ### Descriptor fields (Table 3.2) -/

def Desc.opcode (d : Desc) : Nat := fieldAt d.raw 0 1
def Desc.flags (d : Desc) : Nat := fieldAt d.raw 1 1
def Desc.seq (d : Desc) : Nat := fieldAt d.raw 2 2
def Desc.tag (d : Desc) : Nat := fieldAt d.raw 4 4
def Desc.timeout (d : Desc) : Nat := fieldAt d.raw 8 4
def Desc.waitFence (d : Desc) : Nat := fieldAt d.raw 12 2
def Desc.signalFence (d : Desc) : Nat := fieldAt d.raw 14 2
def Desc.waitValue (d : Desc) : Nat := fieldAt d.raw 16 8
def Desc.signalValue (d : Desc) : Nat := fieldAt d.raw 24 8
/-- A payload field: `n` bytes at descriptor offset `o`. -/
def Desc.pay (d : Desc) (o n : Nat) : Nat := fieldAt d.raw o n
def Desc.irq (d : Desc) : Bool := bitOf d.flags 0
def Desc.wait (d : Desc) : Bool := bitOf d.flags 1
def Desc.signal (d : Desc) : Bool := bitOf d.flags 2
def Desc.barrier (d : Desc) : Bool := bitOf d.flags 3

/-- The units of Table 3.3, numbered. -/
def unitOf (opcode : Nat) : Nat :=
  match opcode with
  | 0x01 => 1 | 0x0E => 1 | 0x0F => 1
  | 0x02 => 2 | 0x0D => 2
  | 0x03 => 3 | 0x04 => 4 | 0x05 => 5 | 0x06 => 6
  | 0x07 => 7 | 0x08 => 7
  | 0x09 => 8 | 0x0A => 9 | 0x0B => 10 | 0x0C => 11
  | _ => 0

/-! ### Completion statuses (Table 3.5) -/

def stOK : Nat := 0x00
def stAborted : Nat := 0x01
def stTimeout : Nat := 0x02
def stBadDescriptor : Nat := 0x03
def stBadSequence : Nat := 0x04
def stFencePoisoned : Nat := 0x05
def stMemoryEcc : Nat := 0x06
def stOverrun : Nat := 0x07
def stCulled : Nat := 0x08
def stUnitFenced : Nat := 0x09
def stAuthFail : Nat := 0x0A
def stLinkLost : Nat := 0x0B
def stControlCancelled : Nat := 0x0C
def stCatchRefused : Nat := 0x0D
def stOverlapReject : Nat := 0x0E
def stNotReady : Nat := 0x0F

/-! ### Fences (R108 to R130) -/

/-- VALUE of fence n. -/
def State.fenceValue (s : State) (n : Nat) : Nat := s.wide (Reg.FEN_VALUE_LO n)

/-- POISONED of fence n. -/
def State.poisoned (s : State) (n : Nat) : Bool := s.flag (Fld.FEN_STATE_POISONED n)

/-- The condition of a watch holds (R130). -/
def State.watchHolds (s : State) (w : Nat) : Bool :=
  let n := s.get (Fld.FEN_WATCH_INDEX w)
  s.flag (Fld.FEN_WATCH_EN w) && (decide (s.wide (Reg.FEN_WATCH_THRESH_LO w) ≤ s.fenceValue n) || s.poisoned n)

/-- The requests that have reached fence `n` in this cycle so far; the first of a cycle finds the fence as the cycle did (R113). -/
def State.fenReq (s : State) (n : Nat) : FenReq :=
  (s.seen.reqs.find? fun r => r.n = n).getD ⟨n, s.fenceValue n, s.poisoned n, [], false, false⟩

/-- Sets the status bit of each watch on fence `n` whose condition holds now and did not hold when the cycle began, with VALUE
`value` and POISONED `poisoned` (R130). -/
def watchesFire (s : State) (n value : Nat) (poisoned : Bool) : State :=
  (List.range 16).foldl (fun t w =>
    if s.get (Fld.FEN_WATCH_INDEX w) = n && s.watchHolds w &&
        !(decide (s.wide (Reg.FEN_WATCH_THRESH_LO w) ≤ value) || poisoned) then t.irqBit Fld.FEN_IRQ_STATUS_WATCH w else t) s

/-- Fence `n` becomes poisoned: the status bit is set, and FEN_POISON_FIRST takes the first fence since VALID was cleared, the
lowest of those of one cycle (R123). -/
def notePoison (s : State) (n : Nat) : State :=
  let s := s.irqF Fld.FEN_IRQ_STATUS_POISONED
  if !s.flag Fld.FEN_POISON_FIRST_VALID then
    let s := (s.setBit Fld.FEN_POISON_FIRST_VALID 0).put Fld.FEN_POISON_FIRST_INDEX n
    { s with seen := { s.seen with first := true } }
  else if s.seen.first then s.put Fld.FEN_POISON_FIRST_INDEX (min n (s.get Fld.FEN_POISON_FIRST_INDEX))
  else s

/-- Requests that reach a fence: values signalled, a poison, an unpoison. They apply together with the other requests that reach it
in the same cycle: VALUE is the largest, each value below the VALUE of before the cycle counts as stale, and poison wins over
unpoison (R110, R113, R123). Waits are evaluated at the end of the cycle (`settle`). -/
def fenceApply (s : State) (n : Nat) (sigs : List Nat) (poison unpoison : Bool) : State :=
  let q := s.fenReq n
  let r := { q with sigs := q.sigs ++ sigs, poison := q.poison || poison, unpoison := q.unpoison || unpoison }
  let was := s.poisoned n
  let now := if poison || unpoison then r.poison || (r.poisoned && !r.unpoison) else was
  let stale := (sigs.filter (· < r.value)).length
  let s := { s with seen := { s.seen with reqs := r :: s.seen.reqs.filter fun x => x.n ≠ n } }
  let s := s.setWide 64 (Reg.FEN_VALUE_LO n) (sigs.foldl max (s.fenceValue n))
  let s := if stale = 0 then s else (s.incSat Fld.FEN_STALE_COUNT stale).irqF Fld.FEN_IRQ_STATUS_STALE
  let s := s.putB (Fld.FEN_STATE_POISONED n) now
  let s := if now && !was && !r.poisoned then notePoison s n else s
  watchesFire s n r.value r.poisoned

/-- The wait entries of a descriptor: fence and value; the header wait, and for a WAIT its extra entries (Table 4.1). -/
def Desc.waits (d : Desc) : List (Nat × Nat) :=
  (d.waitFence % 1024, d.waitValue) ::
    (if d.opcode = 0x08 then
      (List.range (d.pay 32 1 % 4)).map fun i => (d.pay (34 + 10 * i) 2 % 1024, d.pay (36 + 10 * i) 8)
    else [])

/-- The entries of a list of waits for which a test holds, as a mask. -/
def entryMask (p : Nat × Nat → Bool) (l : List (Nat × Nat)) : Nat :=
  ((List.range l.length).filter fun i => match l[i]? with
    | some e => p e
    | none => false).foldl orBit 0

/-- How a wait stands: not resolved, satisfied, or failed on a fence; with the entries that have been satisfied. -/
inductive WaitRes where
  | open_ (sat : Nat)
  | sat (mask : Nat)
  | fail (fence mask : Nat)
deriving DecidableEq, Repr

/-- R114 and R120: how the wait of a descriptor stands in the present fence state. `d.sat` holds the entries that earlier cycles
found satisfied; what is poisoned now decides. -/
def State.waitStatus (s : State) (d : Desc) : WaitRes :=
  let ws := d.waits
  let poi := entryMask (fun e => s.poisoned e.1) ws
  let sat := d.sat ||| entryMask (fun e => !s.poisoned e.1 && decide (e.2 ≤ s.fenceValue e.1)) ws
  let all := 2 ^ ws.length - 1
  let first := match bitList 4 poi with
    | i :: _ => (ws[i]?.map (·.1)).getD 0
    | [] => 0
  if d.opcode = 0x08 && bitOf (d.pay 32 1) 4 then
    if sat ≠ 0 then .sat sat else if poi = all then .fail first sat else .open_ sat
  else if poi ≠ 0 then .fail first sat
  else if sat = all then .sat sat
  else .open_ sat

/-! ### Completion of a descriptor (R88, R97, R112) -/

/-- A record placed among those of its own cycle, an idle step apart from the next, in ascending SQ index (R84). -/
def insertRec (r : Rec) : List Rec → List Rec
  | [] => [r]
  | q :: t => if q.at_ = r.at_ ∧ r.sq < q.sq then r :: q :: t else q :: insertRec r t

/-- The point of no return of a descriptor (R97): its record is queued; when its status is OK it performs its signal, else
its signal fence is poisoned if POISON_ON_FAIL says so (R112). `signal` is false where the signal has been performed already
(a SIGNAL descriptor). Waits that this resolves are left to `settle`. -/
def complete1 (s : State) (d : Desc) (status detail result : Nat) (wb : Option (Nat × List Byte) := none) : State :=
  let ok := status = stOK
  let n := d.signalFence % 1024
  let r : Rec :=
    { sq := d.sq, cq := d.cq, tag := BitVec.ofNat 32 d.tag, seq := d.seq, opcode := d.opcode, status := status
      retried := d.retried, signalled := ok && d.signal, late := false
      sqHead := s.get (Fld.SQ_HEAD_HEAD d.sq), detail := detail, tick := s.tickno, ofs := s.edgeOfs
      result := result, irq := d.irq, wb := wb, at_ := s.cyc }
  let s := { s with ring := { s.ring with recs := insertRec r s.ring.recs
                                          flight := s.ring.flight.erase d } }
  if !d.signal then s
  else if ok then
    if d.opcode = 0x07 then s else fenceApply s n [d.signalValue] false false
  else if s.flag (Fld.FEN_STATE_POISON_ON_FAIL n) then fenceApply s n [] true false
  else s

/-- Replaces a descriptor in flight. -/
def State.setDesc (s : State) (old new : Desc) : State :=
  { s with ring := { s.ring with flight := s.ring.flight.map fun x => if x = old then new else x } }

/-- A descriptor may be dispatched as far as the others of its SQ go: they are dispatched in ring order, except that one that waits on
a fence holds back only those of its unit; nothing passes a BARRIER that has not started, and a BARRIER starts once every earlier
descriptor has passed its point of no return (R82, R83, R116). -/
def State.mayGo (s : State) (d : Desc) : Bool :=
  let earlier := (s.ring.flight.takeWhile (· ≠ d)).filter (·.sq = d.sq)
  !(d.barrier && !earlier.isEmpty) && !earlier.any fun e =>
    e.stage = .ready || (e.stage = .waiting && unitOf e.opcode = unitOf d.opcode) || (e.barrier && e.stage ≠ .active)

/-- The first descriptor in flight whose wait fails now, with the poisoned fence and the entries satisfied. -/
def State.failing (s : State) : Option (Desc × Nat × Nat) :=
  s.ring.flight.findSome? fun d =>
    if d.stage ≠ .waiting then none
    else match s.waitStatus d with
      | .fail f m => some (d, f, m)
      | _ => none

/-- The first descriptor in flight whose wait is satisfied now, with the entries satisfied. -/
def State.satisfied (s : State) : Option (Desc × Nat) :=
  s.ring.flight.findSome? fun d =>
    if d.stage ≠ .waiting then none
    else match s.waitStatus d with
      | .sat m => some (d, m)
      | _ => none

/-- A waiting descriptor remembers the entries that have been satisfied so far (R120). -/
def State.noteWait (s : State) (d : Desc) : Desc :=
  if d.stage = .waiting then
    match s.waitStatus d with
    | .open_ m => { d with sat := m }
    | _ => d
  else d

/-- Every waiting descriptor remembers the entries that have been satisfied so far. -/
def State.noteWaits (s : State) : State :=
  { s with ring := { s.ring with flight := s.ring.flight.map s.noteWait } }

/-- Every failed wait completes with FENCE_POISONED, and what that poisons fails in turn (R115, R120, R123). Each round takes one
descriptor out of the waiting ones; `fuel` is their number. -/
def failWaits : Nat → State → State
  | 0, s => s
  | fuel + 1, s =>
    match s.failing with
    | none => s
    | some (d, f, m) => failWaits fuel (complete1 s d stFencePoisoned (0x1000000 + f) (if d.opcode = 0x08 then m else 0))

/-- Every satisfied wait makes its descriptor ready for dispatch; a WAIT that nothing of its SQ holds back completes, and what it
signals is seen in turn (R114, R115, R120). -/
def satWaits : Nat → State → State
  | 0, s => s
  | fuel + 1, s =>
    match s.satisfied with
    | none => s
    | some (d, m) =>
      if d.opcode = 0x08 && s.mayGo d then satWaits fuel (complete1 s d stOK 0 m)
      else satWaits fuel (s.setDesc d { d with stage := .ready, sat := m })

/-- The waits are evaluated against the fence state after the cycle: those that fail first, for a wait that is satisfied and poisoned
in one cycle fails (R113, R114). -/
def State.settle (s : State) : State :=
  let t := failWaits s.ring.flight.length s
  (satWaits t.ring.flight.length t).noteWaits

/-- Requests to a fence. -/
def State.fence (s : State) (n : Nat) (sigs : List Nat) (poison unpoison : Bool) : State := fenceApply s n sigs poison unpoison

/-- A fence is signalled with a value (R110). -/
def State.signal (s : State) (n v : Nat) : State := s.fence n [v] false false

/-- A descriptor completes (`complete1`); the waits that this resolves are evaluated at the end of the cycle (R113). -/
def State.complete (s : State) (d : Desc) (status detail result : Nat) : State := complete1 s d status detail result

/-- A descriptor completes with BAD_DESCRIPTOR, the first failing field at byte offset `o` (R89). -/
def State.badDesc (s : State) (d : Desc) (o : Nat) : State := s.complete d stBadDescriptor o 0

/-- The descriptor of SQ and SEQ in flight. -/
def State.findDesc (s : State) (sq seq : Nat) : Option Desc :=
  s.ring.flight.find? fun d => d.sq = sq && d.seq = seq

/-- Two descriptors go through the same queue of a unit that runs in dispatch order: VISION chains, the transfers of a two-wire port, the
receptions or the transmissions of the USB bulk endpoint, playback to a common source (R348, R364, R385, R401). -/
def sameQueue (d e : Desc) : Bool :=
  d.opcode = e.opcode &&
    match d.opcode with
    | 0x04 =>
      let chs (d : Desc) : List Nat := (List.range (d.pay 34 1)).map fun i => d.pay (36 + i) 1
      d.pay 32 1 = 1 && e.pay 32 1 = 1 && (chs d).any (chs e).contains
    | 0x05 => true
    | 0x06 => d.pay 32 1 % 2 = e.pay 32 1 % 2
    | 0x0B => d.pay 32 1 = e.pay 32 1 && (d.pay 32 1 = 2 || d.pay 32 1 = 3)
    | _ => false

/-- No descriptor that was dispatched earlier into the same queue is still to begin. -/
def State.firstInQueue (s : State) (d : Desc) : Bool :=
  s.ring.flight.all fun e => !(e.stage = .dispatched && decide (e.order < d.order) && sameQueue d e)

/-- The place of a descriptor in the order of dispatch. -/
def State.orderOf (s : State) (sq seq : Nat) : Nat := ((s.findDesc sq seq).map (·.order)).getD 0

/-- `x` takes its place in a list that rises by `key`. -/
def insertBy {α : Type} (key : α → Nat) (x : α) (l : List α) : List α :=
  (l.filter fun y => key y ≤ key x) ++ x :: l.filter fun y => !decide (key y ≤ key x)

/-- The descriptor of SQ and SEQ, if it is dispatched, has one of the opcodes, no earlier descriptor of its SQ to the same unit is still
to begin (R82), it is its turn in a unit that runs in dispatch order, and its unit does not stand still in a halt (R522). -/
def State.takeDispatched (s : State) (sq seq opcode : Nat) : Option Desc :=
  match s.findDesc sq seq with
  | none => none
  | some d =>
    if d.stage = .dispatched ∧ d.opcode = opcode ∧
        (s.ring.flight.takeWhile (· ≠ d)).all (fun e =>
          !(e.sq = d.sq && unitOf e.opcode = unitOf d.opcode && e.stage ≠ .active)) ∧ s.firstInQueue d ∧ !(s.halted && [2, 4, 5, 9].contains (unitOf d.opcode)) then some d
    else none

/-- A descriptor begins at its unit. -/
def State.begin (s : State) (d : Desc) : State := s.setDesc d { d with stage := .active }

/-- A descriptor that needs host memory and cannot reach it waits within one PCI Express retry episode, which moves its
deadline by 200 µs and is counted as a replay episode (R69, R93, R95, Table 3.6). -/
def State.hostEpisode (s : State) (d : Desc) : State :=
  if d.episode then s
  else (s.setDesc d { d with episode := true, allow := d.allow + 400 }).incSat Fld.LOG_RETRY_REPLAY

/-- The same descriptor once its access is made: a retry episode that succeeds sets RETRIED and is counted (R95). -/
def State.episodeDone (s : State) (d : Desc) : Desc × State :=
  if d.episode then
    let e := { d with episode := false, retried := true }
    (e, s.setDesc d e)
  else (d, s)

/-- A unit reads host memory for descriptor `d` (R69, R91, R94): with the bytes it goes on by `k`; without access, or on a
Completion Timeout, the descriptor waits in a retry episode; a refused read completes it with BAD_DESCRIPTOR. -/
def State.withHost (s : State) (d : Desc) (r : HostRead) (k : Desc → List Byte → State → State) : State :=
  if !s.canDma then s.hostEpisode d
  else match r with
    | .bytes l => let (d, s) := s.episodeDone d; k d l s
    | .refused => s.complete d stBadDescriptor 0x010000FF 0
    | .timeout => s.hostEpisode d

/-! ### Event bindings (R125) -/

/-- A hardware event: every enabled binding of its source counts it and signals BASE + count. -/
def State.event (s : State) (source : Nat) : State :=
  (List.range 32).foldl (fun s k =>
    if s.flag (Fld.FEN_EVT_EN k) && s.get (Fld.FEN_EVT_SOURCE k) = source then
      let c := sget 0 s.evtCount k + 1
      let s := { s with evtCount := sset 0 s.evtCount k c }
      let s := s.put (Fld.FEN_EVT_COUNT_COUNT k) c
      s.signal (s.get (Fld.FEN_EVT_FENCE k)) ((s.wide (Reg.FEN_EVT_BASE_LO k) + c) % 2 ^ 64)
    else s) s

/-! ### Steps -/

/-- A meaning's answer: the effect, where the device is out of reset; a command that arrives while the device is held in
reset has no effect (R472, R478; log entry 5). -/
def act (s : State) (f : State → State) : Host.Outcome State Fault Refusal :=
  .next (if s.pwr.hold = .running then f s else s)

end Sys2Proof.Machine
end

