-- ==== Sys2Proof/Machine/Fences.lean ====
section
/-!
DEFINITION. Fences: host signals, watches, event bindings, and the SIGNAL and WAIT descriptors (chapter 4, R108 to R132).
-/
namespace Sys2Proof.Machine

/-- A write of FEN_HSIG_CMD: the SIGNAL, UNPOISON and POISON requests of one write apply in one cycle (R111, R113, R123,
R124). -/
def fenHsigCmd (s : State) (v : Word) : State :=
  let n := Fld.FEN_HSIG_CMD_INDEX.get v
  let sig := Fld.FEN_HSIG_CMD_SIGNAL.get v = 1
  let unp := Fld.FEN_HSIG_CMD_UNPOISON.get v = 1
  let poi := Fld.FEN_HSIG_CMD_POISON.get v = 1
  if sig || unp || poi then
    s.fence n (if sig || unp then [s.wide Reg.FEN_HSIG_LO] else []) poi unp
  else s

/-- FEN_HSIG_SIGNAL: a write of FEN_HSIG_CMD with SIGNAL set; `v` may set the other request bits too (R111). -/
def execFenHsigSignal (v : Word) (s : State) : Host.Outcome State Fault Refusal :=
  act s fun s => if s.served Reg.FEN_HSIG_CMD then fenHsigCmd s (v ||| 0x10000) else s

/-- FEN_HSIG_UNPOISON: a write of FEN_HSIG_CMD with UNPOISON set (R124). -/
def execFenHsigUnpoison (v : Word) (s : State) : Host.Outcome State Fault Refusal :=
  act s fun s => if s.served Reg.FEN_HSIG_CMD then fenHsigCmd s (v ||| 0x20000) else s

/-- FEN_HSIG_POISON: a write of FEN_HSIG_CMD with POISON set (R123). -/
def execFenHsigPoison (v : Word) (s : State) : Host.Outcome State Fault Refusal :=
  act s fun s => if s.served Reg.FEN_HSIG_CMD then fenHsigCmd s (v ||| 0x40000) else s

/-- A write of a word of watch `w`; while EN = 1 it re-evaluates the condition and sets the status bit at once if the
condition holds (R130, R552). -/
def fenWatchWrite (s : State) (w : Nat) (part : WatchWord) (v : Word) : State :=
  let s := match part with
    | .control => s.setReg (Reg.FEN_WATCH w) (v &&& 0x800003FF)
    | .threshLo => s.setReg (Reg.FEN_WATCH_THRESH_LO w) v
    | .threshHi => s.setReg (Reg.FEN_WATCH_THRESH_HI w) v
  if s.watchHolds w then s.irqBit Fld.FEN_IRQ_STATUS_WATCH w else s

/-- FEN_WATCH_WRITE (R130). -/
def execFenWatchWrite (w : Fin 16) (part : WatchWord) (v : Word) (s : State) : Host.Outcome State Fault Refusal :=
  act s fun s =>
    if s.served (Reg.FEN_WATCH w) then
      fenWatchWrite s w part v
    else s

/-- The event sources of Table 4.3, and 0x00 for none. -/
def evtSources : List Nat := [0x00, 0x01, 0x02, 0x03, 0x10, 0x11, 0x20, 0x30]

/-- A write of a binding's control word: an unlisted SOURCE ignores the whole write (R23); EN going from 0 to 1 sets the event
count to 0 (R125). -/
def fenEvtWrite (s : State) (k : Nat) (v : Word) : State :=
  if (Fld.FEN_EVT_SOURCE k).get v ∈ evtSources then
    let rise := !s.flag (Fld.FEN_EVT_EN k) && (Fld.FEN_EVT_EN k).get v = 1
    let s := s.setReg (Reg.FEN_EVT k) (v &&& 0x8003FFFF)
    if rise then
      let s := { s with evtCount := sset 0 s.evtCount k 0 }
      s.put (Fld.FEN_EVT_COUNT_COUNT k) 0
    else s
  else s

/-- FEN_EVT_ENABLE: a write of a binding's control word with EN = 1 (R125). -/
def execFenEvtEnable (k : Fin 32) (v : Word) (s : State) : Host.Outcome State Fault Refusal :=
  act s fun s => if s.served (Reg.FEN_EVT k) then fenEvtWrite s k (v ||| 0x80000000) else s

/-- FEN_STALE_CLR: FEN_STALE.COUNT becomes 0 (Table 4.7). -/
def execFenStaleClr (s : State) : Host.Outcome State Fault Refusal :=
  act s fun s => if s.served Reg.FEN_STALE then s.clrField Fld.FEN_STALE_COUNT else s

/-- A dispatched SIGNAL descriptor performs its signal: its point of no return (R122). `op` is 0 SIGNAL, 1 UNPOISON. The
write-back follows the signal and precedes the record on the link. RESULT and the write-back hold VALUE after the cycle: the end of
the cycle brings them up to date (`signalResults`). -/
def signalDesc (s : State) (sq seq op : Nat) : State :=
  match s.takeDispatched sq seq 0x07 with
  | none => s
  | some d =>
    if d.pay 32 1 ≠ op then s
    else
      let n := d.signalFence % 1024
      let s := fenceApply s n [d.signalValue] false (decide (op = 1))
      let v := s.fenceValue n
      let wb := if bitOf (d.pay 33 1) 0 then some (d.pay 40 8, leBytes 8 v) else none
      let s := { s with seen := { s.seen with signals := (sq, seq, n) :: s.seen.signals } }
      complete1 s d stOK 0 v wb

/-- RESULT and the write-back of the SIGNAL descriptors performed in this cycle hold VALUE after it (R122). -/
def signalResults (s : State) : State :=
  let now (r : Rec) : Rec :=
    match s.seen.signals.find? fun x => r.at_ = s.cyc && x.1 = r.sq && x.2.1 = r.seq with
    | some x =>
      let v := s.fenceValue x.2.2
      { r with result := v, wb := r.wb.map fun w => (w.1, leBytes 8 v) }
    | none => r
  { s with ring := { s.ring with recs := s.ring.recs.map now } }

/-- SIGNAL: a SIGNAL descriptor with OP SIGNAL (R121, R122). -/
def execSignal (sq : Fin 64) (seq : BitVec 16) (s : State) : Host.Outcome State Fault Refusal :=
  act s fun s => signalDesc s sq seq.toNat 0

/-- UNPOISON: a SIGNAL descriptor with OP UNPOISON (R121, R124). -/
def execUnpoison (sq : Fin 64) (seq : BitVec 16) (s : State) : Host.Outcome State Fault Refusal :=
  act s fun s => signalDesc s sq seq.toNat 1

/-- WAIT: a WAIT descriptor waits from its fetch on its header entry and up to three more, in ALL or ANY mode (`settle`). One whose
wait is satisfied completes at once, or, where R82 or R83 held it back until now, when it has been dispatched: here (R115, R119,
R120). -/
def execWait (sq : Fin 64) (seq : BitVec 16) (s : State) : Host.Outcome State Fault Refusal :=
  act s fun s =>
    match s.takeDispatched sq seq.toNat 0x08 with
    | none => s
    | some d => s.complete d stOK 0 d.sat

end Sys2Proof.Machine
end

