-- ==== Sys2Proof/Machine/Crypto.lean ====
section
/-!
DEFINITION. SHA-256 (FIPS 180-4) and ECDSA over P-256 (FIPS 186-4), which the signature engine runs (chapter 21, R500), and
the CRC-32 of the lehr image. Numbers are Nat, so that the kernel can evaluate them.
-/
namespace Sys2Proof.Machine

/-! ### SHA-256 -/

/-- A 32-bit word rotated right. -/
def rotr32 (n x : Nat) : Nat := (x >>> n ||| x <<< (32 - n)) % 2 ^ 32

/-- The constants of the 64 rounds. -/
def shaK : List Nat :=
  [0x428a2f98, 0x71374491, 0xb5c0fbcf, 0xe9b5dba5, 0x3956c25b, 0x59f111f1, 0x923f82a4, 0xab1c5ed5] ++
  [0xd807aa98, 0x12835b01, 0x243185be, 0x550c7dc3, 0x72be5d74, 0x80deb1fe, 0x9bdc06a7, 0xc19bf174] ++
  [0xe49b69c1, 0xefbe4786, 0x0fc19dc6, 0x240ca1cc, 0x2de92c6f, 0x4a7484aa, 0x5cb0a9dc, 0x76f988da] ++
  [0x983e5152, 0xa831c66d, 0xb00327c8, 0xbf597fc7, 0xc6e00bf3, 0xd5a79147, 0x06ca6351, 0x14292967] ++
  [0x27b70a85, 0x2e1b2138, 0x4d2c6dfc, 0x53380d13, 0x650a7354, 0x766a0abb, 0x81c2c92e, 0x92722c85] ++
  [0xa2bfe8a1, 0xa81a664b, 0xc24b8b70, 0xc76c51a3, 0xd192e819, 0xd6990624, 0xf40e3585, 0x106aa070] ++
  [0x19a4c116, 0x1e376c08, 0x2748774c, 0x34b0bcb5, 0x391c0cb3, 0x4ed8aa4a, 0x5b9cca4f, 0x682e6ff3] ++
  [0x748f82ee, 0x78a5636f, 0x84c87814, 0x8cc70208, 0x90befffa, 0xa4506ceb, 0xbef9a3f7, 0xc67178f2]

/-- The chaining value at the start. -/
def shaInit : List Nat :=
  [0x6a09e667, 0xbb67ae85, 0x3c6ef372, 0xa54ff53a, 0x510e527f, 0x9b05688c, 0x1f83d9ab, 0x5be0cd19]

/-- The complement of a 32-bit word. -/
def not32 (x : Nat) : Nat := 2 ^ 32 - 1 - x

/-- The message schedule grown to 64 words; the words are held newest first. -/
def shaSchedule : Nat → List Nat → List Nat
  | 0, w => w
  | n + 1, w =>
    let at_ (i : Nat) := w.getD (i - 1) 0
    let s0 := rotr32 7 (at_ 15) ^^^ rotr32 18 (at_ 15) ^^^ (at_ 15 >>> 3)
    let s1 := rotr32 17 (at_ 2) ^^^ rotr32 19 (at_ 2) ^^^ (at_ 2 >>> 10)
    shaSchedule n ((at_ 16 + s0 + at_ 7 + s1) % 2 ^ 32 :: w)

/-- One round on the eight working words. -/
def shaRound (v : List Nat) (kw : Nat) : List Nat :=
  match v with
  | [a, b, c, d, e, f, g, h] =>
    let s1 := rotr32 6 e ^^^ rotr32 11 e ^^^ rotr32 25 e
    let ch := (e &&& f) ^^^ (not32 e &&& g)
    let t1 := h + s1 + ch + kw
    let s0 := rotr32 2 a ^^^ rotr32 13 a ^^^ rotr32 22 a
    let maj := (a &&& b) ^^^ (a &&& c) ^^^ (b &&& c)
    [(t1 + s0 + maj) % 2 ^ 32, a, b, c, (d + t1) % 2 ^ 32, e, f, g]
  | v => v

/-- The number that bytes spell, most significant byte first. -/
def beNat (l : List Byte) : Nat := l.foldl (fun a b => 256 * a + b.toNat) 0

/-- The `n` bytes of a number, most significant first. -/
def beBytes (n v : Nat) : List Byte := (leBytes n v).reverse

/-- One 64-byte block. -/
def shaBlock (h : List Nat) (blk : List Byte) : List Nat :=
  let w0 := (List.range 16).map fun i => beNat ((blk.drop (4 * i)).take 4)
  let w := (shaSchedule 48 w0.reverse).reverse
  let v := (List.zipWith (· + ·) shaK w).foldl shaRound h
  List.zipWith (fun a b => (a + b) % 2 ^ 32) h v

/-- The blocks of a message, one after the other; `fuel` is at least their number. -/
def shaBlocks : Nat → List Nat → List Byte → List Nat
  | 0, h, _ => h
  | _, h, [] => h
  | f + 1, h, m => shaBlocks f (shaBlock h (m.take 64)) (m.drop 64)

/-- The digest of a message, as eight words. -/
def sha256 (m : List Byte) : List Nat :=
  let pad := (119 - m.length % 64) % 64
  let p := m ++ 0x80 :: (List.replicate pad 0 ++ beBytes 8 (8 * m.length))
  shaBlocks (p.length / 64 + 1) shaInit p

/-- The digest as 32 bytes. -/
def sha256Bytes (m : List Byte) : List Byte := ((sha256 m).map (beBytes 4)).flatten

/-! ### P-256 -/

def p256p : Nat := 0xffffffff00000001000000000000000000000000ffffffffffffffffffffffff
def p256n : Nat := 0xffffffff00000000ffffffffffffffffbce6faada7179e84f3b9cac2fc632551
def p256b : Nat := 0x5ac635d8aa3a93e7b3ebbd55769886bc651d06b0cc53b0f63bce3c3e27d2604b
def p256gx : Nat := 0x6b17d1f2e12c4247f8bce6e563a440f277037d812deb33a0f4a13945d898c296
def p256gy : Nat := 0x4fe342e2fe1a7f9b8ee7eb4a7c0f9e162bce33576b315ececbb6406837bf51f5

/-- (x, y) satisfies y^2 = x^3 - 3x + b modulo p. -/
def onP256 (x y : Nat) : Bool := y * y % p256p = (x * x % p256p * x + (p256p - 3) * x + p256b) % p256p

/-- b^e modulo m, by the bits of e from the most significant of `n`. -/
def powMod (m b e : Nat) : Nat → Nat
  | 0 => 1 % m
  | n + 1 => let r := powMod m b (e / 2) n
             let q := r * r % m
             if e % 2 = 1 then q * b % m else q

/-- A point in Jacobian coordinates; Z = 0 is the point at infinity. -/
structure Jac where
  x : Nat
  y : Nat
  z : Nat
deriving DecidableEq, Repr

/-- a - b modulo p, for b below p. -/
def subP (a b : Nat) : Nat := (a + (p256p - b)) % p256p

def Jac.double (q : Jac) : Jac :=
  let yy := q.y * q.y % p256p
  let s := 4 * (q.x * yy % p256p) % p256p
  let zz := q.z * q.z % p256p
  let m := 3 * (subP q.x zz * ((q.x + zz) % p256p) % p256p) % p256p
  let x := subP (m * m % p256p) (2 * s % p256p)
  let y := subP (m * subP s x % p256p) (8 * (yy * yy % p256p) % p256p)
  ⟨x, y, 2 * (q.y * q.z % p256p) % p256p⟩

def Jac.add (a b : Jac) : Jac :=
  if a.z = 0 then b
  else if b.z = 0 then a
  else
    let z1 := a.z * a.z % p256p
    let z2 := b.z * b.z % p256p
    let u1 := a.x * z2 % p256p
    let u2 := b.x * z1 % p256p
    let s1 := a.y * z2 % p256p * b.z % p256p
    let s2 := b.y * z1 % p256p * a.z % p256p
    if u1 = u2 then (if s1 = s2 then a.double else ⟨1, 1, 0⟩)
    else
      let h := subP u2 u1
      let r := subP s2 s1
      let hh := h * h % p256p
      let hhh := h * hh % p256p
      let v := u1 * hh % p256p
      let x := subP (subP (r * r % p256p) hhh) (2 * v % p256p)
      let y := subP (r * subP v x % p256p) (s1 * hhh % p256p)
      ⟨x, y, h * (a.z * b.z % p256p) % p256p⟩

/-- k times a point, for k below 2^n. -/
def Jac.mul (q : Jac) (k : Nat) : Nat → Jac
  | 0 => ⟨1, 1, 0⟩
  | n + 1 =>
    let r := (q.mul (k / 2) n).double
    if k % 2 = 1 then r.add q else r

/-- ECDSA verification of digest `e` (R500 check 0x07): r and s lie from 1 to n - 1 and (x, y) is on the curve. -/
def ecdsaOk (x y r s e : Nat) : Bool :=
  let w := powMod p256n s (p256n - 2) 256
  let u1 := e * w % p256n
  let u2 := r * w % p256n
  let q := (Jac.mul ⟨p256gx, p256gy, 1⟩ u1 256).add (Jac.mul ⟨x, y, 1⟩ u2 256)
  if q.z = 0 then false
  else
    let zi := powMod p256p q.z (p256p - 2) 256
    q.x * (zi * zi % p256p) % p256p % p256n = r

/-! ### CRC-32 -/

/-- Eight steps of the reflected CRC-32 (polynomial 0xEDB88320). -/
def crcBits : Nat → Nat → Nat
  | 0, c => c
  | n + 1, c => crcBits n (if c % 2 = 1 then (c / 2) ^^^ 0xEDB88320 else c / 2)

/-- CRC-32 of bytes (reflected, initial and final value all ones). -/
def crc32 (l : List Byte) : Nat := (l.foldl (fun c b => crcBits 8 (c ^^^ b.toNat)) 0xFFFFFFFF) ^^^ 0xFFFFFFFF

end Sys2Proof.Machine
end

