-- ==== Sys2Proof/Machine/Arith.lean ====
section
/-!
DEFINITION. Fixed-point arithmetic that the blocks share: rounding (R14, R142), saturation (R15), the sine table (R219), the
integer square root (R240).
-/
namespace Sys2Proof.Machine

/-- rshift (R142): the value itself for `k = 0`, else the narrowing of R14, half an LSB added and the fraction dropped towards
minus infinity. -/
def rsh (x : Int) (k : Nat) : Int := if k = 0 then x else (x + 2 ^ (k - 1)) / 2 ^ k

/-- Saturation to `w`-bit two's complement (R15). -/
def satS (w : Nat) (x : Int) : Int := max (-(2 ^ (w - 1))) (min x (2 ^ (w - 1) - 1))

/-- clamp(x, lo, hi). -/
def clampI (x lo hi : Int) : Int := min (max x lo) hi

/-- The wrap of an integer to `w`-bit two's complement. -/
def wrapS (w : Nat) (x : Int) : Int := sgn w (lowBits w x)

/-- SINT[0] to SINT[256] (R219): round(32767 sin(2 pi k / 1024)), halves away from zero. -/
def sintQuarter : List Nat :=
  [0, 201, 402, 603, 804, 1005, 1206, 1407, 1608, 1809, 2009, 2210, 2410, 2611, 2811, 3012, 3212, 3412, 3612, 3811, 4011, 4210, 4410, 4609] ++
  [4808, 5007, 5205, 5404, 5602, 5800, 5998, 6195, 6393, 6590, 6786, 6983, 7179, 7375, 7571, 7767, 7962, 8157, 8351, 8545, 8739, 8933, 9126, 9319] ++
  [9512, 9704, 9896, 10087, 10278, 10469, 10659, 10849, 11039, 11228, 11417, 11605, 11793, 11980, 12167, 12353, 12539, 12725, 12910, 13094, 13279, 13462, 13645, 13828] ++
  [14010, 14191, 14372, 14553, 14732, 14912, 15090, 15269, 15446, 15623, 15800, 15976, 16151, 16325, 16499, 16673, 16846, 17018, 17189, 17360, 17530, 17700, 17869, 18037] ++
  [18204, 18371, 18537, 18703, 18868, 19032, 19195, 19357, 19519, 19680, 19841, 20000, 20159, 20317, 20475, 20631, 20787, 20942, 21096, 21250, 21403, 21554, 21705, 21856] ++
  [22005, 22154, 22301, 22448, 22594, 22739, 22884, 23027, 23170, 23311, 23452, 23592, 23731, 23870, 24007, 24143, 24279, 24413, 24547, 24680, 24811, 24942, 25072, 25201] ++
  [25329, 25456, 25582, 25708, 25832, 25955, 26077, 26198, 26319, 26438, 26556, 26674, 26790, 26905, 27019, 27133, 27245, 27356, 27466, 27575, 27683, 27790, 27896, 28001] ++
  [28105, 28208, 28310, 28411, 28510, 28609, 28706, 28803, 28898, 28992, 29085, 29177, 29268, 29358, 29447, 29534, 29621, 29706, 29791, 29874, 29956, 30037, 30117, 30195] ++
  [30273, 30349, 30424, 30498, 30571, 30643, 30714, 30783, 30852, 30919, 30985, 31050, 31113, 31176, 31237, 31297, 31356, 31414, 31470, 31526, 31580, 31633, 31685, 31736] ++
  [31785, 31833, 31880, 31926, 31971, 32014, 32057, 32098, 32137, 32176, 32213, 32250, 32285, 32318, 32351, 32382, 32412, 32441, 32469, 32495, 32521, 32545, 32567, 32589] ++
  [32609, 32628, 32646, 32663, 32678, 32692, 32705, 32717, 32728, 32737, 32745, 32752, 32757, 32761, 32765, 32766, 32767]

/-- SINT[k] (R219), by the symmetries of the sine. -/
def sint (k : Nat) : Int :=
  let k := k % 1024
  let q (i : Nat) : Int := (sintQuarter.getD i 0 : Nat)
  if k ≤ 256 then q k else if k ≤ 512 then q (512 - k) else if k ≤ 768 then -q (k - 512) else -q (1024 - k)

/-- sin of an angle in UQ0.16 turns, Q1.15 (R219). -/
def sinQ (th : Nat) : Int :=
  let th := th % 2 ^ 16
  let i := th / 64
  sint i + rsh ((sint (i + 1) - sint i) * (th % 64 : Nat)) 6

/-- cos of an angle (R219). -/
def cosQ (th : Nat) : Int := sinQ (th + 0x4000)

/-- One step of the square root: bit `b` is kept if the square still fits. -/
def isqrtGo (n : Nat) : Nat → Nat → Nat
  | 0, r => r
  | b + 1, r => isqrtGo n b (if (r + 2 ^ b) * (r + 2 ^ b) ≤ n then r + 2 ^ b else r)

/-- The exact integer floor of the square root of a number below 2^64 (R240). -/
def isqrt (n : Nat) : Nat := isqrtGo n 32 0

/-- alpha component of the Clarke transform of phase voltages (R220, R254). -/
def clarkeA (a b c : Int) : Int := rsh ((2 * a - b - c) * 10923) 15

/-- beta component of the Clarke transform (R220, R240). -/
def clarkeB (b c : Int) : Int := rsh ((b - c) * 18919) 15

end Sys2Proof.Machine
end

