-- ==== Sys2Proof/Machine/Memory.lean ====
section
/-!
DEFINITION. External memory (chapter 19, R445 to R462). Bytes that nothing has written read 0 (log entry 6).
-/
namespace Sys2Proof.Machine

/-- A function's READY bit sets (R476): its bit of GLB_READY, of the functions seen ready, and its status bit and message. -/
def setReady (s : State) (bit : Nat) : State :=
  let s := { s with pwr := { s.pwr with ever := orBit s.pwr.ever bit, frst := clrBit s.pwr.frst bit } }
  if s.ready bit then s
  else (s.putBit Fld.GLB_READY_READY bit true).irq 0 Reg.GLB_RDY_IRQ Reg.GLB_RDY_EN (2 ^ bit)

/-- A function's READY bit clears. -/
def clearReady (s : State) (bit : Nat) : State := s.putBit Fld.GLB_READY_READY bit false

/-- USABLE in MiB for a capacity code and an inline ECC setting (R450). -/
def usableMib (size : Nat) (iecc : Bool) : Nat := 4096 * 2 ^ size / 8 * (if iecc then 7 else 8)

/-- USABLE in bytes (R450). -/
def State.usable (s : State) : Nat := s.get Fld.MEM_USABLE_USABLE_MIB * 2 ^ 20

/-- MEM_ERRADDR records an address with its source (Table 19.3). -/
def State.memErr (s : State) (addr src : Nat) : State :=
  let s := (s.put Fld.MEM_ERRADDR_LO_ADDR (addr / 8)).put Fld.MEM_ERRADDR_HI_ADDR (addr / 2 ^ 32)
  (s.put Fld.MEM_ERRSRC_SRC src).setBit Fld.MEM_ERRSRC_VALID 0

/-- An access lies below USABLE (R451). -/
def State.memIn (s : State) (addr n : Nat) : Bool := decide (addr + n ≤ s.usable)

/-- The controller refuses an access (R451). -/
def State.memRefuse (s : State) (addr : Nat) : State := (s.memErr addr 4).irqF Fld.MEM_IRQ_STATUS_RANGE

/-- A read of `n` bytes: zeros above USABLE (R451). -/
def memRead (s : State) (addr n : Nat) : List Byte × State :=
  if s.memIn addr n then (bytesAt s.mem.ram addr n, s) else (List.replicate n 0, s.memRefuse addr)

/-- 64-bit word `w` has a byte among the `n` from `addr` on. -/
def touches (addr n w : Nat) : Bool := decide (8 * w < addr + n) && decide (addr < 8 * w + 8)

/-- 64-bit word `w` lies among the `n` bytes from `addr` on. -/
def covers (addr n w : Nat) : Bool := decide (addr ≤ 8 * w) && decide (8 * w + 8 ≤ addr + n)

/-- A word whose stored check bits show an uncorrectable error is among the `n` bytes from `addr` on (R456, R457). -/
def State.memFlawed (s : State) (addr n : Nat) : Bool := s.mem.flaws.any fun e => touches addr n e.1

/-- The check bits of 64-bit word `w` show an uncorrectable error from now on, with inline ECC (R456, R457). -/
def State.memFlaw (s : State) (w : Nat) : State :=
  if s.flag Fld.MEM_STATUS_IECC_ON then { s with mem := { s.mem with flaws := sset 0 s.mem.flaws w 1 } } else s

/-- External memory answers a descriptor's read of `n` bytes now: READY is set, and no word read is bad, which is a retry episode's to
end (R449, R458). -/
def State.memAnswers (s : State) (addr n : Nat) : Bool := s.ready 16 && !s.memFlawed addr n

/-- A write: nothing is stored above USABLE (R451). A bad word that it covers has new check bits; one that it touches is read first, in
vain, and stays marked (R456, R457). -/
def memWrite (s : State) (addr : Nat) (l : List Byte) : State :=
  if l.isEmpty then s
  else if s.memIn addr l.length then
    let bad := s.mem.flaws.filter fun e => touches addr l.length e.1
    let s := { s with mem := { s.mem with
      ram := writeBytes s.mem.ram addr l, flaws := s.mem.flaws.filter fun e => !covers addr l.length e.1 } }
    (bad.filter fun e => !covers addr l.length e.1).foldl
      (fun s e => ((s.incSat Fld.MEM_CNT2_UNCORR).memErr (8 * e.1) 3).irqF Fld.MEM_IRQ_STATUS_UNCORR) s
  else s.memRefuse addr

/-- What the check bits of a read or of a partial write's read show when it is corrected (R455, R456). -/
def State.memCorrected (s : State) (found : Ecc) : State :=
  match found with
  | .link => s.incSat Fld.MEM_CNT_LINK_CORR
  | .corrected => if s.flag Fld.MEM_STATUS_IECC_ON then (s.incSat Fld.MEM_CNT_CORR).irqF Fld.MEM_IRQ_STATUS_CORR else s
  | _ => s

/-- The completion of a descriptor whose access was refused (R451). -/
def State.rangeFail (s : State) (d : Desc) : State := s.complete d stBadDescriptor 0x010000FE 0

/-- The capacity code of the package that the mode registers describe; none where the channels differ or the total is none of the
three (R445). -/
def packageSize (mib : Vector (BitVec 16) 4) (two : Vector Bool 4) : Option Nat :=
  if mib = .replicate 4 mib[0] ∧ two = .replicate 4 two[0] then
    match 4 * mib[0].toNat with
    | 4096 => some 0
    | 8192 => some 1
    | 16384 => some 2
    | _ => none
  else none

/-- A training fails: READY stays clear (R446, Table 19.2). -/
def trainFailed (s : State) (channels code : Nat) : State :=
  let s := (s.put Fld.MEM_STATUS_TRAIN_ERR channels).put Fld.MEM_STATUS_TRAIN_CODE code
  s.irqF Fld.MEM_IRQ_STATUS_TRAIN_ERR

/-- MEM_TRAINING_DONE: a training in progress, for which the supplies are valid and the crystal has started, ends (R445, R446, R448). -/
def execMemTrainingDone (r : Training) (s : State) : Host.Outcome State Fault Refusal :=
  act s fun s =>
    if !(s.mem.training && s.pwr.supplies && s.flag Fld.PWR_PLL_XTAL_OK) then s
    else
      let s := { s with mem := { s.mem with training := false } }
      match r with
      | .read mib two => match packageSize mib two with
        | some size =>
          let s := ((s.putB Fld.MEM_STATUS_TRAINED true).put Fld.MEM_STATUS_SIZE size).putB Fld.MEM_STATUS_RANKS two[0]
          let s := (s.put Fld.MEM_STATUS_TRAIN_ERR 0).put Fld.MEM_STATUS_TRAIN_CODE 0
          let s := s.put Fld.MEM_USABLE_USABLE_MIB (usableMib size (s.flag Fld.MEM_STATUS_IECC_ON))
          (setReady s 16).irqF Fld.MEM_IRQ_STATUS_READY
        | none => trainFailed s 15 2
      | .timing ch => trainFailed s ch.toNat 1
      | .zq ch => trainFailed s ch.toNat 3

/-- A write of MEM_CTRL: RETRAIN, REINIT, or the staged IECC alone (R448, R457). A RETRAIN during a training, and a REINIT
before a training has succeeded or during another operation, does nothing (log entry 15). -/
def memCtrlWrite (s : State) (v : Word) : State :=
  let s := s.put Fld.MEM_CTRL_IECC (Fld.MEM_CTRL_IECC.get v)
  let idle := !s.mem.training && s.mem.reinit.isNone
  if Fld.MEM_CTRL_REINIT.get v = 1 ∧ idle ∧ s.flag Fld.MEM_STATUS_TRAINED then
    let s := (clearReady s 16).putB Fld.MEM_STATUS_INITIALISING true
    { s with mem := { s.mem with reinit := some (s.flag Fld.MEM_CTRL_IECC) } }
  else if Fld.MEM_CTRL_RETRAIN.get v = 1 ∧ idle then
    let s := (clearReady s 16).putB Fld.MEM_STATUS_TRAINED false
    { s with mem := { s.mem with training := true } }
  else s

/-- MEM_RETRAIN: a write of MEM_CTRL with RETRAIN = 1 (R448). -/
def execMemRetrain (s : State) : Host.Outcome State Fault Refusal :=
  act s fun s => if s.served Reg.MEM_CTRL then memCtrlWrite s (1 ||| (s.reg Reg.MEM_CTRL &&& 0x100)) else s

/-- MEM_REINIT: a write of MEM_CTRL with REINIT = 1 and this IECC (R457). -/
def execMemReinit (iecc : Bool) (s : State) : Host.Outcome State Fault Refusal :=
  act s fun s => if s.served Reg.MEM_CTRL then memCtrlWrite s (if iecc then 0x80000100 else 0x80000000) else s

/-- MEM_REINIT_DONE: the initialisation ends; every byte is 0 (R457). -/
def execMemReinitDone (s : State) : Host.Outcome State Fault Refusal :=
  act s fun s =>
    match s.mem.reinit with
    | none => s
    | some iecc =>
      let s := { s with mem := { s.mem with reinit := none, ram := [], flaws := [], scrubAt := 0 } }
      let s := (s.putB Fld.MEM_STATUS_INITIALISING false).putB Fld.MEM_STATUS_IECC_ON iecc
      let s := s.put Fld.MEM_USABLE_USABLE_MIB (usableMib (s.get Fld.MEM_STATUS_SIZE) iecc)
      (setReady s 16).irqF Fld.MEM_IRQ_STATUS_READY

/-- The scrubber's unit of work: one 64-bit word (R456). -/
def scrubStep : Nat := 8

/-- MEM_SCRUB_READ: the scrubber reads its next word, in which its check bits newly show `found`; a word it finds in error stays as it
is (R459). -/
def execMemScrubRead (found : Ecc) (s : State) : Host.Outcome State Fault Refusal :=
  act s fun s =>
    if !(s.flag Fld.MEM_SCRUB_EN && s.flag Fld.MEM_STATUS_IECC_ON && s.ready 16) then s
    else
      let a := s.mem.scrubAt
      let s := match (if s.memFlawed a scrubStep then .uncorrectable 0 else found) with
        | .corrected => (s.incSat Fld.MEM_CNT3_SCRUB_CORR).irqF Fld.MEM_IRQ_STATUS_CORR
        | .uncorrectable _ =>
          (((s.memFlaw (a / 8)).incSat Fld.MEM_CNT3_SCRUB_UNCORR).memErr a 2).irqF Fld.MEM_IRQ_STATUS_SCRUB_UNCORR
        | .link => s.incSat Fld.MEM_CNT_LINK_CORR
        | .clean => s
      let last := decide (s.usable ≤ a + scrubStep)
      let s := { s with mem := { s.mem with scrubAt := if last then 0 else a + scrubStep } }
      if last then s.incWrap Fld.MEM_SCRUBPASS_PASS else s

/-- MEM_TEMP_HIGH: the package reports a refresh-rate code; reaching one of 4 or more is above 85 °C (R453). -/
def execMemTempHigh (code : BitVec 3) (s : State) : Host.Outcome State Fault Refusal :=
  act s fun s =>
    let was := decide (4 ≤ s.get Fld.MEM_TEMP_TEMP)
    let s := s.put Fld.MEM_TEMP_TEMP code.toNat
    if 4 ≤ code.toNat ∧ !was then s.irqF Fld.MEM_IRQ_STATUS_TEMP_HI else s

/-- The CLR of the MEM block clears MEM_CNT (Table 19.3). -/
def memCntClr (s : State) : State := ((s.clrReg Reg.MEM_CNT).clrReg Reg.MEM_CNT2).clrReg Reg.MEM_CNT3

/-- MEM_CNT_CLR (R462). -/
def execMemCntClr (s : State) : Host.Outcome State Fault Refusal :=
  act s fun s => if s.served Reg.MEM_CNT_CLR then memCntClr s else s

end Sys2Proof.Machine
end

