-- ==== Sys2Proof/Machine/Numerics.lean ====
section
/-!
DEFINITION. The numbers of the marver arrays: integer accumulation and drain, the lookup table, floating point, the vector and
the reduction unit (chapter 5, R134 to R147).
-/
namespace Sys2Proof.Machine

/-! ### Integer accumulation and drain (R137, R142, R144) -/

/-- The list in groups of `g`; `fuel` is its length. -/
def groupsOf {α : Type} (g : Nat) : Nat → List α → List (List α)
  | 0, _ => []
  | _, [] => []
  | f + 1, l => l.take g :: groupsOf g f (l.drop g)

/-- R137: the products of each group of `g` are summed exactly and added to the saturating accumulator. Answers the accumulator
and how many additions clipped. -/
def accInt (g : Nat) (prods : List Int) : Int × Nat :=
  (groupsOf g prods.length prods).foldl (fun a grp =>
    let x := a.1 + grp.sum
    let y := satS 32 x
    (y, if y = x then a.2 else a.2 + 1)) (0, 0)

/-- The range of an integer output format (R141): 0 INT4, 1 INT8, 2 INT16, 3 INT32. -/
def ofmtBits (ofmt : Nat) : Nat :=
  match ofmt with
  | 0 => 4 | 1 => 8 | 2 => 16 | _ => 32

/-- The lookup-table activation of an INT16 input; `tbl` is the table's 1 KiB (R143, R144). -/
def lut (tbl : List Byte) (h : Int) : Int :=
  let u := (h + 32768).toNat
  let i := u / 256
  let f := u % 256
  let base := sgn 16 (fieldAt tbl (4 * i) 2)
  let delta := sgn 16 (fieldAt tbl (4 * i + 2) 2)
  satS 16 (base + (delta * (f : Nat) + 128) / 256)

/-- The integer drain of one output (R140 to R142): `ch` is the channel record, `layer` the layer descriptor, `luts` the four resident
tables. -/
def drainInt (ch layer luts : List Byte) (acc : Int) : Int :=
  let ofmt := fieldAt layer 2 1
  let actb := fieldAt layer 3 1
  let s := satS 32 (acc + sgn 32 (fieldAt ch 0 4))
  if ofmt = 3 then s
  else
    let v := satS 32 (rsh (s * (fieldAt ch 4 2 : Nat)) (fieldAt ch 6 1 % 64))
    let v := if actb % 2 = 1 then rsh (lut (slice luts (1024 * bitsOf actb 2 1) 1024) (satS 16 v)) (bitsOf actb 7 4) else v
    let o := satS (ofmtBits ofmt) (v + sgn 8 (fieldAt ch 7 1))
    min (max o (sgn 16 (fieldAt layer 4 2))) (sgn 16 (fieldAt layer 6 2))

/-! ### Floating point (R134, R139, R145) -/

/-- A floating-point value: NaN, an infinity, or (-1)^neg m 2^e. -/
inductive FV where
  | nan
  | inf (neg : Bool)
  | num (neg : Bool) (m : Nat) (e : Int)
deriving DecidableEq, Repr

/-- A binary format: precision in bits, least and greatest exponent of a normal value. -/
structure FFmt where
  p : Nat
  emin : Int
  emax : Int
deriving DecidableEq, Repr

def fp32 : FFmt := ⟨24, -126, 127⟩
def bf16 : FFmt := ⟨8, -126, 127⟩
def e4m3 : FFmt := ⟨4, -6, 8⟩
def e5m2 : FFmt := ⟨3, -14, 15⟩

/-- Round to nearest even in a format; an overflow gives an infinity; with `flush` a subnormal result becomes a zero of its
sign (R139). -/
def FFmt.round (f : FFmt) (flush : Bool) : FV → FV
  | .num neg m e =>
    if m = 0 then .num neg 0 0
    else
      let bits : Int := (Nat.log2 m : Int) + 1
      let e' := max (e + bits - f.p) (f.emin - f.p + 1)
      let k := (e' - e).toNat
      let r := m % 2 ^ k
      let q := m / 2 ^ k
      let up := decide (2 ^ k < 2 * r) || (decide (2 ^ k = 2 * r) && decide (k ≠ 0) && q % 2 = 1)
      let q := if up then q + 1 else q
      let e'' := if k = 0 then e else e'
      if decide (f.emax < (Nat.log2 q : Int) + e'') then .inf neg
      else if flush && decide ((Nat.log2 q : Int) + e'' < f.emin) then .num neg 0 0
      else .num neg q e''
  | x => x

/-- The value of a code of `f` with `fb` fraction bits and bias `bias`; `ieee` says that the top exponent holds infinities and
NaNs (R134). -/
def decodeF (fb eb : Nat) (bias : Int) (ieee : Bool) (c : Nat) : FV :=
  let neg := bitOf c (fb + eb)
  let ex := bitsOf c (fb + eb - 1) fb
  let fr := c % 2 ^ fb
  let top := 2 ^ eb - 1
  if ieee && ex = top then (if fr = 0 then .inf neg else .nan)
  else if !ieee && ex = top && fr = 2 ^ fb - 1 then .nan
  else if ex = 0 then .num neg fr (1 - bias - fb)
  else .num neg (2 ^ fb + fr) ((ex : Int) - bias - fb)

def ofFp32 (c : Nat) : FV := decodeF 23 8 127 true c
def ofBf16 (c : Nat) : FV := decodeF 7 8 127 true c
def ofE4m3 (c : Nat) : FV := decodeF 3 4 7 false c
def ofE5m2 (c : Nat) : FV := decodeF 2 5 15 true c

/-- The code of a value already rounded to a format with `fb` fraction bits, `eb` exponent bits and bias `bias`. -/
def encodeF (fb eb : Nat) (bias : Int) (nan inf : Nat) : FV → Nat
  | .nan => nan
  | .inf neg => inf + (if neg then 2 ^ (fb + eb) else 0)
  | .num neg m e =>
    let sg := if neg then 2 ^ (fb + eb) else 0
    if m = 0 then sg
    else
      let ex : Int := (Nat.log2 m : Int) + e + bias
      if ex ≤ 0 then
        let sh := e - (1 - bias - fb)
        sg + m * 2 ^ sh.toNat / 2 ^ (-sh).toNat
      else
        let sh : Int := (fb : Int) - (Nat.log2 m : Int)
        sg + ex.toNat * 2 ^ fb + (m * 2 ^ sh.toNat / 2 ^ (-sh).toNat) % 2 ^ fb

/-- The bits of an FP32 value. -/
def toFp32 (v : FV) : Nat := encodeF 23 8 127 0x7FC00000 0x7F800000 v

/-- Aligned to exponent `e0`, a number as an integer. -/
def FV.scaled (e0 : Int) : FV → Int
  | .num neg m e => (if neg then -1 else 1) * ((m * 2 ^ (e - e0).toNat : Nat) : Int)
  | _ => 0

/-- The exact sum of values (R139): a NaN, or opposite infinities, give NaN. -/
def fsum (l : List FV) : FV :=
  if l.any (· = .nan) || (l.any (· = .inf true) && l.any (· = .inf false)) then .nan
  else if l.any (· = .inf true) then .inf true
  else if l.any (· = .inf false) then .inf false
  else
    let e0 := l.foldl (fun a x => match x with
      | .num _ _ e => min a e
      | _ => a) 0
    let t := (l.map (FV.scaled e0)).sum
    if t = 0 then
      .num (l.all fun x => match x with
        | .num neg m _ => neg && m = 0
        | _ => false) 0 0
    else .num (decide (t < 0)) t.natAbs e0

/-- The sign of a value that is not NaN. -/
def FV.isNeg : FV → Bool
  | .num n _ _ => n
  | .inf n => n
  | .nan => false

/-- A zero of either sign. -/
def FV.isZero : FV → Bool
  | .num _ m _ => m = 0
  | _ => false

/-- The exact product of two values. -/
def fmul (a b : FV) : FV :=
  match a, b with
  | .nan, _ => .nan
  | _, .nan => .nan
  | .num n m e, .num n' m' e' => .num (n ^^ n') (m * m') (e + e')
  | x, y => if x.isZero || y.isZero then .nan else .inf (x.isNeg ^^ y.isNeg)

def fneg : FV → FV
  | .nan => .nan
  | .inf n => .inf !n
  | .num n m e => .num (!n) m e

/-- a < b for values that are not NaN. -/
def flt (a b : FV) : Bool :=
  match a, b with
  | .nan, _ => false
  | _, .nan => false
  | .inf n, .inf n' => n && !n'
  | .inf n, .num _ _ _ => n
  | .num _ _ _, .inf n => !n
  | x, y =>
    let e0 := match x, y with
      | .num _ _ e, .num _ _ e' => min e e'
      | _, _ => 0
    decide (x.scaled e0 < y.scaled e0)

/-- R139: the accumulator and the exact products of each group are summed exactly and rounded once to FP32. -/
def accFloat (g : Nat) (prods : List FV) : FV :=
  (groupsOf g prods.length prods).foldl (fun a grp => fp32.round true (fsum (a :: grp))) (.num false 0 0)

/-- A value as a code of OFMT 4 BF16, 5 E4M3 or 6 E5M2: nearest even, magnitudes saturating at the largest finite value
(R145). -/
def toOfmt (ofmt : Nat) (v : FV) : Nat :=
  let (f, fb, eb, bias, nan, big) : FFmt × Nat × Nat × Int × Nat × Nat := match ofmt with
    | 4 => (bf16, 7, 8, 127, 0x7FC0, 0x7F7F)
    | 5 => (e4m3, 3, 4, 7, 0x7F, 0x7E)
    | _ => (e5m2, 2, 5, 15, 0x7F, 0x7B)
  let sat (neg : Bool) : Nat := big + (if neg then 2 ^ (fb + eb) else 0)
  match v with
  | .nan => nan
  | .inf neg => sat neg
  | .num neg m e =>
    if flt (decodeF fb eb bias (decide (ofmt ≠ 5)) big) (.num false m e) then sat neg
    else encodeF fb eb bias nan big (f.round false (.num neg m e))

/-- The float drain of one output (R145). -/
def drainFloat (ch layer : List Byte) (acc : FV) : Nat :=
  let y := fp32.round true (fsum [acc, ofFp32 (fieldAt ch 0 4)])
  toOfmt (fieldAt layer 2 1) (fp32.round true (fmul y (ofFp32 (fieldAt ch 4 4))))

/-! ### Vector unit (R146) -/

/-- The value nearest to a real, ties to even, as an integer. -/
def FV.toInt : FV → Int
  | .num neg m e =>
    let k := (-e).toNat
    let q := m * 2 ^ e.toNat / 2 ^ k
    let r := m * 2 ^ e.toNat % 2 ^ k
    let q := if 2 ^ k < 2 * r ∨ (2 ^ k = 2 * r ∧ k ≠ 0 ∧ q % 2 = 1) then q + 1 else q
    satS 32 (if neg then -(q : Int) else q)
  | .inf neg => satS 32 (if neg then -(2 ^ 40) else 2 ^ 40)
  | .nan => 0

/-- An integer as an exact value. -/
def ofInt (x : Int) : FV := .num (decide (x < 0)) x.natAbs 0

/-- A vector operation on integers, by its place in Table 5.5: 0 ADD, 1 SUB, 2 MUL, 3 MAC, 4 MAX, 5 MIN, 6 ABS, 7 SHR, 8 SHL, 9
CMP, 10 SEL, 11 CVT. `wide` says that the operands are INT32. For CMP the mask is a < b; for SEL the mask is c. CVT leaves the value to
the format that it is converted to. -/
def vecInt (op sh : Nat) (wide : Bool) (c a b : Int) : Int :=
  match op with
  | 0 => satS 32 (a + b)
  | 1 => satS 32 (a - b)
  | 2 => if wide then satS 32 (rsh (a * b) sh) else a * b
  | 3 => satS 32 (c + a * b)
  | 4 => max a b
  | 5 => min a b
  | 6 => satS 32 (a.natAbs : Int)
  | 7 => rsh a sh
  | 8 => satS 32 (a * 2 ^ sh)
  | 9 => if a < b then 1 else 0
  | 10 => if c ≠ 0 then a else b
  | _ => a

/-- A vector operation on floats, by its place in Table 5.5 (R146). SHR and SHL have no float result. -/
def vecFloat (op : Nat) (c a b : FV) : FV :=
  let rd := fp32.round true
  match op with
  | 0 => rd (fsum [a, b])
  | 1 => rd (fsum [a, fneg b])
  | 2 => rd (fmul a b)
  | 3 => rd (fsum [c, rd (fmul a b)])
  | 4 => if a = .nan ∨ b = .nan then .nan else if flt a b || (a.isZero && b.isZero && a.isNeg) then b else a
  | 5 => if a = .nan ∨ b = .nan then .nan else if flt b a || (a.isZero && b.isZero && b.isNeg) then b else a
  | 6 => match a with
    | .num _ m e => .num false m e
    | .inf _ => .inf false
    | .nan => .nan
  | 9 => ofInt (if flt a b then 1 else 0)
  | 10 => if c = .num false 0 0 then b else a
  | _ => a

/-! ### Reduction unit (R147) -/

/-- The reduction of integer lanes in ascending order: 0 SUM, 1 MAX, 2 MIN, 3 ARGMAX, 4 ARGMIN. -/
def reduceInt (op : Nat) : List Int → Int
  | [] => 0
  | x :: r =>
    let best (gt : Int → Int → Bool) : Int × Nat :=
      (r.zipIdx 1).foldl (fun a e => if gt e.1 a.1 then (e.1, e.2) else a) (x, 0)
    match op with
    | 0 => r.foldl (fun a y => satS 32 (a + y)) x
    | 1 => (best fun a b => decide (b < a)).1
    | 2 => (best fun a b => decide (a < b)).1
    | 3 => (best fun a b => decide (b < a)).2
    | _ => (best fun a b => decide (a < b)).2

/-- The reduction of float lanes: a NaN lane makes SUM, MAX and MIN NaN; ARGMAX and ARGMIN ignore it. -/
def reduceFloat (op : Nat) (l : List FV) : FV :=
  let best (gt : FV → FV → Bool) : Option (FV × Nat) :=
    l.zipIdx.foldl (fun a e => if e.1 = .nan then a else match a with
      | none => some e
      | some b => if gt e.1 b.1 then some e else a) none
  let anyNan := l.any (· = .nan)
  match op with
  | 0 => match l with
    | [] => .num false 0 0
    | x :: r => r.foldl (fun a y => fp32.round true (fsum [a, y])) x
  | 1 => if anyNan then .nan else ((best fun a b => flt b a).map (·.1)).getD .nan
  | 2 => if anyNan then .nan else ((best fun a b => flt a b).map (·.1)).getD .nan
  | 3 => ofInt (((best fun a b => flt b a).map (·.2)).getD 0 : Nat)
  | _ => ofInt (((best fun a b => flt a b).map (·.2)).getD 0 : Nat)

end Sys2Proof.Machine
end

