-- ==== Sys2Proof/Machine/Plan.lean ====
section
/-!
DEFINITION. The tick plan (R45 to R47, Tables 2.2 to 2.6) and the life of an action (R48 to R51).
-/
namespace Sys2Proof.Machine

/-- VXL_CFG.EN: the link is on. -/
def State.linkOn (s : State) : Bool := s.flag Fld.VXL_CFG_EN

def State.cascId (s : State) : Nat := s.get Fld.GLB_STRAP_CASC_ID

/-- A device with the link off is a standalone device, whatever its strap (log entry 22). -/
def State.isMaster (s : State) : Bool := s.linkOn && s.cascId = 0
def State.isSlave (s : State) : Bool := s.linkOn && s.cascId ≠ 0

/-- The image of a plan bank: false A, true B. -/
def State.bank (s : State) (b : Bool) : List Byte := if b then s.gaf.bankB else s.gaf.bankA

/-- The active bank shown by GAF_STATUS (R59). -/
def State.activeBank (s : State) : Bool := s.flag Fld.GAF_STATUS_ACTIVE_BANK

/-- A bank is the active bank; none is while the gaffer is stopped (R59). -/
def State.bankInUse (s : State) (b : Bool) : Bool := s.running && s.activeBank = b

/-- VALID of a bank (R59). -/
def State.bankValid (s : State) (b : Bool) : Bool := s.flag (if b then Fld.GAF_STATUS_VALID_B else Fld.GAF_STATUS_VALID_A)

/-- The active plan; none while the gaffer is stopped (R59). -/
def State.plan (s : State) : List Byte := if s.running then s.bank s.activeBank else []

def planCount (p : List Byte) : Nat := fieldAt p 6 1
def planTickdiv (p : List Byte) : Nat := fieldAt p 8 2
def planAxes (p : List Byte) : Nat := fieldAt p 10 1 % 64
def planPinned (p : List Byte) : Nat := fieldAt p 11 1 % 16
def planParison (p : List Byte) (n : Nat) : Nat := fieldAt p (20 + 4 * n) 4

/-- A field of action i (Table 2.3). -/
def actField (p : List Byte) (i o n : Nat) : Nat := fieldAt p (64 + 16 * i + o) n
def actType (p : List Byte) (i : Nat) : Nat := actField p i 0 1
def actFallback (p : List Byte) (i : Nat) : Nat := actField p i 1 1
def actWaitfor (p : List Byte) (i : Nat) : Nat := actField p i 2 1
def actStart (p : List Byte) (i : Nat) : Nat := actField p i 4 2
def actDeadline (p : List Byte) (i : Nat) : Nat := actField p i 6 2
def actTarget (p : List Byte) (i : Nat) : Nat := actField p i 8 2
def actParam (p : List Byte) (i : Nat) : Nat := actField p i 10 2

/-- The axes in the active plan. -/
def State.axesInPlan (s : State) : Nat := planAxes s.plan

/-- The marvers pinned in the active plan (R152). -/
def State.pinnedMask (s : State) : Nat := planPinned s.plan

/-- The axes that action i of the active plan targets, lowest first. -/
def State.actAxes (s : State) (i : Nat) : List Nat := bitList 6 (actTarget s.plan i)

/-- The actions of the active plan with a type, in index order. -/
def State.actionsOf (s : State) (typ : Nat) : List Nat :=
  (List.range (planCount s.plan)).filter fun i => actType s.plan i = typ

/-- The action of a type that targets an axis, if the active plan has one (Table 2.6). -/
def State.axisAction (s : State) (typ n : Nat) : Option Nat :=
  (s.actionsOf typ).find? fun i => bitOf (actTarget s.plan i) n

/-- Action i of the active plan has the type, has not started in this tick, its START has come, its DEADLINE has not passed, and what
it awaits has ended (R48 to R50); no action starts while tick time is kept, nor at a commit tick before its beacon is decoded (R437), nor in a halt and up to the first edge after it
(R521, R523). -/
def State.mayStart (s : State) (i typ : Nat) : Bool :=
  s.running && !s.halted && !s.vxl.hold && !s.vxl.sleeping && s.gaf.starting.isNone && decide (i < planCount s.plan) &&
    actType s.plan i = typ && !s.gaf.started.contains i && !s.gaf.ended.contains i &&
    decide (actStart s.plan i ≤ s.edgeOfs) && decide (s.edgeOfs ≤ actDeadline s.plan i) &&
    (actWaitfor s.plan i = 0xFF || s.gaf.ended.contains (actWaitfor s.plan i))

/-- Action i starts. -/
def State.startAction (s : State) (i : Nat) : State := { s with gaf := { s.gaf with started := i :: s.gaf.started } }

/-- Action i has started, has not ended, and its DEADLINE has not passed (R49). -/
def State.live (s : State) (i : Nat) : Bool :=
  s.running && s.gaf.started.contains i && !s.gaf.ended.contains i && decide (s.edgeOfs ≤ actDeadline s.plan i)

/-- Action i completes at offset `ofs` from the tick edge, on time: it ends, its CONSEC is 0, LASTDONE and MINSLACK take the
offset (R49, R51). -/
def actionDoneAt (s : State) (i ofs : Nat) : State :=
  if !s.live i || decide (actDeadline s.plan i < ofs) then s
  else
    let s := { s with gaf := { s.gaf with ended := i :: s.gaf.ended } }
    let s := (s.put (Fld.GAF_ACT_CNT_CONSEC i) 0).put (Fld.GAF_ACT_TIME_LASTDONE i) ofs
    s.put (Fld.GAF_ACT_TIME_MINSLACK i) (min (s.get (Fld.GAF_ACT_TIME_MINSLACK i)) (actDeadline s.plan i - ofs))

/-- Action i completes now. -/
def actionDone (s : State) (i : Nat) : State := actionDoneAt s i s.edgeOfs

/-! ### Validity (Table 2.6) -/

/-- The fallback codes permitted for a type (Table 2.4), with N - 1 only for PWMOFF (Table 2.3). -/
def fallbackOk (typ fb : Nat) : Bool :=
  let code := fb % 8
  let n := bitsOf fb 6 4
  fb < 128 && (code = 3 || n = 0) && bitOf fb 3 = false &&
    match typ with
    | 1 => code = 0 | 2 => code = 0 | 3 => code = 0 || code = 1 | 4 => code = 0 || code = 3
    | 5 => code = 3 | 6 => code = 0 | 7 => code = 0 | 8 => code = 2 | 9 => code = 0
    | _ => false

/-- The action's TARGET and PARAM are within what its type takes (Table 2.4). That a TARGET or PARAM which Table 2.4 gives as 0 and is
not 0, or a SIGNAL PARAM above 1023, makes the plan invalid is the model's choice: Table 2.6 lists no such rule (DEDUCED, log entry
39). -/
def targetOk (p : List Byte) (i : Nat) : Bool :=
  let t := actTarget p i
  let q := actParam p i
  let axesOnly := decide (t < 64) && (t &&& planAxes p) = t
  let pinned := decide (q < 4) && bitOf (planPinned p) q
  match actType p i with
  | 1 => axesOnly && q = 0
  | 2 => axesOnly && pinned
  | 3 => axesOnly && pinned
  | 4 => axesOnly && pinned
  | 5 => axesOnly && q = 0
  | 6 => t = 0 && q = 0
  | 7 => t = 0 && q = 0
  | 8 => (t &&& planPinned p) = 0 && q = 0
  | 9 => t = 0 && decide (q < 1024)
  | _ => false

/-- The marvers that action i uses. -/
def actMarvers (p : List Byte) (i : Nat) : Nat :=
  match actType p i with
  | 2 => 2 ^ actParam p i
  | 3 => 2 ^ actParam p i
  | 4 => 2 ^ actParam p i
  | 8 => actTarget p i
  | _ => 0

/-- Two actions that must have disjoint windows have them (Table 2.6, exclusive windows). -/
def windowsOk (p : List Byte) (i j : Nat) : Bool :=
  let ti := actType p i
  let tj := actType p j
  let clash := (actMarvers p i &&& actMarvers p j) ≠ 0 || (ti = 5 && tj = 5)
  let pair := ((ti = 2 && tj = 3) || (ti = 3 && tj = 2)) && actTarget p i = actTarget p j && actParam p i = actParam p j
  !clash || pair || decide (actDeadline p i < actStart p j) || decide (actDeadline p j < actStart p i)

/-- How many actions of a type target axis n. -/
def axisCount (p : List Byte) (typ n : Nat) : Nat :=
  ((List.range (planCount p)).filter fun i => actType p i = typ && bitOf (actTarget p i) n).length

/-- Table 2.6: the byte offset of the first field that breaks a rule, in file order of what is checked, or none (R47). -/
def planBad (p : List Byte) : Option Nat :=
  let count := planCount p
  let div := planTickdiv p
  let bad (c : Bool) (o : Nat) : Option Nat := if c then some o else none
  let zero (o n : Nat) : Option Nat := ((List.range n).find? fun i => fieldAt p (o + i) 1 ≠ 0).map (o + ·)
  let header := [bad (fieldAt p 0 4 ≠ 0x4C505447) 0, bad (fieldAt p 4 2 ≠ 1) 4, bad (count = 0 || decide (64 < count)) 6,
    zero 7 1, bad (decide (div < 1966) || decide (24576 < div)) 8, bad (decide (64 ≤ fieldAt p 10 1)) 10,
    bad (decide (16 ≤ fieldAt p 11 1)) 11, zero 37 3, bad (fieldAt p 40 4 ≠ 64 + 16 * count) 40, zero 44 20]
  let entry (i : Nat) : List (Option Nat) :=
    let o := 64 + 16 * i
    let typ := actType p i
    let st := actStart p i
    let dl := actDeadline p i
    let wf := actWaitfor p i
    [bad (typ = 0 || decide (9 < typ)) o, bad (!fallbackOk typ (actFallback p i)) (o + 1),
     bad (wf ≠ 0xFF && decide (i ≤ wf)) (o + 2), zero (o + 3) 1,
     bad (decide (0 < i) && decide (st < actStart p (i - 1))) (o + 4),
     bad (decide (div < dl + 17) || (if typ = 9 then dl ≠ st else decide (dl ≤ st))) (o + 6),
     bad (!targetOk p i) (o + 8), zero (o + 12) 4,
     bad ((List.range i).any fun j => !windowsOk p j i) (o + 4)]
  let axes := (bitList 6 (planAxes p)).map fun n =>
    bad (axisCount p 1 n ≠ 1 || axisCount p 5 n ≠ 1 || decide (1 < axisCount p 2 n) || decide (1 < axisCount p 3 n)) 10
  let count1 (typ : Nat) := ((List.range count).filter fun i => actType p i = typ).length
  let single := [bad (decide (1 < count1 6)) 6, bad (decide (1 < count1 7)) 6]
  match (header.filterMap id) with
  | o :: _ => some o
  | [] => ((((List.range count).map entry).flatten ++ axes ++ single).filterMap id).head?

end Sys2Proof.Machine
end

