-- ==== Sys2Proof/Machine/Parison.lean ====
section
/-!
DEFINITION. Parisons: the image's fields (R160 to R163), their validity, and what a parison computes, layer by layer (R137 to
R147, R161). Rows and channels of a layer's output are in row-major order, and a layer reads its rows the same way (log entry
13).
-/
namespace Sys2Proof.Machine

/-! ### Fields (Tables 6.1 to 6.3) -/

def parKind (p : List Byte) : Nat := fieldAt p 6 1
def parPlaces (p : List Byte) : Nat := fieldAt p 7 1
def parId (p : List Byte) : Nat := fieldAt p 8 4
def parLayers (p : List Byte) : Nat := fieldAt p 16 2
def parLuts (p : List Byte) : Nat := fieldAt p 18 1
def parKey (p : List Byte) : Nat := fieldAt p 19 1
def parAxes (p : List Byte) : Nat := fieldAt p 20 1
def parMaxBatch (p : List Byte) : Nat := fieldAt p 21 1
def parIn (p : List Byte) : Nat := fieldAt p 24 4
def parOut (p : List Byte) : Nat := fieldAt p 28 4
def parBody (p : List Byte) : Nat := fieldAt p 56 4

/-- Layer l (Table 6.2). -/
def parLayer (p : List Byte) (l : Nat) : List Byte := slice p (fieldAt p 32 4 + 48 * l) 48

/-- Placement q (Table 6.3). -/
def parPlace (p : List Byte) (q : Nat) : List Byte := slice p (fieldAt p 36 4 + 32 * q) 32

/-- The lookup tables (R143). -/
def parTables (p : List Byte) : List Byte := slice p (fieldAt p 40 4) (1024 * parLuts p)

/-- Where the channel records of a layer start in the image (Tables 6.1 and 6.2). -/
def chanAt (p l : List Byte) : Nat := fieldAt p 44 4 + fieldAt l 40 4

def placeMarvers (q : List Byte) : Nat := fieldAt q 0 2
def placeResident (q : List Byte) : Bool := bitOf (fieldAt q 2 1) 0
def placeArrays (q : List Byte) (second : Bool) : Nat := fieldAt q (if second then 6 else 4) 2
def placeNcyc (q : List Byte) (second : Bool) : Nat := fieldAt q (if second then 12 else 8) 4
def placeBase (q : List Byte) : Nat := fieldAt q 16 4
def placeLen (q : List Byte) : Nat := fieldAt q 20 4

def layOp (l : List Byte) : Nat := fieldAt l 0 1
def layMode (l : List Byte) : Nat := fieldAt l 1 1 % 8
def layOfmt (l : List Byte) : Nat := fieldAt l 2 1
def layM (l : List Byte) : Nat := fieldAt l 8 2
def layN (l : List Byte) : Nat := fieldAt l 10 2
def layK (l : List Byte) : Nat := fieldAt l 12 4
def layIn (l : List Byte) : Nat := fieldAt l 16 2
def layIn2 (l : List Byte) : Nat := fieldAt l 18 2

/-- Reduction steps per cycle (Table 5.2). -/
def modeG (mode : Nat) : Nat :=
  match mode with
  | 1 => 8 | 4 => 2 | _ => 4

/-- Bits of an activation and of a weight (Table 5.2). -/
def modeActBits (mode : Nat) : Nat :=
  match mode with
  | 1 => 4 | 4 => 16 | _ => 8
def modeWeightBits (mode : Nat) : Nat :=
  match mode with
  | 1 => 4 | 2 => 4 | 4 => 16 | _ => 8

/-- Bits of an output (Table 6.2). -/
def ofmtWidth (ofmt : Nat) : Nat :=
  match ofmt with
  | 0 => 4 | 1 => 8 | 2 => 16 | 3 => 32 | 4 => 16 | _ => 8

/-- Element i of packed codes of `w` bits; INT4 two to a byte, the even element low (R135). -/
def codeAt (l : List Byte) (w i : Nat) : Nat :=
  if w = 4 then bitsOf (fieldAt l (i / 2) 1) (4 * (i % 2) + 3) (4 * (i % 2)) else fieldAt l (w / 8 * i) (w / 8)

/-- Codes of `w` bits packed into bytes (R135, R7). -/
def packCodes (w : Nat) : List Nat → List Byte
  | [] => []
  | [a] => if w = 4 then [BitVec.ofNat 8 a] else leBytes (w / 8) a
  | a :: b :: r =>
    if w = 4 then BitVec.ofNat 8 (a % 16 + 16 * b) :: packCodes w r
    else leBytes (w / 8) a ++ (leBytes (w / 8) b ++ packCodes w r)

/-! ### Validity (R141, R161, R163) -/

/-- A layer's fields (R141, R161, Table 6.2): the offset within the descriptor of the first bad one. -/
def layerBad (p : List Byte) (ix : Nat) : Option Nat :=
  let l := parLayer p ix
  let bad (c : Bool) (o : Nat) : Option Nat := if c then some o else none
  let op := layOp l
  let m := fieldAt l 1 1
  let ofmt := layOfmt l
  let ints := decide (ofmt < 3)
  let clo := sgn 16 (fieldAt l 4 2)
  let chi := sgn 16 (fieldAt l 6 2)
  let lo := satS (ofmtBits ofmt) (-(2 ^ 40))
  let hi := satS (ofmtBits ofmt) (2 ^ 40)
  let mac := op = 1 || op = 2
  let checked := mac && ints
  let kh := fieldAt l 20 1
  let kw := fieldAt l 21 1
  let src (x : Nat) : Bool := x = 0xFFFF || decide (x < ix)
  let chans := mac && (List.range (layN l)).any fun n =>
    let c := slice p (chanAt p l + 8 * n) 8
    let zp := sgn 8 (fieldAt c 7 1)
    checked && (fieldAt c 4 2 = 0 || decide (47 < fieldAt c 6 1) || decide (zp < lo) || decide (hi < zp))
  (List.filterMap id
    [bad (op = 0 || decide (4 < op)) 0, bad (decide (4 < m % 8) || bitOf m 3 || decide (64 ≤ m)) 1,
     bad (decide (6 < ofmt)) 2, bad (bitOf (fieldAt l 3 1) 3) 3,
     bad (checked && (decide (chi < clo) || decide (clo < lo))) 4, bad (checked && decide (hi < chi)) 6,
     bad (op = 2 && decide (layK l ≠ kh * kw * fieldAt l 26 2)) 12, bad (!src (layIn l)) 16, bad (if op = 3 then !src (layIn2 l) else decide (layIn2 l ≠ 0xFFFF)) 18,
     bad (op = 1 && decide (kh ≠ 1)) 20, bad (op = 1 && decide (kw ≠ 1)) 21,
     bad (fieldAt l 22 1 % 16 = 0 || fieldAt l 22 1 / 16 = 0) 22, bad (decide (7 < fieldAt l 23 1)) 23,
     bad (op = 4 && decide (4 < fieldAt l 28 1)) 28, bad (decide (31 < fieldAt l 29 1)) 29,
     bad (decide (fieldAt l 30 2 ≠ 0)) 30, bad (decide (fieldAt p 52 4 < fieldAt l 32 4 + fieldAt l 36 4)) 32,
     bad (chans || (mac && decide (parBody p < chanAt p l + 8 * layN l))) 40,
     bad (decide (fieldAt l 44 4 ≠ 0)) 44]).head?

/-- A placement's fields (R163, Table 6.3). -/
def placeBad (p : List Byte) (ix : Nat) : Option Nat :=
  let q := parPlace p ix
  let bad (c : Bool) (o : Nat) : Option Nat := if c then some o else none
  let kind := parKind p
  let mv := placeMarvers q
  let one := mv = 1 || mv = 2 || mv = 4 || mv = 8
  let twice := (List.range ix).any fun j => placeMarvers (parPlace p j) = mv
  let a := placeArrays q false
  let b := placeArrays q true
  (List.filterMap id
    [bad (if kind = 0 then mv = 0 else !one || twice) 0,
     bad (decide (1 < fieldAt q 2 1) || (decide (kind ≠ 0) && !placeResident q)) 2, bad (decide (fieldAt q 3 1 ≠ 0)) 3,
     bad (if kind = 0 then a ≠ 0xFFFF else a = 0) 4,
     bad (if kind = 1 then b = 0 || decide (a &&& b ≠ 0) else b ≠ 0) 6,
     bad (kind = 0 && decide (placeNcyc q false ≠ 0)) 8, bad (decide (kind ≠ 1) && decide (placeNcyc q true ≠ 0)) 12,
     bad (decide (placeBase q % 64 ≠ 0)) 16,
     bad (if placeResident q then decide (0x200000 < placeBase q + placeLen q) else placeLen q ≠ 0) 20,
     bad (decide (fieldAt q 24 8 ≠ 0)) 24]).head?

/-- R166 step 1: the offset of the first bad field, for an image of the descriptor's LENGTH. -/
def parHeadBad (p : List Byte) (length : Nat) : Option Nat :=
  let bad (c : Bool) (o : Nat) : Option Nat := if c then some o else none
  (List.filterMap id
    [bad (decide (length ≠ parBody p + 128)) 56, bad (decide (fieldAt p 0 4 ≠ 0x4E535250)) 0,
     bad (decide (fieldAt p 4 2 ≠ 1)) 4, bad (decide (fieldAt p 22 2 ≠ 0)) 22, bad (decide (fieldAt p 60 4 ≠ 0)) 60]).head?

/-- A section starts on a 64-byte boundary and lies within bytes 64 to BODY_LEN - 1 (R160). -/
def sectionOk (p : List Byte) (o n : Nat) : Bool := o % 64 = 0 && decide (64 ≤ o) && decide (o + n ≤ parBody p)

/-- R166 step 3: Table 6.1, R141 for every layer, R161, R163. The offset of the first failing field of the image. -/
def parContentBad (p : List Byte) : Option Nat :=
  let bad (c : Bool) (o : Nat) : Option Nat := if c then some o else none
  let kind := parKind p
  let head := List.filterMap id
    [bad (decide (2 < kind)) 6, bad (parPlaces p = 0 || decide (4 < parPlaces p)) 7, bad (parId p = 0) 8,
     bad (parLayers p = 0 || decide (1024 < parLayers p)) 16, bad (decide (4 < parLuts p)) 18, bad (decide (1 < parKey p)) 19,
     bad (if kind = 1 then decide (64 ≤ parAxes p) else parAxes p ≠ 0) 20,
     bad (if kind = 0 then parMaxBatch p = 0 || decide (64 < parMaxBatch p) else parMaxBatch p ≠ 1) 21,
     bad (!sectionOk p (fieldAt p 32 4) (48 * parLayers p)) 32, bad (!sectionOk p (fieldAt p 36 4) (32 * parPlaces p)) 36,
     bad (if parLuts p = 0 then fieldAt p 40 4 ≠ 0 else !sectionOk p (fieldAt p 40 4) (1024 * parLuts p)) 40,
     bad (!sectionOk p (fieldAt p 44 4) 0) 44, bad (!sectionOk p (fieldAt p 48 4) (fieldAt p 52 4)) 48]
  match head with
  | o :: _ => some o
  | [] =>
    match (List.range (parLayers p)).findSome? fun i => (layerBad p i).map (fieldAt p 32 4 + 48 * i + ·) with
    | some o => some o
    | none => (List.range (parPlaces p)).findSome? fun i => (placeBad p i).map (fieldAt p 36 4 + 32 * i + ·)

/-! ### Layer arithmetic -/

/-- An activation or weight code as an integer (R134). -/
def intOf (bits c : Nat) : Int := sgn bits c

/-- An activation or weight code of a float mode; `e5` selects E5M2 in F8 (R134, Table 6.2). -/
def floatOf (mode : Nat) (e5 : Bool) (c : Nat) : FV := if mode = 4 then ofBf16 c else if e5 then ofE5m2 c else ofE4m3 c

/-- What a layer evaluation reads: the image with its descriptors, the bytes from which its weights and channel records are taken, laid
out as the image is, the four resident tables of the marver, the input bytes of a batch item, the outputs of earlier layers. -/
structure LayerEnv where
  image : List Byte
  params : List Byte
  tables : List Byte
  input : Nat → List Byte
  outs : Nat → Nat → Nat

/-- Element `i` of batch item `b` of source `src`; the parison input is packed in the reading layer's activation format. -/
def LayerEnv.code (e : LayerEnv) (bits src b i : Nat) : Nat :=
  if src = 0xFFFF then codeAt (e.input b) bits i
  else
    let l := parLayer e.image src
    e.outs src (b * (layM l * layN l) + i)

/-- The element of a batch item that reduction index k of output row m reads; none is a zero of the padding (R161). -/
def tapIx (p l : List Byte) (m k : Nat) : Option Nat :=
  if layOp l = 2 then
    let kw := fieldAt l 21 1
    let ic := fieldAt l 26 2
    let iw := fieldAt l 24 2
    let pad := fieldAt l 23 1
    let sv := fieldAt l 22 1 % 16
    let sh := fieldAt l 22 1 / 16
    let ow := (iw + 2 * pad - kw) / max 1 sh + 1
    let (ky, kx, c) := Config.convTap (fieldAt l 20 1) kw ic k
    let y := m / ow * sv + ky
    let x := m % ow * sh + kx
    let total := if layIn l = 0xFFFF then parIn p * 8 / modeActBits (layMode l)
      else layM (parLayer p (layIn l)) * layN (parLayer p (layIn l))
    let ih := total / max 1 (iw * ic)
    if pad ≤ y ∧ y < ih + pad ∧ pad ≤ x ∧ x < iw + pad then some (((y - pad) * iw + (x - pad)) * ic + c) else none
  else some (m * layK l + k)

/-- Output (row, n) of a MATMUL or CONV layer: its code, and how many accumulations clipped (R137 to R145). -/
def macOut (e : LayerEnv) (l : List Byte) (row n : Nat) : Nat × Nat :=
  let p := e.image
  let mode := layMode l
  let b := row / max 1 (layM l)
  let m := row % max 1 (layM l)
  let ch := slice e.params (chanAt p l + 8 * n) 8
  let actv (k : Nat) : Nat := match tapIx p l m k with
    | some i => e.code (modeActBits mode) (layIn l) b i
    | none => 0
  let wts := slice e.params (fieldAt p 48 4 + fieldAt l 32 4) (fieldAt l 36 4)
  let wt (k : Nat) : Nat := codeAt wts (modeWeightBits mode) (Config.weightIx (layK l) n k)
  if mode < 3 then
    let (acc, clips) := accInt (modeG mode)
      ((List.range (layK l)).map fun k => intOf (modeActBits mode) (actv k) * intOf (modeWeightBits mode) (wt k))
    (if layOfmt l ≤ 3 then lowBits 32 (drainInt ch l e.tables acc) else drainFloat ch l (ofInt acc), clips)
  else
    let e5w := bitOf (fieldAt l 1 1) 4
    let e5a := bitOf (fieldAt l 1 1) 5
    let acc := accFloat (modeG mode)
      ((List.range (layK l)).map fun k => fmul (floatOf mode e5a (actv k)) (floatOf mode e5w (wt k)))
    (if 4 ≤ layOfmt l then drainFloat ch l acc else lowBits 32 (drainInt ch l e.tables acc.toInt), 0)

/-- A lane from a code of a format: an integer, or a float (R146). -/
inductive Lane where
  | int (x : Int)
  | flt (x : FV)
deriving DecidableEq, Repr

def laneOf (ofmt c : Nat) : Lane :=
  match ofmt with
  | 4 => .flt (ofBf16 c) | 5 => .flt (ofE4m3 c) | 6 => .flt (ofE5m2 c)
  | f => .int (sgn (ofmtBits f) c)

def Lane.toFlt : Lane → FV
  | .int x => ofInt x
  | .flt x => x

/-- A lane as a code of a layer's output format (R146). -/
def Lane.code (ofmt : Nat) (x : Lane) : Nat :=
  match x with
  | .int v => if 4 ≤ ofmt then toOfmt ofmt (fp32.round true (ofInt v)) else lowBits 32 (satS (ofmtBits ofmt) v)
  | .flt v => if 4 ≤ ofmt then toOfmt ofmt v else lowBits 32 (satS (ofmtBits ofmt) v.toInt)

/-- A source's elements are INT32: those of an earlier layer whose OFMT is INT32. -/
def srcWide (p : List Byte) (src : Nat) : Bool := src ≠ 0xFFFF && layOfmt (parLayer p src) = 3

/-- Element (row, n) of an ELTWISE or REDUCE layer, layer `lx` (R146, R147, R161); the parison input is in the activation format of the
layer's MODE (R134). CVT converts in one rounding. -/
def vecOut (e : LayerEnv) (l : List Byte) (lx row n : Nat) : Nat :=
  let p := e.image
  let b := row / max 1 (layM l)
  let i := row % max 1 (layM l) * layN l + n
  let mode := layMode l
  let ofmt := layOfmt l
  let lane (src i : Nat) : Lane :=
    let c := e.code (modeActBits mode) src b i
    if src ≠ 0xFFFF then laneOf (layOfmt (parLayer p src)) c
    else if mode < 3 then .int (intOf (modeActBits mode) c)
    else .flt (floatOf mode (bitOf (fieldAt l 1 1) 5) c)
  let vop := fieldAt l 28 1
  if layOp l = 3 then
    let op := Config.vop vop % 12
    let third := Config.thirdLane p lx (row * layN l + n)
    match lane (layIn l) i, lane (layIn2 l) i with
    | .int x, .int y =>
      if op = 11 ∧ 4 ≤ ofmt then toOfmt ofmt (ofInt x)
      else (Lane.int (vecInt op (fieldAt l 29 1) (srcWide p (layIn l)) (sgn 32 third) x y)).code ofmt
    | x, y => (Lane.flt (vecFloat op (ofFp32 third) x.toFlt y.toFlt)).code ofmt
  else
    let lanes := (List.range (layK l)).map fun k => lane (layIn l) (i * layK l + k)
    (if lanes.any fun x => match x with
        | .flt _ => true
        | .int _ => false then Lane.flt (reduceFloat vop (lanes.map Lane.toFlt))
     else Lane.int (reduceInt vop (lanes.map fun x => match x with
        | .int v => v
        | .flt _ => 0))).code ofmt

/-- Output (row, n) of layer l: its code and the accumulations that clipped. -/
def layerOut (e : LayerEnv) (l row n : Nat) : Nat × Nat :=
  let d := parLayer e.image l
  if layOp d ≤ 2 then macOut e d row n else (vecOut e d l row n, 0)

/-- The outputs of the layers in order, for one batch item of a resident parison; `done` holds those of the layers before, first layer
first. -/
def runLayers (p tables input : List Byte) : Nat → List (List Nat) → Nat → List (List Nat) × Nat
  | 0, done, clips => (done, clips)
  | f + 1, done, clips =>
    let e : LayerEnv := ⟨p, p, tables, fun _ => input, fun l i => (done.getD l []).getD i 0⟩
    let d := parLayer p done.length
    let r := (List.range (layM d * layN d)).map fun i => layerOut e done.length (i / layN d) (i % layN d)
    runLayers p tables input f (done ++ [r.map (·.1)]) (clips + (r.map (·.2)).sum)

/-- The parison output bytes of one batch item on a marver with these resident tables, and the accumulations that clipped (R161). -/
def runParison (p tables input : List Byte) : List Byte × Nat :=
  let (outs, clips) := runLayers p tables input (parLayers p) [] 0
  let w := ofmtWidth (layOfmt (parLayer p (parLayers p - 1)))
  (slice (packCodes w (outs.getLastD [])) 0 (parOut p), clips)

end Sys2Proof.Machine
end

