-- ==== Sys2Proof/Machine/Marver.lean ====
section
/-!
DEFINITION. The marvers: DVFS, SRAM errors and scrubbing, BAR4, fencing, pinned runs, the parison slots (chapters 5 and 6,
R148 to R168, R175, and R67).
-/
namespace Sys2Proof.Machine

def State.mrvAt (s : State) (m : Nat) : Mrv := s.mrv.getD m Mrv.init

def State.setMrv (s : State) (m : Nat) (x : Mrv) : State := { s with mrv := lput .init s.mrv m x }

def State.fenced (s : State) (m : Nat) : Bool := s.flag (Fld.MRV_STATE_FENCED m)

/-- Mn is pinned in the active plan (R152). -/
def State.pinned (s : State) (m : Nat) : Bool := bitOf s.pinnedMask m

/-- A status bit of MRV_IRQ_STATUS sets for marver m, which MRV_IRQ_SRC remembers (Table 5.11). -/
def State.mrvIrq (s : State) (m : Nat) (f : Field) : State := (s.putBit Fld.MRV_IRQ_SRC_SRC m true).irqF f

/-- A number of corrected single-bit errors on marver m (R149, R158). -/
def State.eccCorr (s : State) (m n : Nat) : State :=
  if n = 0 then s else (s.incSat (Fld.MRV_ECC_CORR_ECC_CORR m) n).mrvIrq m Fld.MRV_IRQ_STATUS_ECC_CORR

/-- A number of saturating additions that clipped on marver m (R137). -/
def State.accSat (s : State) (m n : Nat) : State :=
  if n = 0 then s else (s.incSat (Fld.MRV_ACC_SAT_ACC_SAT m) n).mrvIrq m Fld.MRV_IRQ_STATUS_ACC_SAT

/-- MRV_PINNED and its copies follow the active plan (R152). -/
def State.showPinned (s : State) : State :=
  let mask := s.pinnedMask
  (List.range 16).foldl (fun s m => s.putB (Fld.MRV_STATE_PINNED m) (bitOf mask m)) (s.put Fld.MRV_PINNED_PINNED mask)

/-! ### DVFS (R155 to R157) -/

/-- NCLK of a marver in MHz (Table 5.7). -/
def State.nclk (s : State) (m : Nat) : Nat := 300 * (4 - s.get (Fld.MRV_STATE_DVFS_CUR m))

/-- TCLK cycles that a number of NCLK cycles takes on a marver (R153, R172). -/
def State.tclkFor (s : State) (m cycles : Nat) : Nat := (cycles * 196608 + (1000 * s.nclk m - 1)) / (1000 * s.nclk m)

/-- A point takes effect; one already in effect changes nothing (R156). -/
def dvfsApply (s : State) (m p : Nat) : State :=
  let s := s.setMrv m { s.mrvAt m with due := none }
  if s.get (Fld.MRV_STATE_DVFS_CUR m) = p then s
  else (s.put (Fld.MRV_STATE_DVFS_CUR m) p).mrvIrq m Fld.MRV_IRQ_STATUS_DVFS_DONE

/-- A point waits for the next tick edge, or takes effect at once while the gaffer is stopped (R156). -/
def dvfsDue (s : State) (m p : Nat) : State :=
  if s.running then s.setMrv m { s.mrvAt m with due := some p } else dvfsApply s m p

/-- A voltage ramp towards a target, or none. -/
def State.setRamp (s : State) (m : Nat) (t : Option Nat) : State :=
  (s.setMrv m { s.mrvAt m with ramp := t }).putB (Fld.MRV_STATE_RAMP m) t.isSome

/-- A write of MRV_DVFS (R156, R157). A larger POINT is a lower point. -/
def mrvDvfsWrite (s : State) (m : Nat) (v : Word) : State :=
  if s.pinned m && !s.fenced m then s.mrvIrq m Fld.MRV_IRQ_STATUS_DVFS_ERR
  else
    let p := (Fld.MRV_DVFS_POINT m).get v
    let s := s.put (Fld.MRV_DVFS_POINT m) p
    let cur := s.get (Fld.MRV_STATE_DVFS_CUR m)
    if p < cur then
      match (s.mrvAt m).ramp with
      | some t => if t = p then s else s.setRamp m (some p)
      | none =>
        if (s.mrvAt m).due = some p then s else (s.setMrv m { s.mrvAt m with due := none }).setRamp m (some p)
    else dvfsDue (s.setRamp m none) m p

/-- MRV_DVFS_WRITE (R156). -/
def execMrvDvfsWrite (m : Fin 16) (v : Word) (s : State) : Host.Outcome State Fault Refusal :=
  act s fun s => if s.served (Reg.MRV_DVFS m) then mrvDvfsWrite s m v else s

/-- DVFS_RAMP_DONE: a ramp ends; its point takes effect at the next tick edge, or at once while the gaffer is stopped
(R156). -/
def execDvfsRampDone (m : Fin 16) (s : State) : Host.Outcome State Fault Refusal :=
  act s fun s =>
    match (s.mrvAt m).ramp with
    | none => s
    | some t => dvfsDue (s.setRamp m none) m t

/-- Points that wait for a tick edge take effect (R156). -/
def dvfsEdge (s : State) : State :=
  (List.range 16).foldl (fun s m => match (s.mrvAt m).due with
    | some p => dvfsApply s m p
    | none => s) s

/-! ### Parison slots (R164, R182) -/

/-- The parison of a valid slot. -/
def State.slotAt (s : State) (i : Nat) : Option Par := (s.slots[i]?).getD none

/-- The slots that hold a parison, with their numbers. -/
def State.validSlots (s : State) : List (Nat × Par) :=
  (List.range 32).filterMap fun i => (s.slotAt i).map fun p => (i, p)

/-- The placements of an image, with their indices. -/
def placements (p : List Byte) : List (Nat × List Byte) := (List.range (parPlaces p)).map fun q => (q, parPlace p q)

/-- PIN_ID and ARRAYS of every marver follow the valid slots (Table 6.11). -/
def State.showSlots (s : State) : State :=
  let pins := s.validSlots.filter fun e => parKind e.2.image ≠ 0
  (List.range 4).foldl (fun s m =>
    let prim := pins.find? fun e => placeMarvers (parPlace e.2.image 0) = 2 ^ m
    let arrays := pins.foldl (fun a e => (placements e.2.image).foldl (fun a q =>
      if placeMarvers q.2 = 2 ^ m then a ||| placeArrays q.2 false ||| placeArrays q.2 true else a) a) 0
    (s.put (Fld.MRV_PIN_ID_PIN_ID m) ((prim.map fun e => parId e.2.image).getD 0)).put (Fld.MRV_ARRAYS_ARRAYS m) arrays) s

/-- A slot holds a parison, or none (R164, Table 6.10). No marver has run the new contents (R173). -/
def State.setSlot (s : State) (i : Nat) (x : Option Par) : State :=
  let forget (y : Mrv) : Mrv := if y.prev = some i then { y with prev := none } else y
  let s := { s with slots := lput none s.slots i x, mrv := s.mrv.map forget }
  let s := match x with
    | none => (s.setReg (Reg.MRV_SLOT_ID i) 0).setReg (Reg.MRV_SLOT_FLAGS i) 0
    | some p =>
      let s := (s.put (Fld.MRV_SLOT_ID_ID i) (parId p.image)).putB (Fld.MRV_SLOT_FLAGS_VALID i) true
      let s := (s.putB (Fld.MRV_SLOT_FLAGS_COPY i) (decide (p.dest ≠ 0))).put (Fld.MRV_SLOT_FLAGS_KIND i) (parKind p.image)
      s.put (Fld.MRV_SLOT_FLAGS_NPLACE_M1 i) (parPlaces p.image - 1)
  s.showSlots

/-- The PARISON check of a plan: every non-zero PARISON[n] is the identifier of a valid slot whose primary placement is on Mn
(Table 2.7, R42). -/
def State.planParisonsOk (s : State) (p : List Byte) : Bool :=
  (List.range 4).all fun n =>
    let id := planParison p n
    id = 0 || s.validSlots.any fun e => parId e.2.image = id && placeMarvers (parPlace e.2.image 0) = 2 ^ n

/-! ### Lookup tables (R143, R163, R173) -/

/-- Tables from index 0 on are written into a marver. -/
def Mrv.setTables (x : Mrv) (l : List Byte) : Mrv := { x with tables := writeBytes x.tables 0 l }

/-- The four resident tables of a marver. -/
def Mrv.tableBytes (x : Mrv) : List Byte := bytesAt x.tables 0 4096

/-- Marver m is about to run the parison of a slot: its tables go into resident tables 0 to NLUT − 1, unless its previous run or chunk
was of the same parison (R163, R173; for a pinned run DEDUCED, log entry 42). -/
def State.useTables (s : State) (m slot : Nat) (l : List Byte) : State :=
  let x := s.mrvAt m
  if x.prev = some slot then s else s.setMrv m { x.setTables l with prev := some slot }

/-! ### Fencing (R175, R176) -/

/-- No job is selected for marver m (Table 6.11). -/
def State.clearJob (s : State) (m : Nat) : State :=
  (s.setMrv m { s.mrvAt m with job := none }).putB (Fld.MRV_JOB_JOB_VALID m) false

/-- Marver m belongs to the job's placement. -/
def State.jobUses (s : State) (j : Job) (m : Nat) : Bool :=
  match s.slotAt j.slot with
  | some p => bitOf (placeMarvers (parPlace p.image j.place)) m
  | none => false

/-- A marver is fenced, for cause 1 ECC or 2 HOST: what it runs stops, and the jobs placed on it must restart; one already
fenced stays as it is (R150, R175, R176). -/
def fenceMarver (s : State) (m cause : Nat) : State :=
  if s.fenced m then s
  else
    let s := ((s.putB (Fld.MRV_STATE_FENCED m) true).putBit Fld.MRV_FENCED_FENCED m true).put (Fld.MRV_FENCE_CAUSE m) cause
    let s := (s.incSat (Fld.MRV_FENCE_COUNT m)).irqF Fld.MRV_PIRQ_STATUS_FENCED
    let addr := if cause = 1 then (s.reg (Reg.MRV_ECC_ADDR m)).toNat else 0
    let s := s.tell 0x09 4 m (leBytes 1 cause ++ [0, 0, 0] ++ leBytes 4 addr)
    let s := s.clearJob m
    let s := s.setMrv m { s.mrvAt m with chunk := none, fenceDue := false }
    let runs := s.runs.filter fun r => r.marver ≠ m
    let jobs := s.jobs.map fun j => if s.jobUses j m then { j with restart := true } else j
    { s with runs := runs, jobs := jobs }

/-- MRV_RHST.PHASE of a marver (R178). -/
def State.rhPhase (s : State) (m : Nat) : Nat := s.get (Fld.MRV_RHST_PHASE m)

/-- A reheat ends without a rejoin (R180): its descriptor, if still in flight, completes with a status. -/
def reheatEnd (s : State) (m status detail : Nat) : State :=
  match (s.mrvAt m).reheat with
  | none => s
  | some r =>
    let s := s.setMrv m { s.mrvAt m with reheat := none }
    let s := (s.put (Fld.MRV_RHST_PHASE m) 0).irqF Fld.MRV_PIRQ_STATUS_RH_FAIL
    match s.findDesc r.sq r.seq with
    | some d => s.complete d status detail 0
    | none => s

/-- A write of MRV_FENCE with CMD = 1: the fence takes effect at the next tick edge, or at once while the gaffer is stopped;
ignored on a marver in reheat (R175, R180, R553). -/
def mrvFenceWrite (s : State) (m : Nat) : State :=
  if (s.mrvAt m).reheat.isSome then s
  else if s.running then s.setMrv m { s.mrvAt m with fenceDue := true }
  else fenceMarver s m 2

/-- MRV_FENCE_CMD (R175). -/
def execMrvFenceCmd (m : Fin 16) (s : State) : Host.Outcome State Fault Refusal :=
  act s fun s => if s.served (Reg.MRV_FENCE m) then mrvFenceWrite s m else s

/-- Fences asked for take effect at the tick edge (R175). -/
def fenceEdge (s : State) : State :=
  (List.range 16).foldl (fun s m => if (s.mrvAt m).fenceDue then
    fenceMarver (s.setMrv m { s.mrvAt m with fenceDue := false }) m 2 else s) s

/-! ### SRAM errors and scrubbing (R148 to R151) -/

/-- Check bits of a marver's SRAM show an uncorrectable error in 32-bit half `h`, counted from the start of the SRAM; it stays until
the word is written (R148, R164; log entry 42). -/
def Mrv.flaw (x : Mrv) (h : Nat) : Mrv := { x with flaws := sset 0 x.flaws (h / 2) (orBit (sget 0 x.flaws (h / 2)) (h % 2)) }

/-- The 64-bit words that `n` bytes from `off` on touch. -/
def wordsOf (off n : Nat) : List Nat := if n = 0 then [] else (List.range ((off + n - 1) / 8 + 1 - off / 8)).map (off / 8 + ·)

/-- Bytes are written into a marver's SRAM: every word written has new check bits (R148). -/
def Mrv.write (x : Mrv) (off : Nat) (l : List Byte) : Mrv :=
  { x with sram := writeBytes x.sram off l, flaws := (wordsOf off l.length).foldl (fun a w => sset 0 a w 0) x.flaws }

/-- The words that a read of `n` bytes from `off` on finds in error. -/
def Mrv.bad (x : Mrv) (off n : Nat) : List Nat := (wordsOf off n).filter fun w => sget 0 x.flaws w ≠ 0

/-- The bytes of such a read: ones in place of a 32-bit half that holds an error (R150). -/
def Mrv.readBytes (x : Mrv) (off n : Nat) : List Byte :=
  (List.range n).map fun i => if bitOf (sget 0 x.flaws ((off + i) / 8)) ((off + i) / 4 % 2) then 0xFF else byteAt x.sram (off + i)

/-- A read finds an uncorrectable error in 64-bit word `w` of a marver's SRAM (R150, R180). -/
def sramUncorrectable (s : State) (m w : Nat) : State :=
  let s := (s.incSat (Fld.MRV_ECC_UNCORR_ECC_UNCORR m)).put (Fld.MRV_ECC_ADDR_ECC_ADDR m) w
  let s := s.mrvIrq m Fld.MRV_IRQ_STATUS_ECC_UNCORR
  let s := fenceMarver s m 1
  if 2 ≤ s.rhPhase m then reheatEnd s m stUnitFenced (w % 2 ^ 18 * 8) else s

/-- A read of `n` bytes from `off` on of marver m's SRAM is checked: `found` is what its check bits newly show, beside the errors
known (R148 to R150). -/
def sramCheck (s : State) (m off n : Nat) (found : Ecc) : State :=
  let s := match found with
    | .corrected => s.eccCorr m 1
    | .uncorrectable h => if off / 4 + h ≤ (off + n - 1) / 4 then s.setMrv m ((s.mrvAt m).flaw (off / 4 + h)) else s
    | _ => s
  ((s.mrvAt m).bad off n).foldl (fun s w => sramUncorrectable s m w) s

/-- SRAM_UNCORRECTABLE: an array, vector or drain read finds an uncorrectable error in this word; which half holds it is free (R150). -/
def execSramUncorrectable (m : Fin 16) (w : BitVec 18) (s : State) : Host.Outcome State Fault Refusal :=
  act s fun s =>
    let (h, s) := s.free 2
    sramUncorrectable (s.setMrv m ((s.mrvAt m).flaw (2 * w.toNat + h))) m w.toNat

/-- SRAM_SCRUB: the scrubber reads the next 64-byte line of an unfenced marver (R151, R175). -/
def execSramScrub (m : Fin 16) (found : Ecc) (s : State) : Host.Outcome State Fault Refusal :=
  act s fun s =>
    if s.fenced m || !s.flag Fld.MRV_SCRUB_EN || s.halted then s
    else
      let line := (s.mrvAt m).scrubAt
      sramCheck (s.setMrv m { s.mrvAt m with scrubAt := (line + 1) % 32768 }) m (64 * line) 64 found

/-- The CLR of a marver clears its counters (Table 5.15). -/
def mrvCntClr (s : State) (m : Nat) : State :=
  ((((s.clrReg (Reg.MRV_ECC_CORR m)).clrReg (Reg.MRV_ECC_UNCORR m)).setReg (Reg.MRV_ECC_ADDR m) 0).clrReg (Reg.MRV_ACC_SAT m)).clrReg
    (Reg.MRV_BUSYCYC m)

/-- MRV_COUNTER_CLR (R159). -/
def execMrvCounterClr (m : Fin 16) (s : State) : Host.Outcome State Fault Refusal :=
  act s fun s => if s.served (Reg.MRV_CNT_CLR m) then mrvCntClr s m else s

/-- MRV_IRQ_SRC_READ: the read returns and clears it (R530, Table 5.11). -/
def execMrvIrqSrcRead (s : State) : Host.Outcome State Fault Refusal :=
  act s fun s =>
    if s.served Reg.MRV_IRQ_SRC then
      { s.setReg Reg.MRV_IRQ_SRC 0 with rdata := leBytes 4 (s.reg Reg.MRV_IRQ_SRC).toNat }
    else s

/-! ### BAR4 (R67, R449, R451, R452, R458) -/

/-- A BAR4 access at SRAM offset `off`. -/
def bar4Sram (s : State) (off : Nat) (op : Bar4Op) (ecc : Ecc) : State :=
  let m := off / 0x200000
  let x := s.mrvAt m
  if (s.pinned m && s.running) || x.slice.isSome then
    let s := s.irqF Fld.RING_IRQ_STATUS_BAR4_BLOCKED
    match op with
    | .read n => { s with rdata := List.replicate n 0 }
    | .write _ => s
  else match op with
    | .write l => s.setMrv m { x.write (off % 0x200000) l with dirty := true }
    | .read n =>
      let s := sramCheck s m (off % 0x200000) n ecc
      { s with rdata := (s.mrvAt m).readBytes (off % 0x200000) n }

/-- A BAR4 read of `n` bytes that fails after its retry episode: the completion is poisoned, all ones (R458). -/
def State.memPoisoned (s : State) (a n : Nat) : State :=
  let s := ((s.incSat Fld.MEM_CNT2_UNCORR).memErr a 1).irqF Fld.MEM_IRQ_STATUS_UNCORR
  { s with rdata := List.replicate n 0xFF, mem := { s.mem with poisonSent := true } }

/-- A BAR4 access at offset `x` of the LPDDR5X window. -/
def bar4Mem (s : State) (x : Nat) (op : Bar4Op) (ecc : Ecc) : State :=
  if !s.ready 16 then
    let s := s.irqF Fld.MEM_IRQ_STATUS_WIN_NR
    match op with
    | .read n => { s with rdata := List.replicate n 0 }
    | .write _ => s
  else
    let a := s.wide Reg.MEM_WINBASE_LO / 2 ^ 25 * 2 ^ 25 + x
    let s := s.memCorrected ecc
    match op with
    | .read n =>
      let s := match ecc with
        | .uncorrectable h => if h / 2 ≤ n / 8 then s.memFlaw (a / 8 + h / 2) else s
        | _ => s
      if s.memIn a n && s.memFlawed a n then s.memPoisoned a n
      else
        let (l, s) := memRead s a n
        { s with rdata := l }
    | .write l =>
      let n := l.length
      let s := match ecc with
        | .uncorrectable _ => if a % 8 ≠ 0 then s.memFlaw (a / 8) else if n % 8 ≠ 0 then s.memFlaw ((a + n) / 8) else s
        | _ => s
      memWrite s a l

/-- BAR4_ACCESS: a host access of the marver SRAM or the LPDDR5X window; `ecc` is what the check bits of a read, or of the read of a
partial write, newly show (R67, R148, R456, R457); a read that fails on the link alone is MEM_READ_RETRY's. -/
def execBar4Access (off : BitVec 26) (op : Bar4Op) (ecc : Ecc) (s : State) : Host.Outcome State Fault Refusal :=
  act s fun s =>
    if s.pstate < 3 then s
    else if off.toNat < 0x2000000 then bar4Sram s off.toNat op ecc
    else bar4Mem s (off.toNat - 0x2000000) op ecc

/-! ### Pinned runs (R153, R168) -/

/-- The slot, placement and marver that a pinned action runs: the parison of the action's kind whose primary is on the marver
that PARAM names, one that serves exactly `axes` first; if that marver is fenced, its first alternate on an unfenced marver
pinned in the active plan (R168). -/
def State.pinnedPlace (s : State) (m kind axes : Nat) : Option (Nat × Par × Nat × Nat) :=
  let here := s.validSlots.filter fun e => parKind e.2.image = kind && placeMarvers (parPlace e.2.image 0) = 2 ^ m
  let pick := match here.find? fun e => parAxes e.2.image = axes with
    | some e => some e
    | none => here.head?
  match pick with
  | none => none
  | some (i, p) =>
    if !s.fenced m then some (i, p, 0, m)
    else ((placements p.image).drop 1).findSome? fun q =>
      let k := Nat.log2 (placeMarvers q.2)
      if s.pinned k && !s.fenced k then some (i, p, q.1, k) else none

/-- A pinned run starts with these input bytes; none where no placement can run (R168). -/
def startRun (s : State) (i kind axes need : Nat) (second : Bool) (input : List Byte) : State :=
  match s.pinnedPlace (actParam s.plan i) kind axes with
  | none => s
  | some (slot, p, place, m) =>
    let s := s.useTables m slot (parTables p.image)
    { s with runs := s.runs.filter (·.action ≠ i) ++ [⟨i, m, slot, place, second, input, need, s.dtime, none⟩] }

/-- The run of an action. -/
def State.runOf (s : State) (i : Nat) : Option Run := s.runs.find? (·.action = i)

/-- The cycles from `a` to `b` that no interval of the list covers. -/
def uncovered : List (Nat × Nat) → Nat → Nat → Nat
  | [], a, b => b - a
  | (c, d) :: r, a, b => if d ≤ a ∨ b ≤ c then uncovered r a b else uncovered r a (min b c) + uncovered r (max a d) b

/-- NCYC NCLK cycles of a run that started at `at_`: those in which no completed run of the same tick kept arrays of the marver active
are counted as busy, once (Table 5.15; the overlap is counted in TCLK, log entry 42). -/
def runBusy (s : State) (m at_ ncyc : Nat) : State :=
  let x := s.mrvAt m
  let stop := at_ + s.tclkFor m ncyc
  let new := uncovered x.busy at_ stop
  let n := if new = stop - at_ then ncyc else min ncyc (new * (1000 * s.nclk m) / 196608)
  (s.setMrv m { x with busy := (at_, stop) :: x.busy }).incWrap (Fld.MRV_BUSYCYC_BUSYCYC m) n

/-- A run completes: its output is what its parison computes with the marver's resident tables; free bytes where BAR4 has written the
marver's SRAM since it was loaded (log entry 14). Accumulations that clipped and the busy cycles are counted (R137, R153). -/
def finishRun (s : State) (r : Run) : Run × State :=
  match s.slotAt r.slot with
  | none => (r, s)
  | some p =>
    let (out, s) := if (s.mrvAt r.marver).dirty then s.freeBytes (parOut p.image)
      else
        let (out, clips) := runParison p.image (s.mrvAt r.marver).tableBytes r.input
        (out, s.accSat r.marver clips)
    let s := runBusy s r.marver r.at_.toNat (placeNcyc (parPlace p.image r.place) r.second)
    let r := { r with out := some out }
    (r, { s with runs := s.runs.map fun x => if x.action = r.action then r else x })

/-- The output of an action's run, completing the run if it has not been. -/
def takeRun (s : State) (i : Nat) : Option (Run × List Byte × State) :=
  match s.runOf i with
  | none => none
  | some r =>
    let (r, s) := match r.out with
      | some _ => (r, s)
      | none => finishRun s r
    match r.out with
    | some out => some (r, out, { s with runs := s.runs.filter (·.action ≠ i) })
    | none => none

end Sys2Proof.Machine
end

