-- ==== Sys2Proof/Machine/Jobs.lean ====
section
/-!
DEFINITION. Stream jobs: INFER descriptors, slices and chunks (chapter 6, R169 to R174, R176). The operands of a chunk are taken
to be in SRAM when its time comes, while external memory can give them (R172; log entry 16).
-/
namespace Sys2Proof.Machine

/-- The marvers that a SLICE action of the active plan targets. -/
def State.sliceMask (s : State) : Nat := (s.actionsOf 8).foldl (fun a i => a ||| actTarget s.plan i) 0

/-- R170: the first placement, or PLACE_REQ alone, whose marvers are all unfenced, unpinned and targeted by a SLICE; otherwise
the fenced marver of a candidate that failed only on fencing, if there is one. -/
def State.selectPlace (s : State) (p : List Byte) (req : Nat) : Nat ⊕ Option Nat :=
  let cand := (placements p).filter fun q => req = 0xFF || q.1 = req
  let ms (q : Nat × List Byte) := bitList 16 (placeMarvers q.2)
  let usable (m : Nat) : Bool := !s.pinned m && bitOf s.sliceMask m
  match cand.find? fun q => (ms q).all fun m => !s.fenced m && usable m with
  | some q => .inl q.1
  | none => .inr (cand.findSome? fun q => if (ms q).all usable then (ms q).find? s.fenced else none)

/-- The marvers of a job's placement, in ascending order (R171). -/
def State.jobMarvers (s : State) (j : Job) : List Nat :=
  match s.slotAt j.slot with
  | some p => bitList 16 (placeMarvers (parPlace p.image j.place))
  | none => []

/-- The image of a job. -/
def State.jobImage (s : State) (j : Job) : List Byte := ((s.slotAt j.slot).map (·.image)).getD []

/-- The placement of a job keeps its weights in marver SRAM (Table 6.3). -/
def State.jobResident (s : State) (j : Job) : Bool := placeResident (parPlace (s.jobImage j) j.place)

/-- The bytes from which a job takes its weights, channel records and lookup tables, laid out as its image: the resident region's, else
the LPDDR5X copy as it stands (R154, R164, R172). -/
def State.jobParams (s : State) (j : Job) : List Byte :=
  match s.slotAt j.slot with
  | some p => if s.jobResident j then p.image else bytesAt s.mem.ram p.dest p.image.length
  | none => []

/-- External memory can give the LPDDR5X copy of a job's parison now (R449, R458). -/
def State.copyAnswers (s : State) (j : Job) : Bool :=
  match s.slotAt j.slot with
  | some p => s.memAnswers p.dest p.image.length
  | none => s.ready 16

/-- The LPDDR5X copy of a job's parison still lies below USABLE (R451). -/
def State.jobCopyIn (s : State) (j : Job) : Bool :=
  match s.slotAt j.slot with
  | some p => s.jobResident j || s.memIn p.dest p.image.length
  | none => true

/-! ### Chunks (R171) -/

/-- The channel tiles of a layer that the j-th of c marvers takes. -/
def tilesFor (n c j : Nat) : Nat := let t := (n + 3) / 4; (t + (c - 1) - j) / max 1 c

/-- The elements of a layer's output for a batch. -/
def layElems (d : List Byte) (batch : Nat) : Nat := layM d * batch * layN d

/-- How many chunks of layer descriptor d the j-th of c marvers runs (R171). -/
def chunkCount (d : List Byte) (batch c j : Nat) : Nat :=
  if layOp d ≤ 2 then (tilesFor (layN d) c j * ((layM d * batch + 3) / 4) + 15) / 16
  else if j = 0 then (layElems d batch + 1023) / 1024 else 0

/-- NCLK cycles of chunk ix (R171). -/
def chunkCycles (d : List Byte) (batch ix : Nat) : Nat :=
  if layOp d ≤ 2 then (layK d + modeG (layMode d) - 1) / modeG (layMode d) + 12
  else (min 1024 (layElems d batch - 1024 * ix) + 63) / 64 + 12

/-- The (row, channel) of the outputs that chunk ix of the j-th of c marvers computes, in channel-tile then row-tile order
(R171). -/
def chunkElems (d : List Byte) (batch c j ix : Nat) : List (Nat × Nat) :=
  let rows := layM d * batch
  if layOp d ≤ 2 then
    let rt := max 1 ((rows + 3) / 4)
    let tiles := tilesFor (layN d) c j * ((rows + 3) / 4)
    let mine := (List.range 16).map (16 * ix + ·) |>.filter (· < tiles)
    (mine.map fun t =>
      let ct := j + c * (t / rt)
      let r0 := 4 * (t % rt)
      ((List.range 16).map fun e => (r0 + e / 4, 4 * ct + e % 4)).filter fun e => e.1 < rows && e.2 < layN d).flatten
  else
    ((List.range 1024).map (1024 * ix + ·) |>.filter (· < layElems d batch)).map fun e =>
      (e / max 1 (layN d), e % max 1 (layN d))

/-- A marver's place moved past layers in which it has no chunk left; `fuel` is the number of layers. -/
def normPos (p : List Byte) (batch c j : Nat) : Nat → Nat × Nat → Nat × Nat
  | 0, q => q
  | f + 1, q =>
    if q.1 < parLayers p ∧ chunkCount (parLayer p q.1) batch c j ≤ q.2 then normPos p batch c j f (q.1 + 1, 0) else q

/-- The j-th marver's next chunk; its layer is the number of layers when nothing is left. -/
def State.jobPos (s : State) (jb : Job) (j : Nat) : Nat × Nat :=
  let p := s.jobImage jb
  normPos p jb.batch (s.jobMarvers jb).length j (parLayers p) (jb.pos.getD j (0, 0))

/-- A layer has completed on every marver of the placement (R172). -/
def State.layerComplete (s : State) (jb : Job) (l : Nat) : Bool :=
  (List.range (s.jobMarvers jb).length).all fun j => decide (l < (s.jobPos jb j).1)

/-- Every layer of the job has completed. -/
def State.jobAll (s : State) (jb : Job) : Bool :=
  (List.range (s.jobMarvers jb).length).all fun j => decide (parLayers (s.jobImage jb) ≤ (s.jobPos jb j).1)

/-! ### Completion (R174) -/

/-- RESULT of a job (R174). -/
def State.jobResult (s : State) (j : Job) : Nat :=
  let ticks := match j.first with
    | some f => min 0xFFFF ((s.tickno + 2 ^ 48 - f) % 2 ^ 48 + 1)
    | none => 0
  j.place % 4 + (if j.restarted then 256 else 0) + ticks * 65536

/-- The job of a descriptor. -/
def State.jobOf (s : State) (sq seq : Nat) : Option Job := s.jobs.find? fun j => j.sq = sq && j.seq = seq

/-- No marver has the job selected (Table 6.11). -/
def unselect (s : State) (j : Job) : State :=
  (List.range 16).foldl (fun s m => if (s.mrvAt m).job = some (j.sq, j.seq) then s.clearJob m else s) s

/-- The job is gone: its chunks are dropped and its slot's JOBS falls. -/
def dropJob (s : State) (j : Job) : State :=
  let s := unselect s j
  let mrv := s.mrv.map fun x => match x.chunk with
    | some c => if c.sq = j.sq && c.seq = j.seq then { x with chunk := none } else x
    | none => x
  let s := { s with jobs := s.jobs.filter fun k => !(k.sq = j.sq && k.seq = j.seq), mrv := mrv }
  s.put (Fld.MRV_SLOT_FLAGS_JOBS j.slot) (s.get (Fld.MRV_SLOT_FLAGS_JOBS j.slot) - 1)

/-- The job ends with a status. -/
def endJob (s : State) (j : Job) (status detail : Nat) : State :=
  let r := s.jobResult j
  let s := dropJob s j
  match s.findDesc j.sq j.seq with
  | some d => s.complete d status detail r
  | none => s

/-- What the output region of a job holds becomes unspecified: free bytes (Table 3.7, R174, R176; log entry 3). -/
def freeOutput (s : State) (j : Job) : State :=
  match s.findDesc j.sq j.seq with
  | none => s
  | some d =>
    let n := parOut (s.jobImage j)
    let stride := if d.pay 60 4 = 0 then n else d.pay 60 4
    (List.range j.batch).foldl (fun s b =>
      let (l, s) := s.freeBytes n
      let a := d.pay 48 8 + b * stride
      if bitOf (d.pay 35 1) 1 then (if s.canDma then { s with hostMem := writeBytes s.hostMem a l } else s)
      else if s.memIn a l.length then memWrite s a l else s) s

/-- The job ends before its point of no return. -/
def stopJob (s : State) (j : Job) (status detail : Nat) : State := endJob (freeOutput s j) j status detail

/-- A slice runs on a marver of the job's placement. -/
def State.jobInSlice (s : State) (j : Job) : Bool := (s.jobMarvers j).any fun m => (s.mrvAt m).slice.isSome

/-- An aborted job stops at its next slice boundary: it runs no further chunk, and ends once no slice runs on its marvers (Table
3.7). -/
def jobStops (s : State) : State :=
  (s.jobs.filter fun j => j.stop.isSome && !s.jobInSlice j).foldl (fun s j => match j.stop with
    | some (status, detail) => stopJob s j status detail
    | none => s) s

/-- DETAIL for UNIT_FENCED and OVERRUN: the marver and the layer (R174). -/
def jobDetail (m l : Nat) : Nat := m * 65536 + l % 1024

/-- The bytes of a job's output, one entry of OUT_BYTES for each batch item (R161). -/
def State.jobOutput (s : State) (j : Job) : List (List Byte) :=
  let p := s.jobImage j
  let l := parLayers p - 1
  let d := parLayer p l
  let per := layM d * layN d
  let out := j.outs.getD l []
  (List.range j.batch).map fun b =>
    slice (packCodes (ofmtWidth (layOfmt d)) ((List.range per).map fun i => sget 0 out (b * per + i))) 0 (parOut p)

/-- A job whose layers are complete writes its last output: its point of no return (R174). An output in host memory that
cannot be reached waits in a retry episode (R69), one in external memory for MEM READY (R449); one above USABLE fails (R451). -/
def finishJob (s : State) (j : Job) : State :=
  match s.findDesc j.sq j.seq with
  | none => dropJob s j
  | some d =>
    let base := d.pay 48 8
    let stride := if d.pay 60 4 = 0 then parOut (s.jobImage j) else d.pay 60 4
    let outs := s.jobOutput j
    if bitOf (d.pay 35 1) 1 then
      if !s.canDma then s.hostEpisode d
      else
        let (_, s) := s.episodeDone d
        endJob { s with hostMem := outs.zipIdx.foldl (fun m e => writeBytes m (base + e.2 * stride) e.1) s.hostMem } j stOK 0
    else if !s.ready 16 then s
    else if outs.zipIdx.all fun e => s.memIn (base + e.2 * stride) e.1.length then
      endJob (outs.zipIdx.foldl (fun s e => memWrite s (base + e.2 * stride) e.1) s) j stOK 0
    else
      let s := outs.zipIdx.foldl (fun s e => memWrite s (base + e.2 * stride) e.1) s
      (dropJob s j).rangeFail d

/-- The input bytes of a job from LPDDR5X; none where part lies above USABLE (R169, R451). -/
def State.jobInput (s : State) (p : List Byte) (d : Desc) : Option (List Byte) :=
  let stride := if d.pay 56 4 = 0 then parIn p else d.pay 56 4
  let at_ (b : Nat) := d.pay 40 8 + b * stride
  if (List.range (d.pay 34 1)).all fun b => s.memIn (at_ b) (parIn p) then
    some ((List.range (d.pay 34 1)).map fun b => bytesAt s.mem.ram (at_ b) (parIn p)).flatten
  else none

/-- External memory can give a job's input now (R449, R458). -/
def State.inputAnswers (s : State) (p : List Byte) (d : Desc) : Bool :=
  let stride := if d.pay 56 4 = 0 then parIn p else d.pay 56 4
  s.ready 16 && (List.range (d.pay 34 1)).all fun b => s.memAnswers (d.pay 40 8 + b * stride) (parIn p)

/-- A stream job starts on a placement with its input (R169). -/
def startJob (s : State) (d : Desc) (place : Nat) (bytes : List Byte) : State :=
  let slot := d.pay 32 1
  let j : Job :=
    { sq := d.sq, seq := d.seq, slot := slot, prio := d.pay 33 1 % 4, batch := d.pay 34 1
      maxTicks := d.pay 36 2, input := bytes, place := place, at_ := s.dtime, first := none
      restarted := false, restart := false, reread := false, pos := [], outs := [], stop := none }
  let s := (s.begin d).incSat (Fld.MRV_SLOT_FLAGS_JOBS slot)
  { s with jobs := insertBy (fun k => s.orderOf k.sq k.seq) j s.jobs }

/-- A job that restarted and whose input lies in host memory reads it again (R176). -/
def inferReread (s : State) (sq seq : Nat) (input : HostRead) : State :=
  match s.jobOf sq seq, s.findDesc sq seq with
  | some j, some d =>
    if !j.reread then s
    else s.withHost d input fun _ l s =>
      let new := { j with reread := false, input := slice l 0 (j.batch * parIn (s.jobImage j)) }
      { s with jobs := s.jobs.map fun (k : Job) => if k.sq = j.sq && k.seq = j.seq then new else k }
  | _, _ => s

/-- INFER: a dispatched INFER descriptor selects a placement and starts a stream job (R169, R170); one whose job restarted reads its
input again (R176). `input` is what its reads of host memory give, when its input lies there. One that needs external memory waits for
MEM READY (R449). -/
def execInfer (sq : Fin 64) (seq : BitVec 16) (input : HostRead) (s : State) : Host.Outcome State Fault Refusal :=
  act s fun s =>
    match s.takeDispatched sq seq.toNat 0x02 with
    | none => inferReread s sq seq.toNat input
    | some d =>
      match s.slotAt (d.pay 32 1) with
      | none => s.badDesc d 32
      | some p =>
        let batch := d.pay 34 1
        let req := d.pay 38 1
        if parKind p.image ≠ 0 then s.badDesc d 32
        else if batch = 0 ∨ parMaxBatch p.image < batch then s.badDesc d 34
        else if req ≠ 0xFF ∧ parPlaces p.image ≤ req then s.badDesc d 38
        else match s.selectPlace p.image req with
          | .inr (some m) => s.complete d stUnitFenced (jobDetail m 0) 0
          | .inr none => s.complete d stBadSequence 0 0
          | .inl place =>
            if bitOf (d.pay 35 1) 0 then
              s.withHost d input fun d l s => startJob s d place (slice l 0 (batch * parIn p.image))
            else if !s.inputAnswers p.image d then s
            else match s.jobInput p.image d with
              | none => (s.memRefuse (d.pay 40 8)).rangeFail d
              | some bytes => startJob s d place bytes

/-! ### Slices (R172, R173) -/

/-- The jobs a marver may run in a slice that started at `at_`, ranked by PRIO and then by dispatch order (R173). -/
def State.ranked (s : State) (m : Nat) (at_ : BitVec 64) : List Job :=
  let mine := s.jobs.filter fun j => !j.restart && j.stop.isNone && decide (j.at_ < at_) && s.jobUses j m
  ([3, 2, 1, 0].map fun q => mine.filter fun j => j.prio = q).flatten

/-- The place of a marver among a job's marvers. -/
def State.jobIndex (s : State) (j : Job) (m : Nat) : Nat := (s.jobMarvers j).findIdx (· = m)

/-- The next chunk of a job on a marver, if it can start now: its layers' inputs are complete, its operands can be had, and it ends by
the deadline (R172, R449). -/
def State.chunkReady (s : State) (j : Job) (m deadline : Nat) : Option Chunk :=
  let p := s.jobImage j
  let (l, ix) := s.jobPos j (s.jobIndex j m)
  let d := parLayer p l
  let ready (src : Nat) : Bool := src = 0xFFFF || s.layerComplete j src
  let operands := !j.reread && (s.jobResident j || s.copyAnswers j)
  if operands && l < parLayers p && ready (layIn d) && (layOp d ≠ 3 || ready (layIn2 d)) &&
      s.edgeOfs + s.tclkFor m (chunkCycles d j.batch ix) ≤ deadline then some ⟨j.sq, j.seq, l, ix⟩
  else none

/-- An idle marver in a slice starts the first chunk that can start; one of another parison than that of its previous chunk reloads the
lookup tables first (R173). -/
def marverNext (s : State) (m : Nat) : State :=
  let x := s.mrvAt m
  match x.slice, x.chunk with
  | some (i, at_), none =>
    if s.fenced m then s
    else match (s.ranked m at_).findSome? fun j => (s.chunkReady j m (actDeadline s.plan i)).map fun c => (j, c) with
      | none => s
      | some (j, c) =>
        let s := s.setMrv m { x with chunk := some c, job := some (j.sq, j.seq) }
        let p := s.jobImage j
        let s := s.useTables m j.slot (slice (s.jobParams j) (fieldAt p 40 4) (1024 * parLuts p))
        let mark (k : Job) : Job :=
          if k.sq = j.sq && k.seq = j.seq && k.first.isNone then { k with first := some s.tickno } else k
        let s := { s with jobs := s.jobs.map mark }
        let s := (s.putB (Fld.MRV_JOB_JOB_VALID m) true).put (Fld.MRV_JOB_SLOT m) j.slot
        (s.put (Fld.MRV_JOB_PLACE m) j.place).put (Fld.MRV_JOB_LAYER m) c.layer
  | _, _ => s

/-- Every idle marver in a slice is offered a chunk. -/
def marversNext (s : State) : State := (List.range 16).foldl marverNext s

/-- Whether action i's slices still run: a marver of it was stopped by an error, or a running chunk belongs to a job placed on
a marver of it. -/
def State.sliceBusy (s : State) (i : Nat) : Bool :=
  let mine := (List.range 16).filter fun m => match (s.mrvAt m).slice with
    | some (k, _) => k = i
    | none => false
  mine.any s.fenced || (List.range 16).any fun m => match (s.mrvAt m).chunk with
    | some c => mine.contains m || (match s.jobOf c.sq c.seq with
      | some j => mine.any fun k => s.jobUses j k
      | none => false)
    | none => false

/-- The slice of marver m ends. -/
def endSlice (s : State) (m : Nat) : State :=
  let s := s.clearJob m
  s.setMrv m { s.mrvAt m with slice := none, chunk := none }

/-- The slices of action i end. -/
def sliceEnd (s : State) (i : Nat) : State :=
  (List.range 16).foldl (fun s m => match (s.mrvAt m).slice with
    | some (k, _) => if k = i then endSlice s m else s
    | none => s) s

/-- Slices in which no chunk runs and none can start end, and their actions complete (R172). -/
def slicesEnd (s : State) : State :=
  jobStops ((s.actionsOf 8).foldl (fun s i => if s.live i && !s.sliceBusy i then actionDone (sliceEnd s i) i else s) s)

/-- R174: a job with a chunk that cannot fit the action's window even from its START ends with OVERRUN, with the side effects of
ABORTED. -/
def misfits (s : State) (i m : Nat) : State :=
  (s.jobs.filter fun j => s.jobUses j m && !j.restart && j.stop.isNone).foldl (fun s j =>
    let p := s.jobImage j
    let c := (s.jobMarvers j).length
    let k := s.jobIndex j m
    match (List.range (parLayers p)).find? fun l =>
        decide (0 < chunkCount (parLayer p l) j.batch c k) &&
        decide (actDeadline s.plan i < actStart s.plan i + s.tclkFor m (chunkCycles (parLayer p l) j.batch 0)) with
    | some l => stopJob s j stOverrun (jobDetail m l)
    | none => s) s

/-- R176: at a SLICE start a job whose placement lost a marver restarts from layer 0 on a new placement, or ends with
UNIT_FENCED. It rereads its input; from host memory with an INFER of its own, from external memory once that is ready. -/
def jobRestarts (s : State) : State :=
  (s.jobs.filter (·.restart)).foldl (fun s j =>
    match s.findDesc j.sq j.seq with
    | none => dropJob s j
    | some d =>
      let p := s.jobImage j
      match s.selectPlace p (d.pay 38 1) with
      | .inr x => stopJob s j stUnitFenced (jobDetail (x.getD (((s.jobMarvers j).find? s.fenced).getD 0)) 0)
      | .inl q =>
        let host := bitOf (d.pay 35 1) 0
        if !host && !s.inputAnswers p d then s
        else match if host then some j.input else s.jobInput p d with
          | none => (dropJob (freeOutput (s.memRefuse (d.pay 40 8)) j) j).rangeFail d
          | some input =>
            let s := unselect (freeOutput s j) j
            let new := { j with
              place := q, restart := false, restarted := true, reread := host, pos := [], outs := [], input := input }
            { s with jobs := s.jobs.map fun (k : Job) => if k.sq = j.sq && k.seq = j.seq then new else k }) s

/-- At a SLICE start a job whose parison's copy no longer lies below USABLE fails (R451). -/
def copyRefused (s : State) : State :=
  (s.jobs.filter fun j => !s.jobCopyIn j).foldl (fun s j =>
    let s := s.memRefuse (((s.slotAt j.slot).map (·.dest)).getD 0)
    match s.findDesc j.sq j.seq with
    | some d => (dropJob (freeOutput s j) j).rangeFail d
    | none => dropJob s j) s

/-- SLICE_START: a SLICE action starts; jobs that must restart do, and each targeted unfenced marver selects its job and starts
a chunk (R173, R174, R176). -/
def execSliceStart (i : Fin 64) (s : State) : Host.Outcome State Fault Refusal :=
  act s fun s =>
    if !s.mayStart i 8 then s
    else
      let s := copyRefused (jobRestarts (s.startAction i))
      let ms := (bitList 16 (actTarget s.plan i)).filter fun m => !s.fenced m
      let s := ms.foldl (fun s m => misfits s i m) s
      let s := (s.jobs.filter fun j => j.stop.isNone && s.jobAll j).foldl finishJob s
      let s := ms.foldl (fun s m => s.setMrv m { s.mrvAt m with slice := some (i, s.dtime), chunk := none }) s
      slicesEnd (marversNext s)

/-- The outputs of a chunk are stored and its marver moves on (R171). -/
def chunkResult (s : State) (m : Nat) (j : Job) (c : Chunk) : State :=
  let p := s.jobImage j
  let d := parLayer p c.layer
  let k := s.jobIndex j m
  let n := (s.jobMarvers j).length
  let env : LayerEnv := ⟨p, s.jobParams j, (s.mrvAt m).tableBytes, fun b => slice j.input (b * parIn p) (parIn p), fun l i => sget 0 (j.outs.getD l []) i⟩
  let outs := j.outs ++ List.replicate (parLayers p - j.outs.length) []
  let es := chunkElems d j.batch n k c.ix
  let vals := es.map fun e => (e.1 * layN d + e.2, layerOut env c.layer e.1 e.2)
  let clips := (vals.map fun v => v.2.2).sum
  let (store, s) := if (s.mrvAt m).dirty then
      vals.foldl (fun a v => let (x, s) := a.2.free (2 ^ 32); (sset 0 a.1 v.1 x, s)) (outs.getD c.layer [], s)
    else (vals.foldl (fun a v => sset 0 a v.1 v.2.1) (outs.getD c.layer []), s)
  let pos := (j.pos ++ List.replicate (n - j.pos.length) (0, 0)).set k (c.layer, c.ix + 1)
  let new := { j with outs := outs.set c.layer store, pos := pos }
  let s := { s with jobs := s.jobs.map fun (x : Job) => if x.sq = j.sq && x.seq = j.seq then new else x }
  s.accSat m clips

/-- CHUNK_DONE: the chunk that a marver runs ends; a job whose last chunk this is reaches its point of no return; marvers in
slices start their next chunks (R172, R174). A chunk of a job that must restart or that stops gives nothing (R176, Table 3.7).
`corrected` is how many single-bit errors its reads found (R149); only a chunk of a MATMUL or CONV layer keeps arrays active (Table
5.15). -/
def execChunkDone (m : Fin 16) (corrected : Nat) (s : State) : Host.Outcome State Fault Refusal :=
  act s fun s =>
    match (s.mrvAt m).chunk with
    | none => s
    | some c =>
      let s := (s.setMrv m { s.mrvAt m with chunk := none }).eccCorr m corrected
      let s := match s.jobOf c.sq c.seq with
        | none => s
        | some j =>
          let l := parLayer (s.jobImage j) c.layer
          let s := if layOp l ≤ 2 then s.incWrap (Fld.MRV_BUSYCYC_BUSYCYC m) (chunkCycles l j.batch c.ix) else s
          if j.restart || j.stop.isSome then s
          else
            let s := chunkResult s m j c
            match s.jobOf c.sq c.seq with
            | some j => if s.jobAll j then finishJob s j else s
            | none => s
      slicesEnd (marversNext s)

/-- At a tick edge no slice is left (R172). -/
def jobTickEdge (s : State) : State :=
  let s := (List.range 16).foldl endSlice s
  jobStops { s with mrv := s.mrv.map fun (x : Mrv) => { x with busy := [] } }

/-- At the end of a tick, in the cycle before its last edge, a job that has used MAXTICKS ends with OVERRUN (R174). -/
def tickEnds (s : State) : State :=
  let late (j : Job) : Bool := decide (j.maxTicks ≠ 0) && match j.first with
    | some f => decide (j.maxTicks ≤ (s.tickno + 2 ^ 48 - f) % 2 ^ 48 + 1)
    | none => false
  if !s.running then s
  else
    let t := (s.jobs.filter late).foldl (fun s j =>
      stopJob s j stOverrun (jobDetail ((s.jobMarvers j).headD 0) (s.jobPos j 0).1)) { s with dtime := s.dtime - 1 }
    { t with dtime := s.dtime }

end Sys2Proof.Machine
end

