-- ==== Sys2Proof/Machine/Load.lean ====
section
/-!
DEFINITION. LOAD descriptors, the signature engine and reheat (chapter 6, R164 to R167, R177 to R180; chapter 21, R500 to
R503).
-/
namespace Sys2Proof.Machine

/-! ### The signature engine (R500, R501) -/

/-- Key slot k is blank, or revoked, as read at the last cold reset (R489, R499). -/
def State.keyBlank (s : State) (k : Nat) : Bool := s.flag (if k = 0 then Fld.FUS_STATUS_BLANK0 else Fld.FUS_STATUS_BLANK1)
def State.keyRevoked (s : State) (k : Nat) : Bool := s.flag (if k = 0 then Fld.FUS_STATUS_REVOKED0 else Fld.FUS_STATUS_REVOKED1)

/-- The 32 bytes of key slot k (Table 21.1). -/
def State.keyHash (s : State) (k : Nat) : List Byte :=
  ((List.range 8).map fun i => leBytes 4 (s.reg (if k = 0 then Reg.FUS_KEYHASH0 i else Reg.FUS_KEYHASH1 i)).toNat).flatten

/-- The reason of R500 for which an image with a body of `n` bytes fails against key slot byte `k`, or none (checks 0x01 to
0x07). -/
def authFails (s : State) (image : List Byte) (n k : Nat) : Option Nat :=
  let trial := s.keyBlank k && !s.flag Fld.FUS_STATUS_PROT_LOCKED
  let key := slice image n 64
  let x := leNat (key.take 32)
  let y := leNat (key.drop 32)
  let r := leNat (slice image (n + 64) 32)
  let q := leNat (slice image (n + 96) 32)
  let body := slice image 0 n
  if 1 < k then some 1
  else if s.keyBlank k && !trial then some 2
  else if s.keyRevoked k then some 3
  else if !trial && sha256Bytes key ≠ s.keyHash k then some 4
  else if p256p ≤ x ∨ p256p ≤ y ∨ !onP256 x y then some 5
  else if r = 0 ∨ p256n ≤ r ∨ q = 0 ∨ p256n ≤ q then some 6
  else if !ecdsaOk x y r q (beNat (sha256Bytes body)) then some 7
  else none

/-- DETAIL of AUTH_FAIL (R500). -/
def authDetail (reason k : Nat) : Nat := reason + k % 2 * 256

/-- A verification fails: FUS_SIGCNT, FUS_LASTAUTH and the interrupt (R500). -/
def authBad (s : State) (reason k : Nat) : State :=
  let s := (s.incSat Fld.FUS_SIGCNT_FAIL).put Fld.FUS_LASTAUTH_REASON reason
  (s.put Fld.FUS_LASTAUTH_SLOT (k % 2)).irqF Fld.FUS_IRQ_STATUS_AUTH_FAIL

/-- Checks 0x01 to 0x07 passed (R500, R501). -/
def authGood (s : State) (k : Nat) : State :=
  let s := s.incSat Fld.FUS_SIGCNT_OK
  if s.keyBlank k && !s.flag Fld.FUS_STATUS_PROT_LOCKED then s.putB Fld.FUS_STATUS_DEVKEY true else s

/-- RESULT[63] of a LOAD that completes with OK (R501). -/
def State.devkeyBit (s : State) (k : Nat) : Nat :=
  if s.keyBlank k && !s.flag Fld.FUS_STATUS_PROT_LOCKED then 2 ^ 63 else 0

/-! ### Plan LOAD (R59, R502) -/

/-- The bank of a plan LOAD is active or armed: the reason of Table 6.5. -/
def State.bankBusy (s : State) (b : Bool) : Option Nat :=
  if s.bankInUse b then some 7 else if s.gaf.swBank = some b then some 8 else none

/-- A bank holds a plan, or nothing valid. -/
def State.setBank (s : State) (b : Bool) (image : List Byte) (valid : Bool) : State :=
  let s := { s with gaf := if b then { s.gaf with bankB := image } else { s.gaf with bankA := image } }
  s.putB (if b then Fld.GAF_STATUS_VALID_B else Fld.GAF_STATUS_VALID_A) valid

/-- Step 2 of R502: the offset of the first bad field for an image of the descriptor's LENGTH. -/
def planHeadBad (p : List Byte) (length : Nat) : Option Nat :=
  let bad (c : Bool) (o : Nat) : Option Nat := if c then some o else none
  (List.filterMap id
    [bad (decide (fieldAt p 0 4 ≠ 0x4C505447)) 0, bad (decide (fieldAt p 4 2 ≠ 1)) 4,
     bad (decide (fieldAt p 40 4 ≠ 64 + 16 * planCount p) || decide (length ≠ fieldAt p 40 4 + 128) || decide (1216 < length))
       40]).head?

/-- A plan LOAD fails and leaves its bank invalid, unless the bank has become active or armed (R59). -/
def planFail (s : State) (d : Desc) (status detail : Nat) : State :=
  let b := decide (d.pay 32 1 = 1)
  let s := if (s.bankBusy b).isSome then s else s.setBank b [] false
  s.complete d status detail 0

/-- A checked image waits for the signature engine (R500). -/
def State.queueSig (s : State) (d : Desc) (image : List Byte) : State :=
  let s := s.begin d
  { s with sig := s.sig ++ [⟨d.sq, d.seq, image, .waits⟩] }

/-- LOAD_PLAN: a dispatched LOAD of a plan passes steps 1 and 2 of R502 and waits for the signature engine. `image` is what its
read of host memory gives. -/
def execLoadPlan (sq : Fin 64) (seq : BitVec 16) (image : HostRead) (s : State) : Host.Outcome State Fault Refusal :=
  act s fun s =>
    match s.takeDispatched sq seq.toNat 0x03 with
    | none => s
    | some d =>
      if 1 < d.pay 32 1 then s
      else match s.bankBusy (decide (d.pay 32 1 = 1)) with
        | some r => s.complete d stBadSequence r 0
        | none => s.withHost d image fun d l s =>
          let img := slice l 0 (min 1216 (d.pay 48 4))
          match planHeadBad img (d.pay 48 4) with
          | some o => planFail s d stBadDescriptor o
          | none => s.queueSig d img

/-- Steps 3 and 4 of a plan LOAD (R502, R59). -/
def planVerify (s : State) (d : Desc) (img : List Byte) : State :=
  let b := decide (d.pay 32 1 = 1)
  let k := fieldAt img 36 1
  match authFails s img (fieldAt img 40 4) k with
  | some r => planFail (authBad s r k) d stAuthFail (authDetail r k)
  | none =>
    let s := authGood s k
    match s.bankBusy b with
    | some r => s.complete d stBadSequence r 0
    | none => match planBad img with
      | some o => planFail s d stBadDescriptor o
      | none => (s.setBank b (img.take (64 + 16 * planCount img + 128)) true).complete d stOK 0 (s.devkeyBit k)

/-! ### Parison LOAD (R166, R167) -/

/-- The marvers that a parison's placements name. -/
def parMarvers (p : List Byte) : Nat := (placements p).foldl (fun m q => m ||| placeMarvers q.2) 0

/-- Marvers pinned in the active plan or in reheat. -/
def State.heldMarvers (s : State) : Nat :=
  (List.range 16).foldl (fun m i => if (s.mrvAt i).reheat.isSome then orBit m i else m) s.pinnedMask

/-- Rules 0x01 and 0x02 of Table 6.5 for a slot that takes `new`, if any. -/
def State.slotBusy (s : State) (slot : Nat) (new : Option (List Byte)) : Option Nat :=
  let old := (s.slotAt slot).map (·.image)
  let used := (new.map parMarvers).getD 0 ||| (old.map parMarvers).getD 0
  if s.get (Fld.MRV_SLOT_FLAGS_JOBS slot) ≠ 0 then some 1
  else if used &&& s.heldMarvers ≠ 0 then some 2
  else none

/-- The resident placements of a parison on marver m. -/
def residentOn (p : List Byte) (m : Nat) : List (List Byte) :=
  ((placements p).map (·.2)).filter fun q => placeResident q && bitOf (placeMarvers q) m

/-- Two regions overlap. -/
def overlap (a b : List Byte) : Bool :=
  decide (0 < placeLen a) && decide (0 < placeLen b) && decide (placeBase a < placeBase b + placeLen b) &&
    decide (placeBase b < placeBase a + placeLen a)

/-- Table 6.5 for a parison with this DEST in this slot: the first rule broken (R166 step 5). -/
def State.residency (s : State) (slot dest : Nat) (img : List Byte) : Option Nat :=
  match s.slotBusy slot (some img) with
  | some r => some r
  | none =>
    let others := (s.validSlots.filter fun e => e.1 ≠ slot).map (·.2)
    let ms := List.range 16
    let clash (f : Nat → Par → Bool) : Bool := ms.any fun m => others.any fun o => f m o
    let pins := decide (parKind img ≠ 0)
    let arrays (q : List Byte) : Nat := placeArrays q false ||| placeArrays q true
    if clash fun m o => (residentOn img m).any fun a => (residentOn o.image m).any (overlap a) then some 3
    else if pins && clash fun m o => decide (parKind o.image ≠ 0) &&
        (residentOn img m).any fun a => (residentOn o.image m).any fun b => arrays a &&& arrays b ≠ 0 then some 4
    else if pins && clash fun m o => decide (parKind o.image ≠ 0) && !(residentOn img m).isEmpty &&
        !(residentOn o.image m).isEmpty &&
        (List.range (min (parLuts img) (parLuts o.image))).any fun i =>
          slice (parTables img) (1024 * i) 1024 ≠ slice (parTables o.image) (1024 * i) 1024 then some 5
    else if dest = 0 && ms.any fun m => !(residentOn img m).isEmpty &&
        decide (2 ≤ (others.filter fun o => o.dest = 0 && !(residentOn o.image m).isEmpty).length) then some 6
    else none

/-- LOAD_PARISON: a dispatched LOAD of a parison passes step 1 of R166 and waits for the signature engine. -/
def execLoadParison (sq : Fin 64) (seq : BitVec 16) (image : HostRead) (s : State) : Host.Outcome State Fault Refusal :=
  act s fun s =>
    match s.takeDispatched sq seq.toNat 0x03 with
    | none => s
    | some d =>
      if d.pay 32 1 ≠ 2 then s
      else s.withHost d image fun d l s =>
        let img := slice l 0 (d.pay 48 4)
        match parHeadBad img (d.pay 48 4) with
        | some o => s.complete d stBadDescriptor o 0
        | none => s.queueSig d img

/-- The resident region of placement q of an image is written on a marver, and with a pinned parison its lookup tables; those of a stream
parison are put in place when a job runs it (R163, R173). The region's contents are trusted again once no other slot has a region there
(log entry 14). -/
def writeRegion (s : State) (slot : Nat) (img : List Byte) (q : Nat) (m : Nat) : State :=
  let pl := parPlace img q
  let l := (List.range (placeLen pl)).map (Config.resident img q)
  let shared := s.validSlots.any fun e => decide (e.1 ≠ slot) && !(residentOn e.2.image m).isEmpty
  let x := (s.mrvAt m).write (placeBase pl) l
  let x := if parKind img = 0 then x else { x.setTables (parTables img) with prev := none }
  s.setMrv m { x with dirty := x.dirty && shared }

/-- The (placement, marver) pairs with a resident region of an image. -/
def regionsOf (img : List Byte) : List (Nat × Nat) :=
  ((placements img).map fun q => if placeResident q.2 then (bitList 16 (placeMarvers q.2)).map fun m => (q.1, m) else []).flatten

/-- R167 steps 2 to 4: the copy and the resident regions are written, then the slot is valid with the new PARISON_ID: the point of no
return. -/
def parWrite (s : State) (d : Desc) (img : List Byte) : State :=
  let slot := d.pay 33 1
  let dest := d.pay 56 8
  if dest ≠ 0 ∧ !s.memIn dest img.length then (memWrite s dest img).rangeFail d
  else
    let s := if dest = 0 then s else memWrite s dest img
    let s := (regionsOf img).foldl (fun s r => writeRegion s slot img r.1 r.2) s
    (s.setSlot slot (some ⟨img, dest⟩)).complete d stOK 0 (parId img + s.devkeyBit (parKey img))

/-- The writes of a LOAD can be made now: external memory is ready for its copy (R449), and none of its regions is on a marver that a
running SLICE action targets (R167 step 3). -/
def State.mayWrite (s : State) (d : Desc) (img : List Byte) : Bool :=
  (decide (d.pay 56 8 = 0) || s.ready 16) && (regionsOf img).all fun r => (s.mrvAt r.2).slice.isNone

/-- A LOAD whose second pass has ended makes its writes as soon as it can; it ends in the cycle after (R167; log entry 12). -/
def loadWrites (s : State) : State :=
  (s.sig.filter (·.stage = .writes)).foldl (fun s j => match s.findDesc j.sq j.seq with
    | none => { s with sig := s.sig.filter (· ≠ j) }
    | some d => if s.mayWrite d j.image then parWrite { s with sig := s.sig.filter (· ≠ j) } d j.image else s) s

/-- What a LOAD's copy and regions hold once it ends in or after its second read, from which it writes, is not stated: free bytes (R503,
Table 3.7; log entry 3). -/
def freeWrites (s : State) (d : Desc) (img : List Byte) : State :=
  let dest := d.pay 56 8
  let s := if dest = 0 then s
    else
      let (l, s) := s.freeBytes img.length
      if s.memIn dest l.length then memWrite s dest l else s
  (regionsOf img).foldl (fun s r =>
    let (l, s) := s.freeBytes (placeLen (parPlace img r.1))
    s.setMrv r.2 { (s.mrvAt r.2).write (placeBase (parPlace img r.1)) l with prev := none }) s

/-- An image that waits for the engine is at another stage. -/
def State.setStage (s : State) (j : SigJob) (image : List Byte) (stage : SigStage) : State :=
  { s with sig := s.sig.replace j { j with image := image, stage := stage } }

/-- An image is gone from the engine. -/
def State.dropSig (s : State) (j : SigJob) : State := { s with sig := s.sig.erase j }

/-- Steps 2 to 5 of R166, and step 1 of R167: the slot is invalid, and the image is to be read a second time (R503). -/
def parVerify (s : State) (d : Desc) (j : SigJob) : State :=
  let img := j.image
  let k := parKey img
  let slot := d.pay 33 1
  let dest := d.pay 56 8
  match authFails s img (parBody img) k with
  | some r => (authBad (s.dropSig j) r k).complete d stAuthFail (authDetail r k) 0
  | none =>
    let s := authGood s k
    match parContentBad img with
    | some o => (s.dropSig j).complete d stBadDescriptor o 0
    | none =>
      if parKind img = 0 ∧ dest = 0 then (s.dropSig j).complete d stBadDescriptor 56 0
      else if dest ≠ 0 ∧ !s.ready 16 then (s.dropSig j).complete d stNotReady 0 0
      else match s.residency slot dest img with
        | some r => (s.dropSig j).complete d stBadSequence r 0
        | none => (s.setSlot slot none).setStage j img .second

/-- The second pass of a LOAD: a digest that differs fails with reason CHANGED; else its bytes are what is written (R503). -/
def parSecond (s : State) (d : Desc) (j : SigJob) (second : List Byte) : State :=
  let n := parBody j.image
  let k := parKey j.image
  if slice second 0 n ≠ slice j.image 0 n then (authBad (freeWrites (s.dropSig j) d j.image) 8 k).complete d stAuthFail (authDetail 8 k) 0
  else s.setStage j (slice second 0 j.image.length) .writes

/-- UNLOAD_SLOT: a dispatched LOAD with TARGET 0x03 makes its slot invalid (R167). -/
def execUnloadSlot (sq : Fin 64) (seq : BitVec 16) (s : State) : Host.Outcome State Fault Refusal :=
  act s fun s =>
    match s.takeDispatched sq seq.toNat 0x03 with
    | none => s
    | some d =>
      if d.pay 32 1 ≠ 3 then s
      else match s.slotBusy (d.pay 33 1) none with
        | some r => s.complete d stBadSequence r 0
        | none => (s.setSlot (d.pay 33 1) none).complete d stOK 0 0

/-! ### Reheat (R177 to R180) -/

/-- The valid slots with a resident region on marver m. -/
def State.residents (s : State) (m : Nat) : List (Nat × Par) :=
  s.validSlots.filter fun e => !(residentOn e.2.image m).isEmpty

/-- The supplied images of a REHEAT that its host reads give, in order; none while one cannot be read. -/
def reheatImages (d : Desc) (i0 i1 : List Byte) : List (List Byte) :=
  (if d.pay 40 8 = 0 then [] else [slice i0 0 (d.pay 56 4)]) ++ (if d.pay 48 8 = 0 then [] else [slice i1 0 (d.pay 60 4)])

/-- A REHEAT with its images starts SCRUB, or is refused (R177, R178). -/
def reheatStart (s : State) (d : Desc) (images : List (List Byte)) : State :=
  let m := d.pay 32 1 % 16
  let missing := (s.residents m).any fun e => e.2.dest = 0 && !images.any fun i => parId i = parId e.2.image
  if !s.fenced m || (s.mrvAt m).reheat.isSome || missing then s.complete d stBadSequence 0 0
  else
    let s := (s.begin d).setMrv m { s.mrvAt m with reheat := some ⟨d.sq, d.seq, images, 0⟩ }
    let s := (s.put (Fld.MRV_RHST_PHASE m) 1).put (Fld.MRV_RHST_RELOAD_KIB m) 0
    { s with sig := s.sig ++ images.map fun i => ⟨d.sq, d.seq, i, .waits⟩ }

/-- REHEAT: a dispatched REHEAT descriptor starts the reheat of a fenced marver; `img0` and `img1` are what its reads of SRC0 and
SRC1 give (R177, R178). -/
def execReheat (sq : Fin 64) (seq : BitVec 16) (img0 img1 : HostRead) (s : State) : Host.Outcome State Fault Refusal :=
  act s fun s =>
    match s.takeDispatched sq seq.toNat 0x0D with
    | none => s
    | some d =>
      let m := d.pay 32 1 % 16
      if !s.fenced m || (s.mrvAt m).reheat.isSome then s.complete d stBadSequence 0 0
      else
        let two (d : Desc) (l0 : List Byte) (s : State) : State :=
          if d.pay 48 8 = 0 then reheatStart s d (reheatImages d l0 [])
          else s.withHost d img1 fun d l1 s => reheatStart s d (reheatImages d l0 l1)
        if d.pay 40 8 = 0 then two d [] s else s.withHost d img0 two

/-- REHEAT_SCRUB_DONE: the SCRUB phase ends with every SRAM word and table entry zero, and RELOAD begins; `fail` is the word in which an uncorrectable error or a mismatch
was found, which ends the reheat (R178). -/
def execReheatScrubDone (m : Fin 16) (fail : Option (BitVec 18)) (s : State) : Host.Outcome State Fault Refusal :=
  act s fun s =>
    if s.rhPhase m ≠ 1 || s.halted then s
    else
      match fail with
      | some w => reheatEnd s m stUnitFenced (w.toNat * 8)
      | none => (s.setMrv m { s.mrvAt m with sram := [], flaws := [], tables := [], prev := none, dirty := false }).put (Fld.MRV_RHST_PHASE m) 2

/-- One slot's region on marver m is reloaded with the slot's tables, from its copy or from the supplied image whose PARISON_ID matches
(R178); a source that differs from the slot's image leaves the marver's contents untrusted (log entry 14). -/
def reloadSlot (s : State) (m : Nat) (images : List (List Byte)) (e : Nat × Par) : State :=
  let (img, s) := if e.2.dest = 0 then ((images.find? fun i => parId i = parId e.2.image).getD e.2.image, s)
    else memRead s e.2.dest e.2.image.length
  (placements e.2.image).foldl (fun s q =>
    if placeResident q.2 && bitOf (placeMarvers q.2) m then
      let l := (List.range (placeLen q.2)).map (Config.resident img q.1)
      let x := ((s.mrvAt m).write (placeBase q.2) l).setTables (slice img (fieldAt e.2.image 40 4) (1024 * parLuts e.2.image))
      s.setMrv m { x with
        prev := none, dirty := x.dirty || decide (img ≠ e.2.image)
        reheat := x.reheat.map fun r => { r with bytes := r.bytes + placeLen q.2 } }
    else s) s

/-- REHEAT_RELOAD_DONE: once the supplied images are verified and every region is reloaded, the marver waits for a switch edge
(R178). It waits for external memory while a copy is needed and MEM READY is clear (R449). -/
def execReheatReloadDone (m : Fin 16) (s : State) : Host.Outcome State Fault Refusal :=
  act s fun s =>
    match (s.mrvAt m).reheat with
    | none => s
    | some r =>
      if s.halted ∨ s.rhPhase m ≠ 2 ∨ (s.sig.any fun j => j.sq = r.sq && j.seq = r.seq) then s
      else if (s.residents m).any (fun e => decide (e.2.dest ≠ 0) && !s.memAnswers e.2.dest e.2.image.length) then s
      else
        let s := (s.residents m).foldl (fun s e => reloadSlot s m r.images e) s
        let n := (((s.mrvAt m).reheat.map (·.bytes)).getD 0 + 1023) / 1024
        (s.put (Fld.MRV_RHST_RELOAD_KIB m) (min 0xFFFF n)).put (Fld.MRV_RHST_PHASE m) 3

/-- A supplied image of a REHEAT is verified (R166 steps 1 to 3) and is to be read a second time (R503); a failure ends the reheat
(R180). -/
def reheatVerify (s : State) (d : Desc) (j : SigJob) : State :=
  let img := j.image
  let k := parKey img
  let fail (s : State) (st detail : Nat) : State :=
    reheatEnd { s with sig := s.sig.filter fun j => !(j.sq = d.sq && j.seq = d.seq) } (d.pay 32 1 % 16) st detail
  match parHeadBad img img.length with
  | some o => fail s stBadDescriptor o
  | none => match authFails s img (parBody img) k with
    | some r => fail (authBad s r k) stAuthFail (authDetail r k)
    | none =>
      let s := authGood s k
      match parContentBad img with
      | some o => fail s stBadDescriptor o
      | none => s.setStage j img .second

/-- The second pass over a supplied image of a REHEAT (R503). -/
def reheatSecond (s : State) (d : Desc) (j : SigJob) (second : List Byte) : State :=
  let n := parBody j.image
  let k := parKey j.image
  if slice second 0 n ≠ slice j.image 0 n then
    reheatEnd { authBad s 8 k with sig := s.sig.filter fun j => !(j.sq = d.sq && j.seq = d.seq) } (d.pay 32 1 % 16) stAuthFail
      (authDetail 8 k)
  else s.dropSig j

/-- The image that the signature engine verifies next, in dispatch order across all SQs: none while a LOAD that was dispatched before has
still to bring its image (R500). -/
def State.sigNext (s : State) : Option SigJob :=
  let order (j : SigJob) : Nat := s.orderOf j.sq j.seq
  let l := s.sig.filter (·.stage ≠ .writes)
  match l.find? fun j => l.all fun k => order j ≤ order k with
  | none => none
  | some j =>
    if s.ring.flight.any fun e => e.stage = .dispatched && e.opcode = 0x03 && e.pay 32 1 ≠ 3 && decide (e.order < order j) then none
    else some j

/-- SIGNATURE_VERIFY: the signature engine takes the next image (`State.sigNext`, R500). An image of a parison that passes is read a
second time, of which `second` is what the read gives: in the same command, or in a later one where host memory does not answer yet
(R91, R503). -/
def execSignatureVerify (second : HostRead) (s : State) : Host.Outcome State Fault Refusal :=
  act s fun s =>
    match s.sigNext with
    | none => s
    | some j =>
      match s.findDesc j.sq j.seq with
      | none => s.dropSig j
      | some d =>
        if !s.ready 17 then s
        else if d.opcode = 0x03 && decide (d.pay 32 1 ≤ 1) then planVerify (s.dropSig j) d j.image
        else
          let heat := decide (d.opcode = 0x0D)
          let s := if j.stage ≠ .waits then s else if heat then reheatVerify s d j else parVerify s d j
          match s.sig.find? (fun k => k = { j with stage := .second }), s.findDesc j.sq j.seq with
          | some j, some d => match second with
            | .refused =>
              if !s.canDma then s.hostEpisode d
              else if heat then
                reheatEnd { s with sig := s.sig.filter fun k => !(k.sq = d.sq && k.seq = d.seq) } (d.pay 32 1 % 16) stBadDescriptor
                  0x010000FF
              else (freeWrites (s.dropSig j) d j.image).complete d stBadDescriptor 0x010000FF 0
            | _ => s.withHost d second fun d l s => if heat then reheatSecond s d j l else parSecond s d j l
          | _, _ => s

/-- The point last asked of a fenced marver takes effect before it rejoins (R157, R179). -/
def dvfsRejoin (s : State) (m : Nat) : State :=
  match (s.mrvAt m).ramp, (s.mrvAt m).due with
  | some p, _ => dvfsApply (s.setRamp m none) m p
  | none, some p => dvfsApply s m p
  | none, none => s

/-- Marvers in REJOIN_WAIT rejoin at the edge of a switch that takes effect (R179). -/
def rejoinAll (s : State) : State :=
  (List.range 16).foldl (fun s m =>
    match (s.mrvAt m).reheat with
    | none => s
    | some r =>
      if s.rhPhase m ≠ 3 then s
      else
        let s := dvfsRejoin s m
        let s := s.setMrv m { s.mrvAt m with reheat := none }
        let s := ((s.putB (Fld.MRV_STATE_FENCED m) false).putBit Fld.MRV_FENCED_FENCED m false).put (Fld.MRV_FENCE_CAUSE m) 0
        let s := (s.put (Fld.MRV_RHST_PHASE m) 0).irqF Fld.MRV_PIRQ_STATUS_REJOINED
        match s.findDesc r.sq r.seq with
        | some d => s.complete d stOK 0 ((r.bytes + 1023) / 1024)
        | none => s) s

end Sys2Proof.Machine
end

