-- ==== Sys2Proof/Machine/Timers.lean ====
section
/-!
DEFINITION. Timers and counters (chapter 12, R293 to R312).
-/
namespace Sys2Proof.Machine

/-- The state of channel k beside its registers. -/
def State.tmrAt (s : State) (k : Nat) : Tmr := s.tmr.getD k Tmr.init

def State.setTmr (s : State) (k : Nat) (t : Tmr) : State := { s with tmr := lput .init s.tmr k t }

/-- STATE of channel k: 0 IDLE, 1 ARMED, 2 RUNNING, 3 DONE (R297). -/
def State.tState (s : State) (k : Nat) : Nat := s.get (Fld.TMR_STATE_STATE k)

def State.setTState (s : State) (k st : Nat) : State := s.put (Fld.TMR_STATE_STATE k) st

/-- The channels that a mask names. -/
def tmrMask (mask : Nat) : List Nat := bitList 16 mask

/-- A suspension is in effect (R307). -/
def State.suspended (s : State) : Bool := s.flag (Fld.TMR_STATE_SUSPENDED 0)

/-- SUSPENDED of every channel. -/
def State.setSuspended (s : State) (b : Bool) : State :=
  (List.range 16).foldl (fun s k => s.putB (Fld.TMR_STATE_SUSPENDED k) b) s

/-- The timers see a debug halt or the stop of the fabric clock begin (R307). -/
def tmrSuspend (s : State) : State := s.setSuspended true

def State.tCount (s : State) (k : Nat) : Nat := s.wide (Reg.TMR_COUNT_LO k)
def State.tReload (s : State) (k : Nat) : Nat := s.wide (Reg.TMR_RELOAD_LO k)
def State.setTCount (s : State) (k v : Nat) : State := s.setWide 48 (Reg.TMR_COUNT_LO k) v
def State.setTReload (s : State) (k v : Nat) : State := s.setWide 48 (Reg.TMR_RELOAD_LO k) v

/-- CMPj of channel k. -/
def State.tCmp (s : State) (k j : Nat) : Nat :=
  s.wide (if j = 0 then Reg.TMR_CMP0_LO k else Reg.TMR_CMP1_LO k)

/-- DIVR (R296). -/
def State.tDivr (s : State) (k : Nat) : Nat := 256 * s.get (Fld.TMR_DIV_INT k) + s.get (Fld.TMR_DIV_FRAC k)

/-- ONESHOT mode. -/
def State.oneshot (s : State) (k : Nat) : Bool := s.flag (Fld.TMR_CFG_MODE k)

/-! ### Counting (R301, R304) -/

/-- A RELOAD held for the next wrap or release takes effect (R302). -/
def takeReload (s : State) (k : Nat) : State :=
  match (s.tmrAt k).reload with
  | none => s
  | some v => (s.setTReload k v).setTmr k { s.tmrAt k with reload := none }

/-- Both compares are armed (R304). -/
def rearm (s : State) (k : Nat) : State :=
  s.setTmr k { s.tmrAt k with armed := [true, true], hit := [false, false] }

/-- The compares that the new COUNT matches (R304). -/
def tmrMatch (s : State) (k : Nat) : State :=
  [0, 1].foldl (fun s j =>
    let t := s.tmrAt k
    if t.armed.getD j false && decide (s.tCount k = s.tCmp k j) then
      (s.setTmr k { t with armed := t.armed.set j false, hit := t.hit.set j true }).irqBit (Fld.TMR_STATUS_CMP0 k) j
    else s) s

/-- short_reload() of R301. -/
def shortReload (s : State) (k : Nat) : State :=
  (s.incSat (Fld.TMR_CNT_SHORTS k)).irqF (Fld.TMR_STATUS_SHORT k)

/-- done() of R301. -/
def tmrDone (s : State) (k : Nat) : State := (s.setTState k 3).irqF (Fld.TMR_STATUS_DONE k)

/-- One count tick of a RUNNING channel (R301). -/
def countTick (s : State) (k : Nat) : State :=
  if s.tState k ≠ 2 then s
  else
    let c := s.tCount k
    let r := s.tReload k
    if s.oneshot k then
      if c < r then
        let s := tmrMatch (s.setTCount k (c + 1)) k
        if c + 1 = r then tmrDone s k else s
      else tmrDone (if r < c then shortReload s k else s) k
    else if r ≤ c then
      let s := if r < c then shortReload s k else s
      let s := ((s.setTCount k 0).incWrap (Fld.TMR_LAPS_LAPS k)).incSat (Fld.TMR_CAPSTAT_LAPS k)
      tmrMatch (rearm (takeReload (s.irqF (Fld.TMR_STATUS_WRAP k)) k) k) k
    else tmrMatch (s.setTCount k (c + 1)) k

/-- A batch of count ticks (R310). -/
def countTicks (k : Nat) : Nat → State → State
  | 0, s => s
  | n + 1, s => countTicks k n (countTick s k)

/-- `q` 256ths of a source edge go into the accumulator of channel k, and the count ticks they make are applied (R296, R308):
for 256 per edge the ticks are those of the rule applied edge by edge. -/
def prescale (s : State) (k q : Nat) : State :=
  let total := (s.tmrAt k).acc + q
  let d := s.tDivr k
  countTicks k (total / d) (s.setTmr k { s.tmrAt k with acc := total % d })

/-- Source edges of a RUNNING channel; none is counted in a suspension (R296, R307). -/
def sourceEdges (s : State) (k n : Nat) : State :=
  if s.tState k = 2 ∧ !s.suspended then prescale s k (256 * n) else s

/-- TIMER_COUNT_TICK: `edges` edges of the TCLK, PCLK/8, fabric clock or SCLK source of channel k pass, and the prescaler emits
the count ticks they make (R294, R296, R301). The edges of a TIN source come with TIMER_CAPTURE. -/
def execTimerCountTick (k : Fin 16) (edges : Nat) (s : State) : Host.Outcome State Fault Refusal :=
  act s fun s =>
    if s.ready 9 ∧ s.get (Fld.TMR_CFG_SRC k) < 4 then sourceEdges s k edges else s

/-! ### Start and stop (R298, R299) -/

/-- ARMED channels return to their previous state (R298). -/
def unarm (s : State) (ks : List Nat) : State :=
  ks.foldl (fun s k => if s.tState k = 1 then s.setTState k (s.tmrAt k).before else s) s

/-- A write of TMR_GSTART (R298): CANCEL = 1 withdraws the pending release; else the named channels in IDLE or DONE are ARMED,
and a release pending before is replaced. -/
def tmrGstartWrite (s : State) (v : Word) : State :=
  let old := tmrMask (s.get Fld.TMR_GSTAT_PMASK)
  let s := { s with tmrDue := false }
  if Fld.TMR_GSTART_CANCEL.get v = 1 then (unarm s old).setReg Reg.TMR_GSTAT 0
  else
    let mask := Fld.TMR_GSTART_MASK.get v
    let s := unarm s (old.filter fun k => !bitOf mask k)
    let s := (tmrMask mask).foldl (fun s k =>
      let st := s.tState k
      if st = 0 ∨ st = 3 then (s.setTState k 1).setTmr k { s.tmrAt k with before := st } else s) s
    s.setReg Reg.TMR_GSTAT (BitVec.ofNat 32 (2 ^ 31 + Fld.TMR_GSTART_EDGE.get v * 2 ^ 30 + mask))

/-- TMR_GSTART (R298): a write with CANCEL = 0. -/
def execTmrGstart (v : Word) (s : State) : Host.Outcome State Fault Refusal :=
  act s fun s => if s.served Reg.TMR_GSTART then tmrGstartWrite s (v &&& 0x7FFFFFFF) else s

/-- TMR_GSTART_CANCEL (R298): a write with CANCEL = 1. -/
def execTmrGstartCancel (v : Word) (s : State) : Host.Outcome State Fault Refusal :=
  act s fun s => if s.served Reg.TMR_GSTART then tmrGstartWrite s (v ||| 0x80000000) else s

/-- An ARMED channel in the release cycle (R298). -/
def releaseChan (s : State) (k : Nat) : State :=
  if s.tState k ≠ 1 then s
  else
    let s := if s.oneshot k || s.flag (Fld.TMR_CFG_ZERO k) then s.setTCount k 0 else s
    let s := rearm (takeReload s k) k
    ((s.setTmr k { s.tmrAt k with acc := 0 }).put (Fld.TMR_LAPS_LAPS k) 0).setTState k 2

/-- The release cycle of the pending release (R298). -/
def tmrRelease (s : State) : State :=
  let s := (List.range 16).foldl releaseChan s
  { (s.setWide 64 Reg.TMR_GSTAMP_LO s.dtime.toNat).setReg Reg.TMR_GSTAT 0 with tmrDue := false }

/-- The release of a GSTART with EDGE = 1 takes place in a tick-edge cycle (R298); one that falls in a suspension is due from then on
(R307). -/
def tmrTickEdge (s : State) : State :=
  if s.flag Fld.TMR_GSTAT_PENDING && s.flag Fld.TMR_GSTAT_EDGE then
    if s.suspended then { s with tmrDue := true } else tmrRelease s
  else s

/-- TIMER_RELEASE: the release cycle of a GSTART with EDGE = 0 (R298), or the first TCLK cycle after the resume edge for a release with
EDGE = 1 that fell in the suspension (R307); any other release with EDGE = 1 is part of TICK_EDGE. -/
def execTimerRelease (s : State) : Host.Outcome State Fault Refusal :=
  act s fun s =>
    if s.flag Fld.TMR_GSTAT_PENDING && (!s.flag Fld.TMR_GSTAT_EDGE || s.tmrDue) && !s.suspended then tmrRelease s else s

/-- TMR_CTRL.STOP: a RUNNING or ARMED channel goes to IDLE, and an ARMED one leaves the pending set; COUNT keeps its value (R299). -/
def tmrStopChan (s : State) (k : Nat) : State :=
  match s.tState k with
  | 1 => (s.setTState k 0).putBit Fld.TMR_GSTAT_PMASK k false
  | 2 => s.setTState k 0
  | _ => s

/-- TMR_STOP (R299). -/
def execTmrStop (k : Fin 16) (s : State) : Host.Outcome State Fault Refusal :=
  act s fun s => if s.served (Reg.TMR_CTRL k) then tmrStopChan s k else s

/-- TMR_CNT_CLR: TMR_CTRL.CLR clears TMR_CNT (Table 12.4). -/
def execTmrCntClr (k : Fin 16) (s : State) : Host.Outcome State Fault Refusal :=
  act s fun s => if s.served (Reg.TMR_CTRL k) then s.clrReg (Reg.TMR_CNT k) else s

/-- A write of TMR_CTRL (Table 12.4). -/
def tmrCtrlWrite (s : State) (k : Nat) (v : Word) : State :=
  let s := if (Fld.TMR_CTRL_CLR k).get v = 1 then s.clrReg (Reg.TMR_CNT k) else s
  if (Fld.TMR_CTRL_STOP k).get v = 1 then tmrStopChan s k else s

/-! ### 48-bit registers (R300, R302 to R304) -/

/-- The offset of the low word. -/
def tmrOff (r : TmrWide) (k : Nat) : Nat :=
  match r with
  | .count => Reg.TMR_COUNT_LO k
  | .reload => Reg.TMR_RELOAD_LO k
  | .cmp0 => Reg.TMR_CMP0_LO k
  | .cmp1 => Reg.TMR_CMP1_LO k

/-- A low word waits in the staging register of its own register (R303). -/
def tmrStageLow (s : State) (k : Nat) (r : TmrWide) (v : Word) : State :=
  { s with tmrStage := sset 0 s.tmrStage (tmrOff r k) v }

/-- A compare is committed: at or below COUNT it waits for the next wrap, above COUNT it is armed unless it has matched in this
lap (R304, Table 12.2). -/
def tmrCmpCommit (s : State) (k j v : Nat) : State :=
  let s := s.setWide 48 (if j = 0 then Reg.TMR_CMP0_LO k else Reg.TMR_CMP1_LO k) v
  let t := s.tmrAt k
  s.setTmr k { t with armed := t.armed.set j (decide (s.tCount k < v) && !t.hit.getD j false) }

/-- A high-word write loads both words in one cycle: COUNT is ignored while RUNNING or ARMED, RELOAD is held for the next wrap
or release where RLOAD = LAP and the channel is RUNNING or ARMED (R300, R302, R303). -/
def tmrCommit (s : State) (k : Nat) (r : TmrWide) (hi : Word) : State :=
  let v := (sget 0 s.tmrStage (tmrOff r k)).toNat + 2 ^ 32 * (hi.toNat % 2 ^ 16)
  let busy := s.tState k = 1 ∨ s.tState k = 2
  match r with
  | .count => if busy then s else s.setTCount k v
  | .reload =>
    if busy ∧ s.flag (Fld.TMR_CFG_RLOAD k) then s.setTmr k { s.tmrAt k with reload := some v }
    else (s.setTReload k v).setTmr k { s.tmrAt k with reload := none }
  | .cmp0 => tmrCmpCommit s k 0 v
  | .cmp1 => tmrCmpCommit s k 1 v

/-- TMR_LOW_WORD_WRITE (R303). -/
def execTmrLowWordWrite (k : Fin 16) (r : TmrWide) (v : Word) (s : State) : Host.Outcome State Fault Refusal :=
  act s fun s => if s.served (Reg.TMR_CFG k) then tmrStageLow s k r v else s

/-- TMR_HIGH_WORD_COMMIT (R303). -/
def execTmrHighWordCommit (k : Fin 16) (r : TmrWide) (v : Word) (s : State) : Host.Outcome State Fault Refusal :=
  act s fun s => if s.served (Reg.TMR_CFG k) then tmrCommit s k r v else s

/-! ### Pins and captures (R295, R305, R306) -/

/-- TEDGE of a channel selects this edge. -/
def edgeSelected (tedge : Nat) (rising : Bool) : Bool := tedge = 2 || decide (tedge = if rising then 0 else 1)

/-- A capture of channel k (R305, R306). -/
def capture (s : State) (k : Nat) (rising : Bool) : State :=
  let fresh := if rising then Fld.TMR_CAPSTAT_RFRESH k else Fld.TMR_CAPSTAT_FFRESH k
  let s := if s.flag fresh then (s.incSat (Fld.TMR_CNT_CAPOVR k)).irqF (Fld.TMR_STATUS_CAPOVR k) else s
  let s := s.setWide 48 (if rising then Reg.TMR_CAPR_LO k else Reg.TMR_CAPF_LO k) (s.tCount k)
  let s := s.putB fresh true
  let s := if rising then s.put (Fld.TMR_CAPSTAT_LAPS k) 0 else s
  s.irqF (if rising then Fld.TMR_STATUS_CAPR k else Fld.TMR_STATUS_CAPF k)

/-- TIMER_CAPTURE: pin TINn is accepted at a new level (R295): the channels it sources count the edge, then the channels that
watch it capture COUNT, which includes a count tick of the same cycle (R305). -/
def execTimerCapture (pin : Fin 8) (rising : Bool) (s : State) : Host.Outcome State Fault Refusal :=
  act s fun s =>
    if !s.ready 9 || s.suspended || s.bitF Fld.TMR_TINLVL_LEVEL pin = rising then s
    else
      let s := s.putBit Fld.TMR_TINLVL_LEVEL pin rising
      let s := (List.range 16).foldl (fun s k =>
        if s.get (Fld.TMR_CFG_SRC k) = 4 + pin.val ∧ edgeSelected (s.get (Fld.TMR_CFG_TEDGE k)) rising then sourceEdges s k 1
        else s) s
      (List.range 16).foldl (fun s k =>
        if s.flag (Fld.TMR_CFG_CAPEN k) ∧ s.get (Fld.TMR_CFG_CAPIN k) = pin.val ∧ s.tState k = 2 then capture s k rising
        else s) s

/-- A read of the low word of a capture latches its high word and clears its FRESH bit (R8, R306). -/
def capRead (s : State) (k : Nat) (falling : Bool) : State :=
  let lo := if falling then Reg.TMR_CAPF_LO k else Reg.TMR_CAPR_LO k
  let s := { s with rdata := leBytes 4 (s.reg lo).toNat, latch := sset none s.latch (lo + 4) (some (s.reg (lo + 4))) }
  s.putB (if falling then Fld.TMR_CAPSTAT_FFRESH k else Fld.TMR_CAPSTAT_RFRESH k) false

/-- TMR_CAPTURE_READ (R306). -/
def execTmrCaptureRead (k : Fin 16) (falling : Bool) (s : State) : Host.Outcome State Fault Refusal :=
  act s fun s => if s.served (Reg.TMR_CFG k) then capRead s k falling else s

/-! ### Sleep and debug halt (R307 to R310) -/

/-- Q256 (Table 12.1); 0 for a TIN source, which adds nothing. -/
def tmrQ256 (src : Nat) : Nat :=
  match src with
  | 0 => 1536000
  | 1 => 384000
  | 2 => 6250000
  | 3 => 256
  | _ => 0

/-- `e` SCLK periods go into channel k in one batch (R308, R309). -/
def sclkBatch (s : State) (k e : Nat) : State :=
  let q := tmrQ256 (s.get (Fld.TMR_CFG_SRC k))
  if q = 0 then s else prescale s k (e * q)

/-- Every RUNNING channel with SUSP = SLOWRUN takes the batch of one SCLK edge (R309). -/
def slowrun (s : State) : State :=
  (List.range 16).foldl (fun s k =>
    if s.tState k = 2 ∧ s.flag (Fld.TMR_CFG_SUSP k) then sclkBatch s k 1 else s) s

/-- TIMER_SLOWRUN_STEP: an SCLK edge in a suspension (R309). -/
def execTimerSlowrunStep (s : State) : Host.Outcome State Fault Refusal :=
  act s fun s => if s.suspended then slowrun s else s

/-- TIMER_RESUME: the resume edge, `e` SCLK edges after the start of the suspension (R307): the SLOWRUN channels take its batch
(an SCLK source counts every edge, R309), and each FREEZE_CATCHUP channel its catch-up (R308). -/
def execTimerResume (e : Nat) (s : State) : Host.Outcome State Fault Refusal :=
  act s fun s =>
    if !s.suspended || s.halted || decide (s.pstate < 3) then s
    else
      let s := slowrun s
      let s := (List.range 16).foldl (fun s k =>
        if s.tState k = 2 ∧ !s.flag (Fld.TMR_CFG_SUSP k) then
          (sclkBatch s k e).irqF (Fld.TMR_STATUS_CATCHUP k)
        else s) s
      s.setSuspended false

end Sys2Proof.Machine
end

