-- ==== Sys2Proof/Machine/Access.lean ====
section
/-!
DEFINITION. What every host write of a BAR0 register has in common (R23, R24, R103): unlisted encodings, stored, cleared and
shadowed bits, interrupt enables.
-/
namespace Sys2Proof.Machine

/-- The interrupt enable registers of the blocks, each the word after its status register (R103). -/
def enableRegs : List Nat :=
  [Reg.GLB_RDY_EN, Reg.GAF_IRQ_EN, Reg.RING_IRQ_EN, Reg.FEN_IRQ_EN, Reg.MRV_IRQ_EN, Reg.MRV_PIRQ_EN, Reg.OBS_IRQ_EN,
    Reg.SNS_IRQ_EN, Reg.CTL_IRQ_EN, Reg.PWM_IRQ_EN, Reg.VLV_IRQ_EN, Reg.AUD_IRQ_EN, Reg.MIX_IRQ_EN, Reg.VIS_IRQ_EN,
    Reg.USB_IRQ_EN, Reg.TWB_IRQ_EN, Reg.VXL_IRQ_EN, Reg.MEM_IRQ_EN, Reg.PWR_IRQ_EN, Reg.FUS_IRQ_EN, Reg.LOG_IRQ_EN] ++
    (List.range 16).map Reg.TMR_IEN

/-- No field of the register is written with an encoding that its table does not list (R23). -/
def RegDesc.accepts (d : RegDesc) (v : Word) : Bool :=
  d.legal.all fun f => decide (f.2.2.1 ≤ bitsOf v.toNat f.1 f.2.1) && decide (bitsOf v.toNat f.1 f.2.1 ≤ f.2.2.2)

/-- What a host write stores: RW, RWS and RWL bits take the written value, a 1 clears a W1C bit, the others stay (R24). -/
def RegDesc.stored (d : RegDesc) (old v : Word) : Word :=
  let rw := BitVec.ofNat 32 d.rw
  (v &&& rw) ||| (old &&& (rw ^^^ 0xFFFFFFFF) &&& ((v &&& BitVec.ofNat 32 d.w1c) ^^^ 0xFFFFFFFF))

/-- A host write of a register word, beyond which its chapter states nothing: none where the write is ignored, because the
offset is reserved, an encoding is unlisted (R23) or no bit of the register is written (RO, R24). An enable bit that is set
while its status bit reads 1 sends a message (R103). A W1C bit that hardware has set in the same cycle stays set (R23). -/
def storeWord (s : State) (off : Nat) (v : Word) : Option State :=
  match regAt off with
  | none => none
  | some (d, _) =>
    if !d.accepts v || (d.rw = 0 && d.w1c = 0) then none
    else
      let new := d.stored (s.reg off) (v &&& (sget 0 s.seen.sets off &&& BitVec.ofNat 32 d.w1c ^^^ 0xFFFFFFFF))
      if off ∈ enableRegs then some (s.setIrqRegs (off / 0x10000) (off - 4) off (s.reg (off - 4)) new)
      else some (s.setReg off new)

/-- The same, ignored writes leaving the state as it is. -/
def State.store (s : State) (off : Nat) (v : Word) : State := (storeWord s off v).getD s

end Sys2Proof.Machine
end

