-- ==== Sys2Proof/Machine/Sensing.lean ====
section
/-!
DEFINITION. Current, voltage and position sensing (chapter 7, R183 to R201). The culls that a latched set causes are in
Observers.lean, the comparators and their thresholds in Pwm.lean. Times are counted in TCLK cycles (`State.cyc`).
-/
namespace Sys2Proof.Machine

def State.snsAt (s : State) (n : Nat) : Sns := s.sns.getD n Sns.init

def State.setSns (s : State) (n : Nat) (x : Sns) : State := { s with sns := lput .init s.sns n x }

def State.modAt (s : State) (k : Nat) : Mod := s.mods.getD k Mod.init

def State.setMod (s : State) (k : Nat) (x : Mod) : State := { s with mods := lput .init s.mods k x }

/-- The sample set of a tick, if there is one. -/
def Sns.setOf (x : Sns) (tick : Nat) : Option SampleSet := x.sets.find? (·.tick = tick)

/-- The sensing groups after a reset: the voltages and levels at the pins are as they were (log entry 43). -/
def State.pinsKept (s : State) : List Sns := s.sns.map fun x => { Sns.init with vin := x.vin, qa := x.qa, qb := x.qb }

/-! ### Scaling (R186) -/

/-- The raw code of a differential input voltage in nV: V / VREF times 32768, rounded towards minus infinity and saturated (R185; for SIN
and COS DEDUCED, log entry 43). -/
def sarCode (v : Int) : Int := satS 16 (v * 32768 / (Config.vref : Int))

/-- The per-unit value of a code, and whether it clipped (R186). -/
def scale (cal : Word) (r : Int) : Int × Bool :=
  let y := rsh ((r - sgn 16 cal.toNat) * sgn 16 (cal.toNat / 2 ^ 16)) 14
  let p := satS 16 y
  (p, r = 32767 || r = -32768 || p ≠ y)

/-! ### Triggers (R183, R184, R188) -/

/-- Input k is enabled and routed to axis n (R193). -/
def State.modRouted (s : State) (k n : Nat) : Bool := s.flag (Fld.MOD_CFG_EN k) && s.get (Fld.MOD_CFG_AXIS k) = n

/-- What the inputs routed to axis n give a set triggered now, in index order (R193). -/
def State.tapsOf (s : State) (n : Nat) : List ModTap :=
  ((List.range 4).filter fun k => s.modRouted k n).map fun k =>
    let m := s.modAt k
    ⟨k, s.get (Fld.MOD_CFG_CHAN k), m.q, m.qValid, s.get (Fld.MOD_STATUS_STATE k) = 3, s.cyc - m.qAt⟩

/-- What happens in the cycle of a SAR trigger, after it, still belongs to its set: a count, an error, an index capture (R183, R191). -/
def Sns.amend (x : Sns) (now : Nat) (f : Trig → Trig) : Sns :=
  { x with trigs := x.trigs.map fun t => if t.at_ = now then f t else t }

/-- A SAR trigger of axis n: accepted once per tick, an extra one counted; every one accepted while no ticks run (R184). -/
def sarTrigger (s : State) (n : Nat) : State :=
  let x := s.snsAt n
  if s.running && x.trigSeen then s.incSat (Fld.SNS_CNT_TRIG_EXTRA n)
  else
    let t : Trig :=
      { at_ := s.cyc, tick := s.tickno, late := s.running && decide (x.missed = some s.tickno), cfg := s.actReg (Reg.SNS_CFG n)
        cal := (List.range 7).map fun c => s.actReg (Reg.SNS_CAL n c)
        qpos := x.qpos, qerr := x.qerr, idx := x.idx, taps := s.tapsOf n }
    s.setSns n { x with trigs := x.trigs ++ [t], trigSeen := s.running, qerr := false, idx := none }

/-- A SIN/COS trigger of axis n, under the same one-per-tick rule, an extra one not counted (R188). -/
def scTrigger (s : State) (n : Nat) : State :=
  let x := s.snsAt n
  if s.running && x.scSeen then s
  else
    let t : ScTrig := ⟨s.cyc, s.actReg (Reg.SNS_CAL n 7), s.actReg (Reg.SNS_CAL n 8)⟩
    s.setSns n { x with scTrigs := x.scTrigs ++ [t], scSeen := s.running }

/-- Event output v of module m reaches the sensing groups that it triggers (R184, R188, R276). -/
def adcTriggers (s : State) (m v : Nat) : State :=
  (List.range 6).foldl (fun s n =>
    let s := if s.geta (Fld.SNS_CFG_EN n) = 1 && s.geta (Fld.SNS_CFG_TRIG_MOD n) = m &&
        s.geta (Fld.SNS_CFG_TRIG_EVT n) = v then sarTrigger s n else s
    if s.geta (Fld.SNS_CFG_SC_EN n) = 1 && s.geta (Fld.SNS_CFG_SC_TRIG_MOD n) = m &&
        s.geta (Fld.SNS_CFG_SC_TRIG_EVT n) = v then scTrigger s n else s) s

/-! ### Latches (R183, R187, R189, R198, R199) -/

/-- One channel of a set: its code, its per-unit value, valid, clipped. -/
structure Chan where
  raw : Int
  p : Int
  valid : Bool
  clip : Bool
deriving DecidableEq, Repr

/-- Channel c of a trigger from its SAR code (R186, R193, Table 7.1). -/
def chanOf (s : State) (t : Trig) (code : Int) (c : Nat) : Chan :=
  match t.taps.find? (·.chan = c) with
  | some tap =>
    let (p, clip) := scale (t.cal.getD c 0) tap.q
    ⟨tap.q, if tap.held then (s.modAt tap.k).good else p, tap.valid && !tap.held, clip⟩
  | none =>
    let (p, clip) := scale (t.cal.getD c 0) code
    ⟨code, p, true, clip⟩

/-- DERIVE: one phase current becomes the negative sum of the other two (R187). -/
def derive_ (cfg : Word) (l : List Chan) : List Chan :=
  let d := (Fld.SNS_CFG_DERIVE 0).get cfg
  let z : Chan := ⟨0, 0, false, false⟩
  if d = 0 then l
  else
    let i := d - 1
    let a := l.getD ((i + 1) % 3) z
    let b := l.getD ((i + 2) % 3) z
    let sum := -(a.p + b.p)
    let p := satS 16 sum
    l.set i { l.getD i z with p := p, valid := a.valid && b.valid, clip := a.clip || b.clip || p ≠ sum }

/-- The mask of the entries of a list for which a test holds. -/
def maskOf {α : Type} (f : α → Bool) (l : List α) : Nat :=
  (l.zipIdx.filter fun e => f e.1).foldl (fun m e => orBit m e.2) 0

/-- The squared amplitude of a pair, UQ2.14 (R189). -/
def pairAmp (p : Pair) : Nat := ((p.sin * p.sin + p.cos * p.cos) / 65536).toNat

/-- The amplitude lies in the band of SNS_SCAMP (R189). -/
def State.pairInBand (s : State) (n : Nat) (p : Pair) : Bool :=
  decide (s.get (Fld.SNS_SCAMP_MIN n) ≤ pairAmp p) && decide (pairAmp p ≤ s.get (Fld.SNS_SCAMP_MAX n))

/-- The set that a trigger forms with these codes (R183 to R193, R198). -/
def formSet (s : State) (n : Nat) (t : Trig) (codes : List Int) : SampleSet × List Chan × Nat :=
  let x := s.snsAt n
  let chans := derive_ t.cfg ((List.range 7).map fun c => chanOf s t (codes.getD c 0) c)
  let age := match x.pair with
    | some p => satU 16 (t.at_ - p.at_)
    | none => 0xFFFF
  let scOk := match x.pair with
    | some p => (Fld.SNS_CFG_SC_EN 0).get t.cfg = 1 && decide (age ≤ s.get Fld.GAF_TICKDIV_TICKDIV) && !p.clip &&
        s.pairInBand n p
    | none => false
  let qOk := (Fld.SNS_CFG_Q_EN 0).get t.cfg = 1 && !t.qerr
  let valid := maskOf (·.valid) chans + (if scOk then 0x80 else 0) + (if qOk then 0x100 else 0)
  let delta := satS 16 (sgn 32 (t.qpos - s.reg (Reg.SNS_QPOS n)).toNat)
  ({ tick := t.tick, words := chans.map (·.p)
     sin := (x.pair.map (·.sin)).getD 0, cos := (x.pair.map (·.cos)).getD 0
     valid := valid, clip := maskOf (·.clip) chans, stale := false, qpos := t.qpos, qdelta := delta
     pairAt := x.pair.map (·.at_)
     modAge := match t.taps with
       | m :: _ => satU 16 m.age
       | [] => 0
     routed := !t.taps.isEmpty }, chans, age)

/-- Two 16-bit halves of a register word. -/
def halves (hi lo : Int) : Word := BitVec.ofNat 32 (lowBits 16 hi * 2 ^ 16 + lowBits 16 lo)

/-- The sample registers take a set in its latch cycle (R199). -/
def showSet (s : State) (n : Nat) (t : Trig) (x : SampleSet) (chans : List Chan) (age : Nat) : State :=
  let raw := (Fld.SNS_CFG_SHOWRAW 0).get t.cfg = 1
  let v (c : Nat) : Int := match chans[c]? with
    | some ch => if raw then ch.raw else ch.p
    | none => 0
  let pair := (s.snsAt n).pair
  let sc := if raw then ((pair.map (·.rawSin)).getD 0, (pair.map (·.rawCos)).getD 0) else (x.sin, x.cos)
  let s := s.put (Fld.SNS_SEQ_SEQ n) (x.tick % 2 ^ 16)
  let s := ((s.setReg (Reg.SNS_IAB n) (halves (v 1) (v 0))).setReg (Reg.SNS_ICV n) (halves (v 3) (v 2))).setReg
    (Reg.SNS_VAB n) (halves (v 5) (v 4))
  let s := (s.setReg (Reg.SNS_VC n) (halves 0 (v 6))).setReg (Reg.SNS_SC n) (halves sc.2 sc.1)
  let s := s.setReg (Reg.SNS_QPOS n) x.qpos
  let s := ((((s.putB (Fld.SNS_FLAGS_IDX n) t.idx.isSome).put (Fld.SNS_FLAGS_STALE n) 0).put (Fld.SNS_FLAGS_CLIP n)
    x.clip).put (Fld.SNS_FLAGS_VALID n) x.valid)
  let s := (s.put (Fld.SNS_AGE_MOD_AGE n) x.modAge).put (Fld.SNS_AGE_SC_AGE n) age
  match t.idx with
  | some q => s.setReg (Reg.SNS_QIDX n) q
  | none => s

/-- The oldest accepted trigger of axis n latches with these codes: a set latched after its SAMPLE action overran is discarded
(R184); otherwise it becomes the axis's newest set. -/
def latchSet (s : State) (n : Nat) (codes : List Int) : State :=
  let x := s.snsAt n
  match x.trigs with
  | [] => s
  | t :: rest =>
    let s := s.setSns n { x with trigs := rest }
    if t.late then s
    else
      let (set, chans, age) := formSet s n t codes
      let s := showSet s n t set chans age
      let s := t.taps.foldl (fun s tap =>
        if tap.valid && !tap.held then
          s.setMod tap.k { s.modAt tap.k with good := ((chans[tap.chan]?).map (·.p)).getD 0 } else s) s
      let s := match x.pair with
        | some p => if (Fld.SNS_CFG_SC_EN 0).get t.cfg = 1 && !s.pairInBand n p then
            s.irqBit Fld.SNS_IRQ_STATUS_SCAMP n else s
        | none => s
      let x := s.snsAt n
      s.setSns n { x with sets := set :: x.sets.take 2 }

/-- The HOLD fallback of SAMPLE repeats the previous set of an axis whose conversions have not landed: stale, nothing valid; a set of this
tick that latches later is discarded (R52, R184, R198, R199). -/
def repeatSet (s : State) (n : Nat) : State :=
  let x := s.snsAt n
  let old : SampleSet := x.sets.headD ⟨0, List.replicate 7 0, 0, 0, 0, 0, true, 0, 0, none, 0, false⟩
  let set := { old with tick := s.tickno, stale := true, valid := 0 }
  let s := (s.put (Fld.SNS_FLAGS_STALE n) 1).put (Fld.SNS_FLAGS_VALID n) 0
  let late (t : Trig) : Trig := if t.tick = s.tickno then { t with late := true } else t
  s.setSns n { x with sets := set :: x.sets.take 2, missed := some s.tickno, trigs := x.trigs.map late }

/-- The oldest accepted SIN/COS trigger of axis n latches with these codes (R188). -/
def latchPair (s : State) (n : Nat) (sin cos : Int) : State :=
  let x := s.snsAt n
  match x.scTrigs with
  | [] => s
  | t :: rest =>
    let (a, ca) := scale t.calSin sin
    let (b, cb) := scale t.calCos cos
    s.setSns n { x with scTrigs := rest, pair := some ⟨t.at_, a, b, sin, cos, ca || cb⟩ }

/-- A pair of axis n latches in this cycle, 99 cycles after its trigger, and has not yet (R188). -/
def State.pairDue (s : State) (n : Nat) : Bool := (s.snsAt n).scTrigs.any fun t => t.at_ + 99 = s.cyc

/-! ### Quadrature (R190, R191) -/

/-- The place of the levels of QA and QB in the order in which QA leads QB. -/
def grayIx (a b : Bool) : Nat := if a then (if b then 2 else 1) else (if b then 3 else 0)

/-- A pin level is accepted once it has been stable for FILT + 1 cycles in a row (R190). -/
def State.stable (s : State) (n cycles : Nat) : Bool := decide (s.get (Fld.SNS_QCFG_FILT n) < cycles)

/-- New accepted levels of QA and QB: one change counts, two at once are an error (R190, R191). -/
def quadStep (s : State) (n : Nat) (a b : Bool) : State :=
  let x := s.snsAt n
  let d := (grayIx a b + 4 - grayIx x.qa x.qb) % 4
  let dir := s.flag (Fld.SNS_QCFG_DIR n)
  let x' := { x with qa := a, qb := b }
  match d with
  | 0 => s
  | 2 =>
    let s := (s.incSat (Fld.SNS_CNT_QERR n)).irqBit Fld.SNS_IRQ_STATUS_QERR n
    let now := x.trigs.any (·.at_ = s.cyc)
    s.setSns n ({ x' with qerr := !now }.amend s.cyc fun t => { t with qerr := true })
  | k =>
    let q := if (k = 1) = !dir then x.qpos + 1 else x.qpos - 1
    s.setSns n ({ x' with qpos := q }.amend s.cyc fun t => { t with qpos := q })

/-- The pins QA and QB have stood at these levels for `na` and `nb` cycles: each level that is stable is accepted (R190). -/
def quadPins (s : State) (n : Nat) (a b : Bool) (na nb : Nat) : State :=
  let x := s.snsAt n
  quadStep s n (if s.stable n na then a else x.qa) (if s.stable n nb then b else x.qb)

/-- QUAD_EDGE: the decoder accepts the levels of QA and QB that are stable (R190, R191). -/
def execQuadEdge (n : Fin 6) (a b : Bool) (na nb : Nat) (s : State) : Host.Outcome State Fault Refusal :=
  act s fun s => quadPins s n a b na nb

/-- A rising edge of QZ is accepted: the capture, then the clear (R191). -/
def quadIndex (s : State) (n : Nat) : State :=
  if s.flag (Fld.SNS_QCFG_ZEN n) then
    let x := s.snsAt n
    let q := if s.flag (Fld.SNS_QCFG_ZRST n) then 0 else x.qpos
    let now := x.trigs.any (·.at_ = s.cyc)
    s.setSns n ({ x with idx := if now then none else some x.qpos, qpos := q }.amend s.cyc fun t =>
      { t with idx := some x.qpos, qpos := q })
  else s

/-- QZ_INDEX: a rising edge of QZ that has been stable for `nz` cycles, in a cycle in which QA and QB have stood at these levels: the
count applies first, then the capture, then the clear (R190, R191). -/
def execQzIndex (n : Fin 6) (a b : Bool) (na nb nz : Nat) (s : State) : Host.Outcome State Fault Refusal :=
  act s fun s =>
    let s := quadPins s n a b na nb
    if s.stable n nz then quadIndex s n else s

/-! ### Modulator inputs (R192 to R195) -/

/-- The oversampling ratio of input k (R192). -/
def State.osr (s : State) (k : Nat) : Nat := 32 * 2 ^ s.get (Fld.MOD_CFG_OSR k)

/-- A filter restart (R192). -/
def modRestart (s : State) (k : Nat) : State :=
  let m := s.modAt k
  let s := s.setMod k { Mod.init with
    q := m.q, qAt := m.qAt, good := m.good, startDue := m.startDue, divAt := m.divAt, last := m.last }
  (s.put (Fld.MOD_STATUS_STATE k) 1).put (Fld.MOD_OUT_COUNT k) 0

/-- The divider of an output-mode input starts in cycle `c`, with MCLKk rising and the filter restarting (R194). -/
def modStart (s : State) (k c : Nat) : State :=
  let s := modRestart s k
  s.setMod k { s.modAt k with startDue := false, divAt := c, last := c }

/-- The level of pin MCLKk where it is an output: high in the first half of each DIV cycles from the divider's start (R194). -/
def State.mclk (s : State) (k : Nat) : Bool :=
  let m := s.modAt k
  let div := s.get (Fld.MOD_CFG_PERIOD k)
  s.flag (Fld.MOD_CFG_EN k) && s.flag (Fld.MOD_CFG_CLKOUT k) && !m.startDue && decide (m.divAt ≤ s.cyc) &&
    decide (2 * ((s.cyc - m.divAt) % div) < div)

/-- The latest interval between sampling edges, saturating at 0xFF (Table 7.9). -/
def State.modInterval (s : State) (k : Nat) (t : Nat) : State := s.put (Fld.MOD_STATUS_PERIOD k) (satU 8 t)

/-- A boundary of input k in the cycle of a SAR trigger that takes it is the newest at or before that cycle (R193). -/
def modAmend (s : State) (k : Nat) : State :=
  let m := s.modAt k
  let tap (t : ModTap) : ModTap := if t.k = k then { t with q := m.q, valid := m.qValid, age := 0 } else t
  { s with sns := s.sns.map fun x => x.amend s.cyc fun t => { t with taps := t.taps.map tap } }

/-- One sampling edge of input k with bit `mdat`; at the OSR-th edge an output is delivered (R192). -/
def modEdge (s : State) (k : Nat) (mdat : Bool) : State :=
  let m := s.modAt k
  let i1 := m.i1 + (if mdat then 1 else -1)
  let i2 := m.i2 + i1
  let i3 := m.i3 + i2
  if m.edges + 1 < s.osr k then s.setMod k { m with i1 := i1, i2 := i2, i3 := i3, edges := m.edges + 1 }
  else
    let d1 := i3 - m.p3
    let d2 := d1 - m.p1
    let d3 := d2 - m.p2
    let q := satS 16 (rsh d3 (3 * (5 + s.get (Fld.MOD_CFG_OSR k)) - 15))
    let outs := m.outs + 1
    let lost := s.get (Fld.MOD_STATUS_STATE k) = 3
    let s := s.setMod k
      { m with i1 := i1, i2 := i2, i3 := i3, p3 := i3, p1 := d1, p2 := d2, edges := 0, outs := outs, q := q
               qValid := decide (3 ≤ outs) && !m.bad && !lost, qAt := s.cyc, bad := false }
    let s := s.setReg (Reg.MOD_OUT k) (halves outs q)
    let s := modAmend s k
    if 3 ≤ outs && !lost then s.put (Fld.MOD_STATUS_STATE k) 2 else s

/-- Input k is enabled in input mode, where the clock faults of Table 7.1 apply. -/
def State.modInput (s : State) (k : Nat) : Bool := s.flag (Fld.MOD_CFG_EN k) && !s.flag (Fld.MOD_CFG_CLKOUT k)

/-- MEXP of input k (R195). -/
def State.mexp (s : State) (k : Nat) : Nat := s.get (Fld.MOD_CFG_PERIOD k)

/-- An interval is a glitch's; it lies within MEXP ± MEXP / 8 (Table 7.1). -/
def State.modGlitchy (s : State) (k t : Nat) : Bool := decide (t < s.mexp k / 2)
def State.modNear (s : State) (k t : Nat) : Bool :=
  decide (s.mexp k - s.mexp k / 8 ≤ t) && decide (t ≤ s.mexp k + s.mexp k / 8)

/-- A glitch: the edge that ends the interval clocks no bit, and the present output is spoilt (Table 7.1). -/
def modGlitched (s : State) (k : Nat) : State :=
  let s := s.setMod k { s.modAt k with bad := true, outside := 0, within := 0 }
  (s.incSat (Fld.MOD_CNT_GLITCH k)).irqBit Fld.SNS_IRQ_STATUS_MGLITCH k

/-- The eighth interval in a row outside the tolerance (Table 7.1). -/
def modRateOff (s : State) (k : Nat) : State :=
  let s := s.setMod k { s.modAt k with off := true, outside := 0, within := 0 }
  (s.put (Fld.MOD_STATUS_STATE k) 3).irqBit Fld.SNS_IRQ_STATUS_MRATE k

/-- A sampling edge of an input-mode input that ends an interval of `t` cycles, with bit `mdat` (R192, R195, Table 7.1). An edge that
restarts the filter clocks no bit itself (DEDUCED, log entry 43). -/
def modInEdge (s : State) (k : Nat) (mdat : Bool) (t : Nat) : State :=
  let m := s.modAt k
  let s := (s.setMod k { m with last := s.cyc }).modInterval k t
  if m.lost then modRestart s k
  else if s.modGlitchy k t then modGlitched s k
  else if s.modNear k t then
    if m.off && decide (8 ≤ m.within + 1) then modRestart s k
    else modEdge (s.setMod k { s.modAt k with outside := 0, within := m.within + 1 }) k mdat
  else
    let s := modEdge s k mdat
    if !m.off && decide (8 ≤ m.outside + 1) then modRateOff s k
    else s.setMod k { s.modAt k with outside := m.outside + 1, within := 0 }

/-- Whether an edge is a sampling edge of input k (R192). -/
def State.samples (s : State) (k : Nat) (e : ModEdge) : Bool := e.rising != s.flag (Fld.MOD_CFG_EDGE k)

/-- Sampling edges of output-mode input k from the divider's start to cycle `t`: the rising edge that starts the divider restarts the
filter and is none (R194, Table 7.10). -/
def State.edgesBy (s : State) (k t : Nat) : Nat :=
  let div := s.get (Fld.MOD_CFG_PERIOD k)
  (t - (s.modAt k).divAt + if s.flag (Fld.MOD_CFG_EDGE k) then div / 2 else 0) / div

/-- MOD_DECIMATION: input k takes the bits at its sampling edges, the last of them in this cycle; at each OSR-th a boundary delivers an
output (R192). In output mode the edges are the divider's, so that none comes at another time (R194); in input mode each is
checked against Table 7.1. -/
def execModDecimation (k : Fin 4) (edges : List ModEdge) (s : State) : Host.Outcome State Fault Refusal :=
  act s fun s =>
    let m := s.modAt k
    let taken := edges.filter (s.samples k)
    if s.modInput k then taken.foldl (fun s e => modInEdge s k e.mdat e.interval) s
    else if s.flag (Fld.MOD_CFG_EN k) && !m.startDue && !taken.isEmpty && decide (s.edgesBy k (s.cyc - 1) < s.edgesBy k s.cyc) &&
        decide (s.edgesBy k m.last + taken.length = s.edgesBy k s.cyc) then
      (taken.foldl (fun s e => modEdge s k e.mdat) (s.setMod k { m with last := s.cyc })).modInterval k
        (s.get (Fld.MOD_CFG_PERIOD k))
    else s

/-- MOD_CLOCK_LOST: no sampling edge for 4 × MEXP cycles in a row, of which the last was the cycle before (Table 7.1). -/
def execModClockLost (k : Fin 4) (s : State) : Host.Outcome State Fault Refusal :=
  act s fun s =>
    let m := s.modAt k
    if s.modInput k && !m.lost && decide (m.last + 4 * s.mexp k < s.cyc) then
      let s := s.setMod k { m with lost := true, off := false, outside := 0, within := 0 }
      ((s.put (Fld.MOD_STATUS_STATE k) 3).irqBit Fld.SNS_IRQ_STATUS_MLOST k).incSat (Fld.MOD_CNT_LOST k)
    else s

/-- An edge of an input-mode input that a condition names. -/
def modEdgeIf (s : State) (k : Nat) (e : ModEdge) (c : Bool) : State :=
  if s.modInput k && s.samples k e && c then modInEdge s k e.mdat e.interval else s

/-- MOD_GLITCH: an edge that ends an interval shorter than MEXP / 2 (Table 7.1). -/
def execModGlitch (k : Fin 4) (edge : ModEdge) (s : State) : Host.Outcome State Fault Refusal :=
  act s fun s => modEdgeIf s k edge (!(s.modAt k).lost && s.modGlitchy k edge.interval)

/-- MOD_RATE_CHANGE: the edge that ends the eighth interval in a row outside the tolerance (Table 7.1). -/
def execModRateChange (k : Fin 4) (edge : ModEdge) (s : State) : Host.Outcome State Fault Refusal :=
  act s fun s =>
    let m := s.modAt k
    modEdgeIf s k edge (!m.lost && !m.off && m.outside = 7 && !s.modGlitchy k edge.interval && !s.modNear k edge.interval)

/-- MOD_CLOCK_RECOVERY: the first edge after a loss, or the edge that ends the eighth interval in a row within the tolerance after a
rate change: the filter restarts (Table 7.1). -/
def execModClockRecovery (k : Fin 4) (edge : ModEdge) (s : State) : Host.Outcome State Fault Refusal :=
  act s fun s =>
    let m := s.modAt k
    modEdgeIf s k edge (m.lost || (m.off && m.within = 7 && !s.modGlitchy k edge.interval && s.modNear k edge.interval))

/-- PERIOD is a listed encoding for the CLKOUT value that the write carries (R194, R195). -/
def modPeriodOk (clkout : Bool) (p : Nat) : Bool :=
  if clkout then decide (8 ≤ p) && decide (p ≤ 64) && p % 2 = 0 else decide (8 ≤ p) && decide (p ≤ 196)

/-- A write of MOD_CFG (R193, R194, R195, R23). A change to output mode, or of its divider, on an enabled input starts the divider as
enabling does (DESIGN CHOICE, log entry 43). -/
def modCfgWrite (s : State) (k : Nat) (v : Word) : State :=
  let old := s.reg (Reg.MOD_CFG k)
  let new := v &&& 0x0037FF37
  let axis := (Fld.MOD_CFG_AXIS k).get new
  let en := (Fld.MOD_CFG_EN k).get new = 1
  let clkout := (Fld.MOD_CFG_CLKOUT k).get new = 1
  let taken := (List.range 4).any fun j => decide (j ≠ k) && s.modRouted j axis &&
    s.get (Fld.MOD_CFG_CHAN j) = (Fld.MOD_CFG_CHAN k).get new
  if 5 < axis || !modPeriodOk clkout ((Fld.MOD_CFG_PERIOD k).get new) || (en && taken) then s
  else
    let was := s.flag (Fld.MOD_CFG_EN k)
    let same := was && s.flag (Fld.MOD_CFG_CLKOUT k) && s.mexp k = (Fld.MOD_CFG_PERIOD k).get new
    let s := s.setReg (Reg.MOD_CFG k) new
    if !en then (s.put (Fld.MOD_STATUS_STATE k) 0).setMod k { s.modAt k with startDue := false, qValid := false }
    else if old = new then s
    else if clkout && !same then
      if s.running then
        let s := modRestart s k
        s.setMod k { s.modAt k with startDue := true }
      else modStart s k (s.cyc + 1)
    else
      let s := modRestart s k
      s.setMod k { s.modAt k with startDue := clkout && (s.modAt k).startDue, last := s.cyc }

/-- MOD_CFG_WRITE (R193). -/
def execModCfgWrite (k : Fin 4) (v : Word) (s : State) : Host.Outcome State Fault Refusal :=
  act s fun s => if s.served (Reg.MOD_CFG k) then modCfgWrite s k v else s

/-- At a tick edge, output-mode inputs enabled since the last one start, and at a gaffer start all of them restart (R194). -/
def modTickEdge (s : State) (first : Bool) : State :=
  (List.range 4).foldl (fun s k =>
    if (s.modAt k).startDue || (first && s.flag (Fld.MOD_CFG_EN k) && s.flag (Fld.MOD_CFG_CLKOUT k)) then modStart s k s.cyc
    else s) s

/-- At a tick edge each group can accept the new tick's triggers (R184). -/
def snsTickEdge (s : State) : State :=
  { s with sns := s.sns.map fun x => { x with trigSeen := false, scSeen := false, missed := none } }

/-! ### Registers -/

/-- SNS_CNT_CLR: a write of CLR clears the counters of an axis or of a modulator input (R201). -/
def execSnsCntClr (which : SnsCounter) (s : State) : Host.Outcome State Fault Refusal :=
  act s fun s =>
    match which with
    | .axis n => if s.served (Reg.SNS_CNT_CLR n) then s.clrReg (Reg.SNS_CNT n) else s
    | .modulator k => if s.served (Reg.MOD_CNT_CLR k) then s.clrReg (Reg.MOD_CNT k) else s

end Sys2Proof.Machine
end

