-- ==== Sys2Proof/Machine/Valves.lean ====
section
/-!
DEFINITION. The shared-switch valve drivers (chapter 11, R280 to R292).
-/
namespace Sys2Proof.Machine

/-- The state of channel c beside its registers. -/
def State.vlvAt (s : State) (c : Nat) : Valve := s.vlv.getD c Valve.init

def State.setVlv (s : State) (c : Nat) (v : Valve) : State := { s with vlv := lput .init s.vlv c v }

/-- STATE of channel c: 0 OFF, 1 SWITCH_WAIT, 2 DEFERRED, 3 PEAK, 4 HOLD, 5 FAULT (Table 11.4). -/
def State.vState (s : State) (c : Nat) : Nat := s.get (Fld.VLV_STATUS_STATE c)

/-- The channel enters a state. -/
def State.setVState (s : State) (c st : Nat) : State := s.put (Fld.VLV_STATUS_STATE c) st

def State.valveLow (s : State) (c : Nat) (b : Bool) : State := s.setVlv c { s.vlvAt c with low := b }

def State.valveTimer (s : State) (c n : Nat) : State := s.setVlv c { s.vlvAt c with timer := n }

/-- The latest sample of channel c. -/
def State.valveI (s : State) (c : Nat) : Nat := s.get (Fld.VLV_STATUS_I c)

/-- The sum of the two currents of pair p. -/
def State.pairSum (s : State) (p : Nat) : Nat := s.valveI (2 * p) + s.valveI (2 * p + 1)

/-- The pair's currents sum to FPEAK or more (R287). -/
def State.pairOver (s : State) (p : Nat) : Bool := decide (s.get (Fld.VLV_FPEAK_FPEAK p) ≤ s.pairSum p)

/-- SWITCH_WAIT counts as PEAK within a pair (R286). -/
def State.inPeak (s : State) (c : Nat) : Bool := s.vState c = 1 || s.vState c = 3

/-- The other channel of the pair. -/
def partner (c : Nat) : Nat := if c % 2 = 0 then c + 1 else c - 1

/-- A VALVE record (Table 22.2). -/
def State.valveTell (s : State) (c event : Nat) : State :=
  s.tell 0x0D 9 c (leBytes 1 event ++ [0] ++ leBytes 2 (s.valveI c) ++ leBytes 2 (s.get (Fld.VLV_DEFER_DEFER c)))

/-- The channel enters FAULT: 1 OPEN, 2 SHORT (R289). -/
def valveFault (s : State) (c cause : Nat) : State :=
  let s := ((s.setVState c 5).put (Fld.VLV_STATUS_FAULT c) cause).valveLow c false
  ((s.incSat (Fld.VLV_CNT_FAULTS c)).irqBit Fld.VLV_IRQ_STATUS_FAULT c).valveTell c (cause + 1)

/-- A peak starts (R282, R283). -/
def valvePeak (s : State) (c : Nat) : State :=
  let s := (((s.setVState c 3).put (Fld.VLV_STATUS_RESULT c) stOK).put (Fld.VLV_STATUS_LIMITED c) 0).put
    (Fld.VLV_STATUS_PTIMEOUT c) 0
  s.setVlv c { s.vlvAt c with timer := 0, low := true }

/-- HOLD begins; the low side goes off where the sample is already at IHOLD (R284). -/
def valveHold (s : State) (c : Nat) : State :=
  let v := s.vlvAt c
  (s.setVState c 4).setVlv c
    { v with opens := 0, low := v.low && decide (s.valveI c < s.get (Fld.VLV_LEVELS_IHOLD c)) }

/-- The end conditions of a peak, in the order of R283. -/
def peakEnd (s : State) (c : Nat) : State :=
  if s.vState c ≠ 3 then s
  else
    let tooHigh := s.pairOver (c / 2)
    let s := if tooHigh then s.irqBit Fld.VLV_IRQ_STATUS_LIMITED c else s
    if s.get (Fld.VLV_LEVELS_IPEAK c) ≤ s.valveI c then valveHold s c
    else if tooHigh then (valveHold s c).put (Fld.VLV_STATUS_LIMITED c) 1
    else if s.get (Fld.VLV_TPEAK_TPEAK c) ≤ (s.vlvAt c).timer then
      if s.get (Fld.VLV_FAULTLIM_IOPEN c) ≤ s.valveI c then (valveHold s c).put (Fld.VLV_STATUS_PTIMEOUT c) 1
      else valveFault s c 1
    else s

/-- One sample in HOLD (R284, R287, R289). -/
def holdStep (s : State) (c : Nat) : State :=
  let v := s.vlvAt c
  let i := s.valveI c
  let opens := if i < s.get (Fld.VLV_FAULTLIM_IOPEN c) then v.opens + 1 else 0
  let off := decide (s.get (Fld.VLV_LEVELS_IHOLD c) ≤ i) || s.pairOver (c / 2)
  let s := s.setVlv c { v with opens := opens, low := v.low && !off }
  if 64 ≤ opens then valveFault s c 1 else s

/-- SHORT: at or above ISHORT at two consecutive boundaries (R289). -/
def shortStep (s : State) (c : Nat) : State :=
  let v := s.vlvAt c
  let st := s.vState c
  let high := (st = 1 || st = 3 || st = 4) && decide (s.get (Fld.VLV_FAULTLIM_ISHORT c) ≤ s.valveI c)
  let n := if high then v.shorts + 1 else 0
  let s := s.setVlv c { v with shorts := n }
  if 2 ≤ n then valveFault s c 2 else s

/-- The channel's own step at a boundary; `busy` says whether its partner was in PEAK after the boundary before (R283, R286,
R289). -/
def channelStep (s : State) (c : Nat) (busy : Bool) : State :=
  let s := shortStep s c
  let t := (s.vlvAt c).timer + 1
  match s.vState c with
  | 1 =>
    let s := s.valveTimer c t
    if s.get (Fld.VLV_PAIR_HSWDLY (c / 2)) ≤ t then peakEnd (valvePeak s c) c else s
  | 2 =>
    let s := (s.valveTimer c t).put (Fld.VLV_DEFER_DEFER c) (satU 16 t)
    let lim := s.get (Fld.VLV_PAIR_MAXDEFER (c / 2))
    if !busy && t ≤ lim then peakEnd (valvePeak s c) c
    else if lim < t then
      let s := (s.setVState c 0).put (Fld.VLV_STATUS_RESULT c) stOverlapReject
      ((s.incSat (Fld.VLV_CNT_REJECTS c)).irqBit Fld.VLV_IRQ_STATUS_REJECT c).valveTell c 1
    else s
  | 3 => peakEnd (s.valveTimer c t) c
  | 4 => holdStep s c
  | _ => s

/-- An OFF request of channel c is taken; it wins over an ON request (R282). -/
def takeOff (s : State) (c : Nat) : State :=
  let v := s.vlvAt c
  if !v.off then s
  else
    let s := s.setVlv c { v with on := false, off := false }
    let s := if s.vState c = 2 then s.put (Fld.VLV_STATUS_RESULT c) stAborted else s
    ((s.setVState c 0).put (Fld.VLV_STATUS_FAULT c) 0).valveLow c false

/-- An ON request of channel c is taken (R282, R283, R286). -/
def takeOn (s : State) (c : Nat) : State :=
  let v := s.vlvAt c
  let s := s.setVlv c { v with on := false }
  let st := s.vState c
  if !v.on then s
  else if !s.ready 8 || !s.flag (Fld.PWM_CFG_CEN 6) then s.put (Fld.VLV_STATUS_RESULT c) stNotReady
  else if st = 5 then s.put (Fld.VLV_STATUS_RESULT c) stBadSequence
  else if st ≠ 0 then s
  else if s.inPeak (partner c) then ((s.setVState c 2).valveTimer c 0).put (Fld.VLV_DEFER_DEFER c) 0
  else if s.flag (Fld.VLV_PSTAT_HSW (c / 2)) then valvePeak s c
  else
    let s := s.put (Fld.VLV_PSTAT_HSW (c / 2)) 1
    if s.get (Fld.VLV_PAIR_HSWDLY (c / 2)) = 0 then valvePeak s c else (s.setVState c 1).valveTimer c 0

/-- Pair p steps: the two channels' own steps, then the OFF requests, so that a partner that leaves PEAK at this boundary defers no
request, then the ON requests in index order, then a peak just started may end at once (R283, R286), then the switch (R285). -/
def pairStep (s : State) (p : Nat) : State :=
  let a := 2 * p
  let b := 2 * p + 1
  let limited (s : State) (c : Nat) : State := if s.vState c = 3 then s.irqBit Fld.VLV_IRQ_STATUS_LIMITED c else s
  let s := if s.pairOver p then limited (limited (s.incSat (Fld.VLV_PSTAT_SUMLIM p)) a) b else s
  let busyA := s.inPeak a
  let busyB := s.inPeak b
  let s := channelStep (channelStep s a busyB) b busyA
  let wasA := s.vState a
  let wasB := s.vState b
  let s := takeOff (takeOff s a) b
  let s := takeOn (takeOn s a) b
  let s := if wasA = 3 then s else peakEnd s a
  let s := if wasB = 3 then s else peakEnd s b
  let live (c : Nat) : Bool := decide (1 ≤ s.vState c) && decide (s.vState c ≤ 4)
  s.putB (Fld.VLV_PSTAT_HSW p) (live a || live b)

/-- The code of a shunt voltage in nV: V / VLVREF times 4096, rounded towards minus infinity and saturated (R281). -/
def valveCode (v : Int) : Nat := (max 0 (min 4095 (v * 4096 / (Config.vlvref : Int)))).toNat

/-- VLV_SAMPLE_BOUNDARY: at a DTIME that is a multiple of 128 the eight VLVI inputs have converted, the levels written since the boundary
before take effect (R288), and each channel state machine steps (R281). -/
def execVlvSampleBoundary (volts : Vector Int 8) (s : State) : Host.Outcome State Fault Refusal :=
  act s fun s =>
    if s.dtime.toNat % 128 ≠ 0 then s
    else
      let s := (List.range 8).foldl (fun s c => s.put (Fld.VLV_STATUS_I c) (valveCode (volts.toList.getD c 0))) s
      let s := (List.range 8).foldl (fun s c => s.loadReg (Reg.VLV_LEVELS c)) s
      (List.range 4).foldl pairStep s

/-- Every channel is turned OFF at once; a DEFERRED one gets ABORTED (R290). -/
def valvesOff (s : State) : State :=
  let s := (List.range 8).foldl (fun s c =>
    let s := if s.vState c = 2 then s.put (Fld.VLV_STATUS_RESULT c) stAborted else s
    ((s.setVState c 0).put (Fld.VLV_STATUS_FAULT c) 0).valveLow c false) s
  (List.range 4).foldl (fun s p => s.put (Fld.VLV_PSTAT_HSW p) 0) s

/-- The valve registers of a state after a reset, RESULT of each channel that was DEFERRED before it being ABORTED (R290). -/
def deferredAborts (before after : State) : State :=
  (List.range 8).foldl (fun t c => if before.vState c = 2 then t.put (Fld.VLV_STATUS_RESULT c) stAborted else t) after

/-- A PWMX counter zero turns the low side of a holding channel on when its latest sample is below IHOLD (R284), as it stood at the
latest boundary (R288). -/
def holdTurnOn (s : State) : State :=
  (List.range 8).foldl (fun s c =>
    if s.vState c = 4 && decide (s.valveI c < s.geta (Fld.VLV_LEVELS_IHOLD c)) then s.valveLow c true else s) s

/-- A write of VLV_CMD: the request waits for the next boundary; OFF wins over ON (R282). -/
def vlvCmdWrite (s : State) (c : Nat) (v : Word) : State :=
  let ch := s.vlvAt c
  s.setVlv c { ch with on := ch.on || (Fld.VLV_CMD_ON c).get v = 1, off := ch.off || (Fld.VLV_CMD_OFF c).get v = 1 }

/-- VLV_ON: a write of VLV_CMD.ON (R282). -/
def execVlvOn (c : Fin 8) (s : State) : Host.Outcome State Fault Refusal :=
  act s fun s => if s.served (Reg.VLV_CMD c) then vlvCmdWrite s c 1 else s

/-- VLV_OFF: a write of VLV_CMD.OFF (R282). -/
def execVlvOff (c : Fin 8) (s : State) : Host.Outcome State Fault Refusal :=
  act s fun s => if s.served (Reg.VLV_CMD c) then vlvCmdWrite s c 2 else s

/-- A write of VLV_LEVELS: IPEAK above FPEAK of the pair stores FPEAK and sets CLAMPED (R288). -/
def vlvLevelsWrite (s : State) (c : Nat) (v : Word) : State :=
  let lim := s.get (Fld.VLV_FPEAK_FPEAK (c / 2))
  let i := (Fld.VLV_LEVELS_IPEAK c).get v
  let s := s.put (Fld.VLV_LEVELS_IHOLD c) ((Fld.VLV_LEVELS_IHOLD c).get v)
  (s.put (Fld.VLV_LEVELS_IPEAK c) (min i lim)).putB (Fld.VLV_LEVELS_CLAMPED c) (decide (lim < i))

/-- VLV_LEVELS_WRITE (R288). -/
def execVlvLevelsWrite (c : Fin 8) (v : Word) (s : State) : Host.Outcome State Fault Refusal :=
  act s fun s => if s.served (Reg.VLV_LEVELS c) then vlvLevelsWrite s c v else s

/-- VLV_CNT_CLR (R292). -/
def execVlvCntClr (c : Fin 8) (s : State) : Host.Outcome State Fault Refusal :=
  act s fun s => if s.served (Reg.VLV_CNT_CLR c) then s.clrReg (Reg.VLV_CNT c) else s

/-- Whether pin VLVGc is on (R280). -/
def State.vlvgOn (s : State) (c : Nat) : Bool := (s.vlvAt c).low

/-- Whether pin HSWGp is on (R285). -/
def State.hswgOn (s : State) (p : Nat) : Bool := s.flag (Fld.VLV_PSTAT_HSW p)

end Sys2Proof.Machine
end

