-- ==== Sys2Proof/Machine/Pwm.lean ====
section
/-!
DEFINITION. The PWM modules, their outputs, trips and events (chapter 10, R260 to R279). Module m is 0 to 5 for PWMA0 to PWMA5
and 6 for PWMX. A TCLK cycle is two PCLK cycles; commands fall on TCLK cycles (log entry 12).
-/
namespace Sys2Proof.Machine

def State.pwmAt (s : State) (m : Nat) : Pwm := s.pwm.getD m Pwm.init

def State.setPwm (s : State) (m : Nat) (x : Pwm) : State := { s with pwm := lput .init s.pwm m x }

/-- The active period (R261). -/
def State.pwmPeriod (s : State) (m : Nat) : Nat := s.get (Fld.PWM_PERIOD_ACTIVE m)

/-- The count of a lap in PCLK cycle `t` (R260, R265). -/
def Lap.count (l : Lap) (t : Nat) : Nat := if l.held then 0 else (t - l.at_) % max 1 l.period

/-- The first PCLK cycle of the present TCLK cycle. -/
def State.pclk (s : State) : Nat := 2 * s.cyc

/-- The present count (Table 10.5). -/
def State.pwmCount (s : State) (m : Nat) : Nat :=
  match (s.pwmAt m).laps with
  | l :: _ => if s.flag (Fld.PWM_CFG_CEN m) then l.count s.pclk else 0
  | [] => 0

/-! ### Pins (R268) -/

/-- The reference of phase `ph` in PCLK cycle `t`: 1 while the count is below the compare (R268). -/
def refAt : List Lap → Nat → Nat → Bool
  | [], _, _ => false
  | l :: r, ph, t => if l.at_ ≤ t then decide (l.count t < l.cmp.getD ph 0) else refAt r ph t

/-- The logical state of the high-side and low-side pin of a phase (R268). -/
def State.pinsOn (s : State) (m ph : Nat) : Bool × Bool :=
  let t := s.pclk
  let h := refAt (s.pwmAt m).laps ph t
  let d := refAt (s.pwmAt m).laps ph (t - s.geta (Fld.PWM_DT_DT m))
  let en := s.flag (Fld.PWM_STATUS_EN m)
  (en && h && d, en && !h && !d)

/-- The fuse-defined disable level of pin i (0 to 5: AH, AL, BH, BL, CH, CL) of PWMAn (Table 21.1). -/
def State.disLevel (s : State) (n i : Nat) : Bool :=
  if n < 5 then s.bitF Fld.FUS_DISLVL0_DIS (6 * n + i) else s.bitF Fld.FUS_DISLVL1_DIS i

/-- The level at a PWM pin: a pin that is on is at the opposite of its disable level (R268); under a boundary-scan instruction
that drives pins it follows its cell, or holds its disable level while PROT_LOCKED = 1 (R494). A pin that is not driven is
high-impedance (R277, R478, R538, R539): `none`. -/
def State.pwmPin (s : State) (n i : Nat) : Option Bool :=
  let dis := s.disLevel n i
  if !s.pwr.driven then none else
  match s.scan with
  | some cells => some (if s.flag Fld.FUS_STATUS_PROT_LOCKED then dis else cells.getD (6 * n + i) false)
  | none =>
    let (h, l) := s.pinsOn n (i / 2)
    some ((if i % 2 = 0 then h else l) ^^ dis)

/-- The level at pin VLVGc (c below 8) or HSWG(c - 8) (R280, R494); `none` while the pins are not driven (R290). -/
def State.valvePin (s : State) (c : Nat) : Option Bool :=
  let dis := s.bitF Fld.FUS_DISLVL1_DIS (6 + c)
  if !s.pwr.driven then none else
  match s.scan with
  | some cells => some (if s.flag Fld.FUS_STATUS_PROT_LOCKED then dis else cells.getD (36 + c) false)
  | none => some ((if c < 8 then s.vlvgOn c else s.hswgOn (c - 8)) ^^ dis)

/-! ### Events (R274 to R276) -/

/-- An event output fires: ADC triggers always, the gaffer's stamp and the host as routed (R276). -/
def eventFires (s : State) (m v : Nat) : State :=
  let s := adcTriggers s m v
  let s := if s.flag (Fld.PWM_EVOUT_GAF m v) then s.setWide 64 (Reg.PWM_EVSTAMP_LO m) s.dtime.toNat else s
  if s.flag (Fld.PWM_EVOUT_IRQ m v) then s.irqBit Fld.PWM_IRQ_STATUS_EVT m else s

/-- An event source occurs; its output fires at every P-th occurrence (R275). -/
def eventOccurs (s : State) (m v : Nat) : State :=
  let x := s.pwmAt m
  let n := sget 0 x.occ v + 1
  if s.get (Fld.PWM_EVOUT_PRESC m v) < n then eventFires (s.setPwm m { x with occ := sset 0 x.occ v 0 }) m v
  else s.setPwm m { x with occ := sset 0 x.occ v n }

/-- The lap runs in PCLK cycle `t` with count `k`. -/
def lapAtCount : List Lap → Nat → Nat → Bool
  | [], _, _ => false
  | l :: r, t, k => if l.at_ ≤ t then !l.held && l.count t = k else lapAtCount r t k

/-- The counter of module m is `k` in a PCLK cycle of the present TCLK cycle (R274). -/
def State.countsTo (s : State) (m k : Nat) : Bool :=
  s.flag (Fld.PWM_CFG_CEN m) && (lapAtCount (s.pwmAt m).laps s.pclk k || lapAtCount (s.pwmAt m).laps (s.pclk + 1) k)

/-- PWM_EVENT: the PERIOD event (v = 1) or an event compare (v = 2 to 5) of module m, in the cycle in which its condition holds; a
compare matches at most once in a lap, and one at or above the period never (R267, R274). The ZERO event is part of every counter
zero. In another cycle the command has no effect (DESIGN CHOICE, log entry 12). -/
def execPwmEvent (m : Fin 7) (v : Fin 6) (s : State) : Host.Outcome State Fault Refusal :=
  act s fun s =>
    let x := s.pwmAt m
    let v := v.val
    if v = 0 then s
    else if v = 1 then (if s.countsTo m (s.pwmPeriod m - 1) then eventOccurs s m v else s)
    else
      let k := s.get (Fld.PWM_EVC_ACTIVE m (v - 2))
      if v ∈ x.matched ∨ s.pwmPeriod m ≤ k ∨ s.countsTo m k = false then s
      else eventOccurs (s.setPwm m { x with matched := v :: x.matched }) m v

/-! ### Counter zero (R265 to R267, R269) -/

/-- The laps that the dead-time delay still reaches (R268: the last 1023 values). -/
def keepLaps (now : Nat) : List Lap → List Lap
  | [] => []
  | l :: r => if l.at_ + 1023 < now then [l] else l :: keepLaps now r

/-- The compare count of duty `d` in a lap of period `p` (R266). -/
def compareOf (fmax p d : Nat) : Nat :=
  let cmax := fmax * p / 2 ^ 16
  min (max ((d * p + 0x8000) / 2 ^ 16) (p - cmax)) cmax

/-- A lap starts in PCLK cycle `t`, or a held count, with these compares. -/
def pushLap (s : State) (m t : Nat) (held : Bool) (cmp : List Nat) : State :=
  let x := s.pwmAt m
  s.setPwm m { x with laps := ⟨t, held, s.pwmPeriod m, cmp⟩ :: keepLaps t x.laps, matched := [] }

/-- A counter zero while CEN = 1: a lap starts in PCLK cycle `t`, the duties, the dead time and the event compares load, the ZERO event occurs,
and PWMX turns holding channels on (R265 to R269, R284). -/
def counterZero (s : State) (m t : Nat) : State :=
  if !s.flag (Fld.PWM_CFG_CEN m) then s
  else
    let s := s.loadReg (Reg.PWM_DT m)
    let s := (List.range 4).foldl (fun s e => s.put (Fld.PWM_EVC_ACTIVE m e) (s.get (Fld.PWM_EVC_VALUE m e))) s
    let s := if m = 6 then pushLap s m t false []
      else
        let c (f : Field) := compareOf (s.get (Fld.FUS_FMAX_FMAX m)) (s.pwmPeriod m) (s.get f)
        let l := [c (Fld.PWM_DUTY_AB_DA m), c (Fld.PWM_DUTY_AB_DB m), c (Fld.PWM_DUTY_C_DC m)]
        let s := ((s.put (Fld.PWM_CMP_AB_CA m) (l.getD 0 0)).put (Fld.PWM_CMP_AB_CB m) (l.getD 1 0)).put
          (Fld.PWM_CMP_C_CC m) (l.getD 2 0)
        pushLap s m t false l
    let s := if m = 6 then holdTurnOn s else s
    eventOccurs s m 0

/-- The active period loads from the shadow (R261, R263). -/
def loadPeriod (s : State) (m : Nat) : State := s.put (Fld.PWM_PERIOD_ACTIVE m) (s.get (Fld.PWM_PERIOD_PERIOD m))

/-- A counter zero that is no tick edge: the period loads too, unless the module is tick-locked and ticks run (R261, R263). -/
def lapZero (s : State) (m t : Nat) : State :=
  if !s.flag (Fld.PWM_CFG_CEN m) then s
  else counterZero (if s.flag (Fld.PWM_CFG_TICKLOCK m) && s.running then s else loadPeriod s m) m t

/-- The PCLK cycle of the present TCLK cycle in which the counter of module m returns to 0 at the end of a lap (R260). -/
def State.wraps (s : State) (m : Nat) : Option Nat :=
  match (s.pwmAt m).laps with
  | l :: _ => if l.held then none else [s.pclk, s.pclk + 1].find? fun t => decide (l.at_ < t) && l.count t = 0
  | [] => none

/-- PWM_COUNTER_ZERO: the counter of module m returns to 0 at the end of a lap (R260, R266); in a cycle in which it does not, the
command has no effect (DESIGN CHOICE, log entry 12). -/
def execPwmCounterZero (m : Fin 7) (s : State) : Host.Outcome State Fault Refusal :=
  act s fun s =>
    match s.wraps m with
    | some t => lapZero s m t
    | none => s

/-- R262: a period at or below the present count has taken effect. -/
def periodShort (s : State) (m : Nat) : State :=
  ((counterZero s m s.pclk).incSat (Fld.PWM_CNT_PERIOD_SHORT m)).irqBit Fld.PWM_IRQ_STATUS_PERIOD_SHORT m

/-- The count goes on under a new active period (R261). -/
def reLap (s : State) (m : Nat) : State :=
  match (s.pwmAt m).laps with
  | l :: r => s.setPwm m { s.pwmAt m with laps := { l with period := s.pwmPeriod m } :: r }
  | [] => s

/-- A write of PWM_PERIOD: 0 to 15 are unlisted; in IMMEDIATE mode of a module that is not tick-locked the active period loads
at once (R261, R262). -/
def pwmPeriodWrite (s : State) (m : Nat) (v : Word) : State :=
  let p := (Fld.PWM_PERIOD_PERIOD m).get v
  if p < 16 then s
  else
    let s := s.put (Fld.PWM_PERIOD_PERIOD m) p
    if s.flag (Fld.PWM_CFG_PLOAD m) && !s.flag (Fld.PWM_CFG_TICKLOCK m) && s.flag (Fld.PWM_CFG_CEN m) then
      let count := s.pwmCount m
      let s := loadPeriod s m
      if p ≤ count then periodShort s m else reLap s m
    else s

/-- PWM_PERIOD_WRITE (R261). -/
def execPwmPeriodWrite (m : Fin 7) (v : Word) (s : State) : Host.Outcome State Fault Refusal :=
  act s fun s => if s.served (Reg.PWM_PERIOD m) then pwmPeriodWrite s m v else s

/-- The axis of the module is in the AXES field of the active plan; `axes` is that field, 0 while no plan is active (R265). -/
def planAxis (axes m : Nat) : Bool := m < 6 && bitOf axes m

/-- A write of PWM_CFG: an axis of the active plan keeps TICKLOCK and CEN at 1; CEN from 0 to 1 makes a counter zero; clearing
CEN holds the count at 0, and turns the valve channels OFF for PWMX (R265, R290). -/
def pwmCfgWrite (s : State) (axes m : Nat) (v : Word) : State :=
  let was := s.flag (Fld.PWM_CFG_CEN m)
  let keep := planAxis axes m
  let now := keep || (Fld.PWM_CFG_CEN m).get v = 1
  let lock := keep || (Fld.PWM_CFG_TICKLOCK m).get v = 1
  let s := (s.put (Fld.PWM_CFG_CLOAD m) ((Fld.PWM_CFG_CLOAD m).get v)).put (Fld.PWM_CFG_PLOAD m) ((Fld.PWM_CFG_PLOAD m).get v)
  let s := (s.putB (Fld.PWM_CFG_CEN m) now).putB (Fld.PWM_CFG_TICKLOCK m) lock
  if now && !was then lapZero s m s.pclk
  else if was && !now then
    let s := pushLap s m s.pclk true (((s.pwmAt m).laps.head?.map (·.cmp)).getD [])
    if m = 6 then valvesOff s else s
  else s

/-- A write of an event compare: in IMMEDIATE mode it takes effect at once where it is above the present count (R267). -/
def pwmEvcWrite (s : State) (m e : Nat) (v : Word) : State :=
  let x := (Fld.PWM_EVC_VALUE m e).get v
  let s := s.put (Fld.PWM_EVC_VALUE m e) x
  if s.flag (Fld.PWM_CFG_CLOAD m) && s.flag (Fld.PWM_CFG_CEN m) && s.pwmCount m < x then s.put (Fld.PWM_EVC_ACTIVE m e) x
  else s

/-- PWM_EVC_WRITE (R267). -/
def execPwmEvcWrite (m : Fin 7) (e : Fin 4) (v : Word) (s : State) : Host.Outcome State Fault Refusal :=
  act s fun s => if s.served (Reg.PWM_EVC m e) then pwmEvcWrite s m e v else s

/-- A write of PWM_EVOUT: the occurrence count restarts (R275). -/
def pwmEvoutWrite (s : State) (m e : Nat) (v : Word) : State :=
  let s := s.setReg (Reg.PWM_EVOUT m e) (v &&& 0x30F)
  s.setPwm m { s.pwmAt m with occ := sset 0 (s.pwmAt m).occ e 0 }

/-- PWM_EVOUT_WRITE (R275). -/
def execPwmEvoutWrite (m : Fin 7) (e : Fin 6) (v : Word) (s : State) : Host.Outcome State Fault Refusal :=
  act s fun s => if s.served (Reg.PWM_EVOUT m e) then pwmEvoutWrite s m e v else s

/-- A write of PWM_DT: below the fuse floor the floor is stored and CLAMPED set; PWMX ignores it (R269). -/
def pwmDtWrite (s : State) (m : Nat) (v : Word) : State :=
  if m = 6 then s
  else
    let lim := s.get (Fld.FUS_AXIS_DTFLOOR m)
    let d := (Fld.PWM_DT_DT m).get v
    (s.put (Fld.PWM_DT_DT m) (max d lim)).putB (Fld.PWM_DT_CLAMPED m) (decide (d < lim))

/-- PWM_DT_WRITE (R269). -/
def execPwmDtWrite (m : Fin 7) (v : Word) (s : State) : Host.Outcome State Fault Refusal :=
  act s fun s => if s.served (Reg.PWM_DT m) then pwmDtWrite s m v else s

/-! ### Enable and disable (R270, R271) -/

/-- The lowest disable code asked of the module in this cycle (R271). -/
def State.askedNow (s : State) (m : Nat) : Option Nat :=
  match (s.pwmAt m).asked with
  | some (t, c) => if t = s.cyc then some c else none
  | none => none

/-- A disable source acts on module m with a code of Table 10.2: an enabled module is disabled, and of several in that cycle the
lowest code is recorded; a module disabled in an earlier cycle does not change. PWMX records the code every time and turns the
valve channels OFF (R271). -/
def pwmDisable (s : State) (m code : Nat) : State :=
  let x := s.pwmAt m
  let low := min code ((s.askedNow m).getD code)
  let acts := m = 6 || s.flag (Fld.PWM_STATUS_EN m) || x.cut = some s.cyc
  let s := s.setPwm m { x with asked := some (s.cyc, low), cut := if acts then some s.cyc else x.cut }
  let s := if acts then (s.putB (Fld.PWM_STATUS_EN m) false).put (Fld.PWM_STATUS_DISCAUSE m) low else s
  if m = 6 then valvesOff s else s

/-- Every PWMAn is disabled (R43, R44). -/
def pwmDisableAll (s : State) (code : Nat) : State := (List.range 6).foldl (fun s n => pwmDisable s n code) s

/-- A reset disables every module, PWMX included, and leaves the code in every one (R277). -/
def pwmResetDisable (s : State) (code : Nat) : State :=
  (List.range 7).foldl (fun s m => (pwmDisable s m code).put (Fld.PWM_STATUS_DISCAUSE m) code) s

/-- The enable that waits for the edge that loads the first duties: refused while a trip latch is set or a disable falls in
the same cycle (R270, R271). -/
def pwmEnableAt (s : State) (n : Nat) : State :=
  let x := s.pwmAt n
  if !x.enable then s
  else
    let s := s.setPwm n { x with enable := false }
    let asked := s.askedNow n
    let asked := if s.get (Fld.PWM_TRIP_LATCH n) ≠ 0 then some (min 2 (asked.getD 2)) else asked
    match asked with
    | some c => s.put (Fld.PWM_STATUS_DISCAUSE n) c
    | none => s.putB (Fld.PWM_STATUS_EN n) true

/-- PWM_DISABLE_CMD: a write of PWM_CTRL with DIS = 1 (R271). -/
def execPwmDisableCmd (m : Fin 7) (s : State) : Host.Outcome State Fault Refusal :=
  act s fun s => if s.served (Reg.PWM_CTRL m) then pwmDisable s m 7 else s

/-- PWM_CNT_CLR (R279). -/
def execPwmCntClr (m : Fin 7) (s : State) : Host.Outcome State Fault Refusal :=
  act s fun s => if s.served (Reg.PWM_CNT_CLR m) then s.clrReg (Reg.PWM_CNT m) else s

/-! ### Trips (R196, R272, R273) -/

/-- The trip inputs of PWMAn take these levels (bits 0 to 3: IA, IB, IC, VDC). Each that goes high disables the module, latches,
counts and raises the interrupts of both blocks (R197, R272). -/
def tripLevels (s : State) (n live : Nat) : State :=
  let was := s.get (Fld.PWM_TRIP_LIVE n)
  let rose := (List.range 4).filter fun i => bitOf live i && !bitOf was i
  let s := (s.put (Fld.PWM_TRIP_LIVE n) live).put (Fld.SNS_TRIPST_LIVE n) live
  if rose.isEmpty then s
  else
    let s := rose.foldl (fun s i => (s.setBit (Fld.PWM_TRIP_LATCH n) i).setBit (Fld.SNS_TRIPST_SEEN n) i) s
    let s := (s.putB (Fld.PWM_STATUS_TRIPPED n) true).incSat (Fld.PWM_CNT_TRIPS n) rose.length
    let s := (s.irqBit Fld.PWM_IRQ_STATUS_TRIP n).irqBit Fld.SNS_IRQ_STATUS_TRIP n
    pwmDisable s n 2

/-- A comparator's output: it fires beyond the threshold, and once fired it releases 10 mV inside it (R196). Voltages in nV; the
threshold is `th` / 1024 of VREF. -/
def fires (was : Bool) (th : Nat) (v : Int) : Bool :=
  let t := (th : Int) * (Config.vref : Int)
  if was then decide (t - 10000000 * 1024 ≤ 1024 * v) else decide (t < 1024 * v)

/-- The four comparators of axis n compare the voltages at their inputs with their thresholds (R196). A phase comparator releases only
where both of its sides do. -/
def compare (s : State) (n : Nat) : State :=
  let v (i : Nat) : Int := (s.snsAt n).vin.getD i 0
  let was := s.get (Fld.PWM_TRIP_LIVE n)
  let oc := s.get (Fld.SNS_TRIPOC_TH n)
  let phase (i : Nat) : Bool := fires (bitOf was i) oc (v i) || fires (bitOf was i) oc (-v i)
  let out := [phase 0, phase 1, phase 2, fires (bitOf was 3) (s.get (Fld.SNS_TRIPOV_TH n)) (v 3)]
  if s.ready 5 then tripLevels s n (maskOf id out) else s

/-- Every comparator compares; none does while the SNS function is not ready (R196). -/
def compareAll (s : State) : State := (List.range 6).foldl compare s

/-- TRIP: the comparator inputs of axis n take these voltages (R196, R272). The comparators run while the SNS function is
ready. -/
def execTrip (n : Fin 6) (volts : Vector Int 4) (s : State) : Host.Outcome State Fault Refusal :=
  act s fun s => compare (s.setSns n { s.snsAt n with vin := volts.toList }) n

/-- A write of SNS_TRIPOC or SNS_TRIPOV: TH above the fuse ceiling stores the ceiling and sets CLAMPED, and the comparators compare with
the new threshold (R197, Table 7.2; within 1 µs, log entry 12). -/
def tripThresholdWrite (s : State) (n : Nat) (bus : Bool) (v : Word) : State :=
  if bus then
    let lim := s.get (Fld.FUS_AXIS_OV_CEIL n)
    let th := (Fld.SNS_TRIPOV_TH n).get v
    compare ((s.put (Fld.SNS_TRIPOV_TH n) (min th lim)).putB (Fld.SNS_TRIPOV_CLAMPED n) (decide (lim < th))) n
  else
    let lim := s.get (Fld.FUS_AXIS_OC_CEIL n)
    let th := (Fld.SNS_TRIPOC_TH n).get v
    compare ((s.put (Fld.SNS_TRIPOC_TH n) (min th lim)).putB (Fld.SNS_TRIPOC_CLAMPED n) (decide (lim < th))) n

/-- TRIP_THRESHOLD_WRITE (R197). -/
def execTripThresholdWrite (n : Fin 6) (bus : Bool) (v : Word) (s : State) : Host.Outcome State Fault Refusal :=
  act s fun s =>
    if s.served (if bus then Reg.SNS_TRIPOV n else Reg.SNS_TRIPOC n) then tripThresholdWrite s n bus v else s

/-- A write of PWM_TRIP: a 1 clears a LATCH bit whose comparator output is 0 (R273). -/
def tripLatchClear (s : State) (m : Nat) (v : Word) : State :=
  let w := (Fld.PWM_TRIP_LATCH m).get v
  let live := s.get (Fld.PWM_TRIP_LIVE m)
  let s := (List.range 4).foldl (fun s i => if bitOf w i && !bitOf live i then s.putBit (Fld.PWM_TRIP_LATCH m) i false else s) s
  s.putB (Fld.PWM_STATUS_TRIPPED m) (decide (s.get (Fld.PWM_TRIP_LATCH m) ≠ 0))

/-- TRIP_LATCH_CLEAR (R273). -/
def execTripLatchClear (m : Fin 7) (v : Word) (s : State) : Host.Outcome State Fault Refusal :=
  act s fun s => if s.served (Reg.PWM_TRIP m) then tripLatchClear s m v else s

/-! ### Tick edge (R263 to R265) -/

/-- The modules at a tick edge: at a gaffer start (`first`) and at a switch edge those of the plan's axes become tick-locked
and enabled to count, and the period loads; every tick-locked module is forced to a counter zero, and LOCKMIS is set where
the period is not twice TICKDIV (R263, R264, R265, R275). -/
def pwmTickEdge (s : State) (axes tickdiv : Nat) (first switched : Bool) : State :=
  (List.range 7).foldl (fun s m =>
    let s := if (first || switched) && planAxis axes m then
        (s.putB (Fld.PWM_CFG_TICKLOCK m) true).putB (Fld.PWM_CFG_CEN m) true else s
    if !s.flag (Fld.PWM_CFG_TICKLOCK m) then s
    else
      let s := if first then s.setPwm m { s.pwmAt m with occ := [] } else s
      let s := if (first || switched) && s.flag (Fld.PWM_CFG_CEN m) then loadPeriod s m else s
      let mis := decide (s.pwmPeriod m ≠ 2 * tickdiv)
      let s := if mis && !s.flag (Fld.PWM_STATUS_LOCKMIS m) then s.irqBit Fld.PWM_IRQ_STATUS_LOCK_MISMATCH m else s
      counterZero (s.putB (Fld.PWM_STATUS_LOCKMIS m) mis) m s.pclk) s

/-- After the edge's loads, the enables that waited for it (R270). -/
def pwmEnables (s : State) : State := (List.range 6).foldl pwmEnableAt s

end Sys2Proof.Machine
end

