-- ==== Sys2Proof/Machine/Control.lean ====
section
/-!
DEFINITION. The control engine (chapter 9, R231 to R259). The stop requests of a cycle are resolved together at its end (R250).
-/
namespace Sys2Proof.Machine

def State.slotOf (s : State) (n : Nat) : Slot := s.ctl.getD n Slot.init

def State.setCtl (s : State) (n : Nat) (x : Slot) : State := { s with ctl := lput .init s.ctl n x }

def State.obsAt (s : State) (n : Nat) : Obs := s.obs.getD n Obs.init

def State.setObs (s : State) (n : Nat) (x : Obs) : State := { s with obs := lput .init s.obs n x }

/-- CTL_STATE.STATE (R232): 0 STOPPED, 1 CATCH, 2 RUNNING, 3 RAMPING. -/
def State.slotState (s : State) (n : Nat) : Nat := s.get (Fld.CTL_STATE_STATE n)

def State.setSlotState (s : State) (n st : Nat) : State := s.put (Fld.CTL_STATE_STATE n) st

/-- The committed ANGLE of an axis (R214). -/
def State.angle (s : State) (n : Nat) : Nat := s.get (Fld.OBS_VAL_VAL n 0)

/-- The committed SPEED of an axis (R214). -/
def State.speed (s : State) (n : Nat) : Int := sgn 16 (s.get (Fld.OBS_VAL_VAL n 1))

/-- The angle advance of a tick at speed `w` (R203). -/
def State.advance (s : State) (n : Nat) (w : Int) : Int := rsh (w * (s.get (Fld.OBS_SPDFS_KADV n) : Nat)) 15

/-- POS of a slot, signed (R234). -/
def State.slotPos (s : State) (n : Nat) : Int := sgn 48 (s.wide (Reg.CTL_POS_LO n))

/-- The sample set of this tick, if it has latched. -/
def State.setN (s : State) (n : Nat) : Option SampleSet := (s.snsAt n).setOf s.tickno

/-! ### Entering STOPPED (R250 to R252) -/

/-- A response of a pending STOP descriptor begins on axis n, or the axis has stopped for a collision (R256). -/
def stopBeganOne (s : State) (r : StopReq) (n : Nat) (collision : Bool) : State :=
  let r' : StopReq := { r with
    left := clrBit r.left n
    began := if collision then r.began else orBit r.began n
    stopped := if collision then orBit r.stopped n else r.stopped }
  if r'.left ≠ 0 then { s with stops := s.stops.map fun x => if x = r then r' else x }
  else
    let s := { s with stops := s.stops.filter (· ≠ r) }
    match s.findDesc r.sq r.seq with
    | some d => s.complete d stOK 0 (r'.began + r'.stopped * 256)
    | none => s

/-- The same for every STOP descriptor that waits for the axis. -/
def stopBegan (s : State) (n : Nat) (collision : Bool) : State :=
  (s.stops.filter fun r => bitOf r.left n).foldl (fun s r => stopBeganOne s r n collision) s

/-- A descriptor of the control engine completes, if it is still in flight. -/
def finishDesc (s : State) (owner : Option (Nat × Nat)) (status detail result : Nat) : State :=
  match owner with
  | none => s
  | some o => match s.findDesc o.1 o.2 with
    | some d => s.complete d status detail result
    | none => s

/-- The slot leaves what it was doing. -/
def slotIdle (s : State) (n : Nat) : State :=
  let x := s.slotOf n
  let s := s.setPwm n { s.pwmAt n with enable := false }
  let s := s.setCtl n { x with
    queue := [], cur := none, start := none, ramp := none, under := 0, post := [], asks := [], off := none }
  ((s.setSlotState n 0).putB (Fld.CTL_STATE_UNDERRUN n) false).put (Fld.CTL_STATE_QDEPTH n) 0

/-- The slot enters STOPPED (R252): with a cause of Table 9.2, or with CAUSE as it was where that table has none (log entry 17); with a
STOP record unless the catch was refused (R254). A START not yet at its point of no return completes as a queued MOTION does (log entry
17). -/
def stopSlot (s : State) (n : Nat) (cause : Option Nat) (record : Bool) : State :=
  let x := s.slotOf n
  let s := slotIdle s n
  let s := match cause with
    | some c => s.put (Fld.CTL_STATE_CAUSE n) c
    | none => s
  let s := (s.incSat (Fld.CTL_CNT_STOPS n)).irqBit Fld.CTL_IRQ_STATUS_STOPPED n
  let s := if record then
      s.tell 0x0A 7 n (leBytes 1 (s.get (Fld.CTL_STATE_CAUSE n)) ++ [0] ++ leBytes 2 (lowBits 16 (s.speed n)) ++
        leBytes 6 (s.wide (Reg.CTL_POS_LO n)))
    else s
  let s := x.queue.foldl (fun s p => finishDesc s p.owner stBadSequence 0x05 0) s
  let s := match x.start with
    | some c => finishDesc s (some (c.sq, c.seq)) stBadSequence 0x05 0
    | none => s
  stopBegan s n (cause = some 2)

/-- The slot enters STOPPED with a cause of Table 9.2 and its STOP record (R252). -/
def enterStopped (s : State) (n cause : Nat) : State := stopSlot s n (some cause) true

/-- TORQUE_OFF (R226, R250): PWMAn is disabled and the slot enters STOPPED. -/
def torqueOff (s : State) (n cause : Nat) : State :=
  enterStopped (pwmDisable s n (if cause = 2 then 5 else 6)) n cause

/-- The slot enters RAMPING from the references used last (R250). -/
def enterRamping (s : State) (n cause : Nat) : State :=
  let x := s.slotOf n
  let s := if s.flag (Fld.CTL_STATE_UNDERRUN n) then
      (s.putB (Fld.CTL_STATE_UNDERRUN n) false).tell 0x0B 7 n
        ([1, 0, 0, 0] ++ leBytes 6 ((x.cur.map (·.tick)).getD 0))
    else s
  let s := (s.setSlotState n 3).put (Fld.CTL_STATE_CAUSE n) cause
  stopBegan (s.setCtl n { x with rampN := 0, ramp := none, under := 0 }) n (decide (cause = 2))

/-- A stop request reaches a slot (R250). -/
def slotRequest (s : State) (n : Nat) (a : Ask) : State :=
  let x := s.slotOf n
  s.setCtl n { x with asks := x.asks ++ [a] }

/-- Of requests that arrive together COLLISION takes precedence over HOST; else the first counts (R250). -/
def pickAsk (l : List Ask) : Option Ask := (l.find? (·.cause = 2)).orElse fun _ => l.head?

/-- STOP descriptors whose RAMP finds the slot in RAMPING: their response has begun (R250, R256). -/
def asksBegan (s : State) (n : Nat) (l : List Ask) : State :=
  (l.filterMap (·.owner)).foldl (fun s o => match s.stops.find? fun r => r.sq = o.1 && r.seq = o.2 && bitOf r.left n with
    | some r => stopBeganOne s r n false
    | none => s) s

/-- The stop requests that reached slot n in this cycle act together (R250): TORQUE_OFF wins, and disables PWMAn two cycles later; a RAMP
begins with the CONTROL action that raised it, or waits for the next one. A RAMP request to a slot in CATCH acts as TORQUE_OFF, as in
MANUAL (log entry 17). -/
def resolveAsks (s : State) (n : Nat) : State :=
  let l := (s.slotOf n).asks
  if l.isEmpty then s else
  let s := s.setCtl n { s.slotOf n with asks := [] }
  let x := s.slotOf n
  let st := s.slotState n
  let manual := st = 1 || (st = 2 && !s.flag (Fld.CTL_STATE_MODE n))
  let offs := l.filter fun a => !a.ramp || manual
  match pickAsk offs, pickAsk l with
  | some a, _ =>
    if st = 0 then s
    else
      let who := offs.map (·.owner)
      s.setCtl n { x with off := match x.off with
        | some o => some { o with askers := o.askers ++ who }
        | none => some ⟨s.cyc + 2, a.cause, who⟩ }
  | none, some a =>
    if st = 3 then asksBegan s n l
    else if st ≠ 2 then s
    else if l.any (·.action) then enterRamping s n a.cause
    else s.setCtl n { x with ramp := if x.ramp.isSome then x.ramp else some a.cause }
  | none, none => s

/-- The requests of the cycle that ends, slot by slot. -/
def resolveAll (s : State) : State := (List.range 6).foldl resolveAsks s

/-- A TORQUE_OFF that is due in this cycle (R250). -/
def torqueDue (s : State) (n : Nat) : State :=
  match (s.slotOf n).off with
  | some o =>
    if o.due ≤ s.cyc then
      if s.slotState n = 0 then s.setCtl n { s.slotOf n with off := none } else torqueOff s n o.cause
    else s
  | none => s

/-- Every TORQUE_OFF that is due in this cycle. -/
def torqueDues (s : State) : State := (List.range 6).foldl torqueDue s

/-- The requests that a CONTROL action has raised are made at its end (R248 to R250). -/
def slotPost (s : State) (n : Nat) : State :=
  let x := s.slotOf n
  s.setCtl n { x with post := [], asks := x.asks ++ x.post.map fun p => ⟨p.1, p.2, none, true⟩ }

/-- Every slot that is not STOPPED stops with cause GAFFER (R43, R44, R232, R521). -/
def slotsStop (s : State) : State :=
  (List.range 6).foldl (fun s n =>
    let s := s.setCtl n { s.slotOf n with duties := none, post := [], asks := [], off := none }
    if s.slotState n = 0 then
      match (s.slotOf n).start with
      | some c => finishDesc (slotIdle s n) (some (c.sq, c.seq)) stBadSequence 0x05 0
      | none => s
    else enterStopped s n 7) s

/-! ### Descriptors (R235 to R237, R253, R256) -/

/-- QDEPTH follows the queue. -/
def showDepth (s : State) (n : Nat) : State := s.put (Fld.CTL_STATE_QDEPTH n) (s.slotOf n).queue.length

/-- A synthesised point at the present tick (R237). -/
def State.synthPoint (s : State) (n : Nat) : Point :=
  let x := s.slotOf n
  ⟨s.tickno, x.auto, false, x.iq, x.idr, 0, s.slotPos n, none⟩

/-- The point that a MOTION descriptor carries (Table 9.1). -/
def Desc.point (d : Desc) : Point :=
  let f := d.pay 33 1
  ⟨d.pay 40 6, bitOf f 0, bitOf f 1, sgn 16 (d.pay 34 2), sgn 16 (d.pay 36 2), sgn 16 (d.pay 38 2), sgn 48 (d.pay 48 6),
   some (d.sq, d.seq)⟩

/-- The checks of R236: status and DETAIL of the first failure. -/
def State.motionBad (s : State) (n : Nat) (p : Point) : Option (Nat × Nat) :=
  let prev := match (s.slotOf n).queue.getLast? with
    | some q => q.tick
    | none => s.tickno
  if !bitOf s.axesInPlan n then some (stBadSequence, 0x01)
  else if s.slotState n = 0 then some (stBadSequence, 0x02)
  else if p.tick ≤ s.tickno then some (stOverrun, min 0xFFFF (s.tickno - p.tick + 1) * 256)
  else if p.tick ≤ prev then some (stBadSequence, 0x03)
  else if 65535 < p.tick - prev then some (stBadSequence, 0x04)
  else none

/-- MOTION: a dispatched MOTION descriptor is checked and its point enters the slot's queue; while the queue is full it waits
at dispatch (R236, R237). -/
def execMotion (sq : Fin 64) (seq : BitVec 16) (s : State) : Host.Outcome State Fault Refusal :=
  act s fun s =>
    match s.takeDispatched sq seq.toNat 0x01 with
    | none => s
    | some d =>
      let n := d.pay 32 1
      let p := d.point
      match s.motionBad n p with
      | some (st, detail) => s.complete d st detail 0
      | none =>
        let x := s.slotOf n
        if 16 ≤ x.queue.length then s
        else
          let cur := if x.queue.isEmpty then some (s.synthPoint n) else x.cur
          let s := s.begin d
          showDepth (s.setCtl n { x with cur := cur, queue := x.queue ++ [p] }) n

/-- At a tick edge the points of the new tick become current: the point of no return of their MOTIONs (R237). -/
def motionEdge (s : State) : State :=
  (List.range 6).foldl (fun s n =>
    let x := s.slotOf n
    let due := x.queue.takeWhile fun p => decide (p.tick ≤ s.tickno)
    match due.getLast? with
    | none => s
    | some a =>
      let rest := x.queue.drop due.length
      let s := showDepth (s.setCtl n { x with cur := some a, queue := rest }) n
      due.foldl (fun s p => finishDesc s p.owner stOK 0 rest.length) s) s

/-- START: a dispatched START descriptor is checked, and its slot catches from its next CONTROL action (R253, R254). A stopped
gaffer is reported before the plan that is then not active (Table 25.1; log entry 17). -/
def execStart (sq : Fin 64) (seq : BitVec 16) (s : State) : Host.Outcome State Fault Refusal :=
  act s fun s =>
    match s.takeDispatched sq seq.toNat 0x0E with
    | none => s
    | some d =>
      let n := d.pay 32 1
      let x := s.slotOf n
      if !s.running then s.complete d stBadSequence 0x07 0
      else if 5 < n || !bitOf s.axesInPlan n then s.complete d stBadSequence 0x01 0
      else if s.slotState n ≠ 0 ∨ x.start.isSome then s.complete d stBadSequence 0x06 0
      else if s.get (Fld.PWM_TRIP_LATCH n) ≠ 0 then s.complete d stBadSequence 0x08 0
      else
        let auto := bitOf (d.pay 33 1) 0
        let c : Catch := ⟨d.sq, d.seq, auto, d.pay 34 2, sgn 16 (d.pay 36 2), 0, 0, none⟩
        (s.begin d).setCtl n { x with start := some c, vdc := none }

/-- STOP: a dispatched STOP descriptor requests its response on every listed axis (R256). -/
def execStop (sq : Fin 64) (seq : BitVec 16) (s : State) : Host.Outcome State Fault Refusal :=
  act s fun s =>
    match s.takeDispatched sq seq.toNat 0x0F with
    | none => s
    | some d =>
      let axes := d.pay 32 1
      let live := (bitList 6 axes).filter fun n => s.slotState n ≠ 0
      let mask := live.foldl orBit 0
      let off := (bitList 6 axes).foldl (fun m n => if bitOf mask n then m else orBit m n) 0
      if live.isEmpty then s.complete d stOK 0 (off * 256)
      else
        let s := s.begin d
        let s := { s with stops := s.stops ++ [⟨d.sq, d.seq, mask, 0, off⟩] }
        live.foldl (fun s n => slotRequest s n ⟨decide (d.pay 33 1 = 1), 1, some (d.sq, d.seq), false⟩) s

/-! ### References (R238, R239, R250) -/

/-- What the references of a tick are. -/
structure Refs where
  auto : Bool
  iq : Int
  idr : Int
  acc : Int
  pos : Int
  nopos : Bool
  under : Bool
deriving DecidableEq, Repr

/-- The interpolation of R238. -/
def interpolate (tick : Nat) (a : Point) (b : Option Point) : Refs :=
  match b with
  | none => ⟨a.auto, a.iq, a.idr, a.acc, a.pos, a.nopos, false⟩
  | some b =>
    if b.auto ≠ a.auto then ⟨a.auto, a.iq, a.idr, a.acc, a.pos, a.nopos, false⟩
    else
      let frac := (tick - a.tick) * (2 ^ 24 / (b.tick - a.tick)) / 2 ^ 8
      let f (x y : Int) : Int := x + rsh ((y - x) * (frac : Nat)) 16
      ⟨a.auto, f a.iq b.iq, f a.idr b.idr, f a.acc b.acc, f a.pos b.pos, a.nopos, false⟩

/-- The references of a RUNNING slot in this tick, with underrun (R238, R239). -/
def runRefs (s : State) (n : Nat) : Refs × State :=
  let x := s.slotOf n
  let a := x.cur.getD (s.synthPoint n)
  let r := interpolate s.tickno a x.queue.head?
  let was := s.flag (Fld.CTL_STATE_UNDERRUN n)
  let rec_ (s : State) (e : Nat) : State := s.tell 0x0B 7 n (leBytes 1 e ++ [0, 0, 0] ++ leBytes 6 a.tick)
  if !x.queue.isEmpty then
    (r, if was then rec_ ((s.setCtl n { x with under := 0 }).putB (Fld.CTL_STATE_UNDERRUN n) false) 1 else s)
  else
    let k := x.under + 1
    let s := s.setCtl n { x with under := k }
    let s := if was then s else
      rec_ (((s.putB (Fld.CTL_STATE_UNDERRUN n) true).irqBit Fld.CTL_IRQ_STATUS_UNDERRUN n).incSat (Fld.CTL_CNT_UNDERRUNS n)) 0
    if k ≤ s.get (Fld.CTL_UNDERRUN_TICKS n) then ({ r with under := true }, s)
    else
      let m : Int := (s.get (Fld.CTL_UNDERRUN_RAMP n) : Nat)
      let dn (v : Int) : Int := v - clampI v (-m) m
      ({ r with iq := dn x.iq, idr := dn x.idr, acc := 0, under := true }, s)

/-- The references of a RAMPING tick, and whether the ramp ends with it (R250). -/
def rampRefs (s : State) (n : Nat) : Refs × Bool × State :=
  let x := s.slotOf n
  let w := s.speed n
  let deci := sgn 16 (s.get (Fld.CTL_DECEL_DECI n))
  let spd := sgn 16 (s.get (Fld.CTL_DECEL2_STOPSPD n))
  let step : Int := (s.get (Fld.CTL_DECEL_STEP n) : Nat)
  let tgt := if spd < w then -deci else if w < -spd then deci else 0
  let iq := x.iq + clampI (tgt - x.iq) (-step) step
  let idr := x.idr + clampI (-x.idr) (-step) step
  let k := x.rampN + 1
  (⟨true, iq, idr, 0, 0, true, false⟩,
   (tgt = 0 && iq = 0 && idr = 0) || decide (s.get (Fld.CTL_DECEL2_MAXTICKS n) ≤ k), s.setCtl n { x with rampN := k })

/-! ### The loop (R240 to R249) -/

/-- Clarke and Park transforms of three phase values (R240, R254): the d and q components at an angle. -/
def parkOf (a b : Int) (th : Nat) : Int × Int :=
  let sn := sinQ th
  let c := cosQ th
  (satS 16 (rsh (a * c + b * sn) 15), satS 16 (rsh (-a * sn + b * c) 15))

/-- The duties for limited voltages vd and vq at angle `th` (R240). -/
def dutiesOf (s : State) (n : Nat) (th : Nat) (w vd vq vdcu : Int) : List Nat :=
  let adv := rsh (s.advance n w * (s.geta (Fld.CTL_FF_PHADV n) : Nat)) 4
  let thv := lowBits 16 ((th : Int) + adv)
  let sn := sinQ thv
  let c := cosQ thv
  let va := satS 16 (rsh (vd * c - vq * sn) 15)
  let vb := satS 16 (rsh (vd * sn + vq * c) 15)
  let ub := rsh (-va * 16384 + vb * 28378) 15
  let uc := rsh (-va * 16384 - vb * 28378) 15
  let uo := rsh (max va (max ub uc) + min va (min ub uc)) 1
  let rdc := 2 ^ 31 / vdcu
  let dmax : Int := (s.get (Fld.CTL_DMAX_DMAX n) : Nat)
  [va, ub, uc].map fun u => (clampI (32768 + rsh ((u - uo) * rdc) 15) (0xFFFF - dmax) dmax).toNat

/-- A valid VDC of set N is the last valid one (R242). -/
def busSeen (s : State) (n : Nat) (set : Option SampleSet) : State :=
  match set with
  | some k => if bitOf k.valid 3 then s.setCtl n { s.slotOf n with vdc := some (k.words.getD 3 0) } else s
  | none => s

/-- VDCSEL and the bus check of a tick (R242). -/
def busOf (s : State) (n : Nat) : Int × State :=
  let nom := sgn 16 (s.get (Fld.CTL_VDC_VDCNOM n))
  let low := sgn 16 (s.get (Fld.CTL_VDC_VDCMIN n))
  let sel := if s.flag (Fld.CTL_CFG_VDCFF n) then (s.slotOf n).vdc.getD nom else nom
  let s := s.putB (Fld.CTL_STATE_LOWBUS n) (decide (sel < low))
  (max sel low, if sel < low then s.irqBit Fld.CTL_IRQ_STATUS_LOWBUS n else s)

/-- A supervisor's count, and whether it reaches its limit; a count that does restarts (R248, R249; log entry 17). -/
def supervise (ticks count : Nat) (beyond : Bool) : Nat × Bool :=
  if ticks = 0 then (count, false)
  else
    let k := if beyond then count + 1 else 0
    if ticks ≤ k then (0, true) else (k, false)

/-- A request of the running action. -/
def State.addPost (s : State) (n : Nat) (ramp : Bool) (cause : Nat) : State :=
  let x := s.slotOf n
  s.setCtl n { x with post := x.post ++ [(ramp, cause)] }

/-- An integrator register, signed. -/
def State.integ (s : State) (off : Nat) : Int := (s.reg off).toInt

def word32 (x : Int) : Word := BitVec.ofInt 32 x

/-- The AUTO computation of vdu and vqu (R240, R244), with ed, eq and the terms that the back-calculation uses: pd + ffd and
pq + ffq. -/
structure AutoOut where
  vdu : Int
  vqu : Int
  xd : Int
  xq : Int
  ed : Int
  eq : Int
  bd : Int
  bq : Int
deriving DecidableEq, Repr

def autoLoop (s : State) (n : Nat) (iqr idr id iq w : Int) : AutoOut :=
  let g (f : Field) : Int := (s.geta f : Nat)
  let ed := satS 16 (idr - id)
  let eq := satS 16 (iqr - iq)
  let pd := rsh (ed * g (Fld.CTL_KPI_KP n)) 12
  let pq := rsh (eq * g (Fld.CTL_KPI_KP n)) 12
  let dec := s.flag (Fld.CTL_CFG_DEC n)
  let kdc := g (Fld.CTL_KDEC_KDC n)
  let ffd := if dec then -rsh (rsh (w * iq) 15 * kdc) 12 else 0
  let ffq := if dec then rsh (rsh (w * id) 15 * kdc) 12 + rsh (w * g (Fld.CTL_KDEC_KPSI n)) 12 else 0
  let vd0 := sgn 16 (s.get (Fld.CTL_VOUT_VD n))
  let vq0 := sgn 16 (s.get (Fld.CTL_VOUT_VQ n))
  let ki := g (Fld.CTL_KPI_KI n)
  let first := (s.slotOf n).first
  let xd := if first then satS 32 ((vd0 - pd - ffd) * 2 ^ 16) else satS 32 (s.integ (Reg.CTL_XD n) + ed * ki)
  let xq := if first then satS 32 ((vq0 - pq - ffq) * 2 ^ 16) else satS 32 (s.integ (Reg.CTL_XQ n) + eq * ki)
  ⟨pd + rsh xd 16 + ffd, pq + rsh xq 16 + ffq, xd, xq, ed, eq, pd + ffd, pq + ffq⟩

/-- The supervisors of a tick (R248, R249). -/
def superviseTick (s : State) (n : Nat) (r : Refs) (ramping : Bool) (err : Option (Int × Int)) : State :=
  let resp := s.flag (Fld.CTL_CFG_SUPRESP n)
  let s := match err with
    | none => s
    | some (ed, eq) =>
      let x := s.slotOf n
      let lim := s.get (Fld.CTL_CSUP_LIM n)
      let (k, hit) := supervise (s.get (Fld.CTL_CSUP_TICKS n)) x.csup (decide (lim < ed.natAbs) || decide (lim < eq.natAbs))
      let s := s.setCtl n { x with csup := k }
      if hit then s.addPost n (resp && !ramping) 3 else s
  if ramping || r.nopos || r.under then s
  else
    let fe := satS 48 (r.pos - s.slotPos n)
    let s := s.setWide 48 (Reg.CTL_FERR_LO n) (lowBits 48 fe)
    let x := s.slotOf n
    let (k, hit) := supervise (s.get (Fld.CTL_FSUP_TICKS n)) x.fsup (decide ((s.reg (Reg.CTL_FLIM n)).toNat < fe.natAbs))
    let s := s.setCtl n { x with fsup := k }
    if hit then s.addPost n resp 4 else s

/-- The tick of a slot in RUNNING or RAMPING (R240 to R245): the duties. -/
def slotRun (s : State) (n : Nat) (set : Option SampleSet) : List Nat × State :=
  let th := s.angle n
  let w := s.speed n
  let ramping := decide (s.slotState n = 3)
  let (r, ends, s) := if ramping then rampRefs s n else let (r, s) := runRefs s n; (r, false, s)
  let (vdcu, s) := busOf s n
  let vmax := rsh (rsh (vdcu * 18919) 15 * (s.geta (Fld.CTL_LIM_MODLIM n) : Nat)) 15
  let good := match set with
    | some k => if k.valid % 8 = 7 then some k.words else none
    | none => none
  let s := s.putB (Fld.CTL_STATE_VLIM n) false
  let (vd, vq, s) := match good with
    | none => (sgn 16 (s.get (Fld.CTL_VOUT_VD n)), sgn 16 (s.get (Fld.CTL_VOUT_VQ n)), s.incSat (Fld.CTL_CNT2_INVALID n))
    | some x =>
      let (id, iq) := parkOf (x.getD 0 0) (satS 16 (clarkeB (x.getD 1 0) (x.getD 2 0))) th
      let s := s.setReg (Reg.CTL_IDQ n) (halves iq id)
      let ilim : Int := (s.geta (Fld.CTL_LIM_ILIM n) : Nat)
      let iqr := if r.auto then
          clampI (satS 16 (r.iq + rsh (r.acc * (s.geta (Fld.CTL_FF_KACC n) : Nat)) 14)) (-ilim) ilim else r.iq
      let idr := if r.auto then clampI r.idr (-ilim) ilim else r.idr
      let s := s.setReg (Reg.CTL_REF n) (halves iqr idr)
      let a := autoLoop s n iqr idr id iq w
      let vdu := if r.auto then a.vdu else r.idr
      let vqu := if r.auto then a.vqu else r.iq
      let vd := clampI vdu (-vmax) vmax
      let vqm : Int := (isqrt (vmax * vmax - vd * vd).toNat : Nat)
      let vq := clampI vqu (-vqm) vqm
      let s := s.putB (Fld.CTL_STATE_VLIM n) (decide (vd ≠ vdu) || decide (vq ≠ vqu))
      let s := if !r.auto then s else
        let xd := if vd ≠ vdu then satS 32 ((vd - a.bd) * 2 ^ 16) else a.xd
        let xq := if vq ≠ vqu then satS 32 ((vq - a.bq) * 2 ^ 16) else a.xq
        let s := (s.setReg (Reg.CTL_XD n) (word32 xd)).setReg (Reg.CTL_XQ n) (word32 xq)
        s.setCtl n { s.slotOf n with first := false }
      let s := superviseTick s n r ramping (if r.auto then some (a.ed, a.eq) else none)
      (vd, vq, s)
  let s := s.setReg (Reg.CTL_VOUT n) (halves vq vd)
  let x := s.slotOf n
  let s := s.setCtl n { x with iq := r.iq, idr := r.idr, auto := r.auto, first := x.first || !r.auto }
  let s := s.putB (Fld.CTL_STATE_MODE n) r.auto
  let s := if ends then s.addPost n false 9 else s
  (dutiesOf s n th w vd vq vdcu, s)

/-! ### The catch (R254, R255) -/

/-- A CATCH record (R257). -/
def catchRecord (s : State) (n outcome : Nat) (w : Int) (actions : Nat) : State :=
  s.tell 0x0C 7 n (leBytes 1 outcome ++ [0] ++ leBytes 2 (lowBits 16 w) ++ leBytes 2 (min 0xFFFF actions))

/-- START is refused; the slot returns to STOPPED with no STOP record (R252, R254). -/
def catchRefuse (s : State) (n : Nat) (c : Catch) (detail outcome : Nat) : State :=
  let s := catchRecord s n outcome (s.speed n) c.actions
  stopSlot (finishDesc s (some (c.sq, c.seq)) stCatchRefused detail 0) n none false

/-- A CONTROL action of a slot in CATCH: whether the slot enters RUNNING. -/
def slotCatch (s : State) (n : Nat) (c : Catch) (set : Option SampleSet) : Bool × State :=
  let x := s.slotOf n
  let w := s.speed n
  let words := match set with
    | some k => if k.valid / 16 % 8 = 7 then some k.words else none
    | none => none
  let c := { c with actions := c.actions + 1, counted := c.counted + (if words.isSome then 1 else 0) }
  if c.ticks ≤ c.counted then
    if c.lim < w ∨ w < -c.lim then (false, catchRefuse s n c (lowBits 16 w) 1)
    else
      let v := words.getD []
      let (vd, vq) := parkOf (clarkeA (v.getD 4 0) (v.getD 5 0) (v.getD 6 0)) (clarkeB (v.getD 5 0) (v.getD 6 0)) (s.angle n)
      let s := s.setReg (Reg.CTL_VOUT n) (halves vq vd)
      let iq := if c.auto then 0 else vq
      let idr := if c.auto then 0 else vd
      let p : Point := ⟨s.tickno, c.auto, false, iq, idr, 0, s.slotPos n, none⟩
      let s := s.setCtl n { x with
        cur := some p, first := c.auto, iq := iq, idr := idr, auto := c.auto, start := some { c with speed := some w } }
      (true, catchRecord ((s.setSlotState n 2).putB (Fld.CTL_STATE_MODE n) c.auto) n 0 w c.actions)
  else if 4 * c.ticks ≤ c.actions then (false, catchRefuse s n c 0x10000 2)
  else (false, s.setCtl n { x with start := some c })

/-! ### The CONTROL action (R233, R247, R251) -/

/-- The stop cause that a disable code of Table 10.2 leads to (R251, Table 9.2). -/
def causeOf (code : Nat) : Nat :=
  match code with
  | 2 => 6 | 3 => 7 | 4 => 5 | 5 => 2 | _ => 8

/-- A slot at the start of a CONTROL action that targets it: its duties. -/
def slotAct (s : State) (n : Nat) : State :=
  let d := sgn 16 (lowBits 16 ((s.angle n : Int) - (s.obsAt n).edge.getD 0 0))
  let s := s.setWide 48 (Reg.CTL_POS_LO n) (lowBits 48 (s.slotPos n + d))
  let s := s.put (Fld.CTL_SEQ_SEQ n) s.tickno
  let set := s.setN n
  let st := s.slotState n
  let s := if (st = 2 || st = 3) && (s.slotOf n).start.isNone && !s.flag (Fld.PWM_STATUS_EN n) then
      enterStopped s n (causeOf (s.get (Fld.PWM_STATUS_DISCAUSE n))) else s
  let s := match (s.slotOf n).ramp with
    | some c => if s.slotState n = 2 then enterRamping s n c else s
    | none => s
  let s := if s.slotState n = 0 && (s.slotOf n).start.isSome then s.setSlotState n 1 else s
  let s := if s.slotState n = 0 then s else busSeen s n set
  let s := match s.slotState n, (s.slotOf n).start with
    | 1, some c => (slotCatch s n c set).2
    | _, _ => s
  let (l, s) := if 2 ≤ s.slotState n then slotRun s n set else ([0x8000, 0x8000, 0x8000], s)
  s.setCtl n { s.slotOf n with duties := some l }

/-- CONTROL_START: a CONTROL action starts and computes each targeted slot (R233). -/
def execControlStart (i : Fin 64) (s : State) : Host.Outcome State Fault Refusal :=
  act s fun s => if s.mayStart i 5 then (s.actAxes i).foldl slotAct (s.startAction i) else s

/-- The consecutive control misses of axis n (Table 2.17). -/
def Fld.missOf (n : Nat) : Field := ⟨Reg.GAF_CTLMISS, 4 * n + 3, 4 * n⟩

/-- A slot writes its duties (R233, R54, R255). -/
def slotWrite (s : State) (n : Nat) : State :=
  match (s.slotOf n).duties with
  | none => s
  | some l =>
    let a := l.getD 0 0
    let b := l.getD 1 0
    let c := l.getD 2 0
    let s := ((s.put (Fld.PWM_DUTY_AB_DA n) a).put (Fld.PWM_DUTY_AB_DB n) b).put (Fld.PWM_DUTY_C_DC n) c
    let s := ((s.put (Fld.CTL_DUTY_AB_DA n) a).put (Fld.CTL_DUTY_AB_DB n) b).put (Fld.CTL_DUTY_C_DC n) c
    let s := s.put (Fld.missOf n) 0
    let x := s.slotOf n
    let s := s.setCtl n { x with duties := none }
    match x.start with
    | some k => match k.speed with
      | some w =>
        let s := s.setCtl n { s.slotOf n with start := none }
        let s := s.setPwm n { s.pwmAt n with enable := true }
        finishDesc s (some (k.sq, k.seq)) stOK 0 (lowBits 16 w + min 0xFFFF k.actions * 65536)
      | none => s
    | none => s

/-- CONTROL_DUTY_WRITE: 96 cycles after its start the action's slots write their duties, and it completes; requests that it
raised take effect (R233, R250). -/
def execControlDutyWrite (i : Fin 64) (s : State) : Host.Outcome State Fault Refusal :=
  act s fun s =>
    if s.live i && actType s.plan i = 5 then
      let axes := s.actAxes i
      axes.foldl slotPost (actionDone (axes.foldl slotWrite s) i)
    else s

/-! ### Registers (R243, R246, R247) -/

/-- A write of CTL_DMAX (R243). -/
def ctlDmaxWrite (s : State) (n : Nat) (v : Word) : State :=
  let d := (Fld.CTL_DMAX_DMAX n).get v
  let lim := s.get (Fld.FUS_FMAX_FMAX n)
  if d < 0x8000 then s
  else (s.put (Fld.CTL_DMAX_DMAX n) (min d lim)).putB (Fld.CTL_DMAX_CLAMPED n) (decide (lim < d))

/-- CTL_DMAX_WRITE (R243). -/
def execCtlDmaxWrite (n : Fin 6) (v : Word) (s : State) : Host.Outcome State Fault Refusal :=
  act s fun s => if s.served (Reg.CTL_DMAX n) then ctlDmaxWrite s n v else s

/-- The CLR of a slot clears CTL_CNT (Table 9.7). -/
def ctlCntClr (s : State) (n : Nat) : State := (s.clrReg (Reg.CTL_CNT n)).clrReg (Reg.CTL_CNT2 n)

/-- CTL_CNT_CLR. -/
def execCtlCntClr (n : Fin 6) (s : State) : Host.Outcome State Fault Refusal :=
  act s fun s => if s.served (Reg.CTL_CNT_CLR n) then ctlCntClr s n else s

/-- A write of a coefficient register; with COEFMODE GUARDED it is accepted only in RUNNING in MANUAL mode (R246). With the
gaffer stopped the shadow loads at once (R553). -/
def coefWrite (s : State) (n off : Nat) (v : Word) : State :=
  if s.flag (Fld.CTL_CFG_COEFMODE n) && !(s.slotState n = 2 && !s.flag (Fld.CTL_STATE_MODE n)) then
    (s.incSat (Fld.CTL_CNT2_REFUSED n)).irqBit Fld.CTL_IRQ_STATUS_REFUSED n
  else
    let s := s.setReg off v
    if s.running then s else s.loadReg off

/-- The coefficient registers of slot n. -/
def coefRegs (n : Nat) : List Nat := [Reg.CTL_KPI n, Reg.CTL_KDEC n, Reg.CTL_FF n, Reg.CTL_LIM n]

end Sys2Proof.Machine
end

