-- ==== Sys2Proof/Machine/Observers.lean ====
section
/-!
DEFINITION. Neural observers, their envelope and reference estimators, and the collision model (chapter 8, R202 to R230), with
the SAMPLE action and the latch of a sample set.
-/
namespace Sys2Proof.Machine

/-! ### Inputs (R204, R206, R209) -/

/-- TSLOW is valid (R206). -/
def State.tslowOk (s : State) (n : Nat) : Bool := decide (s.get (Fld.OBS_TSLOW_AGE n) ≤ s.get (Fld.OBS_TSLOW_MAXAGE n))

/-- A set is valid for the axis (R206). -/
def State.setValid (s : State) (n : Nat) (x : SampleSet) : Bool :=
  let need := s.geta (Fld.OBS_NEED_NEED n)
  !x.stale && (x.valid + (if s.tslowOk n then 512 else 0)) &&& need = need

/-- Words 13 and 15 of an axis (Table 8.2), for a VALID mask. -/
def tslowWord (s : State) (n : Nat) : Int := sgn 16 (s.get (Fld.OBS_TSLOW_T n))
def flagsWord (s : State) (n valid : Nat) : Int := (valid % 128 + (if s.tslowOk n then 128 else 0) : Nat)

/-- Word 14 of a set (Table 8.2). -/
def ageWord (s : State) (n : Nat) (x : SampleSet) : Int :=
  if x.routed then satS 16 ((x.modAge + s.geta (Fld.OBS_GDLY_GDLY n) : Nat)) else 0

/-- Words 7 to 9: the duties applied in the previous tick. -/
def dutyWords (o : Obs) : List Int := (List.range 3).map fun i => (o.dutyPrev.getD i 0 : Nat) - 0x8000

/-- The sixteen words of a real set (Table 8.2). -/
def realWords (s : State) (n : Nat) (x : SampleSet) : List Int :=
  let sc := bitOf x.valid 7
  x.words ++ dutyWords (s.obsAt n) ++
    [if sc then x.sin else 0, if sc then x.cos else 0, x.qdelta, tslowWord s n, ageWord s n x, flagsWord s n x.valid]

/-- A word quantised to a byte (R204). -/
def quant (x : Int) (k : Nat) : Byte := BitVec.ofInt 8 (satS 8 (rsh x k))

/-- The sixteen input bytes of an axis (R204). -/
def axisBytes (s : State) (n : Nat) (words : List Int) : List Byte :=
  (List.range 16).map fun w =>
    let x := words.getD w 0
    if w = 15 then BitVec.ofInt 8 x
    else quant x (bitsOf (s.actReg (Reg.OBS_ISH n (w / 8))).toNat (4 * (w % 8) + 3) (4 * (w % 8)))

/-- What OBS_SPEC stages for axis n, if it speculates (R209). -/
def stageSpec (s : State) (n : Nat) : Option Spec :=
  let o := s.obsAt n
  let x := s.snsAt n
  match x.setOf ((s.tickno + 2 ^ 48 - 1) % 2 ^ 48), x.setOf ((s.tickno + 2 ^ 48 - 2) % 2 ^ 48) with
  | some a, some b =>
    if s.geta (Fld.OBS_CFG_SPEC_EN n) = 1 && o.ok1 && o.ok2 then
      let ext := (List.range 7).map fun i => satS 16 (2 * a.words.getD i 0 - b.words.getD i 0)
      let sc := match x.pair with
        | some p => if s.geta (Fld.SNS_CFG_SC_EN n) = 1 && !p.clip && s.pairInBand n p &&
            decide (s.cyc - p.at_ ≤ s.get Fld.GAF_TICKDIV_TICKDIV) then (p.sin, p.cos) else (0, 0)
        | none => (0, 0)
      let words := ext ++ dutyWords o ++
        [sc.1, sc.2, a.qdelta, tslowWord s n, ageWord s n a, flagsWord s n (s.get (Fld.SNS_FLAGS_VALID n))]
      some ⟨words, a.qpos + BitVec.ofInt 32 a.qdelta, x.pair.map (·.at_), false, false, false, false, none, []⟩
    else none
  | _, _ => none

/-! ### The cull (R210) -/

/-- The cull reasons of Table 8.3, as a mask. -/
def cullReasons (s : State) (n : Nat) (sp : Spec) (x : SampleSet) (ok : Bool) : Nat :=
  let need := bitOf (s.geta (Fld.OBS_NEED_NEED n))
  let dev (i : Nat) : Nat := (x.words.getD i 0 - sp.words.getD i 0).natAbs
  let far (l : List Nat) (tol : Nat) : Bool := l.any fun i => need i && decide (tol < dev i)
  let b (c : Bool) (i : Nat) : Nat := if c then 2 ^ i else 0
  b (!ok) 0 + b (far [0, 1, 2] (s.geta (Fld.OBS_SPECTOL_TOL_I n))) 1 +
    b (far [3, 4, 5, 6] (s.geta (Fld.OBS_SPECTOL_TOL_V n))) 2 +
    b (need 8 && decide (s.geta (Fld.OBS_SPECTOLQ_TOL_Q n) < (x.qpos - sp.qext).toInt.natAbs)) 3 +
    b ((need 7 && decide (x.pairAt ≠ sp.pairAt)) || (need 9 && sp.slow)) 4

/-- The largest deviation of words 0 to 2 and the lowest word that has it. -/
def largestDev (sp : Spec) (x : SampleSet) : Nat × Nat :=
  [1, 2].foldl (fun (m : Nat × Nat) i =>
    let d := (x.words.getD i 0 - sp.words.getD i 0).natAbs
    if m.1 < d then (d, i) else m) ((x.words.getD 0 0 - sp.words.getD 0 0).natAbs, 0)

/-- The set of this tick is there: whether it is valid for the axis is kept for every axis; on an axis of the plan the speculation is
compared with it (R206, R209, R210). -/
def obsLatch (s : State) (n : Nat) : State :=
  let o := s.obsAt n
  match s.setN n with
  | none => s
  | some x =>
    if !s.running || o.setOk.isSome then s
    else
      let ok := s.setValid n x
      match if bitOf s.axesInPlan n then o.spec else none with
      | none => s.setObs n { o with setOk := some ok }
      | some sp =>
        let why := if sp.dropped then 0 else cullReasons s n sp x ok
        let s := s.setObs n { o with setOk := some ok, spec := some { sp with judged := true, culled := decide (why ≠ 0) } }
        if why = 0 then s
        else
          let (d, w) := largestDev sp x
          let s := s.tell 0x03 5 n (leBytes 1 15 ++ leBytes 1 why ++ leBytes 2 (min 0xFFFF d) ++ leBytes 1 w)
          let s := (s.incWrap (Fld.OBS_CULLCNT_CULLCNT n)).irqF Fld.OBS_IRQ_STATUS_CULL
          (List.range 4).foldl (fun s j => s.putB (Fld.OBS_PROV_CULLED n j) true) s

/-! ### The SAMPLE action and the SAR latch (R184, R198) -/

/-- A SAMPLE action completes once every targeted axis has the set of this tick (Table 2.4). -/
def sampleCheck (s : State) (i : Nat) : State :=
  if (s.actAxes i).all fun n => (s.setN n).isSome then actionDone s i else s

/-- SAMPLE_START: a SAMPLE action starts (R48). -/
def execSampleStart (i : Fin 64) (s : State) : Host.Outcome State Fault Refusal :=
  act s fun s => if s.mayStart i 1 then sampleCheck (s.startAction i) i else s

/-- The oldest accepted SAR trigger of axis n latches with these codes, and the observers and the SAMPLE action have its set. -/
def sarLatch (s : State) (n : Nat) (codes : List Int) : State :=
  let s := obsLatch (latchSet s n codes) n
  match s.axisAction 1 n with
  | some i => sampleCheck s i
  | none => s

/-- SAR_LATCH: the oldest accepted SAR trigger of axis n latches (R183, R185, R199). A pair that latches in the same cycle and has not
yet comes first (R189). -/
def execSarLatch (n : Fin 6) (volts : Vector Int 7) (s : State) : Host.Outcome State Fault Refusal :=
  act s fun s =>
    let codes := volts.toList.map sarCode
    if s.pairDue n && !(s.snsAt n).trigs.isEmpty then s.setSns n { s.snsAt n with hold := some codes } else sarLatch s n codes

/-- A set that waits in its latch cycle latches. -/
def heldLatch (s : State) (n : Nat) : State :=
  match (s.snsAt n).hold with
  | some codes => sarLatch (s.setSns n { s.snsAt n with hold := none }) n codes
  | none => s

/-- At the end of the cycle no set waits. -/
def heldLatches (s : State) : State := (List.range 6).foldl heldLatch s

/-- SINCOS_LATCH: the oldest accepted SIN/COS trigger of axis n latches, before a set that latches in the same cycle (R188, R189). -/
def execSincosLatch (n : Fin 6) (sin cos : Int) (s : State) : Host.Outcome State Fault Refusal :=
  act s fun s => heldLatch (latchPair s n (sarCode sin) (sarCode cos)) n

/-! ### The envelope (R215 to R217) -/

/-- A 16-bit pattern of output o as a number: ANGLE unsigned, the others signed (Table 8.1). -/
def outVal (o v : Nat) : Int := if o = 0 then (v % 2 ^ 16 : Nat) else sgn 16 v

/-- A record of output o of axis n with up to two values. -/
def obsRecord (s : State) (typ n o cause : Nat) (a b : Int) : State :=
  s.tell typ 5 n (leBytes 1 o ++ leBytes 1 cause ++ leBytes 2 (lowBits 16 a) ++ leBytes 2 (lowBits 16 b))

/-- What the envelope computes for output o (R215): cst, n1, s, |e| and r1. -/
structure Env where
  cst : Int
  n1 : Int
  s : Int
  e : Nat
  r1 : Int
deriving DecidableEq, Repr

def envelope (st : State) (n o : Nat) (nv : Option Nat) (r : Int) : Env :=
  let x := st.obsAt n
  let ang := o = 0
  let c := x.edge.getD o 0
  let w := x.edge.getD 1 0
  let wrap (v : Int) : Int := (lowBits 16 v : Nat)
  let dif (a b : Int) : Int := if ang then wrapS 16 (a - b) else a - b
  let p := if ang then wrap (c + st.advance n w) else c
  let lo := sgn 16 (st.geta (Fld.OBS_CLAMP_LO n o))
  let hi := sgn 16 (st.geta (Fld.OBS_CLAMP_HI n o))
  let slew : Int := (st.geta (Fld.OBS_BAND_SLEW n o) : Nat)
  let v := outVal o (nv.getD 0)
  let n1 := if ang then v else clampI v lo hi
  let d := clampI (dif n1 p) (-slew) slew
  let out := if ang then wrap (p + d) else clampI (p + d) lo hi
  ⟨p, n1, out, (dif n1 r).natAbs, if ang then r else clampI r lo hi⟩

/-- How an output's value is chosen: its value, its source (0 NEURAL, 1 REF, 2 COAST), and the state with the output's state and
counters updated (R216). -/
def selectSource (s : State) (n o : Nat) (nvalid rvalid : Bool) (e : Env) (r : Int) : Int × Nat × State :=
  let band := s.geta (Fld.OBS_BAND_BAND n o)
  let force := bitOf (s.geta (Fld.OBS_CFG_FORCE_REF n)) o
  let s := if force then (s.put (Fld.OBS_STATE_STATE n o) 1).put (Fld.OBS_STATE_INB n o) 0 else s
  let other : Int × Nat := if rvalid then (e.r1, 1) else (e.cst, 2)
  if s.get (Fld.OBS_STATE_STATE n o) = 0 then
    if !nvalid then (other.1, other.2, s)
    else if !rvalid then (e.s, 0, s)
    else if e.e ≤ band then (e.s, 0, s.put (Fld.OBS_STATE_OOB n o) 0)
    else
      let k := s.get (Fld.OBS_STATE_OOB n o) + 1
      let s := s.put (Fld.OBS_STATE_OOB n o) (min 255 k)
      if s.geta (Fld.OBS_TICKS_FB_TICKS n o) ≤ k then
        let s := (s.put (Fld.OBS_STATE_STATE n o) 1).put (Fld.OBS_STATE_INB n o) 0
        let s := obsRecord s 0x05 n o 0 e.n1 r
        (e.r1, 1, (s.incSat (Fld.OBS_OCNT_FBCNT n o)).irqF Fld.OBS_IRQ_STATUS_FALLBACK)
      else (e.s, 0, s)
  else if nvalid && rvalid && !force then
    if e.e ≤ min (s.geta (Fld.OBS_TICKS_RBAND n o)) band then
      let k := s.get (Fld.OBS_STATE_INB n o) + 1
      let s := s.put (Fld.OBS_STATE_INB n o) (min 255 k)
      if s.geta (Fld.OBS_TICKS_RET_TICKS n o) ≤ k then
        let s := (s.put (Fld.OBS_STATE_STATE n o) 0).put (Fld.OBS_STATE_OOB n o) 0
        let s := s.tell 0x06 5 n (leBytes 1 o ++ [0] ++ leBytes 2 (lowBits 16 e.s) ++ leBytes 2 (lowBits 16 r))
        (e.s, 0, s.irqF Fld.OBS_IRQ_STATUS_RETURN)
      else (other.1, other.2, s)
    else (other.1, other.2, s.put (Fld.OBS_STATE_INB n o) 0)
  else (other.1, other.2, s)

/-- An output takes its value and source: COAST records, COASTCNT and OBS_STATE (R216). -/
def setOutput (s : State) (n o src : Nat) (out : Int) (nvalid rvalid : Bool) : State :=
  let was := s.get (Fld.OBS_STATE_SRC n o)
  let s := if src = 2 then
      let s := if was = 2 then s else (obsRecord s 0x07 n o 0 out 0).irqF Fld.OBS_IRQ_STATUS_COAST
      s.incSat (Fld.OBS_OCNT_COASTCNT n o)
    else if was = 2 then obsRecord s 0x07 n o 1 out 0 else s
  let s := ((s.put (Fld.OBS_STATE_SRC n o) src).putB (Fld.OBS_STATE_NVALID n o) nvalid).putB (Fld.OBS_STATE_RVALID n o) rvalid
  s.put (Fld.OBS_VAL_VAL n o) (lowBits 16 out)

/-- How an output commits: by R216, or by a fallback of OBS_FINAL (R217). -/
inductive CommitBy where
  | rule | hold | refest
deriving DecidableEq, Repr

/-- The last output of an axis has committed: its COMMIT record and OBS_SEQ (R228, Table 8.7). -/
def axisCommitted (s : State) (n : Nat) : State :=
  let v (o : Nat) : List Byte := leBytes 2 (s.get (Fld.OBS_VAL_VAL n o))
  let src := (List.range 4).foldl (fun a o => a + s.get (Fld.OBS_STATE_SRC n o) * 4 ^ o) 0
  let s := if s.flag Fld.OBS_TLM_COMMIT then s.tell 0x04 5 n (v 0 ++ v 1 ++ v 2 ++ v 3 ++ leBytes 1 src) else s
  s.put (Fld.OBS_SEQ_SEQ n) s.tickno

/-- The recurrent state of the run whose value the axis commits, if there is one (R207, R211). -/
def Obs.runState (o : Obs) : List Byte :=
  match o.spec with
  | some sp => if sp.judged && !sp.culled && !sp.dropped && sp.out.isSome then sp.buf else o.rbuf
  | none => o.rbuf

/-- An axis that commits a neural value takes the recurrent state of the run whose value it is (R207). -/
def advanceState (s : State) (n src : Nat) : State :=
  if src = 0 then s.setObs n { s.obsAt n with recur := (s.obsAt n).runState } else s

/-- Output o of axis n commits (R207, R212, R215 to R217). -/
def commitOut (s : State) (n o : Nat) (nv : Option Nat) (how : CommitBy) : State :=
  let x := s.obsAt n
  if bitOf x.done o then s
  else
    let r := if x.ready then x.refs.getD o 0 else 0
    let rvalid := x.ready && x.rok.getD o false
    let e := envelope s n o nv r
    let s := match how with
      | .hold => setOutput s n o 2 e.cst false rvalid
      | .refest =>
        let s := if s.get (Fld.OBS_STATE_STATE n o) = 0 then s.irqF Fld.OBS_IRQ_STATUS_FALLBACK else s
        let s := (s.put (Fld.OBS_STATE_STATE n o) 1).put (Fld.OBS_STATE_INB n o) 0
        let s := obsRecord s 0x05 n o 1 0 r
        if rvalid then setOutput s n o 1 e.r1 false rvalid else setOutput s n o 2 e.cst false rvalid
      | .rule =>
        let (out, src, s) := selectSource s n o nv.isSome rvalid e r
        advanceState (setOutput s n o src out nv.isSome rvalid) n src
    let x := s.obsAt n
    let s := s.setObs n { x with done := orBit x.done o }
    if orBit x.done o = 15 then axisCommitted s n else s

/-- An OBS_FINAL action completes when the last output of its axes has committed (R212). -/
def finalCheck (s : State) (n : Nat) : State :=
  match s.axisAction 3 n with
  | some j => if (s.actAxes j).all fun m => (s.obsAt m).done = 15 then actionDone s j else s
  | none => s

/-- The neural values fixed for the axis in this tick: accepted provisional values that exist, or a recompute's (R211,
R212). -/
def Obs.neural (o : Obs) : Option (List Nat) :=
  match o.spec with
  | some sp => if sp.judged && !sp.culled && !sp.dropped then sp.out else o.recomp
  | none => o.recomp

/-- Every output of axis n whose value is fixed commits, once its reference is ready (R208, R212, R213). -/
def obsCommit (s : State) (n : Nat) : State :=
  let x := s.obsAt n
  if !x.ready then s
  else
    let bare := (s.axisAction 3 n).isNone || x.setOk ≠ some true
    let en := s.geta (Fld.OBS_CFG_OUTEN n)
    finalCheck ((List.range 4).foldl (fun s o =>
      if bare || !bitOf en o then commitOut s n o none .rule
      else match x.neural with
        | some l => commitOut s n o (some (l.getD o 0)) .rule
        | none => s) s) n

/-! ### Reference estimators (R219 to R222) -/

/-- OBS_THSTATE shows the thermal state (Table 8.7). -/
def showTherm (s : State) (n : Nat) : State :=
  let o := s.obsAt n
  s.setReg (Reg.OBS_THSTATE n) (halves (satS 16 (rsh o.thh 16)) (satS 16 (rsh o.tw 16)))

/-- The reference estimators of axis n on a set (R220 to R222): the axis's new state with the four references and their
validity. -/
def estimate (s : State) (n : Nat) (x : SampleSet) : Obs :=
  let o := s.obsAt n
  let g (f : Field) : Int := (s.geta f : Nat)
  let w (i : Nat) : Int := x.words.getD i 0
  let iOk := x.valid % 8 = 7
  let ia := w 0
  let ib := satS 16 (clarkeB (w 1) (w 2))
  -- angle and speed
  let (pa, pb) := o.prev.getD (ia, ib)
  let va := satS 16 (clarkeA (w 4) (w 5) (w 6))
  let vb := satS 16 (clarkeB (w 5) (w 6))
  let kr := g (Fld.OBS_KLR_KR n)
  let kl := g (Fld.OBS_KLR_KL n)
  let ea := satS 16 (va - rsh (ia * kr) 16 - rsh ((ia - pa) * kl) 10)
  let eb := satS 16 (vb - rsh (ib * kr) 16 - rsh ((ib - pb) * kl) 10)
  let thp := lowBits 16 ((o.th : Int) + s.advance n o.wr)
  let quad := s.geta (Fld.OBS_CFG_REFSRC n) = 1
  let thq : Int := (x.qpos - s.actReg (Reg.OBS_QOFS n)).toInt * ((s.actReg (Reg.OBS_KQ n)).toNat : Int) / 2 ^ 16
  let eps := if quad then wrapS 16 (thq - thp) else satS 16 (rsh (-ea * cosQ thp - eb * sinQ thp) 15)
  let good := if quad then bitOf x.valid 8 else x.valid % 128 = 127
  let wr := if good then satS 16 (o.wr + rsh (eps * g (Fld.OBS_KPI_KI n)) 16) else o.wr
  let th := if good then lowBits 16 ((thp : Int) + rsh (eps * g (Fld.OBS_KPI_KP n)) 16) else thp
  let aOk := good && (quad || decide (s.geta (Fld.OBS_MINSPD_MINSPD n) ≤ wr.natAbs))
  -- thermal
  let power := if iOk then (ia * ia + ib * ib) / 2 ^ 15 else o.power
  let tOk := s.tslowOk n
  let ta := if tOk then tslowWord s n * 2 ^ 16 else o.ta
  let d := o.tw - o.thh
  let k (off : Nat) : Int := ((s.actReg off).toNat : Int)
  let tw := satS 32 (o.tw + rsh (power * g (Fld.OBS_KPW_KPW n)) 15 - rsh (d * k (Reg.OBS_KWH n)) 32)
  let thh := satS 32 (o.thh + rsh (d * k (Reg.OBS_KHW n)) 32 - rsh ((o.thh - ta) * k (Reg.OBS_KHA n)) 32)
  -- disturbance
  let w1 := o.edge.getD 1 0
  let pA := lowBits 16 (o.edge.getD 0 0 + s.advance n w1)
  let iq := (parkOf ia ib pA).2
  let te := satS 16 (rsh (iq * sgn 16 (s.geta (Fld.OBS_KTB_KT n))) 14)
  let tlr := satS 16 (te - rsh ((w1 - o.w2) * g (Fld.OBS_KFJ_KJ n)) 10 - rsh (w1 * sgn 16 (s.geta (Fld.OBS_KTB_KB n))) 14)
  let tl := if iOk then satS 32 (o.tl + rsh ((tlr * 2 ^ 16 - o.tl) * g (Fld.OBS_KFJ_KF n)) 16) else o.tl
  { o with
    th := th, wr := wr, prev := if iOk then some (ia, ib) else o.prev, tw := tw, thh := thh, ta := ta, power := power
    tl := tl, ready := true, refs := [(th : Int), wr, satS 16 (rsh tw 16), satS 16 (rsh tl 16)]
    rok := [aOk, aOk, tOk, iOk] }

/-- REFERENCE_READY: the references of the set of this tick are ready, and outputs whose values are fixed commit (R208,
R212). -/
def execReferenceReady (n : Fin 6) (s : State) : Host.Outcome State Fault Refusal :=
  act s fun s =>
    let o := s.obsAt n
    match s.setN n with
    | none => s
    | some x =>
      if !s.running || !bitOf s.axesInPlan n || o.setOk.isNone || o.ready || s.halted then s
      else
        let e := estimate s n x
        let s := showTherm (s.setObs n e) n
        let s := (List.range 4).foldl (fun s j => s.put (Fld.OBS_VAL_REF n j) (lowBits 16 (e.refs.getD j 0))) s
        obsCommit s n

/-! ### Runs (R204, R205, R209, R211, R223) -/

/-- The input of an observer run: for each axis that its parison serves its staged bytes, zeros for one that is not staged
(R204, R209). -/
def runInput (image : List Byte) (staged : Nat → Option (List Byte)) : List Byte :=
  ((bitList 6 (parAxes image)).map fun a => (staged a).getD (List.replicate 16 0)).flatten

/-- The four words of axis a in a run's output (R205); free words where the parison's sizes do not match (R204) or it does not
serve the axis. -/
def runWords (s : State) (r : Run) (out : List Byte) (a : Nat) : List Nat × State :=
  let image := ((s.slotAt r.slot).map (·.image)).getD []
  let axes := bitList 6 (parAxes image)
  let (l, s) := if axes.contains a && parIn image = 16 * axes.length && parOut image = 8 * axes.length then
      (slice out (8 * axes.findIdx (· = a)) 8, s)
    else s.freeBytes 8
  ((List.range 4).map fun o => fieldAt l (2 * o) 2, s)

/-- The recurrent state that a run writes into a buffer of its own for axis n: from its input and the state of the axis (R207; log entry
41). -/
def runState (s : State) (r : Run) (n : Nat) : List Byte :=
  Config.newState (((s.slotAt r.slot).map (·.image)).getD []) r.input (s.obsAt n).recur n

/-- OBS_SPEC_START: an OBS_SPEC action stages its axes and launches its run; it does not start where no placement can run
(R168, R209, R223). -/
def execObsSpecStart (i : Fin 64) (s : State) : Host.Outcome State Fault Refusal :=
  act s fun s =>
    if !s.mayStart i 2 then s
    else match s.pinnedPlace (actParam s.plan i) 1 (actTarget s.plan i) with
      | none => s
      | some (_, p, _, _) =>
        let s := s.startAction i
        let axes := s.actAxes i
        let s := axes.foldl (fun s n =>
          (List.range 4).foldl (fun s o => (s.putB (Fld.OBS_PROV_PVALID n o) false).putB (Fld.OBS_PROV_CULLED n o) false) s) s
        let s := axes.foldl (fun s n =>
          let sp := stageSpec s n
          let o := s.obsAt n
          let s := s.setObs n { o with spec := sp, setOk := none }
          let s := if sp.isNone then s.incSat (Fld.OBS_RECOMP_SPECSKIP n) else s
          obsLatch s n) s
        let staged (a : Nat) : Option (List Byte) :=
          if axes.contains a then (s.obsAt a).spec.map fun sp => axisBytes s a sp.words else none
        startRun s i 1 (actTarget s.plan i) (actTarget s.plan i) false (runInput p.image staged)

/-- The OBS_SPEC run of action i completes (R223): provisional values, PROV records, the action's end, commits. -/
def specDone (s : State) (i : Nat) : State :=
  match takeRun s i with
  | none => s
  | some (r, out, s) =>
    let axes := s.actAxes i
    let s := axes.foldl (fun s n =>
      match (s.obsAt n).spec with
      | none => s
      | some sp =>
        let (l, s) := runWords s r out n
        let s := s.setObs n { s.obsAt n with spec := some { sp with out := some l, buf := runState s r n } }
        let s := (List.range 4).foldl (fun s o =>
          (s.put (Fld.OBS_PROV_PROV n o) (l.getD o 0)).putB (Fld.OBS_PROV_PVALID n o) true) s
        if s.flag Fld.OBS_TLM_PROV then
          s.tell 0x02 5 n ((l.map (leBytes 2)).flatten ++ leBytes 1 (if sp.culled then 15 else 0)) 1
        else s) s
    axes.foldl obsCommit (actionDone s i)

/-- PINNED_RUN_DONE: the run of a pinned action completes: an OBS_SPEC's provisional values exist; the output of a recompute
and of a collision run waits for OBS_RECOMPUTE_DONE and COLLISION_VERDICT (R153). `corrected` is how many single-bit errors its reads
found (R149, R158). -/
def execPinnedRunDone (i : Fin 64) (corrected : Nat) (s : State) : Host.Outcome State Fault Refusal :=
  act s fun s =>
    match s.runOf i with
    | none => s
    | some r =>
      if !s.live i || r.out.isSome then s
      else
        let s := s.eccCorr r.marver corrected
        if actType s.plan i = 2 then specDone s i else (finishRun s r).2

/-- The axis needs a recompute (R211). -/
def Obs.needsRun (o : Obs) : Bool :=
  o.setOk = some true && match o.spec with
    | none => true
    | some sp => sp.culled || sp.dropped

/-- OBS_FINAL_DECIDE: an OBS_FINAL action starts, and once every targeted axis has its set it decides which axes need a recompute
and launches one run if it fits (R168, R211, R212). -/
def execObsFinalDecide (i : Fin 64) (s : State) : Host.Outcome State Fault Refusal :=
  act s fun s =>
    match s.pinnedPlace (actParam s.plan i) 1 (actTarget s.plan i) with
    | none => s
    | some (_, p, place, m) =>
      let s := if s.mayStart i 3 then s.startAction i else s
      let axes := s.actAxes i
      if !(s.live i && actType s.plan i = 3) || !axes.all fun n => (s.obsAt n).setOk.isSome then s
      else
        let need := (axes.filter fun n => !(s.obsAt n).decided && (s.obsAt n).needsRun).foldl orBit 0
        let s := axes.foldl (fun s n => s.setObs n { s.obsAt n with decided := true }) s
        let s := if need = 0 then s
          else match s.runOf i with
            | some r => { s with runs := s.runs.map fun x => if x = r then { r with axes := r.axes ||| need } else x }
            | none =>
              if s.edgeOfs + 25 + s.tclkFor m (placeNcyc (parPlace p.image place) true) ≤ actDeadline s.plan i then
                let staged (a : Nat) : Option (List Byte) :=
                  if axes.contains a then (s.setN a).map fun x => axisBytes s a (realWords s a x) else none
                startRun s i 1 (actTarget s.plan i) need true (runInput p.image staged)
              else s
        match axes with
        | n :: _ => finalCheck s n
        | [] => s

/-- OBS_RECOMPUTE_DONE: a recompute completes; the axes that need it take its values and commit (R211, R212). -/
def execObsRecomputeDone (i : Fin 64) (s : State) : Host.Outcome State Fault Refusal :=
  act s fun s =>
    if !(s.live i && actType s.plan i = 3) then s
    else match takeRun s i with
      | none => s
      | some (r, out, s) =>
        let axes := bitList 6 r.axes
        let s := axes.foldl (fun s n =>
          let (l, s) := runWords s r out n
          (s.setObs n { s.obsAt n with recomp := some l, rbuf := runState s r n }).incSat (Fld.OBS_RECOMP_RECOMP n)) s
        axes.foldl obsCommit s

/-! ### Fallbacks (R52, R53, R217) -/

/-- HOLD of OBS_SPEC: unfinished provisional values are dropped (R52). -/
def specDrop (s : State) (i : Nat) : State :=
  let s := { s with runs := s.runs.filter fun r => r.action ≠ i }
  (s.actAxes i).foldl (fun s n =>
    let o := s.obsAt n
    match o.spec with
    | some sp => if sp.out.isNone then s.setObs n { o with spec := some { sp with dropped := true }, decided := false } else s
    | none => s) s

/-- HOLD or REFEST of OBS_FINAL: its uncommitted outputs commit (R52, R53, R217). -/
def finalFallback (s : State) (i : Nat) (how : CommitBy) : State :=
  let s := { s with runs := s.runs.filter fun r => r.action ≠ i }
  (s.actAxes i).foldl (fun s n => (List.range 4).foldl (fun s o => commitOut s n o none how) s) s

/-! ### The collision model (R224 to R227) -/

/-- The input bytes of the collision model (R224). -/
def collideInput (s : State) : List Byte :=
  let ka := s.geta Fld.OBS_COL_ISH_ISH_AXIS
  let kf := s.geta Fld.OBS_COL_ISH_ISH_FEAT
  let axis (a : Nat) : List Byte :=
    let w : List Int := ((s.snsAt a).sets.head?.map (·.words)).getD []
    [quant (w.getD 0 0) ka, quant (w.getD 1 0) ka, quant (w.getD 2 0) ka, quant (sgn 16 (s.get (Fld.OBS_VAL_VAL a 3))) ka]
  ((bitList 6 (s.geta Fld.OBS_COL_CFG_AXES)).map axis).flatten ++
    (List.range (s.geta Fld.OBS_COL_CFG_NFEAT)).map fun w => quant (sgn 16 (s.get (Fld.MIX_FEATBUF_WORD w))) kf

/-- COLLIDE_START: a COLLIDE action stages its inputs and launches the collision model (R168, R224). With OBS_COL_CFG.EN = 0 it
only starts (log entry 18). -/
def execCollideStart (i : Fin 64) (s : State) : Host.Outcome State Fault Refusal :=
  act s fun s =>
    if !s.mayStart i 4 then s
    else if s.geta Fld.OBS_COL_CFG_EN = 0 then s.startAction i
    else match s.pinnedPlace (actParam s.plan i) 2 0 with
      | none => s
      | some _ => startRun (s.startAction i) i 2 0 0 false (collideInput s)

/-- A verdict (R225, R226): the scores of A0 to A5 and the request set that reaches the control engine. -/
def verdict (s : State) (scores : List Byte) : State :=
  let axes := s.geta Fld.OBS_COL_CFG_AXES
  let th := sgn 8 (s.geta Fld.OBS_COL_CFG_TH)
  let hit := ((bitList 6 axes).filter fun a => decide (th ≤ sgn 8 (fieldAt scores a 1))).foldl orBit 0
  let req := if hit ≠ 0 ∧ s.geta Fld.OBS_COL_CFG_SCOPE = 1 then axes else hit
  let before := s.get Fld.OBS_COL_STATUS_LASTREQ
  let s := (s.setWide 48 Reg.OBS_COL_SCORE_LO (leNat scores)).put Fld.OBS_COL_STATUS_LASTREQ req
  let drive (n : Nat) : Bool := decide (2 ≤ s.slotState n)
  let s := if req = 0 ∨ req = before then s
    else
      let s := s.tell 0x08 5 0xFF (leBytes 1 req ++ scores)
      let s := s.irqF Fld.OBS_IRQ_STATUS_COLLISION
      let stopped := ((bitList 6 req).filter drive).foldl orBit 0
      let s := (bitList 6 stopped).foldl (fun s n => s.setBit Fld.OBS_COL_STATUS_STOPPED n) s
      s.setWide 48 Reg.OBS_COL_TICK_LO s.tickno
  let ramp := s.geta Fld.OBS_COL_CFG_RESP = 1
  ((bitList 6 req).filter drive).foldl (fun s n => slotRequest s n ⟨ramp, 2, none, false⟩) s

/-- COLLISION_VERDICT: the collision model completes and its verdict reaches the control engine; free scores where the parison's
sizes do not match (R224 to R226). -/
def execCollisionVerdict (i : Fin 64) (s : State) : Host.Outcome State Fault Refusal :=
  act s fun s =>
    if !(s.live i && actType s.plan i = 4) then s
    else match takeRun s i with
      | none => if s.geta Fld.OBS_COL_CFG_EN = 0 then actionDone s i else s
      | some (r, out, s) =>
        let image := ((s.slotAt r.slot).map (·.image)).getD []
        let (l, s) := if parIn image = r.input.length ∧ parOut image = 8 then (out, s) else s.freeBytes 8
        actionDone (verdict s (slice l 0 6)) i

/-! ### The tick edge (R203, R206, R218, R221) -/

/-- KADV is computed anew (R203). -/
def kadvUpdate (s : State) (n : Nat) : State :=
  let k := (s.geta (Fld.OBS_SPDFS_SPDFS n) * s.get Fld.GAF_TICKDIV_TICKDIV + 1500) / 3000
  if 32767 < k then (s.put (Fld.OBS_SPDFS_KADV n) 32767).irqF Fld.OBS_IRQ_STATUS_ADV_SAT
  else s.put (Fld.OBS_SPDFS_KADV n) k

/-- The thermal state loads from OBS_THINIT (R221). -/
def thermLoad (s : State) (n : Nat) : State :=
  let v (f : Field) : Int := sgn 16 (s.get f) * 2 ^ 16
  showTherm (s.setObs n { s.obsAt n with
    tw := v (Fld.OBS_THINIT_TW n), thh := v (Fld.OBS_THINIT_TH n), thload := false }) n

/-- THLOADs that wait are done. -/
def thermLoads (s : State) : State :=
  (List.range 6).foldl (fun s n => if (s.obsAt n).thload then thermLoad s n else s) s

/-- An RWS shadow of a block loads; a new SPDFS recomputes KADV (R24, R203, R230). -/
def loadShadow (s : State) (off : Nat) : State :=
  match regAt off with
  | none => s
  | some (d, _) =>
    if d.rws = 0 then s
    else
      let n := (List.range 6).find? fun n => off = Reg.OBS_SPDFS n
      let before := s.actReg off
      let s := s.loadReg off
      match n with
      | some n => if (Fld.OBS_SPDFS_SPDFS n).get before = (Fld.OBS_SPDFS_SPDFS n).get (s.actReg off) then s else kadvUpdate s n
      | none => s

/-- The RWS shadows of the OBS, SNS and CTL blocks load (R185, R230, R246, R553). -/
def loadShadows (s : State) : State :=
  let keys (l : Store Word) : List Nat := (l.map (·.1)).filter fun k => decide (0x50000 ≤ k) && decide (k < 0x80000)
  (keys s.regs ++ keys s.act).foldl loadShadow s

/-- The observers at a tick edge, after TICKNO has moved and the shadows and duties have loaded; `first` at a gaffer start,
`switched` at a bank switch edge (R203, R206, R207, R218, R220 to R222). -/
def obsEdge (s : State) (first switched : Bool) : State :=
  let s := thermLoads s
  (List.range 6).foldl (fun s n =>
    let s := if first || switched then kadvUpdate s n else s
    let s := if s.tickno % 1024 = 0 then s.incSat (Fld.OBS_TSLOW_AGE n) else s
    let o := s.obsAt n
    let (s, o) := if !first then (s, o)
      else
        let st := if s.geta (Fld.OBS_CFG_START_SRC n) = 1 then 0 else 1
        let c := [0, 0, lowBits 16 (satS 16 (rsh o.tw 16)), 0]
        let s := (List.range 4).foldl (fun s j =>
          let s := (s.put (Fld.OBS_STATE_STATE n j) st).put (Fld.OBS_STATE_OOB n j) 0
          (s.put (Fld.OBS_STATE_INB n j) 0).put (Fld.OBS_VAL_VAL n j) (c.getD j 0)) s
        (s, { o with th := 0, wr := 0, tl := 0, prev := none, setOk := none, ok1 := false, edge := [0, 0, 0, 0], recur := [] })
    let now := (List.range 4).map fun j => outVal j (s.get (Fld.OBS_VAL_VAL n j))
    s.setObs n { o with
      w2 := o.edge.getD 1 0, edge := now
      duty := [s.get (Fld.PWM_DUTY_AB_DA n), s.get (Fld.PWM_DUTY_AB_DB n), s.get (Fld.PWM_DUTY_C_DC n)], dutyPrev := o.duty
      ok2 := o.ok1, ok1 := o.setOk = some true, setOk := none, ready := false, spec := none, decided := false
      recomp := none, rbuf := [], done := 0 }) s

/-! ### Registers -/

/-- T of axis n is written, and AGE returns to 0 (R206). -/
def tslowWrite (s : State) (n t : Nat) : State :=
  let s := (s.put (Fld.OBS_TSLOW_T n) t).put (Fld.OBS_TSLOW_AGE n) 0
  let o := s.obsAt n
  s.setObs n { o with spec := o.spec.map fun sp => { sp with slow := true } }

/-- A write of OBS_TSLOW sets T and MAXAGE (R206). -/
def obsTslowWrite (s : State) (n : Nat) (v : Word) : State :=
  tslowWrite (s.put (Fld.OBS_TSLOW_MAXAGE n) ((Fld.OBS_TSLOW_MAXAGE n).get v)) n ((Fld.OBS_TSLOW_T n).get v)

/-- OBS_TSLOW_WRITE (R206). -/
def execObsTslowWrite (n : Fin 6) (v : Word) (s : State) : Host.Outcome State Fault Refusal :=
  act s fun s => if s.served (Reg.OBS_TSLOW n) then obsTslowWrite s n v else s

/-- A write of OBS_CTRL.THLOAD: at the next tick edge, or at once while the gaffer is stopped (R221, R553). -/
def obsThload (s : State) (n : Nat) : State :=
  if s.running then s.setObs n { s.obsAt n with thload := true } else thermLoad s n

/-- OBS_THLOAD (R221). -/
def execObsThload (n : Fin 6) (s : State) : Host.Outcome State Fault Refusal :=
  act s fun s => if s.served (Reg.OBS_CTRL n) then obsThload s n else s

/-- A write of OBS_CTRL.CLR clears every counter of the axis (Table 8.7). -/
def obsCntClr (s : State) (n : Nat) : State :=
  (List.range 4).foldl (fun s o => s.clrReg (Reg.OBS_OCNT n o))
    ((s.clrReg (Reg.OBS_CULLCNT n)).clrReg (Reg.OBS_RECOMP n))

/-- OBS_CTRL_CLR. -/
def execObsCtrlClr (n : Fin 6) (s : State) : Host.Outcome State Fault Refusal :=
  act s fun s => if s.served (Reg.OBS_CTRL n) then obsCntClr s n else s

end Sys2Proof.Machine
end

