-- ==== Sys2Proof/Machine/TwoWire.lean ====
section
/-!
DEFINITION. The two-wire bus ports (chapter 17, R394 to R417).
-/
namespace Sys2Proof.Machine

/-- Port p beside its registers. -/
def State.twbAt (s : State) (p : Nat) : Twb := s.twb.getD p Twb.init

def State.setTwb (s : State) (p : Nat) (x : Twb) : State := { s with twb := lput .init s.twb p x }

/-- The port monitors its bus: ready, clocked, enabled (R396). -/
def State.twbUp (s : State) (p : Nat) : Bool := s.up 14 && s.flag (Fld.TWB_CFG_EN p)

/-- Bit `b` of port p's interrupt status (Table 17.5). -/
def twbIrq (s : State) (p b : Nat) : State :=
  if p = 0 then s.irqBit Fld.TWB_IRQ_STATUS_P0 b else s.irqBit Fld.TWB_IRQ_STATUS_P1 b

/-- The filtered line levels. -/
def twbLines (s : State) (p : Nat) (sda scl : Bool) : State :=
  (s.putB (Fld.TWB_STATUS_SDA p) sda).putB (Fld.TWB_STATUS_SCL p) scl

/-- Whether the first descriptor of the port has sent its START. -/
def setActive (s : State) (p : Nat) (b : Bool) : State :=
  (s.setTwb p { s.twbAt p with active := b }).putB (Fld.TWB_STATUS_CTRL p) b

/-- The target's transfer. -/
def setTarget (s : State) (p : Nat) (t : Option Target) : State :=
  (s.setTwb p { s.twbAt p with target := t }).putB (Fld.TWB_STATUS_TGT p) t.isSome

/-- A START makes the bus busy, a STOP ends that; it is not yet free, and after a STOP the target listens again (R396, R407). -/
def twbBusy (s : State) (p : Nat) (b : Bool) : State :=
  let x := s.twbAt p
  (s.setTwb p { x with free := false, idleAt := if b then x.idleAt else s.cyc, deaf := x.deaf && b }).putB
    (Fld.TWB_STATUS_BUSY p) b

/-! ### Descriptors (R399 to R404) -/

/-- A descriptor with its written bytes joins its port. -/
def twbQueue (s : State) (d : Desc) (l : List Byte) : State :=
  let p := d.pay 32 1 % 2
  let s := s.begin d
  s.setTwb p { s.twbAt p with queue := (s.twbAt p).queue ++ [⟨d.sq, d.seq, l, 0, none⟩] }

/-- A dispatched TWB descriptor with operation `op`; `input` is what its host write buffer gives (R399, R401). -/
def twbDesc (s : State) (sq seq op : Nat) (input : HostRead) : State :=
  match s.takeDispatched sq seq 0x06 with
  | none => s
  | some d =>
    let n := d.pay 36 2
    if d.pay 34 1 ≠ op || !s.up 14 then s
    else if n = 0 then twbQueue s d []
    else if bitOf (d.pay 56 1) 0 then
      let (l, t) := memRead s (d.pay 40 8) n
      if !s.memAnswers (d.pay 40 8) n then s
      else if s.memIn (d.pay 40 8) n then twbQueue t d l else t.rangeFail d
    else s.withHost d input fun d l s => twbQueue s d (slice l 0 n)

/-- TWB_WRITE (R399). -/
def execTwbWrite (sq : Fin 64) (seq : BitVec 16) (input : HostRead) (s : State) : Host.Outcome State Fault Refusal :=
  act s fun s => twbDesc s sq seq.toNat 0 input

/-- TWB_READ (R399). -/
def execTwbRead (sq : Fin 64) (seq : BitVec 16) (s : State) : Host.Outcome State Fault Refusal :=
  act s fun s => twbDesc s sq seq.toNat 1 (.bytes [])

/-- TWB_WRITE_READ (R399). -/
def execTwbWriteRead (sq : Fin 64) (seq : BitVec 16) (input : HostRead) (s : State) : Host.Outcome State Fault Refusal :=
  act s fun s => twbDesc s sq seq.toNat 2 input

/-- The bytes of a whole transfer on the bus, address bytes among them (R401). -/
def twbBytes (d : Desc) : Nat :=
  match d.pay 34 1 with
  | 0 => d.pay 36 2 + 1
  | 1 => d.pay 38 2 + 1
  | _ => d.pay 36 2 + d.pay 38 2 + 2

/-- Bytes written and bytes read once `n` bytes are complete on the bus, address bytes among them (R402). -/
def twbMoved (op wlen n : Nat) : Nat × Nat :=
  match op with
  | 0 => (min wlen (n - 1), 0)
  | 1 => (0, n - 1)
  | _ => if n ≤ wlen + 1 then (n - 1, 0) else (wlen, n - wlen - 2)

/-- The bytes that the port as controller puts on the bus, in order: address bytes and written bytes, of the first `n` bytes of the
transfer (R401). -/
def twbWire (d : Desc) (data : List Byte) (n : Nat) : List Byte :=
  let addr (r : Nat) : Byte := BitVec.ofNat 8 (2 * (d.pay 33 1 % 128) + r)
  let l := match d.pay 34 1 with
    | 0 => addr 0 :: data
    | 1 => [addr 1]
    | _ => addr 0 :: data ++ [addr 1]
  l.take n

/-- RESULT (R402). -/
def twbResult (moved : Nat × Nat) (retries t : Nat) : Nat :=
  moved.1 % 2 ^ 16 + moved.2 % 2 ^ 16 * 2 ^ 16 + retries * 2 ^ 32 + t * 2 ^ 48

/-- The first descriptor of a port completes (R402). -/
def twbComplete (s : State) (p status detail : Nat) (moved : Nat × Nat) (t : Nat := 0) : State :=
  match (s.twbAt p).queue with
  | [] => s
  | x :: r =>
    let s := (setActive s p false).setTwb p { s.twbAt p with queue := r, active := false }
    match s.findDesc x.sq x.seq with
    | some d => s.complete d status detail (twbResult moved x.retries t)
    | none => s

/-- TWB_TRANSFER_START: on a free bus, with no attention request of its own, the port sends START and begins its next transfer
(R401). -/
def execTwbTransferStart (p : Fin 2) (s : State) : Host.Outcome State Fault Refusal :=
  act s fun s =>
    let x := s.twbAt p
    if s.twbUp p && x.free && !x.active && !x.queue.isEmpty && x.pulse.isNone && !s.flag (Fld.TWB_TSTAT_ATT_PEND p) &&
        !s.flag (Fld.TWB_STATUS_STUCK p) then
      setActive (twbLines (twbBusy s p true) p false true) p true
    else s

/-- T of a TSLOW transfer (R404). -/
def twbTemp (d : Desc) (read : List Byte) : Int :=
  satS 16 (rsh (sgn 16 (fieldAt read 0 1 * 256 + fieldAt read 1 1)) (d.pay 58 1 % 16))

/-- The bytes read go to the read buffer, and a TSLOW reading to its observer, before the completion with OK (R402, R404). -/
def twbOk (s : State) (p : Nat) (d : Desc) (read : List Byte) : State :=
  let rlen := d.pay 38 2
  let l := slice read 0 rlen
  let a := d.pay 48 8
  let lp := bitOf (d.pay 56 1) 1
  let moved := (d.pay 36 2, rlen)
  if 0 < rlen ∧ lp ∧ !s.ready 16 then s
  else if 0 < rlen ∧ lp ∧ !s.memIn a rlen then twbComplete (s.memRefuse a) p stBadDescriptor 0x010000FE (0, 0)
  else if 0 < rlen ∧ !lp ∧ !s.canDma then s.hostEpisode d
  else
    let (_, s) := s.episodeDone d
    let s := if rlen = 0 then s
      else if lp then memWrite s a l
      else { s with hostMem := writeBytes s.hostMem a l }
    if bitOf (d.pay 35 1) 0 then
      let t := lowBits 16 (twbTemp d l)
      twbComplete (tslowWrite s (d.pay 57 1 % 8) t) p stOK 0 moved t
    else twbComplete s p stOK 0 moved

/-- TWB_TRANSFER_DONE: the transfer of port p ends with its STOP (R401, R402, R404). -/
def execTwbTransferDone (p : Fin 2) (end_ : TwbEnd) (s : State) : Host.Outcome State Fault Refusal :=
  act s fun s =>
    let x := s.twbAt p
    if !s.twbUp p || !x.active then s
    else match x.queue with
      | [] => s
      | q :: _ =>
        match s.findDesc q.sq q.seq with
        | none => s.setTwb p { x with queue := x.queue.tail, active := false }
        | some d =>
          let op := d.pay 34 1
          let wlen := d.pay 36 2
          let idle (s : State) : State := twbLines (twbBusy s p false) p true true
          let nack (s : State) : State := s.incSat (Fld.TWB_CNT_NACK p)
          let n := match end_ with
            | .ok _ => twbBytes d
            | .nackAddr second => if second then wlen + 1 else 0
            | .nackData n => n.toNat
            | .stopped n => n.toNat
          let sends := match end_ with
            | .ok _ => n
            | .stopped _ => n
            | _ => n + 1
          let s := s.setTwb p { x with sent := twbWire d q.data sends }
          match q.stop with
          | some st =>
            twbComplete (idle s) p st (if st = stTimeout then 0x1000000 + satU 24 d.allow else 0) (twbMoved op wlen n)
          | none =>
            match end_ with
            | .ok read => twbOk (idle s) p d read
            | .nackAddr second =>
              twbComplete (nack (idle s)) p stBadSequence (if second then 0x101 else 0x01) (if second then (wlen, 0) else (0, 0))
            | .nackData n =>
              twbComplete (nack (idle s)) p stBadSequence (0x02 + n.toNat % 256 * 256) (twbMoved op wlen n.toNat)
            | .stopped _ => s

/-! ### The target (R407 to R411) -/

/-- The address of a transfer is the port's own: it acknowledges, and stretches where RDSYNC or WRSYNC asks for it
(R407, R409, R410). -/
def twbServe (s : State) (p : Nat) (read : Bool) : State :=
  let stretch := if read then s.flag (Fld.TWB_TCFG_RDSYNC p)
    else s.flag (Fld.TWB_TCFG_WRSYNC p) && s.flag (Fld.TWB_TSTAT_WRITTEN p)
  setTarget s p (some ⟨read, stretch, if read && !stretch then some (s.reg (Reg.TWB_TREG p)) else none, s.cyc⟩)

/-- A target address that matches. -/
def twbMatch (s : State) (p : Nat) (address : BitVec 7) : Bool :=
  s.flag (Fld.TWB_TCFG_EN p) && decide (address.toNat = s.get (Fld.TWB_TCFG_TADDR p))

/-- The target sees an address byte: it serves its own address, and after a High-speed mode code (0b0000_1) it ignores the bus until the
next STOP (R407). -/
def twbHears (s : State) (p : Nat) (address : BitVec 7) (read : Bool) : State :=
  if (s.twbAt p).deaf then s
  else if address.toNat / 4 = 1 then s.setTwb p { s.twbAt p with deaf := true }
  else if twbMatch s p address then twbServe s p read
  else s

/-- TWB_TARGET_ADDRESSED: an address byte from another controller (R407). The port's own controller is not answered (Table
17.4). -/
def execTwbTargetAddressed (p : Fin 2) (address : BitVec 7) (read : Bool) (s : State) : Host.Outcome State Fault Refusal :=
  act s fun s => if s.twbUp p && !(s.twbAt p).active then twbHears s p address read else s

/-- A stretch ends: a read takes its snapshot (R409, R410). -/
def stretchEnd (s : State) (p : Nat) : State :=
  match (s.twbAt p).target with
  | some t =>
    if t.stretch then
      setTarget s p (some { t with stretch := false, snap := if t.read then some (s.reg (Reg.TWB_TREG p)) else none
                                   at_ := s.cyc })
    else s
  | none => s

/-- The port overruns: OVER counts and interrupts (R408 to R410). -/
def twbOver (s : State) (p n : Nat) : State :=
  if n = 0 then s else twbIrq (s.incSat (Fld.TWB_CNT3_OVER p) n) p 6

/-- The bytes of a bus write in a register value (R408). -/
def twbOverlay (l : List Byte) (v : Word) : Word := BitVec.ofNat 32 (leNat (l ++ (leBytes 4 v.toNat).drop l.length))

/-- TWB_TARGET_WRITE: a STOP or repeated START ends a write to the target; `bytes` are the data bytes sent (R408). -/
def execTwbTargetWrite (p : Fin 2) (bytes : List Byte) (s : State) : Host.Outcome State Fault Refusal :=
  act s fun s =>
    match (s.twbAt p).target with
    | none => s
    | some t =>
      if !s.twbUp p || t.read || t.stretch then s
      else
        let s := setTarget s p none
        let l := bytes.take 4
        if l.isEmpty then s
        else
          let s := s.setReg (Reg.TWB_TREG p) (twbOverlay l (s.reg (Reg.TWB_TREG p)))
          let s := s.setTwb p { s.twbAt p with wrote := some (s.cyc, l) }
          let s := (s.setBit (Fld.TWB_TSTAT_WRITTEN p) 0).put (Fld.TWB_TSTAT_WBYTES p) l.length
          twbOver (twbIrq s p 0) p (bytes.length - 4)

/-- TWB_TARGET_READ: the controller's not-acknowledge ends a read of `n` bytes: snapshot bytes 0 to 3, then 0xFF (R409). -/
def execTwbTargetRead (p : Fin 2) (n : BitVec 16) (s : State) : Host.Outcome State Fault Refusal :=
  act s fun s =>
    match (s.twbAt p).target with
    | none => s
    | some t =>
      match t.snap with
      | none => s
      | some w =>
        if !s.twbUp p || !t.read || t.stretch then s
        else
          let k := n.toNat
          let s := setTarget s p none
          let out := (leBytes 4 w.toNat).take k ++ List.replicate (k - 4) 0xFF
          let s := s.setTwb p { s.twbAt p with sent := out }
          twbOver (twbIrq (s.setBit (Fld.TWB_TSTAT_READ p) 0) p 1) p (k - 4)

/-- TWB_STRETCH_TIMEOUT: a stretch reaches TSTRETCH µs; the transfer proceeds (R410). Before that the command has no effect (DESIGN
CHOICE, log entry 12). -/
def execTwbStretchTimeout (p : Fin 2) (s : State) : Host.Outcome State Fault Refusal :=
  act s fun s =>
    match (s.twbAt p).target with
    | some t =>
      if s.twbUp p && t.stretch && decide (196608 * s.get (Fld.TWB_TCFG_TSTRETCH p) ≤ 1000 * (s.cyc - t.at_)) then
        twbOver (stretchEnd s p) p 1
      else s
    | none => s

/-- A write of TWB_TREG: a bus write of the same cycle overwrites the bytes it carries, a snapshot of the same cycle takes the new value,
and a read stretch ends (R410, R411). -/
def twbTregWrite (s : State) (p : Nat) (v : Word) : State :=
  let x := s.twbAt p
  let v := match x.wrote with
    | some (t, l) => if t = s.cyc then twbOverlay l v else v
    | none => v
  let s := s.setReg (Reg.TWB_TREG p) v
  match x.target with
  | some t =>
    if !t.read then s
    else if t.stretch then stretchEnd s p
    else if t.at_ = s.cyc then setTarget s p (some { t with snap := some v })
    else s
  | none => s

/-- TWB_TREG_WRITE (R410). -/
def execTwbTregWrite (p : Fin 2) (v : Word) (s : State) : Host.Outcome State Fault Refusal :=
  act s fun s => if s.served (Reg.TWB_TREG p) then twbTregWrite s p v else s

/-- A write of TWB_TSTAT: clearing WRITTEN ends a write stretch (R410). -/
def twbTstatWrite (s : State) (p : Nat) (v : Word) : State :=
  let s := s.store (Reg.TWB_TSTAT p) v
  match (s.twbAt p).target with
  | some t => if !t.read && !s.flag (Fld.TWB_TSTAT_WRITTEN p) then stretchEnd s p else s
  | none => s

/-- TWB_TSTAT_CLEAR (R410). -/
def execTwbTstatClear (p : Fin 2) (v : Word) (s : State) : Host.Outcome State Fault Refusal :=
  act s fun s => if s.served (Reg.TWB_TSTAT p) then twbTstatWrite s p v else s

/-! ### The bus (R396, R405, R406, R412 to R415) -/

/-- ARBITRATION_LOST: the controller of port p lets the bus go; the outcome is retried while retries remain, else reported
(R403, R405, R406). In an address byte that completes to its own address the port serves the transfer as a target. -/
def execArbitrationLost (p : Fin 2) (where_ : TwbLoss) (s : State) : Host.Outcome State Fault Refusal :=
  act s fun s =>
    let x := s.twbAt p
    if !s.twbUp p || !x.active then s
    else match x.queue with
      | [] => s
      | q :: r =>
        let s := twbIrq (s.incSat (Fld.TWB_CNT_ARBLOST p)) p 5
        let s := setActive s p false
        let own := match where_ with
          | .addr _ _ a _ => twbMatch s p a
          | _ => false
        let s := match where_ with
          | .addr _ _ a rd => twbHears s p a rd
          | _ => s
        match s.findDesc q.sq q.seq with
        | none => s.setTwb p { s.twbAt p with queue := r }
        | some d =>
          let moved (n : Nat) := twbMoved (d.pay 34 1) (d.pay 36 2) n
          if q.stop.isNone ∧ q.retries < s.get (Fld.TWB_CFG_RETRY p) then
            s.setTwb p { s.twbAt p with queue := { q with retries := q.retries + 1 } :: r }
          else
            let (detail, m) := match where_ with
              | .data n bit => (0x03 + n.toNat % 256 * 2 ^ 8 + bit.val * 2 ^ 16, moved n.toNat)
              | .cond n restart => (0x04 + n.toNat % 256 * 2 ^ 8 + (if restart then 2 ^ 16 else 0), moved n.toNat)
              | .addr n bit _ _ =>
                (0x05 + n.toNat % 256 * 2 ^ 8 + bit.val * 2 ^ 16 + (if own then 2 ^ 20 else 0), moved n.toNat)
            match q.stop with
            | some st => twbComplete s p st (if st = stTimeout then 0x1000000 + satU 24 d.allow else 0) m
            | none => twbComplete s p stBadSequence detail m

/-- BUS_START: a START condition of another device (R396). -/
def execBusStart (p : Fin 2) (s : State) : Host.Outcome State Fault Refusal :=
  act s fun s => if s.twbUp p then twbLines (twbBusy s p true) p false true else s

/-- BUS_STOP: a STOP condition (R396). -/
def execBusStop (p : Fin 2) (s : State) : Host.Outcome State Fault Refusal :=
  act s fun s => if s.twbUp p then twbLines (twbBusy s p false) p true true else s

/-- The port's attention pulse begins: SDA falls with SCL high, so the bus is busy (R396, R412). -/
def twbPulse (s : State) (p : Nat) : State :=
  let s := twbLines (twbBusy s p true) p false true
  s.setTwb p { s.twbAt p with pulse := some s.cyc }

/-- The bus can be free: it is not busy, or was stuck, and LOW port cycles of 8 TCLK cycles have passed since the latest STOP or enable
(R395, R396, R414). -/
def State.mayFree (s : State) (p : Nat) : Bool :=
  (!s.flag (Fld.TWB_STATUS_BUSY p) || s.flag (Fld.TWB_STATUS_STUCK p)) &&
    decide ((s.twbAt p).idleAt + 8 * s.get (Fld.TWB_SCL_LOW p) ≤ s.cyc)

/-- TWB_BUS_FREE: both lines have been high for LOW port cycles: STUCK clears, and a pending attention request begins its pulse
(R396, R412, R414). Before that the command has no effect (DESIGN CHOICE, log entry 12). -/
def execTwbBusFree (p : Fin 2) (s : State) : Host.Outcome State Fault Refusal :=
  act s fun s =>
    if !s.twbUp p || (s.twbAt p).active || (s.twbAt p).pulse.isSome || !s.mayFree p then s
    else
      let s := ((twbLines s p true true).putB (Fld.TWB_STATUS_BUSY p) false).putB (Fld.TWB_STATUS_STUCK p) false
      if s.flag (Fld.TWB_TSTAT_ATT_PEND p) then twbPulse s p else s.setTwb p { s.twbAt p with free := true }

/-- A write of TWB_TCTL.ATT; on a free bus the pulse begins at once (R412). -/
def twbAttRequest (s : State) (p : Nat) : State :=
  if s.flag (Fld.TWB_TSTAT_ATT_PEND p) then s
  else
    let s := s.putB (Fld.TWB_TSTAT_ATT_PEND p) true
    if (s.twbAt p).free && s.twbUp p then twbPulse s p else s

/-- TWB_ATT_REQUEST (R412). -/
def execTwbAttRequest (p : Fin 2) (s : State) : Host.Outcome State Fault Refusal :=
  act s fun s => if s.served (Reg.TWB_TCTL p) then twbAttRequest s p else s

/-- TWB_ATT_PULSE_DONE: the attention pulse ends after 197 port cycles, or meets SCL low and is repeated at the next free bus (R412).
Before its end the command has no effect (DESIGN CHOICE, log entry 12). -/
def execTwbAttPulseDone (p : Fin 2) (collided : Bool) (s : State) : Host.Outcome State Fault Refusal :=
  act s fun s =>
    let x := s.twbAt p
    match x.pulse with
    | none => s
    | some t =>
      if !s.twbUp p || (!collided && decide (s.cyc < t + 8 * 197)) then s
      else
        let s := s.setTwb p { x with pulse := none }
        if collided then (twbLines (twbBusy s p true) p true false).incSat (Fld.TWB_CNT3_COLLIDE p)
        else twbIrq ((twbLines (twbBusy s p false) p true true).putB (Fld.TWB_TSTAT_ATT_PEND p) false) p 3

/-- TWB_ATTN_SEEN: on an idle bus SDA has fallen and risen again after `ns` nanoseconds with SCL high throughout, which the port sees as a
START and a STOP; after 6.0 to 10.0 µs it is another device's attention request (R396, R413). -/
def execTwbAttnSeen (p : Fin 2) (ns : Nat) (s : State) : Host.Outcome State Fault Refusal :=
  act s fun s =>
    if s.twbUp p && (s.twbAt p).pulse.isNone && !(s.twbAt p).active && !s.flag (Fld.TWB_STATUS_BUSY p) then
      let s := twbLines (twbBusy s p false) p true true
      if 6000 ≤ ns ∧ ns ≤ 10000 then twbIrq (s.incSat (Fld.TWB_CNT2_ATTN p)) p 2 else s
    else s

/-- BUS_STUCK: a line that the port needs has stayed low for `ms` milliseconds, STUCK or more: SDA while it waits for the bus, SCL in its
own transfer with `n` bytes complete; the descriptor completes with BUS_STUCK (R414). -/
def execBusStuck (p : Fin 2) (scl : Bool) (n : BitVec 16) (ms : Nat) (s : State) : Host.Outcome State Fault Refusal :=
  act s fun s =>
    let x := s.twbAt p
    match x.queue with
    | [] => s
    | q :: _ =>
      if !s.twbUp p || (scl && !x.active) || decide (ms < s.get (Fld.TWB_CFG_STUCK p)) then s
      else
        let s := twbIrq ((s.incSat (Fld.TWB_CNT2_STUCK p)).putB (Fld.TWB_STATUS_STUCK p) true) p 4
        let s := twbLines s p scl (!scl)
        let s := s.setTwb p { s.twbAt p with free := false, idleAt := s.cyc }
        let moved := match s.findDesc q.sq q.seq with
          | some d => if x.active then twbMoved (d.pay 34 1) (d.pay 36 2) n.toNat else (0, 0)
          | none => (0, 0)
        twbComplete s p stBadSequence (if scl then 0x106 else 0x06) moved

/-- The transfer in progress on port p is cut: its descriptor completes with BUS_STUCK (R415). The command names no byte at which
the transfer stood, so the bytes that RESULT counts are free within the transfer (log entry 3). -/
def twbCut (s : State) (p : Nat) : State :=
  match (s.twbAt p).queue with
  | [] => s
  | q :: _ =>
    match s.findDesc q.sq q.seq with
    | none => twbComplete s p stBadSequence 0x06 (0, 0)
    | some d =>
      let (n, s) := s.free (twbBytes d + 1)
      twbComplete s p stBadSequence 0x06 (twbMoved (d.pay 34 1) (d.pay 36 2) n)

/-- Port p releases both pins (R415). -/
def twbRelease (s : State) (p : Nat) : State :=
  let s := setTarget (setActive s p false) p none
  twbBusy (s.setTwb p { s.twbAt p with pulse := none }) p false

/-! ### Registers (R398) -/

/-- The minimums of Table 17.1: LOW, HIGH. -/
def twbMins (mode : Nat) : Nat × Nat := [(116, 99), (32, 15), (13, 7)].getD mode (116, 99)

/-- LOW and HIGH raised to the minimums of the mode (R398). -/
def twbSclSet (s : State) (p low high : Nat) : State :=
  let (ml, mh) := twbMins (s.get (Fld.TWB_CFG_MODE p))
  ((s.put (Fld.TWB_SCL_LOW p) (max low ml)).put (Fld.TWB_SCL_HIGH p) (max high mh)).putB (Fld.TWB_SCL_CLAMPED p)
    (decide (low < ml) || decide (high < mh))

/-- A write of TWB_SCL. -/
def twbSclWrite (s : State) (p : Nat) (v : Word) : State :=
  twbSclSet s p ((Fld.TWB_SCL_LOW p).get v) ((Fld.TWB_SCL_HIGH p).get v)

/-- TWB_SCL_WRITE (R398). -/
def execTwbSclWrite (p : Fin 2) (v : Word) (s : State) : Host.Outcome State Fault Refusal :=
  act s fun s => if s.served (Reg.TWB_SCL p) then twbSclWrite s p v else s

/-- A write of TWB_CFG: a changed MODE applies its minimums; EN = 0 releases the pins (R396, R398, R415). -/
def twbCfgWrite (s : State) (p : Nat) (v : Word) : Option State :=
  let was := s.flag (Fld.TWB_CFG_EN p)
  let mode := s.get (Fld.TWB_CFG_MODE p)
  match storeWord s (Reg.TWB_CFG p) v with
  | none => none
  | some s =>
    let s := if s.get (Fld.TWB_CFG_MODE p) = mode then s
      else twbSclSet s p (s.get (Fld.TWB_SCL_LOW p)) (s.get (Fld.TWB_SCL_HIGH p))
    let en := s.flag (Fld.TWB_CFG_EN p)
    some (if was && !en then twbRelease (if (s.twbAt p).active then twbCut s p else s) p
      else if en && !was then s.setTwb p { s.twbAt p with free := false, idleAt := s.cyc } else s)

/-- TWB_CFG_WRITE (R396, R398, R415). -/
def execTwbCfgWrite (p : Fin 2) (v : Word) (s : State) : Host.Outcome State Fault Refusal :=
  act s fun s => if s.served (Reg.TWB_CFG p) then (twbCfgWrite s p v).getD s else s

/-- TWB_CNT_CLR (Table 17.6). -/
def execTwbCntClr (p : Fin 2) (s : State) : Host.Outcome State Fault Refusal :=
  act s fun s =>
    if s.served (Reg.TWB_CNT p) then
      ((s.clrReg (Reg.TWB_CNT p)).clrReg (Reg.TWB_CNT2 p)).clrReg (Reg.TWB_CNT3 p)
    else s

end Sys2Proof.Machine
end

