-- ==== Sys2Proof/Machine/Audio.lean ====
section
/-!
DEFINITION. Audio inputs, outputs and jack detection (chapter 13, R313 to R329).
-/
namespace Sys2Proof.Machine

/-! ### Writes that take effect at an instant (R319, R335) -/

/-- At cycle `t` the write has not yet taken effect. -/
def Was.waits (w : Was) (t : Nat) : Bool := decide (t < w.at_ + 4)

/-- The word of a register in force at an instant in cycle `t`: `now`, but for the writes fewer than 4 cycles before it. -/
def inForce (was : List Was) (off t : Nat) (now : Word) : Word :=
  match was.find? fun w => w.off = off && w.waits t with
  | some w => w.word
  | none => now

/-- A GAIN, VOL or MUTE, or what mutes MIC3, is about to change in the register at `off`. -/
def State.noteAud (s : State) (off : Nat) : State :=
  { s with aud := { s.aud with was := s.aud.was ++ [⟨off, s.cyc, s.reg off⟩] } }

/-- The word of an audio register in force since the latest internal sample instant (R319). -/
def State.audWord (s : State) (off : Nat) : Word := inForce s.aud.was off (s.mix.d0Next - 1) (s.reg off)

/-! ### Outputs (R318 to R322) -/

/-- The fields of an output: EN, RAMP, its state and its ramp attenuation in steps of 1.125 dB. -/
def audEn (o : AudOutput) : Field := match o with
  | .hp => Fld.AUD_HP_EN
  | .spk => Fld.AUD_SPK_EN
def audRamp (o : AudOutput) : Field := match o with
  | .hp => Fld.AUD_HP_RAMP
  | .spk => Fld.AUD_SPK_RAMP
def audState (o : AudOutput) : Field := match o with
  | .hp => Fld.AUD_OUTSTAT_HP
  | .spk => Fld.AUD_OUTSTAT_SPK
def audAtt (o : AudOutput) : Field := match o with
  | .hp => Fld.AUD_OUTSTAT_HP_A
  | .spk => Fld.AUD_OUTSTAT_SPK_A

def State.audOut (s : State) (o : AudOutput) : AudOut := match o with
  | .hp => s.aud.hp
  | .spk => s.aud.spk

def State.setAudOut (s : State) (o : AudOutput) (x : AudOut) : State := match o with
  | .hp => { s with aud := { s.aud with hp := x } }
  | .spk => { s with aud := { s.aud with spk := x } }

/-- The fault latches of an output (Table 13.3): bits of AUD_PROT. -/
def audLatches (o : AudOutput) : List Nat := match o with
  | .hp => [0]
  | .spk => [1, 2, 3]

/-- A latch that refuses EN = 1 is set (R322). -/
def State.audLatched (s : State) (o : AudOutput) : Bool :=
  (audLatches o).any fun b => bitOf (s.reg Reg.AUD_PROT).toNat b

/-- A ramp begins: 1 RAMP_UP, 3 RAMP_DOWN; RAMP is read here (R320). -/
def audRampBegin (s : State) (o : AudOutput) (st : Nat) : State :=
  (s.put (audState o) st).setAudOut o { starting := false, ramp := s.get (audRamp o), at_ := s.cyc }

/-- EN of an output is written (R320). -/
def audEnable (s : State) (o : AudOutput) (en : Bool) : State :=
  let st := s.get (audState o)
  let s := s.putB (audEn o) en
  match st, en with
  | 0, true => if (s.audOut o).starting then s else s.setAudOut o { s.audOut o with starting := true, at_ := s.cyc }
  | 0, false => s.setAudOut o { s.audOut o with starting := false }
  | 3, true => audRampBegin s o 1
  | 1, false => audRampBegin s o 3
  | 2, false => audRampBegin s o 3
  | _, _ => s

/-- An output stops without a ramp; its state becomes OFF and EN is cleared (R321). -/
def audStop (s : State) (o : AudOutput) : State :=
  (((s.putB (audEn o) false).put (audState o) 0).put (audAtt o) 64).setAudOut o ⟨false, 0, 0⟩

/-- Both outputs stop (R321). -/
def audStopAll (s : State) : State := audStop (audStop s .hp) .spk

/-- The attenuation between an output's sink and its pins in eighths of a dB: VOL and the ramp's; none where the output is silent, being
OFF or muted (R318, R320). VOL and MUTE are those in force (R319). -/
def State.outAtt (s : State) (o : AudOutput) : Option Nat :=
  let w := s.audWord (audEn o).off
  if s.get (audState o) = 0 || Fld.AUD_HP_MUTE.get w = 1 then none
  else some (8 * (match o with
    | .hp => Fld.AUD_HP_VOL.get w
    | .spk => Fld.AUD_SPK_VOL.get w) + 9 * s.get (audAtt o))

/-- What an output plays: the samples of its sinks, of full scale as Table 13.2 gives it, and their attenuation; silence in a halt
(R522). -/
def State.outPins (s : State) (o : AudOutput) : List Int × Option Nat :=
  let y (k : Nat) : Int := if s.halted then 0 else s.mix.y.getD k 0
  (match o with
    | .hp => [y 0, y 1]
    | .spk => [y 2], s.outAtt o)

def audRegOff (r : AudReg) : Nat :=
  match r with
  | .mic m => if m.val = 3 then Reg.AUD_MIC3 else Reg.AUD_MIC m
  | .lin l => Reg.AUD_LIN l
  | .hp => Reg.AUD_HP
  | .spk => Reg.AUD_SPK

/-- A write of AUD_HP or AUD_SPK: an unlisted VOL ignores the write (R23); EN = 1 is ignored while a latch is set (R322). -/
def audOutWrite (s : State) (o : AudOutput) (v : Word) : Option State :=
  let old := s.flag (audEn o)
  let en := (audEn o).get v = 1
  match storeWord (s.noteAud (audEn o).off) (audEn o).off v with
  | none => none
  | some s => some (audEnable (s.putB (audEn o) old) o (if en && s.audLatched o then old else en))

/-- Input converter j (Table 14.1, sources 0 to 11) is enabled (R313, R316). -/
def State.inputEn (s : State) (j : Nat) : Bool :=
  if j < 4 then s.flag (Fld.AUD_MIC_EN j)
  else if j < 8 then s.flag (Fld.AUD_LIN_EN (j - 4))
  else s.flag Fld.AUD_PDM_EN && s.bitF Fld.AUD_PDM_CHEN (j - 8)

/-- The high-pass filters of the inputs that a write has enabled start from zero; `s` is the state before the write (R317). -/
def enableInputs (s t : State) : State :=
  { t with aud := { t.aud with hpf := t.aud.hpf.zipIdx.map fun e => if !s.inputEn e.2 && t.inputEn e.2 then 0 else e.1 } }

/-- A write of an input's register (R317, R319). -/
def audInputWrite (s : State) (off : Nat) (v : Word) : Option State :=
  (storeWord (s.noteAud off) off v).map (enableInputs s)

/-- A write of an audio gain register (R319): an output's with its EN. -/
def audRegWrite (s : State) (r : AudReg) (v : Word) : Option State :=
  match r with
  | .hp => audOutWrite s .hp v
  | .spk => audOutWrite s .spk v
  | _ => audInputWrite s (audRegOff r) v

/-- AUD_GAIN_WRITE: a write of a register with a GAIN, VOL or MUTE; it takes effect in one step at the next internal sample
(R319). -/
def execAudGainWrite (r : AudReg) (v : Word) (s : State) : Host.Outcome State Fault Refusal :=
  act s fun s => if s.served (audRegOff r) then (audRegWrite s r v).getD s else s

/-- AUD_OUTPUT_ENABLE: a write of AUD_HP or AUD_SPK with EN = 1 (R320). -/
def execAudOutputEnable (o : AudOutput) (v : Word) (s : State) : Host.Outcome State Fault Refusal :=
  act s fun s => if s.served Reg.AUD_HP then (audOutWrite s o (v ||| 0x80000000)).getD s else s

/-- AUD_OUTPUT_DISABLE: a write of AUD_HP or AUD_SPK with EN = 0 (R320). -/
def execAudOutputDisable (o : AudOutput) (v : Word) (s : State) : Host.Outcome State Fault Refusal :=
  act s fun s => if s.served Reg.AUD_HP then (audOutWrite s o (v &&& 0x7FFFFFFF)).getD s else s

/-- TCLK cycles in the 1.0 ms of a start-up (R320). -/
def startupCycles : Nat := 196608

/-- TCLK cycles in RAMP / 64, of RAMP code `r` (R320). -/
def rampCycles (r : Nat) : Nat := 15360 * 2 ^ r

/-- AUD_STARTUP_DONE: the 1.0 ms start-up of an output ends, and RAMP_UP begins at 72 dB (R320); before that the command has no effect
(DESIGN CHOICE, log entry 12). -/
def execAudStartupDone (o : AudOutput) (s : State) : Host.Outcome State Fault Refusal :=
  act s fun s =>
    if (s.audOut o).starting && s.up 10 && decide ((s.audOut o).at_ + startupCycles ≤ s.cyc) then audRampBegin (s.put (audAtt o) 64) o 1 else s

/-- AUD_RAMP_STEP: RAMP / 64 after the step before, the ramp attenuation of an output moves by 1.125 dB (R320); before that the
command has no effect (DESIGN CHOICE, log entry 12). -/
def execAudRampStep (o : AudOutput) (s : State) : Host.Outcome State Fault Refusal :=
  act s fun s =>
    let a := s.get (audAtt o)
    let x := s.audOut o
    let next := x.at_ + rampCycles x.ramp
    if !s.up 10 || decide (s.cyc < next) then s
    else
      let s := s.setAudOut o { x with at_ := next }
      match s.get (audState o) with
      | 1 =>
        let s := s.put (audAtt o) (a - 1)
        if a ≤ 1 then (s.put (audState o) 2).irqF Fld.AUD_IRQ_STATUS_RAMP_DONE else s
      | 3 =>
        let s := s.put (audAtt o) (min 64 (a + 1))
        if 63 ≤ a then (s.put (audState o) 0).irqF Fld.AUD_IRQ_STATUS_RAMP_DONE else s
      | _ => s

/-- The latch of a fault, its interrupt bit, the output it stops. -/
def audFault (f : AudFault) : Field × Field × AudOutput :=
  match f with
  | .hpSc => (Fld.AUD_PROT_HP_SC, Fld.AUD_IRQ_STATUS_HP_SC, .hp)
  | .spkOc => (Fld.AUD_PROT_SPK_OC, Fld.AUD_IRQ_STATUS_SPK_OC, .spk)
  | .spkOt => (Fld.AUD_PROT_SPK_OT, Fld.AUD_IRQ_STATUS_SPK_OT, .spk)
  | .spkUv => (Fld.AUD_PROT_SPK_UV, Fld.AUD_IRQ_STATUS_SPK_UV, .spk)

/-- AUD_PROTECTION_FAULT (R321, R322). -/
def execAudProtectionFault (f : AudFault) (s : State) : Host.Outcome State Fault Refusal :=
  act s fun s =>
    if !s.up 10 then s
    else
      let (latch, irq, o) := audFault f
      ((audStop s o).setBit latch 0).irqF irq

/-- AUD_PROT_CLEAR: a write `v` of AUD_PROT clears the latches written with 1 whose fault condition is absent; `present` are the
conditions that hold (R322). -/
def execAudProtClear (v : Word) (present : BitVec 4) (s : State) : Host.Outcome State Fault Refusal :=
  act s fun s =>
    if s.served Reg.AUD_PROT then
      let clear := v &&& ((BitVec.ofNat 32 present.toNat) ^^^ 0xFFFFFFFF)
      s.setReg Reg.AUD_PROT (s.reg Reg.AUD_PROT &&& (clear ^^^ 0xFFFFFFFF))
    else s

/-! ### Gains (R314, R333) -/

/-- Whether v - 1/2 is at most 2^20 × 10^((c - 384) / 80): both sides times 2, to the 80th power. -/
def glFits (c v : Nat) : Bool := decide ((2 * v - 1) ^ 80 * 10 ^ (384 - c) ≤ 2 ^ 1680 * 10 ^ (c - 384))

/-- The greatest v below 2^n above r, bit by bit, that fits. -/
def glGo (c : Nat) : Nat → Nat → Nat
  | 0, r => r
  | b + 1, r => glGo c b (if glFits c (r + 2 ^ b) then r + 2 ^ b else r)

/-- GL(c) in UQ4.20: 2^20 × 10^((c - 384) / 80) rounded to nearest; 0 for mute (R333). -/
def gl (c : Nat) : Nat := if c = 0 then 0 else glGo c 28 0

/-! ### Inputs (R313 to R317) -/

/-- AUD_PDM is written: PDMCLK that starts begins its 32 zero samples (R316). -/
def audPdmWrite (s : State) (v : Word) : Option State :=
  match storeWord s Reg.AUD_PDM v with
  | none => none
  | some t =>
    let t := enableInputs s t
    some (if !s.flag Fld.AUD_PDM_EN && t.flag Fld.AUD_PDM_EN then { t with aud := { t.aud with pdm := 0, pdmAt := t.cyc } } else t)

/-- The level of PDMCLK: TCLK / 64, or / 32 with CLKSEL = 1, while EN = 1, else low (R316). That it starts with its high half is the
model's choice (DESIGN CHOICE, log entry 44). -/
def State.pdmclk (s : State) : Bool :=
  let half := if s.flag Fld.AUD_PDM_CLKSEL then 16 else 32
  s.flag Fld.AUD_PDM_EN && decide ((s.cyc - s.aud.pdmAt) / half % 2 = 0)

/-- The voltage of MICBIASp in mV, none while it is disabled (R315). -/
def State.micBias (s : State) (p : Fin 2) : Option Nat :=
  let (en, v) := if p = 0 then (Fld.AUD_MICBIAS_EN0, Fld.AUD_MICBIAS_V0) else (Fld.AUD_MICBIAS_EN1, Fld.AUD_MICBIAS_V1)
  if s.flag en then some (if s.flag v then 2500 else 2000) else none

/-- ACC is a headset (R325). -/
def State.headset (s : State) : Bool := s.get Fld.AUD_JACK_STAT_ACC = 3 || s.get Fld.AUD_JACK_STAT_ACC = 4

/-- A button press mutes the jack microphone (R326). -/
def State.btnMuted (s : State) : Bool :=
  Fld.AUD_JACK_CFG_BTNMUTE.get (s.audWord Reg.AUD_JACK_CFG) = 1 && Fld.AUD_JACK_STAT_BTN.get (s.audWord Reg.AUD_JACK_STAT) ≠ 0

/-- The mute of input j in force (R319). -/
def State.inputMuted (s : State) (j : Nat) : Bool :=
  if j < 4 then (Fld.AUD_MIC_MUTE j).get (s.audWord (Reg.AUD_MIC j)) = 1
  else if j < 8 then (Fld.AUD_LIN_MUTE (j - 4)).get (s.audWord (Reg.AUD_LIN (j - 4))) = 1
  else false

/-- Input j converts: it is enabled, and a PDM channel has passed its first 32 samples (R313, R316). -/
def State.inputRuns (s : State) (j : Nat) : Bool := s.inputEn j && (decide (j < 8) || decide (32 ≤ s.aud.pdm))

/-- Whether input converter j delivers its samples and not zeros: it converts and is not muted, and MIC3 from the jack has a headset and
no button that mutes it (R313 to R316, R326). -/
def State.inputOn (s : State) (j : Nat) : Bool :=
  s.inputRuns j && !s.inputMuted j && (j ≠ 3 || !s.flag Fld.AUD_MIC3_SRC || (s.headset && !s.btnMuted))

/-- The gain of input j in force as a node code of the same gain, 384 for 0 dB (R314, R319). -/
def State.gainCode (s : State) (j : Nat) : Nat :=
  if j < 4 then 384 + 4 * (Fld.AUD_MIC_GAIN j).get (s.audWord (Reg.AUD_MIC j))
  else if j < 8 then 360 + 4 * (Fld.AUD_LIN_GAIN (j - 4)).get (s.audWord (Reg.AUD_LIN (j - 4)))
  else 384

/-- The sample that input j makes of its pin, `x` in Q1.23 of its full scale at 0 dB gain: the gain scales it, and it saturates (R313,
R314; rounding is the model's choice, log entry 44). -/
def State.converted (s : State) (j : Nat) (x : Int) : Int := satS 24 (rsh (x * (gl (s.gainCode j) : Nat)) 20)

/-- The HPF code of input j (R317). -/
def State.hpfCode (s : State) (j : Nat) : Nat :=
  if j < 4 then s.get (Fld.AUD_MIC_HPF j)
  else if j < 8 then s.get (Fld.AUD_LIN_HPF (j - 4))
  else s.get Fld.AUD_PDM_HPF

/-- An internal sample of input j: the converted sample through the high-pass filter, whose state moves on (R313, R317). With HPF = OFF the
state stands; a muted input filters on (log entry 44). -/
def inputTakes (pins : List Int) (a : List Int × State) (j : Nat) : List Int × State :=
  let (l, s) := a
  if !s.inputRuns j then (l ++ [0], s)
  else
    let x := s.converted j (pins.getD j 0)
    let (st, y) := if s.hpfCode j = 0 then (s.aud.hpf.getD j 0, x)
      else Config.highPass (s.hpfCode j) (s.get Fld.MIX_CTRL_FS) (s.aud.hpf.getD j 0) x
    (l ++ [if s.inputOn j then satS 24 y else 0], { s with aud := { s.aud with hpf := s.aud.hpf.set j st } })

/-- What the twelve inputs deliver at an internal sample instant. -/
def inputsTake (s : State) (pins : List Int) : List Int × State := (List.range 12).foldl (inputTakes pins) ([], s)

/-- What input j delivers at a low-latency instant, before the decimation filters: GAIN and MUTE apply (R340). -/
def State.inputNow (s : State) (pins : List Int) (j : Nat) : Int := if s.inputOn j then s.converted j (pins.getD j 0) else 0

/-- Audio writes that have taken effect leave the list (R319). -/
def State.audSettle (s : State) : State :=
  { s with aud := { s.aud with was := s.aud.was.filter (·.waits s.cyc) } }

/-- One internal sample of the PDM inputs has passed (R316). -/
def State.pdmSample (s : State) : State :=
  if s.flag Fld.AUD_PDM_EN then { s with aud := { s.aud with pdm := min 32 (s.aud.pdm + 1) } } else s

/-! ### Jack detection (R324 to R327) -/

def State.setJack (s : State) (j : Jack) : State := { s with aud := { s.aud with jack := j } }

/-- The class of a code (R325): 0 LOW, 1 MIC, 2 OTHER. 0.9 × HSBIAS is code 737 of 2.0 V and 921 of 2.5 V. -/
def jackClass (s : State) (c : Nat) : Nat :=
  if c < 20 then 0
  else if s.get Fld.AUD_BTN_TH1_TH3 ≤ c ∧ c ≤ (if s.flag Fld.AUD_JACK_CFG_HSV then 921 else 737) then 1
  else 2

/-- The accessory that two classes show (R325). -/
def jackAcc (ring2 sleeve : Nat) : Nat :=
  match ring2, sleeve with
  | 0, 0 => 2
  | 1, 0 => 4
  | 0, 1 => 3
  | _, _ => 5

/-- The band of a code: button 0 to 3, or 4 for none (R326). -/
def jackBand (s : State) (c : Nat) : Nat :=
  if c < s.get Fld.AUD_BTN_TH0_TH0 then 0
  else if c < s.get Fld.AUD_BTN_TH0_TH1 then 1
  else if c < s.get Fld.AUD_BTN_TH1_TH2 then 2
  else if c < s.get Fld.AUD_BTN_TH1_TH3 then 3
  else 4

/-- A pressed button is released. -/
def btnRelease (s : State) : State :=
  if s.get Fld.AUD_JACK_STAT_BTN = 0 then s
  else ((s.noteAud Reg.AUD_JACK_STAT).put Fld.AUD_JACK_STAT_BTN 0).irqF Fld.AUD_IRQ_STATUS_BTN_REL

/-- A jack sample with a headset (R326). -/
def jackButtons (s : State) (c : Nat) : State :=
  let j := s.aud.jack
  let b := jackBand s c
  let same := if b = j.band then j.same + 1 else 1
  let s := s.setJack { j with band := b, same := same }
  let now := if b = 4 then 0 else b + 1
  if same < s.get Fld.AUD_JACK_CFG_BDEB ∨ now = s.get Fld.AUD_JACK_STAT_BTN then s
  else
    let s := btnRelease s
    if now = 0 then s
    else (((s.noteAud Reg.AUD_JACK_STAT).put Fld.AUD_JACK_STAT_BTN now).incSat Fld.AUD_JACK_CNT_PRESSES).irqF Fld.AUD_IRQ_STATUS_BTN_PRESS

/-- An insertion is accepted (R324). -/
def jackIn (s : State) : State :=
  let s := (s.putB Fld.AUD_JACK_STAT_INSERTED true).put Fld.AUD_JACK_STAT_ACC 1
  ((s.incSat Fld.AUD_JACK_CNT_INSERTS).irqF Fld.AUD_IRQ_STATUS_JACK_IN).setJack ⟨0, 2, 0, 4, 0⟩

/-- A removal is accepted (R327). -/
def jackOut (s : State) : State :=
  let s := (btnRelease s).putB Fld.AUD_JACK_STAT_INSERTED false
  let s := ((s.put Fld.AUD_JACK_STAT_ACC 0).irqF Fld.AUD_IRQ_STATUS_JACK_OUT).setJack ⟨0, 0, 0, 4, 0⟩
  if s.flag Fld.AUD_JACK_CFG_AUTOMUTE then audEnable s .hp false else s

/-- A jack sample with the plug in: accessory detection in its two samples, then the buttons of a headset (R325, R326). -/
def jackMeasure (s : State) (c : Nat) : State :=
  let j := s.aud.jack
  match j.acc with
  | 2 => (s.put Fld.AUD_JACK_STAT_JADC c).setJack { j with acc := 1, first := jackClass s c }
  | 1 =>
    let s := (s.put Fld.AUD_JACK_STAT_JADC c).setJack { j with acc := 0 }
    (s.put Fld.AUD_JACK_STAT_ACC (jackAcc j.first (jackClass s c))).irqF Fld.AUD_IRQ_STATUS_ACC_DONE
  | _ => if s.headset then jackButtons (s.put Fld.AUD_JACK_STAT_JADC c) c else s

/-- The code of a voltage in nV at the jack ADC (R325). -/
def jackCode (v : Int) : Nat := min 1023 (v * 1024 / 2500000000).toNat

/-- JACK_SAMPLE: the level of JDET and the voltage at the contact that the jack ADC measures, at a jack sample (R324 to R327). -/
def execJackSample (jdet : Bool) (volts : Int) (s : State) : Host.Outcome State Fault Refusal :=
  act s fun s =>
    if !s.up 10 || !s.flag Fld.AUD_JACK_CFG_EN then s
    else
      let inserted := s.flag Fld.AUD_JACK_STAT_INSERTED
      let level := jdet = s.flag Fld.AUD_JACK_CFG_JPOL
      let j := s.aud.jack
      let deb := if level = inserted then 0 else j.deb + 1
      let s := s.setJack { j with deb := deb }
      if s.get Fld.AUD_JACK_CFG_JDEB ≤ deb then (if inserted then jackOut s else jackIn s)
      else if inserted then jackMeasure s (jackCode volts)
      else s

end Sys2Proof.Machine
end

