-- ==== Sys2Proof/Machine/Mixer.lean ====
section
/-!
DEFINITION. The crosspoint mixer, rate domains, NPUFEAT taps, AUDIO descriptors and serial audio ports (chapter 14, R330 to
R355).
-/
namespace Sys2Proof.Machine

def State.setMix (s : State) (x : Mix) : State := { s with mix := x }

/-- The mixer runs: ready, clocked, not halted. -/
def State.mixUp (s : State) : Bool := s.up 11 && !s.halted

/-- MODE is BRIDGED (R337). -/
def State.bridged (s : State) : Bool := s.flag Fld.MIX_CTRL_MODE

def State.d2port (s : State) : Nat := s.get Fld.MIX_CTRL_D2PORT

/-! ### Domains (R336, R337, Table 14.3) -/

/-- The domain of a serial source or sink, by its assignment register. -/
def State.spDom (s : State) (off : Nat) : Nat :=
  let w := (s.reg off).toNat
  if s.bridged && bitOf w 31 && bitsOf w 8 8 = s.d2port then 2 else 0

/-- The domain of source j. -/
def State.srcDom (s : State) (j : Nat) : Nat :=
  if !s.bridged then 0
  else if 12 ≤ j ∧ j < 16 then 1
  else if 16 ≤ j ∧ j < 20 then s.spDom (Reg.MIX_SPIN (j - 16))
  else 0

/-- The domain of sink k. -/
def State.sinkDom (s : State) (k : Nat) : Nat :=
  if !s.bridged then 0
  else if 3 ≤ k ∧ k < 11 then 1
  else if 11 ≤ k ∧ k < 15 then s.spDom (Reg.MIX_SPOUT (k - 11))
  else 0

/-- The domains of bridge d in the order of MIX_STATUS.BRLOCK: from, to (Table 14.8). -/
def bridgeEnds (d : Nat) : Nat × Nat :=
  [(0, 1), (1, 0), (0, 2), (2, 0), (1, 2), (2, 1)].getD d (0, 0)

/-- The bridge from one domain to another. -/
def bridgeOf (a b : Nat) : Nat := ((List.range 6).find? fun d => bridgeEnds d = (a, b)).getD 0

/-- MIX_BRMAP: the source on channel c of bridge d, 0xFF for none. -/
def State.brSrc (s : State) (d c : Nat) : Nat :=
  let i := 8 * d + c
  bitsOf (s.reg (Reg.MIX_BRMAP (i / 4))).toNat (8 * (i % 4) + 7) (8 * (i % 4))

def State.setBrSrc (s : State) (d c j : Nat) : State :=
  let i := 8 * d + c
  s.put ⟨Reg.MIX_BRMAP (i / 4), 8 * (i % 4) + 7, 8 * (i % 4)⟩ j

/-- Channel c of bridge d is locked. -/
def State.brLocked (s : State) (d c : Nat) : Bool := bitOf s.mix.brLock (8 * d + c)

def State.setBrLocked (s : State) (d c : Nat) (b : Bool) : State :=
  let m := s.mix.brLock
  s.setMix { s.mix with brLock := if b then orBit m (8 * d + c) else clrBit m (8 * d + c) }

/-- The channel of bridge d that carries source j. -/
def State.brChan (s : State) (d j : Nat) : Option Nat := (List.range 8).find? fun c => s.brSrc d c = j

/-- BRLOCK: each bridge with a channel, all of whose channels are locked. -/
def brStatus (s : State) : State :=
  s.put Fld.MIX_STATUS_BRLOCK (((List.range 6).filter fun d =>
    let used := (List.range 8).filter fun c => s.brSrc d c ≠ 0xFF
    !used.isEmpty && used.all (s.brLocked d)).foldl orBit 0)

/-- Whether bridge d needs source j: a non-mute node of a sink in its far domain (R338). -/
def State.brNeeds (s : State) (d j : Nat) : Bool :=
  let (a, b) := bridgeEnds d
  s.bridged && s.srcDom j = a &&
    (List.range 20).any fun k => s.sinkDom k = b && decide (s.get (Fld.MIX_NODE_CODE k j) ≠ 0)

/-- The channels of bridge d that no node needs are freed, and the sources without one take the lowest free channel, in ascending
order; a source that finds none sets BR_FULL (R338; log entry 20). -/
def bridgeSync1 (s : State) (d : Nat) : State :=
  let s := (List.range 8).foldl (fun s c =>
    let j := s.brSrc d c
    if j ≠ 0xFF ∧ !s.brNeeds d j then (s.setBrSrc d c 0xFF).setBrLocked d c false else s) s
  (List.range 24).foldl (fun s j =>
    if s.brNeeds d j ∧ s.brChan d j = none then
      match s.brChan d 0xFF with
      | some c => (s.setBrSrc d c j).setBrLocked d c false
      | none => s.irqF Fld.MIX_IRQ_STATUS_BR_FULL
    else s) s

/-- The allocation of every bridge follows the nodes (R338). -/
def bridgeSync (s : State) : State := brStatus ((List.range 6).foldl bridgeSync1 s)

/-- The bridges of a mask lose lock. -/
def bridgesUnlock (s : State) (ds : List Nat) : State :=
  brStatus (ds.foldl (fun s d => (List.range 8).foldl (fun s c => s.setBrLocked d c false) s) s)

/-- Edge converters, as bits of `Mix.conv`: USBP, USBR, SPI of port p, SPO of port p. -/
def convUsbIn : Nat := 0
def convUsbOut : Nat := 1
def convSpi (p : Nat) : Nat := 2 + p
def convSpo (p : Nat) : Nat := 4 + p

def State.setConv (s : State) (i : Nat) (b : Bool) : State :=
  s.setMix { s.mix with conv := if b then orBit s.mix.conv i else clrBit s.mix.conv i }

/-! ### Sums (R334) -/

/-- The sum of a sink before saturation (R334): sources and node codes. -/
def sinkSum (srcs : List Int) (codes : List Nat) : Int :=
  rsh ((srcs.zip codes).foldl (fun a e => a + e.1 * (gl e.2 : Nat)) 0) 20

/-! ### Feature units (R341 to R343) -/

/-- The accumulators cleared, the filter states kept (R341). -/
def Feat.clear (f : Feat) : Feat :=
  { f with pk := 0, e := 0, n := 0, pkb := List.replicate 7 0, eb := List.replicate 7 0 }

/-- Coefficient i of band b, Q2.22. -/
def State.bq (s : State) (b i : Nat) : Int := sgn 24 (s.get (Fld.MIX_BQ_COEF b i))

/-- One NF sample (R342). -/
def featSample (s : State) (f : Feat) (x : Int) : Feat :=
  let mag (v : Int) : Nat := min v.natAbs 0x7FFF
  let v := satS 16 (rsh x 8)
  let ys := (List.range 7).map fun b =>
    satS 24 (rsh (s.bq b 0 * x + s.bq b 1 * f.x1 + s.bq b 2 * f.x2 - s.bq b 3 * f.y1.getD b 0 - s.bq b 4 * f.y2.getD b 0) 22)
  let us := ys.map fun y => satS 16 (rsh y 8)
  { x1 := x, x2 := f.x1, y1 := ys, y2 := f.y1
    pk := max f.pk (mag v), e := f.e + v.natAbs ^ 2, n := f.n + 1
    pkb := (f.pkb.zip us).map fun p => max p.1 (mag p.2)
    eb := (f.eb.zip us).map fun p => p.1 + p.2.natAbs ^ 2 }

/-- L(e, n): log2 of the mean square, Q6.10 (R342). -/
def featLog (e n : Nat) : Nat :=
  let ms := e / n
  if n = 0 ∨ ms = 0 then 0x8000
  else
    let k := Nat.log2 ms
    lowBits 16 (((k <<< 10) + (((ms - 2 ^ k) <<< 10) >>> k) : Nat) - 30720)

/-- The 16 words of a unit at a frame end (R342). -/
def featWords (f : Feat) : List Nat :=
  [f.pk, featLog f.e f.n] ++ f.eb.map (featLog · f.n) ++ f.pkb

/-- The words of a unit that is off (R343). -/
def featOff : List Nat := [0, 0x8000] ++ List.replicate 7 0x8000 ++ List.replicate 7 0

/-- Sink k takes its samples from the low-latency path (R340). -/
def State.lowLat (s : State) (k : Nat) : Bool :=
  (k < 2 || (15 ≤ k && k < 19)) && bitOf (s.reg Reg.MIX_LLSEL).toNat k

/-- The low-latency row of a sink: 0 HPL, 1 HPR, 2 to 5 NF0 to NF3 (Table 14.10). -/
def llRow (k : Nat) : Nat := if k < 2 then k else k - 13

/-- The node codes of sink k, source by source. -/
def State.codes (s : State) (k : Nat) : List Nat :=
  if s.lowLat k then (List.range 8).map fun j => s.get (Fld.MIX_LLNODE_CODE (llRow k) j)
  else (List.range 24).map fun j => s.get (Fld.MIX_NODE_CODE k j)

/-- The node codes of sink k in force at an instant in this cycle (R335). -/
def State.codesNow (s : State) (k : Nat) : List Nat :=
  let code (f : Field) : Nat := f.get (inForce s.mix.was f.off s.cyc (s.reg f.off))
  if s.lowLat k then (List.range 8).map fun j => code (Fld.MIX_LLNODE_CODE (llRow k) j)
  else (List.range 24).map fun j => code (Fld.MIX_NODE_CODE k j)

/-- The node code at `off` is about to change (R335). -/
def State.noteNode (s : State) (off : Nat) : State :=
  s.setMix { s.mix with was := s.mix.was ++ [⟨off, s.cyc, s.reg off⟩] }

/-- Node writes that have taken effect at an instant of this cycle leave the list: those of the sinks of domain `d`, or for the
low-latency path (none) of its own nodes. -/
def State.nodeSettle (s : State) (d : Option Nat) : State :=
  let mine (off : Nat) : Bool :=
    if Reg.MIX_LLNODE 0 0 ≤ off then d.isNone else d = some (s.sinkDom ((off - Reg.MIX_NODE 0 0) / 0x80))
  s.setMix { s.mix with was := s.mix.was.filter fun w => w.waits s.cyc || !mine w.off }

/-- A frame ends at every tick edge whose TICKNO is a multiple of FRAME while the mixer runs; at a gaffer start the accumulators
are cleared first (R339, R341). -/
def mixTickEdge (s : State) (first : Bool) : State :=
  if !s.mixUp then s
  else
    let s := if first then s.setMix { s.mix with feats := s.mix.feats.map Feat.clear } else s
    if !s.flag Fld.MIX_CTRL_EN || s.tickno % (s.get Fld.MIX_FEAT_FRM + 1) ≠ 0 then s
    else
      let words := (s.mix.feats.zipIdx.map fun e =>
        if s.flag Fld.MIX_FEAT_EN && (s.codes (15 + e.2)).any (· ≠ 0) then featWords e.1 else featOff).flatten
      s.setMix { s.mix with featDue := some (s.tickno, s.cyc + 24, words), feats := s.mix.feats.map Feat.clear }

/-- FEAT_FRAME_COMPLETE: 24 cycles after its end the frame is written to MIX_FEATBUF, its TICKNO to MIX_FEATSEQ (R343); before that the
command has no effect (DESIGN CHOICE, log entry 12). -/
def execFeatFrameComplete (s : State) : Host.Outcome State Fault Refusal :=
  act s fun s =>
    match s.mix.featDue with
    | none => s
    | some (t, due, words) =>
      if !s.mixUp || decide (s.cyc < due) then s
      else
        let s := s.setMix { s.mix with featDue := none }
        let s := words.zipIdx.foldl (fun s e => s.put (Fld.MIX_FEATBUF_WORD e.2) e.1) s
        (s.setWide 48 Reg.MIX_FEATSEQ_LO t).irqF Fld.MIX_IRQ_STATUS_FEAT

/-! ### A sample of a sink (R334, R344) -/

/-- Sink k produces sample `y`: the meter, and the feature unit of an NF sink. -/
def sinkTakes (s : State) (k : Nat) (y : Int) : State :=
  let s := s.setMix { s.mix with y := s.mix.y.set k y }
  let a := min (y.natAbs / 256) 0x7FFF
  let lv := s.get (Fld.MIX_METER_LEVEL k)
  let s := s.put (Fld.MIX_METER_LEVEL k) (max a (lv - lv / 2 ^ s.get Fld.MIX_METCFG_DECAY))
  let s := s.put (Fld.MIX_METER_PEAK k) (max (s.get (Fld.MIX_METER_PEAK k)) a)
  if 15 ≤ k ∧ k < 19 ∧ s.flag Fld.MIX_FEAT_EN then
    s.setMix { s.mix with feats := s.mix.feats.set (k - 15) (featSample s (s.mix.feats.getD (k - 15) Feat.init) y) }
  else s

/-- Sink k forms its sample from the sources of an instant (R334, R339). -/
def sinkForms (s : State) (srcs : List Int) (k : Nat) : State :=
  if !s.flag Fld.MIX_CTRL_EN then sinkTakes s k 0
  else
    let sum := sinkSum srcs (s.codesNow k)
    let y := satS 24 sum
    let s := if y = sum then s else (s.setBit Fld.MIX_CLIP_CLIP k).irqF Fld.MIX_IRQ_STATUS_CLIP
    sinkTakes s k y

/-! ### Serial ports (R350 to R353) -/

/-- Slots and slot width of port p. -/
def State.spSlots (s : State) (p : Nat) : Nat :=
  if s.get (Fld.SP_CFG_FMT p) = 2 then s.get (Fld.SP_CFG_SLOTS p) + 1 else 2

/-- Port p is a controller. -/
def State.spCtl (s : State) (p : Nat) : Bool := s.flag (Fld.SP_CFG_ROLE p)

/-- Port p carries frames: enabled, and as a target locked and not lost. -/
def State.spLive (s : State) (p : Nat) : Bool :=
  s.flag (Fld.SP_CFG_EN p) && (s.spCtl p || (s.flag (Fld.SP_STATUS_LOCKED p) && !s.flag (Fld.SP_STATUS_LOST p)))

/-- The port that an assignment register names, where the assignment is in force (R352). -/
def State.spPort (s : State) (off : Nat) : Option Nat :=
  let w := (s.reg off).toNat
  let p := bitsOf w 8 8
  if bitOf w 31 && decide (bitsOf w 2 0 < s.spSlots p) then some p else none

/-- BCLK cycles of one slot of port p. -/
def State.spWidth (s : State) (p : Nat) : Nat := [16, 24, 32].getD (s.get (Fld.SP_CFG_SLOTW p)) 32

/-- Bits of one word of port p. -/
def State.spWord (s : State) (p : Nat) : Nat := if s.flag (Fld.SP_CFG_WLEN p) then 24 else 16

/-- BCLK cycles from the FS edge that starts a frame to the MSB of slot 0 (R350). -/
def State.spDelay (s : State) (p : Nat) : Nat :=
  match s.get (Fld.SP_CFG_FMT p) with
  | 0 => 1
  | 1 => 0
  | _ => s.get (Fld.SP_CFG_TDMDLY p)

/-- The sample in slot `sl` of port p, from the bits sampled on SDI, one in each BCLK cycle from the FS edge on (R350). A word longer than
its slot misses its low bits (DESIGN CHOICE, log entry 44). -/
def spIn (s : State) (p : Nat) (bits : List Bool) (sl : Nat) : Int :=
  let n := s.spWord p
  let v := (List.range n).foldl (fun a i =>
    2 * a + (i < s.spWidth p && bits.getD (s.spDelay p + sl * s.spWidth p + i) false).toNat) 0
  if n = 24 then sgn 24 v else sgn 16 v * 256

/-- A sample as a transmitted word (R350). -/
def spOut (s : State) (p : Nat) (y : Int) : Nat :=
  if s.flag (Fld.SP_CFG_WLEN p) then lowBits 24 y else lowBits 16 (satS 16 (rsh y 8))

/-- The words port p transmits in its next frame: each slot's SPO sink, 0 where none names it. A target port in SINGLE mode
transmits what its edge converter gives (R336, R350, R352). -/
def spTransmit (s : State) (p : Nat) : State :=
  let slotWord (s : State) (sl : Nat) : Nat × State :=
    match (List.range 4).find? fun i => s.spPort (Reg.MIX_SPOUT i) = some p ∧ s.get (Fld.MIX_SPOUT_SLOT i) = sl with
    | none => (0, s)
    | some i =>
      if s.bridged || s.spCtl p then (spOut s p (s.mix.y.getD (11 + i) 0), s)
      else if bitOf s.mix.conv (convSpo p) then
        let (v, s) := s.free (2 ^ 24)
        (spOut s p (sgn 24 v), s)
      else (0, s)
  let (l, s) := (List.range (s.spSlots p)).foldl (fun (a : List Nat × State) sl =>
    let (w, t) := slotWord a.2 sl
    (a.1 ++ [w], t)) ([], s)
  s.setMix { s.mix with sdo := s.mix.sdo.set p l, sdoOld := s.mix.sdoOld.set p (s.mix.sdo.getD p []) }

/-- The bit on SDO of port p in BCLK cycle i after the FS edge: the word of its slot, MSB first and left-justified, and 0 after it; before
slot 0 the last slot of the frame before still runs (R350). -/
def State.sdoBit (s : State) (p i : Nat) : Bool :=
  let w := s.spWidth p
  let l := s.spSlots p * w
  let (frame, k) := if i < s.spDelay p then (s.mix.sdoOld, l + i - s.spDelay p) else (s.mix.sdo, i - s.spDelay p)
  decide (k % w < s.spWord p) && bitOf ((frame.getD p []).getD (k / w) 0) (s.spWord p - 1 - k % w)

/-- The level of FS in BCLK cycle i of a frame: low in the left slot of I²S, high in the left slot of left-justified framing, high in the
first cycle of a TDM frame; FSINV inverts it (R350). How long a controller holds FS high in TDM is the model's choice (log entry 44). -/
def State.fsLevel (s : State) (p i : Nat) : Bool :=
  let left := decide (i < s.spWidth p)
  (match s.get (Fld.SP_CFG_FMT p) with
    | 0 => !left
    | 1 => left
    | _ => decide (i = 0)) ^^ s.flag (Fld.SP_CFG_FSINV p)

/-- SDI is sampled on the rising edge of BCLK; BCLKINV inverts the edge (R350; the edge is PRESUMED, log entry 44). -/
def State.spRising (s : State) (p : Nat) : Bool := !s.flag (Fld.SP_CFG_BCLKINV p)

/-- The frame rate of the D0 instants in Hz (R331). -/
def State.d0rate (s : State) : Nat := 48000 * 2 ^ s.get Fld.MIX_CTRL_FS

/-- Port p is unlocked, with its converters. -/
def spUnlock (s : State) (p : Nat) : State :=
  (((((s.putB (Fld.SP_STATUS_LOCKED p) false).putB (Fld.SP_STATUS_LOST p) false).put (Fld.SP_STATUS_FPER p) 0).setConv
    (convSpi p) false).setConv (convSpo p) false)

/-- Whether an enabling configuration of port p is refused: a role that BRIDGED mode forbids, a controller's BCLK above
24.576 MHz (R337, R351). -/
def spRefused (s : State) (p : Nat) (v : Word) : Bool :=
  let ctl := (Fld.SP_CFG_ROLE p).get v = 1
  let slots := if (Fld.SP_CFG_FMT p).get v = 2 then (Fld.SP_CFG_SLOTS p).get v + 1 else 2
  let width := [16, 24, 32].getD ((Fld.SP_CFG_SLOTW p).get v) 32
  (s.bridged && (if p = s.d2port then ctl else !ctl)) ||
    (ctl && decide (24576000 < s.d0rate * slots * width))

/-- A write of SP_CFG: an enabling write that is refused sets CFGERR and changes nothing else (R337, R351; log entry 20). -/
def spCfgWrite (s : State) (p : Nat) (v : Word) : Option State :=
  let en := (Fld.SP_CFG_EN p).get v = 1
  if en && spRefused s p v then some (s.putB (Fld.SP_STATUS_CFGERR p) true)
  else match storeWord s (Reg.SP_CFG p) v with
    | none => none
    | some s =>
      let s := if en then s.putB (Fld.SP_STATUS_CFGERR p) false else s
      some (spUnlock s p)

/-- SP_CFG_WRITE (R337, R351). -/
def execSpCfgWrite (p : Fin 2) (v : Word) (s : State) : Host.Outcome State Fault Refusal :=
  act s fun s => if s.served (Reg.SP_CFG p) then (spCfgWrite s p v).getD s else s

/-- Periods `a` and `b` differ by more than 1/64 of `b`. -/
def periodOff (a b : Nat) : Bool := decide (b < 64 * (max a b - min a b))

/-- Port p starts a frame in this cycle (R353). -/
def State.frameStart (s : State) (p : Nat) : State := s.setMix { s.mix with spAt := s.mix.spAt.set p s.cyc }

/-- A frame period that a target port accepts: 8 to 192 kHz, with BCLK up to 24.576 MHz (R351). -/
def State.periodFits (s : State) (p f : Nat) : Bool :=
  decide (1024 ≤ f) && decide (f ≤ 24576) && decide (8 * s.spSlots p * s.spWidth p ≤ f)

/-- SP_LOCK: a target port has seen 8 consecutive frames of the configured BCLK count, of these periods in TCLK cycles; where they agree
within 1/64 of the 8th and it lies in range, the port locks and FPER shows the 8th (R351; what agree means DEDUCED, log entry
44). -/
def execSpLock (p : Fin 2) (periods : Vector (BitVec 16) 8) (s : State) : Host.Outcome State Fault Refusal :=
  act s fun s =>
    let f := periods[7].toNat
    if s.mixUp && s.flag (Fld.SP_CFG_EN p) && !s.spCtl p && !s.spLive p && s.periodFits p f &&
        periods.toList.all (fun x => !periodOff x.toNat f) then
      let s := ((s.putB (Fld.SP_STATUS_LOCKED p) true).putB (Fld.SP_STATUS_LOST p) false).put (Fld.SP_STATUS_FPER p) f
      let s := s.frameStart p
      if s.bridged ∧ s.d2port = p.val then s.putB Fld.MIX_STATUS_D2_FROZEN false else s
    else s

/-- A fault of Table 14.6 may occur on port p: a target that is locked and not lost. -/
def State.spFaultable (s : State) (p : Nat) : Bool := s.mixUp && s.spLive p && !s.spCtl p

/-- SP_CLK_LOST: no frame start for 4 × FPER + FPER/2 cycles (Table 14.6). -/
def execSpClkLost (p : Fin 2) (s : State) : Host.Outcome State Fault Refusal :=
  act s fun s =>
    let f := s.get (Fld.SP_STATUS_FPER p)
    if !s.spFaultable p || decide (s.cyc < s.mix.spAt.getD p 0 + 4 * f + f / 2) then s
    else
      let s := ((s.incSat (Fld.SP_CNT_LOST p)).putB (Fld.SP_STATUS_LOST p) true).irqBit Fld.MIX_IRQ_STATUS_SPLOST p
      if s.bridged then
        if s.d2port = p.val then bridgesUnlock (s.putB Fld.MIX_STATUS_D2_FROZEN true) [2, 3, 4, 5] else s
      else (s.setConv (convSpi p) false).setConv (convSpo p) false

/-- SP_GLITCH: a frame start after `bclks` BCLK cycles, not slots × slot width: the frame in progress is lost, so that no instant delivers
it, and its transmit is cut short (Table 14.6). -/
def execSpGlitch (p : Fin 2) (bclks : Nat) (s : State) : Host.Outcome State Fault Refusal :=
  act s fun s =>
    if !s.spFaultable p || bclks = s.spSlots p * s.spWidth p then s
    else
      let s := (s.incSat (Fld.SP_CNT_GLITCH p)).irqBit Fld.MIX_IRQ_STATUS_SPGLITCH p
      let s := s.frameStart p
      s.setMix { s.mix with sdo := s.mix.sdo.set p [], spCut := s.mix.spCut.set p (some s.cyc) }

/-- SP_RATE_CHANGE: 8 consecutive frames of these periods, each off FPER by more than FPER/64: in SINGLE mode the port relocks; in BRIDGED
mode D2 takes the new rate and its bridges relock (Table 14.6). -/
def execSpRateChange (p : Fin 2) (periods : Vector (BitVec 16) 8) (s : State) : Host.Outcome State Fault Refusal :=
  act s fun s =>
    if !s.spFaultable p || periods.toList.any (fun x => !periodOff x.toNat (s.get (Fld.SP_STATUS_FPER p))) then s
    else
      let s := (s.incSat (Fld.SP_CNT2_RATE p)).irqBit Fld.MIX_IRQ_STATUS_SPRATE p
      if s.bridged then
        let s := s.put (Fld.SP_STATUS_FPER p) periods[7].toNat
        if s.d2port = p.val then bridgesUnlock s [2, 3, 4, 5] else s
      else spUnlock s p

/-- SP_CNT_CLR (Table 14.9). -/
def execSpCntClr (p : Fin 2) (s : State) : Host.Outcome State Fault Refusal :=
  act s fun s => if s.served (Reg.SP_CNT p) then (s.clrReg (Reg.SP_CNT p)).clrReg (Reg.SP_CNT2 p) else s

/-! ### Playback (R348) -/

/-- RESULT of an AUDIO descriptor: the low 32 bits of the bytes moved, and the counter at its first frame (R349). -/
def moveResult (bytes first : Nat) : Nat := bytes % 2 ^ 32 + first % 2 ^ 32 * 2 ^ 32

/-- Bytes of one sample of a format (Table 14.5). -/
def fmtBytes (fmt : Nat) : Nat := if fmt = 0 then 2 else 4

/-- A sample from memory (Table 14.5). -/
def fmtDecode (fmt : Nat) (b : List Byte) : Int :=
  let v := leNat b
  match fmt with
  | 0 => sgn 16 v * 256
  | 1 => sgn 24 v
  | _ => sgn 24 (v / 256)

/-- A sample to memory (Table 14.5). -/
def fmtEncode (fmt : Nat) (y : Int) : List Byte :=
  match fmt with
  | 0 => leBytes 2 (lowBits 16 (satS 16 (rsh y 8)))
  | 1 => leBytes 4 (lowBits 32 y)
  | _ => leBytes 4 (lowBits 32 (y * 256))

/-- A playback at a D0 instant, before MIX_SCNT0 counts it: where no earlier playback of one of its sources waits and its start has come,
its next frame is fed, or zeros for a frame whose data has not arrived. `acc` holds the sources claimed by earlier playbacks and the
values fed. -/
def playStep (acc : State × List Nat × List (Nat × Int)) (p : Play) : State × List Nat × List (Nat × Int) :=
  let (s, used, vals) := acc
  let free := p.chs.all fun c => !used.contains c
  let due := p.first.isSome || (if p.start ≠ 0 then decide (p.start ≤ s.tickno) else decide (p.notBefore ≤ s.cyc))
  if !(free && due) then (s, used ++ p.chs, vals)
  else
    let w := fmtBytes p.fmt
    let size := w * p.chs.length
    let here := decide (size ≤ p.data.length) && !p.late.contains p.due
    let s := if here then s else (s.incSat Fld.MIX_CAPDROP_PBU).irqF Fld.MIX_IRQ_STATUS_PBUNDER
    let vals := vals ++ p.chs.zipIdx.map fun e => (e.1, if here then fmtDecode p.fmt (slice p.data (w * e.2) w) else 0)
    let first := p.first.getD ((s.get (Fld.MIX_SCNT_SCNT 0) + 1) % 2 ^ 32)
    let q := { p with left := p.left - 1, data := p.data.drop size, due := p.due + 1, first := some first
                      fed := p.fed + if here then 1 else 0 }
    let s := if q.left = 0 then
        let s := s.setMix { s.mix with plays := s.mix.plays.filter (· ≠ p) }
        match s.findDesc p.sq p.seq with
        | some d => s.complete d stOK 0 (moveResult (q.fed * size) first)
        | none => s
      else s.setMix { s.mix with plays := s.mix.plays.map fun x => if x = p then q else x }
    (s, used ++ p.chs, vals)

/-- What the MEM sources deliver at a D0 instant. -/
def playInstant (s : State) : State × List (Nat × Int) :=
  let (s, _, vals) := s.mix.plays.foldl playStep (s, [], [])
  (s, vals)

/-! ### A sample instant (R331, R332, R334) -/

/-- What a source delivers at an instant of its own domain; `ins` is what the input converters deliver, `sdi` the bits each port has
received, `usb` the playback frame of a D1 instant, `mem` what the MEM sources feed. An edge converter in lock delivers a value the spec
does not state (log entry 20), else zeros. -/
def srcValue (s : State) (ins : List Int) (sdi : List (List Bool)) (usb : List Int) (mem : List (Nat × Int)) (j : Nat) :
    Int × State :=
  let edge (s : State) (i : Nat) : Int × State :=
    if bitOf s.mix.conv i then
      let (v, s) := s.free (2 ^ 24)
      (sgn 24 v, s)
    else (0, s)
  if j < 12 then (ins.getD j 0, s)
  else if j < 16 then
    if s.get Fld.USB_STATUS_ALT_PLAY = 0 || s.flag Fld.USB_STATUS_SUSPENDED then (0, s)
    else if s.bridged then (usb.getD (j - 12) 0, s)
    else edge s convUsbIn
  else if j < 20 then
    match s.spPort (Reg.MIX_SPIN (j - 16)) with
    | none => (0, s)
    | some p =>
      if !s.spLive p then (0, s)
      else if s.bridged || s.spCtl p then (spIn s p (sdi.getD p []) (s.get (Fld.MIX_SPIN_SLOT (j - 16))), s)
      else edge s (convSpi p)
  else ((mem.find? (·.1 = j)).map (·.2) |>.getD 0, s)

/-- What source j delivers to the sinks of domain d: its own sample within the domain, else what its bridge channel gives: a
value the spec does not state once locked, zeros before and out of a frozen D2 (R338, Table 14.6; log entry 20). -/
def srcFor (s : State) (d : Nat) (own : Nat → State → Int × State) (j : Nat) : Int × State :=
  let a := s.srcDom j
  if a = d then own j s
  else
    let b := bridgeOf a d
    match s.brChan b j with
    | some c =>
      if s.brLocked b c && !(a = 2 && s.flag Fld.MIX_STATUS_D2_FROZEN) then
        let (v, s) := s.free (2 ^ 24)
        (sgn 24 v, s)
      else (0, s)
    | none => (0, s)

/-- The 24 sources as domain d sees them. -/
def sources (s : State) (d : Nat) (own : Nat → State → Int × State) : List Int × State :=
  (List.range 24).foldl (fun (a : List Int × State) j =>
    let (v, t) := srcFor a.2 d own j
    (a.1 ++ [v], t)) ([], s)

/-- The sinks of domain d form their samples; the frame waits for a hand-off while the mixer runs (R334, R345). -/
def domInstant (s : State) (d : Nat) (own : Nat → State → Int × State) : State :=
  let s := s.incWrap (Fld.MIX_SCNT_SCNT d)
  let (srcs, s) := sources s d own
  let s := (((List.range 20).filter fun k => s.sinkDom k = d && !s.lowLat k).foldl (fun s k => sinkForms s srcs k) s).nodeSettle
    (some d)
  if s.flag Fld.MIX_CTRL_EN then
    let f : Frame := ⟨d, s.cyc, s.tickno, s.get (Fld.MIX_SCNT_SCNT d), s.mix.y⟩
    s.setMix { s.mix with frames := s.mix.frames ++ [f] }
  else s

/-- TCLK cycles between D0 instants (R331). -/
def State.spd (s : State) : Nat := 4096 / 2 ^ s.get Fld.MIX_CTRL_FS

/-- Port p transmits at the D0 instants: a controller (R336, R351). -/
def State.sendsAtD0 (s : State) (p : Nat) : Bool := s.spLive p && s.spCtl p && !(s.bridged && s.d2port = p)

/-- A D0 instant: audio writes take effect, the inputs deliver, the sinks of D0 form their samples, controller ports start their
frames (R319, R331, R334, R351). -/
def d0Instant (s : State) (pins : List Int) (sdi : List (List Bool)) : State :=
  let s := (s.setMix { s.mix with d0Next := s.cyc + 1 }).audSettle
  let (ins, s) := inputsTake s pins
  let (s, mem) := playInstant s
  let s := domInstant s 0 fun j s => srcValue s ins sdi [] mem j
  let s := s.pdmSample
  [0, 1].foldl (fun s p => if s.sendsAtD0 p then spTransmit s p else s) s

/-- The record channels of a D1 instant: the USBR sinks in BRIDGED mode, what their edge converters give in SINGLE mode
(R336, R387, R388). -/
def recordFrame (s : State) : State :=
  let (l, s) :=
    if s.bridged then ((List.range 8).map fun i => s.mix.y.getD (3 + i) 0, s)
    else (List.range 8).foldl (fun (a : List Int × State) _ =>
      if bitOf a.2.mix.conv convUsbOut then
        let (v, t) := a.2.free (2 ^ 24)
        (a.1 ++ [sgn 24 v], t)
      else (a.1 ++ [0], a.2)) ([], s)
  if s.flag Fld.USB_STATUS_SUSPENDED || s.get Fld.USB_STATUS_ALT_REC = 0 then s
  else s.setMix { s.mix with recNow := s.mix.recNow ++ [l] }

/-- The stream rates of USB_UAC.FS in Hz (R387). -/
def uacRate (fs : Nat) : Nat := [44100, 48000, 88200, 96000, 176400, 192000].getD fs 96000

/-- A D1 instant falls in this cycle: the fractional divider from TCLK, which starts as the rate takes effect, passes a whole number of
samples (R387; where it starts is the model's choice, log entry 44). -/
def State.d1Due (s : State) : Bool :=
  let r := uacRate s.usb.fs
  decide ((s.cyc - s.usb.fsAt) * r % 196608000 < r) && decide (s.mix.d1Next ≤ s.cyc)

/-- A D1 instant: it takes the next playback frame; in SINGLE mode it only paces the edge converters (R387). -/
def d1Instant (s : State) : State :=
  let usb := s.mix.usbPlay.headD []
  let s := s.setMix { s.mix with usbPlay := s.mix.usbPlay.tail, d1Next := s.cyc + 1 }
  let s := if s.bridged then domInstant s 1 fun j s => srcValue s [] [] usb [] j else s
  recordFrame s

/-- The frame that port p has received ended in a glitch of this cycle (R353). -/
def State.frameCut (s : State) (p : Nat) : Bool := s.mix.spCut.getD p none = some s.cyc

/-- A D2 instant, at a frame start of D2PORT: none in SINGLE mode, while D2 is frozen, or for a frame that a glitch has lost (R332, Table
14.6). -/
def d2Instant (s : State) (sdi : List (List Bool)) : State :=
  if s.bridged && s.spLive s.d2port && !s.flag Fld.MIX_STATUS_D2_FROZEN && !s.frameCut s.d2port then
    let s := s.frameStart s.d2port
    spTransmit (domInstant s 2 fun j s => srcValue s [] sdi [] [] j) s.d2port
  else s

/-- A frame start of target port p in SINGLE mode, at the port's own rate (R336). -/
def portFrame (s : State) (p : Nat) : State :=
  if s.spLive p && !s.spCtl p && !s.bridged && !s.frameCut p then spTransmit (s.frameStart p) p else s

/-- A low-latency instant: the sinks that MIX_LLSEL names form their samples from MIC0 to MIC3 and PDM0 to PDM3 (R340). -/
def llInstant (s : State) (pins : List Int) : State :=
  let s := s.setMix { s.mix with llNext := s.cyc + 1 }
  let srcs := [0, 1, 2, 3, 8, 9, 10, 11].map (s.inputNow pins)
  (((List.range 20).filter s.lowLat).foldl (fun s k => sinkForms s srcs k) s).nodeSettle none

/-- MIX_SAMPLE_INSTANT: a sample instant of a domain, or a frame start of a serial port. `pins` are the signals at the pins of the twelve
inputs (for PDM0 to PDM3 the filtered bits of PDMDAT0 on the rising edge of PDMCLK, of PDMDAT0 on the falling, of PDMDAT1 on the rising
and on the falling edge), `sdi` the bits that each serial port has received in its frame (R316, R331, R334, R350). A D0 or low-latency
instant falls in a cycle whose DTIME is a multiple of SPD or 512, a D1 instant where the divider of USB_UAC.FS makes one, each once; in
another cycle the command has no effect (DESIGN CHOICE,
log entry 12). -/
def execMixSampleInstant (dom : MixDom) (pins : Vector Int 12) (sdi : Vector (List Bool) 2) (s : State) :
    Host.Outcome State Fault Refusal :=
  act s fun s =>
    if !s.mixUp then s
    else match dom with
      | .d0 => if s.dtime.toNat % s.spd = 0 ∧ s.mix.d0Next ≤ s.cyc then d0Instant s pins.toList sdi.toList else s
      | .d1 => if s.d1Due then d1Instant s else s
      | .d2 => d2Instant s sdi.toList
      | .ll => if s.dtime.toNat % 512 = 0 ∧ s.mix.llNext ≤ s.cyc then llInstant s pins.toList else s
      | .frame p => portFrame s p

/-! ### Registers -/

/-- A write of MIX_NODE (R333, R335, R338). -/
def mixNodeWrite (s : State) (k j : Nat) (v : Word) : Option State :=
  let c := (Fld.MIX_NODE_CODE k j).get v
  let a := s.srcDom j
  let b := s.sinkDom k
  let br := bridgeOf a b
  if 480 < c then none
  else if c ≠ 0 ∧ a ≠ b ∧ s.brChan br j = none ∧ s.brChan br 0xFF = none then
    some (s.irqF Fld.MIX_IRQ_STATUS_BR_FULL)
  else some (bridgeSync ((s.noteNode (Reg.MIX_NODE k j)).put (Fld.MIX_NODE_CODE k j) c))

/-- A write of MIX_LLNODE (R335, R340). -/
def mixLlnodeWrite (s : State) (off : Nat) (v : Word) : Option State := storeWord (s.noteNode off) off v

/-- MIX_NODE_WRITE (R335, R338). -/
def execMixNodeWrite (k : Fin 20) (j : Fin 24) (v : Word) (s : State) : Host.Outcome State Fault Refusal :=
  act s fun s => if s.served Reg.MIX_CTRL then (mixNodeWrite s k j v).getD s else s

/-- A change of FS or MODE changes the rates between which the edge converters and bridges run: all of them lock anew (Table 14.4). In
SINGLE mode MIX_SCNT1 and MIX_SCNT2 read 0, and they count from 0 when BRIDGED mode returns (R332; log entry 44). -/
def rateChanged (s : State) : State :=
  let s := bridgesUnlock (s.setMix { s.mix with conv := 0 }) (List.range 6)
  if s.bridged then s else (s.put (Fld.MIX_SCNT_SCNT 1) 0).put (Fld.MIX_SCNT_SCNT 2) 0

/-- A write of MIX_CTRL: MODE, FS and D2PORT keep their values where EN was 1 (R339). -/
def mixCtrlWrite (s : State) (v : Word) : Option State :=
  if 3 ≤ Fld.MIX_CTRL_FS.get v then none
  else
    let s' := s.put Fld.MIX_CTRL_EN (Fld.MIX_CTRL_EN.get v)
    if s.flag Fld.MIX_CTRL_EN then some s'
    else
      let s' := ((s'.put Fld.MIX_CTRL_MODE (Fld.MIX_CTRL_MODE.get v)).put Fld.MIX_CTRL_FS (Fld.MIX_CTRL_FS.get v)).put
        Fld.MIX_CTRL_D2PORT (Fld.MIX_CTRL_D2PORT.get v)
      let same := s'.bridged = s.bridged ∧ s'.get Fld.MIX_CTRL_FS = s.get Fld.MIX_CTRL_FS
      let s' := if same then s' else rateChanged s'
      if s'.bridged = s.bridged ∧ s'.d2port = s.d2port then some s'
      else some (bridgeSync (s'.putB Fld.MIX_STATUS_D2_FROZEN false))

/-- MIX_CTRL_WRITE (R339). -/
def execMixCtrlWrite (v : Word) (s : State) : Host.Outcome State Fault Refusal :=
  act s fun s => if s.served Reg.MIX_CTRL then (mixCtrlWrite s v).getD s else s

/-- A write of MIX_SPIN or MIX_SPOUT may move a source or sink to another domain (R337, R352). -/
def mixAssignWrite (s : State) (off : Nat) (v : Word) : Option State := (storeWord s off v).map bridgeSync

/-- BRIDGE_LOCK: a bridge channel, or an edge converter, locks (R338, Table 14.4). -/
def execBridgeLock (c : MixConv) (s : State) : Host.Outcome State Fault Refusal :=
  act s fun s =>
    if !s.mixUp then s
    else match c with
      | .bridge d c =>
        let two := 2 ≤ d.val
        if s.brSrc d c ≠ 0xFF ∧ !(two && (s.flag Fld.MIX_STATUS_D2_FROZEN || !s.spLive s.d2port)) then
          brStatus (s.setBrLocked d c true)
        else s
      | .usbIn => if s.bridged || s.get Fld.USB_STATUS_ALT_PLAY = 0 then s else s.setConv convUsbIn true
      | .usbOut => if s.bridged || s.get Fld.USB_STATUS_ALT_REC = 0 then s else s.setConv convUsbOut true
      | .spi p => if s.bridged || s.spCtl p || !s.spLive p then s else s.setConv (convSpi p) true
      | .spo p => if s.bridged || s.spCtl p || !s.spLive p then s else s.setConv (convSpo p) true

/-- A write of MIX_METCLR: PEAK of the named sinks becomes 0 (R344). -/
def mixMetclr (s : State) (v : Word) : State :=
  (bitList 20 v.toNat).foldl (fun s k => s.put (Fld.MIX_METER_PEAK k) 0) s

/-- MIX_METCLR (R344). -/
def execMixMetclr (v : Word) (s : State) : Host.Outcome State Fault Refusal :=
  act s fun s => if s.served Reg.MIX_METCLR then mixMetclr s v else s

/-- The CLR of MIX_CAPDROP clears it and MIX_HOCNT.DROPS (Table 14.8). -/
def mixCapdropClr (s : State) : State := (s.clrReg Reg.MIX_CAPDROP).clrField Fld.MIX_HOCNT_DROPS

/-- MIX_CAPDROP_CLR (Table 14.8). -/
def execMixCapdropClr (s : State) : Host.Outcome State Fault Refusal :=
  act s fun s => if s.served Reg.MIX_CAPDROP_CLR then mixCapdropClr s else s

/-! ### Capture streams (R347, R349) -/

def State.stream (s : State) (i : Nat) : CapStream := s.mix.streams.getD i CapStream.init

def State.setStream (s : State) (i : Nat) (x : CapStream) : State :=
  s.setMix { s.mix with streams := s.mix.streams.set i x }

/-- Frames dropped by a capture stream are counted (R347). -/
def capDrop (s : State) (n : Nat) : State :=
  if n = 0 then s else (s.incSat Fld.MIX_CAPDROP_CAP n).irqF Fld.MIX_IRQ_STATUS_CAPDROP

/-- A hand-off appends a frame to a stream; a full buffer of 4096 frames drops its oldest (R347). -/
def streamTakes (f : Frame) (s : State) (i : Nat) : State :=
  let x := s.stream i
  match x.chs with
  | [] => s
  | c :: _ =>
    if !x.on || s.sinkDom c ≠ f.dom then s
    else if x.staged.length < 4096 then s.setStream i { x with staged := x.staged ++ [f] }
    else capDrop (s.setStream i { x with staged := x.staged.tail ++ [f] }) 1

/-- The stream takes up its next descriptor: its list replaces another one with the staged frames discarded and counted, frames
before START_TICK are discarded uncounted, FRAMES = 0 stops the stream (R347). -/
def capBegin (s : State) (c : Capture) : State :=
  let x := s.stream c.stream
  if c.frames = 0 then s.setStream c.stream { x with on := false, staged := [] }
  else
    let s := if x.on && x.chs ≠ c.chs then capDrop (s.setStream c.stream { x with staged := [] }) x.staged.length else s
    s.setStream c.stream { s.stream c.stream with on := true, chs := c.chs }

def State.setCap (s : State) (old new : Capture) : State :=
  s.setMix { s.mix with caps := s.mix.caps.map fun x => if x = old then new else x }

/-- The completion of a capture: its last byte is written; event 0x11 (R349). A descriptor that stopped its stream moved
nothing. -/
def capDone (s : State) (c : Capture) : State :=
  let s := s.setMix { s.mix with caps := s.mix.caps.filter (· ≠ c) }
  match s.findDesc c.sq c.seq with
  | none => s
  | some d =>
    if c.frames = 0 then s.complete d stOK 0 0
    else (s.complete d stOK 0 (moveResult (c.moved * c.chs.length * fmtBytes c.fmt) c.first)).event 0x11

/-- The bytes of the frames for a capture. -/
def capBytes (c : Capture) (l : List Frame) : List Byte :=
  (l.map fun f => (c.chs.map fun k => fmtEncode c.fmt (f.y.getD k 0)).flatten).flatten

/-- The oldest capture of a stream moves what is staged (R347, R349). A buffer outside the memory fails it (R451); host memory
that cannot be reached makes it wait in a retry episode (R69). -/
def capServe1 (s : State) (i : Nat) : State :=
  match s.mix.caps.find? (·.stream = i) with
  | none => s
  | some c0 =>
    let c := { c0 with begun := true }
    let s := if c0.begun then s else (capBegin s c0).setCap c0 c
    if c.frames = 0 then capDone s c
    else
      let x := s.stream i
      let fit := x.staged.filter fun f => decide (c.start ≤ f.tick)
      let n := min (c.frames - c.moved) fit.length
      if n = 0 then s.setStream i { x with staged := fit }
      else match s.findDesc c.sq c.seq with
        | none => s
        | some d =>
          let bytes := capBytes c (fit.take n)
          let addr := c.addr + c.moved * c.chs.length * fmtBytes c.fmt
          if c.space = 0 ∧ !s.canDma then s.hostEpisode d
          else if c.space = 1 ∧ !s.ready 16 then s
          else
            let (_, s) := s.episodeDone d
            if c.space = 1 ∧ !s.memIn addr bytes.length then
              match s.findDesc c.sq c.seq with
              | some d => ((s.memRefuse addr).setMix { s.mix with caps := s.mix.caps.filter (· ≠ c) }).rangeFail d
              | none => s
            else
              let s := if c.space = 1 then memWrite s addr bytes
                else { s with hostMem := writeBytes s.hostMem addr bytes }
              let c' := { c with moved := c.moved + n, first := if c.moved = 0 then ((fit.head?.map (·.cnt)).getD 0) else c.first }
              let s := (s.setStream i { x with staged := fit.drop n }).setCap c c'
              if c'.moved = c'.frames then capDone s c' else s

/-- A stream serves its captures in order until one waits for frames. -/
def capServeN : Nat → State → Nat → State
  | 0, s, _ => s
  | n + 1, s, i =>
    let t := capServe1 s i
    if t.mix.caps.length < s.mix.caps.length then capServeN n t i else t

/-- The captures of stream i move what they can. -/
def capServe (s : State) (i : Nat) : State := capServeN s.mix.caps.length s i

/-! ### Hand-off (R345) -/

/-- D0 frames handed off wait for the cascade slot while it has an audio section, at most 24 of them: the oldest beyond are dropped
and counted (R427). -/
def cascStage (s : State) (out : List Frame) : State :=
  if !(s.flag Fld.VXL_CFG_EN && s.flag Fld.VXL_CFG_AUD) then s
  else
    let l := s.mix.casc ++ out.filter (·.dom = 0)
    let k := l.length - 24
    let s := s.setMix { s.mix with casc := l.drop k }
    if k = 0 then s else s.incSat Fld.MIX_HOCNT_DROPS k

/-- Every frame whose instant lies at least 16 cycles before now is handed off, to the capture streams and to the cascade
staging. -/
def handOff (s : State) : State :=
  let ready (f : Frame) : Bool := decide (f.at_ + 16 ≤ s.cyc)
  let out := s.mix.frames.filter ready
  let s := s.setMix { s.mix with frames := s.mix.frames.filter fun f => !ready f
                                 old := 0 }
  let s := cascStage s out
  let s := s.put Fld.MIX_HOCNT_LAST ((out.filter (·.dom = 0)).length)
  let s := out.foldl (fun s f => (List.range 4).foldl (streamTakes f) s) s
  (List.range 4).foldl capServe s

/-- AUDIO_HANDOFF: an AUDIO action starts, hands off, with event 0x10, and completes 8 cycles after its actual start (R345, R349). With
EN = 0 it hands off nothing (R339); where its end is past its DEADLINE it hands off nothing either, and misses. -/
def execAudioHandoff (i : Fin 64) (s : State) : Host.Outcome State Fault Refusal :=
  act s fun s =>
    if !s.mayStart i 7 then s
    else
      let s := s.startAction i
      let done := s.edgeOfs + 8
      if !s.mixUp || decide (actDeadline s.plan i < done) then s
      else
        let s := if s.flag Fld.MIX_CTRL_EN then (handOff s).event 0x10 else s
        actionDoneAt { s with gaf := { s.gaf with audioMiss := 0 } } i done

/-- SELF_HANDOFF: at a DTIME multiple of 6144, while the gaffer is stopped or its plan has no AUDIO action (R345); in another cycle the
command has no effect. -/
def execSelfHandoff (s : State) : Host.Outcome State Fault Refusal :=
  act s fun s =>
    if s.mixUp && s.flag Fld.MIX_CTRL_EN && decide (s.dtime.toNat % 6144 = 0) && (!s.running || (s.actionsOf 7).isEmpty) then handOff s else s

/-- The AUDIO action has missed: its samples stay; at the second consecutive miss those of the older tick are dropped and counted
(R52, R345). Those of the older tick are taken to be the frames that waited when the first miss was counted (DESIGN CHOICE, log entry
39). -/
def audioMissed (s : State) : State :=
  let n := s.mix.frames.length
  let s := { s with gaf := { s.gaf with audioMiss := s.gaf.audioMiss + 1 } }
  if s.gaf.audioMiss < 2 then s.setMix { s.mix with old := n }
  else
    let k := s.mix.old
    let s := s.setMix { s.mix with frames := s.mix.frames.drop k, old := n - k }
    if k = 0 then s else (s.incSat Fld.MIX_HOCNT_DROPS k).irqF Fld.MIX_IRQ_STATUS_HODROP

/-! ### AUDIO descriptors (R346 to R349) -/

/-- The channels of an AUDIO descriptor. -/
def audioChs (d : Desc) : List Nat := (List.range (d.pay 34 1)).map fun i => d.pay (36 + i) 1

/-- A START_TICK that is not greater than TICKNO (R346). -/
def State.startPassed (s : State) (d : Desc) : Bool := d.pay 56 6 ≠ 0 && decide (d.pay 56 6 ≤ s.tickno)

/-- AUDIO_CAPTURE: a dispatched capture descriptor joins its stream (R346, R347). -/
def execAudioCapture (sq : Fin 64) (seq : BitVec 16) (s : State) : Host.Outcome State Fault Refusal :=
  act s fun s =>
    match s.takeDispatched sq seq.toNat 0x04 with
    | none => s
    | some d =>
      if d.pay 32 1 ≠ 0 || !s.mixUp then s
      else
        let chs := audioChs d
        match chs.findIdx? fun k => s.sinkDom k ≠ s.sinkDom (chs.headD 0) with
        | some i => s.badDesc d (36 + i)
        | none =>
          if s.startPassed d then s.complete d stOverrun 0 0
          else
            let s := s.begin d
            let c : Capture := ⟨d.sq, d.seq, d.pay 35 1, chs, d.pay 33 1, d.pay 62 1, d.pay 48 8, d.pay 44 4, d.pay 56 6, false, 0, 0⟩
            capServe (s.setMix { s.mix with caps := s.mix.caps ++ [c] }) c.stream

/-- TCLK cycles in 20 µs, rounded up (R348). -/
def play20us : Nat := 3933

/-- A playback with its data joins the playbacks of its sources (R348): after one still playing it follows at once, else at the
first D0 instant at least 20 µs from now. -/
def playBegin (s : State) (d : Desc) (late : List Nat) (data : List Byte) : State :=
  let chs := audioChs d
  let follows := s.mix.plays.any fun p => p.chs.any chs.contains
  let s := s.begin d
  let p : Play := ⟨d.sq, d.seq, chs, d.pay 33 1, d.pay 44 4, data, late, d.pay 56 6,
    if follows then 0 else s.cyc + play20us, none, 0, 0⟩
  if p.left = 0 then
    match s.findDesc p.sq p.seq with
    | some d => s.complete d stOK 0 (moveResult 0 (s.get (Fld.MIX_SCNT_SCNT 0)))
    | none => s
  else s.setMix { s.mix with plays := s.mix.plays ++ [p] }

/-- The DTIME at which the edge of a later tick is due. -/
def State.edgeAt (s : State) (tick : Nat) : Nat :=
  s.wide Reg.GAF_EDGE_LO + (tick - s.tickno) * s.get Fld.GAF_TICKDIV_TICKDIV

/-- AUDIO_PLAYBACK: a dispatched playback descriptor; `input` is what its host buffer gives, `late` the numbers of the frames whose data
arrives after they are due (R346, R348). -/
def execAudioPlayback (sq : Fin 64) (seq : BitVec 16) (input : HostRead) (late : List Nat) (s : State) : Host.Outcome State Fault Refusal :=
  act s fun s =>
    match s.takeDispatched sq seq.toNat 0x04 with
    | none => s
    | some d =>
      let start := d.pay 56 6
      let size := d.pay 44 4 * d.pay 34 1 * fmtBytes (d.pay 33 1)
      if d.pay 32 1 ≠ 1 || !s.mixUp then s
      else if s.startPassed d || (start ≠ 0 && s.running && decide (s.edgeAt start < s.dtime.toNat + play20us)) then
        s.complete d stOverrun 0 0
      else if d.pay 62 1 = 1 then
        let (l, t) := memRead s (d.pay 48 8) size
        if !s.memAnswers (d.pay 48 8) size then s
        else if s.memIn (d.pay 48 8) size then playBegin t d [] l else t.rangeFail d
      else s.withHost d input fun d l s => playBegin s d late (l.take size)

end Sys2Proof.Machine
end

