-- ==== Sys2Proof/Machine/Usb.lean ====
section
/-!
DEFINITION. The USB service port (chapter 16, R375 to R393).
-/
namespace Sys2Proof.Machine

def State.setUsb (s : State) (x : Usb) : State := { s with usb := x }

/-- The port answers the USB host: ready, clocked, connected. -/
def State.usbUp (s : State) : Bool := s.up 13 && s.flag Fld.USB_CTRL_CONNECT

/-- The device is configured. -/
def State.usbConfigured (s : State) : Bool := decide (s.get Fld.USB_STATUS_CONFIG ≠ 0)

/-- High speed. -/
def State.usbHs (s : State) : Bool := s.flag Fld.USB_STATUS_HS

/-- The maximum packet of EP3 (Table 16.1). -/
def State.ep3Max (s : State) : Nat := if s.usbHs then 512 else 64

/-- The latest tag. -/
def State.usbTag (s : State) : Nat := s.get Fld.USB_TAG_TAG

/-! ### Buffers -/

/-- Bytes go to a USB descriptor's buffer (R384): none where host memory cannot be reached or external memory is not ready. -/
def usbStore (s : State) (d : Desc) (o : Nat) (l : List Byte) : Option State :=
  let a := d.pay 40 8 + o
  if d.pay 48 1 = 1 then (if s.ready 16 then some (memWrite s a l) else none)
  else if s.canDma then some { s with hostMem := writeBytes s.hostMem a l }
  else none

/-! ### Requests forwarded to the host (R380 to R383) -/

def setupLen (l : List Byte) : Nat := fieldAt l 6 2
def setupIn (l : List Byte) : Bool := bitOf (fieldAt l 0 1) 7

/-- The request has a data stage to the device. -/
def setupOutData (l : List Byte) : Bool := !setupIn l && decide (0 < setupLen l)

/-- The request has a data stage to the USB host. -/
def setupInData (l : List Byte) : Bool := setupIn l && decide (0 < setupLen l)

/-- A data stage of `n` bytes for a request ends with a zero-length packet: it is shorter than wLength and a multiple of 64 (R379,
R382). -/
def zlpAfter (req : List Byte) (n : Nat) : Bool := decide (n < setupLen req) && decide (n % 64 = 0)

/-- PENDING and the pending request. -/
def setReq (s : State) (r : Option (List Byte)) : State :=
  (s.setUsb { s.usb with req := r }).putB Fld.USB_TAG_PENDING r.isSome

/-- A SETUP_WAIT completes with the pending request (R381). -/
def deliver (s : State) (sq seq : Nat) (req : List Byte) : State :=
  match s.findDesc sq seq with
  | some d => s.complete d stOK s.usbTag (leNat req)
  | none => s

/-- The first SETUP_WAIT takes the first item waiting, in the order in which they arose (R381, R383): a notice completes it; a
request with no data for the device is delivered; one with data is received into its buffer first, unless it is too long for
it: then the data stage stalls, the request is not forwarded and its tag is given again (log entry 21). -/
def usbServe1 (s : State) : State :=
  let u := s.usb
  match u.waits, u.inbox with
  | (sq, seq) :: ws, .notice t :: r =>
    let s := s.setUsb { u with waits := ws, inbox := r }
    match s.findDesc sq seq with
    | some d => s.complete d stControlCancelled t 0
    | none => s
  | (sq, seq) :: ws, .request :: r =>
    match u.req, s.findDesc sq seq with
    | some req, some d =>
      if !setupOutData req then deliver (s.setUsb { u with waits := ws, inbox := r }) sq seq req
      else if d.pay 36 4 < setupLen req then
        let s := s.setUsb { u with inbox := r, ep0 := some ⟨[], true, none, none, false⟩ }
        let s := (setReq s none).put Fld.USB_TAG_TAG (s.usbTag + 2 ^ 16 - 1)
        s.incSat Fld.USB_CNT2_OVERSIZE
      else s.setUsb { u with waits := ws, inbox := r, taker := some (sq, seq) }
    | none, _ => s.setUsb { u with inbox := r }
    | _, none => s.setUsb { u with waits := ws }
  | _, _ => s

/-- `usbServe1` until no SETUP_WAIT or no item is left. -/
def usbServeN : Nat → State → State
  | 0, s => s
  | n + 1, s => usbServeN n (usbServe1 s)

def usbServe (s : State) : State := usbServeN (s.usb.waits.length + s.usb.inbox.length) s

/-- A notice is queued; a fifth replaces the oldest (R383). -/
def addNotice (s : State) (tag : Nat) : State :=
  let isNotice (i : UsbItem) : Bool := match i with
    | .notice _ => true
    | .request => false
  let l := s.usb.inbox
  if 4 ≤ (l.filter isNotice).length then
    let old := (l.find? isNotice).toList
    (s.setUsb { s.usb with inbox := l.diff old ++ [.notice tag] }).incSat Fld.USB_CNT3_NOTELOST
  else s.setUsb { s.usb with inbox := l ++ [.notice tag] }

/-- A descriptor whose buffer cannot be reached waits: one in host memory in a retry episode (R69), one in LPDDR5X for MEM READY
(R449). -/
def usbWait (s : State) (d : Desc) : State := if d.pay 48 1 = 1 then s else s.hostEpisode d

/-- An ANSWER for a tag that has been dispatched and not accepted. -/
def State.answerFor (s : State) (tag : Nat) : Option Desc :=
  s.ring.flight.find? fun d => d.stage = .dispatched && d.opcode = 0x0B && d.pay 32 1 = 1 && d.pay 34 2 = tag

/-- The pending request is cancelled (R383): a waiting ANSWER carries the notice, else a SETUP_WAIT takes it. -/
def usbCancel (s : State) : State :=
  match s.usb.req with
  | none => s
  | some _ =>
    let tag := s.usbTag
    let s := (s.incSat Fld.USB_CNT_CANCELS).irqF Fld.USB_IRQ_STATUS_CANCEL
    let waits := s.usb.taker.toList ++ s.usb.waits
    let s := s.setUsb { s.usb with inbox := s.usb.inbox.filter (· ≠ .request), taker := none, waits := waits }
    let s := setReq s none
    match s.answerFor tag with
    | some d => s.complete d stControlCancelled tag 0
    | none => usbServe (addNotice s tag)

/-- A request is forwarded under the next tag (R380, R381). -/
def usbForward (s : State) (req : List Byte) : State :=
  let s := setReq (s.put Fld.USB_TAG_TAG (s.usbTag + 1)) (some req)
  usbServe (s.setUsb { s.usb with inbox := s.usb.inbox ++ [.request] })

/-- SETUP_WAIT: a dispatched SETUP_WAIT waits for a notice or a request (R381). -/
def execSetupWait (sq : Fin 64) (seq : BitVec 16) (s : State) : Host.Outcome State Fault Refusal :=
  act s fun s =>
    match s.takeDispatched sq seq.toNat 0x0B with
    | none => s
    | some d =>
      if d.pay 32 1 ≠ 0 || !s.up 13 then s
      else
        let s := s.begin d
        usbServe (s.setUsb { s.usb with waits := s.usb.waits ++ [(d.sq, d.seq)] })

/-- SETUP_OUT_DATA: the OUT data stage of the pending request arrives in the buffer of its SETUP_WAIT, which completes after the
last byte (R381). -/
def execSetupOutData (data : List Byte) (s : State) : Host.Outcome State Fault Refusal :=
  act s fun s =>
    match s.usb.taker, s.usb.req with
    | some (sq, seq), some req =>
      if !s.usbUp then s
      else match s.findDesc sq seq with
        | none => s.setUsb { s.usb with taker := none }
        | some d =>
          let l := data.take (setupLen req)
          if d.pay 48 1 = 1 ∧ s.ready 16 ∧ !s.memIn (d.pay 40 8) l.length then
            ((s.memRefuse (d.pay 40 8)).setUsb { s.usb with taker := none }).rangeFail d
          else match usbStore s d 0 l with
            | none => usbWait s d
            | some s =>
              let (_, s) := s.episodeDone d
              deliver (s.setUsb { s.usb with taker := none }) sq seq req
    | _, _ => s

/-- An ANSWER is accepted: the request is no longer pending, and EP0 takes its action (R382). A SETUP_WAIT that was to receive its data
waits again. -/
def answerAccept (s : State) (d : Desc) (l : List Byte) : State :=
  let kind := d.pay 33 1 % 4
  let zlp := kind = 0 && zlpAfter (s.usb.req.getD []) l.length
  let s := s.setUsb { s.usb with ep0 := some ⟨l, kind = 2, none, none, zlp⟩, inbox := s.usb.inbox.filter (· ≠ .request)
                                 taker := none, waits := s.usb.taker.toList ++ s.usb.waits }
  (setReq s none).complete d stOK 0 0

/-- ANSWER: a dispatched ANSWER; `input` is the data that its host buffer gives (R382, R383). -/
def execAnswer (sq : Fin 64) (seq : BitVec 16) (input : HostRead) (s : State) : Host.Outcome State Fault Refusal :=
  act s fun s =>
    match s.takeDispatched sq seq.toNat 0x0B with
    | none => s
    | some d =>
      if d.pay 32 1 ≠ 1 || !s.up 13 then s
      else
        let tag := d.pay 34 2
        let kind := d.pay 33 1 % 4
        let len := d.pay 36 4
        match s.usb.req with
        | none => s.complete d stControlCancelled tag 0
        | some req =>
          if tag ≠ s.usbTag then s.complete d stControlCancelled tag 0
          else if (kind = 0 && !setupInData req) || (kind = 1 && setupInData req) then s.badDesc d 33
          else if kind = 0 && decide (setupLen req < len) then s.badDesc d 36
          else if kind ≠ 0 then answerAccept s d []
          else if d.pay 48 1 = 1 then
            let (l, t) := memRead s (d.pay 40 8) len
            if !s.memAnswers (d.pay 40 8) len then s
            else if s.memIn (d.pay 40 8) len then answerAccept t d l else t.rangeFail d
          else s.withHost d input fun d l s => answerAccept s d (slice l 0 len)

/-! ### Hardware answers (R379) -/

/-- EP0 stalls: a hardware stall (Table 16.5). -/
def ep0Stall (s : State) : State :=
  (s.setUsb { s.usb with ep0 := some ⟨[], true, none, none, false⟩ }).incSat Fld.USB_CNT2_STALLS

/-- EP0 answers with the first bytes of a list (R379). -/
def ep0Reply (s : State) (req : List Byte) (l : List Byte) : State :=
  let l := l.take (setupLen req)
  s.setUsb { s.usb with ep0 := some ⟨l, false, none, none, zlpAfter req l.length⟩ }

/-- The first descriptor table entry that a GET_DESCRIPTOR matches (Table 16.2). -/
def State.dtEntry (s : State) (typ index lang : Nat) : Option Nat :=
  let hs := if s.usbHs then 1 else 2
  let speed := if typ = 7 then 3 - hs else hs
  (List.range 32).find? fun e =>
    s.flag (Fld.USB_DTDIR_VALID e) && decide (s.get (Fld.USB_DTDIR_TYPE e) = typ) &&
      decide (s.get (Fld.USB_DTDIR_INDEX e) = index) &&
      (decide (typ ≠ 3) || decide (s.get (Fld.USB_DTLANG_LANGID e) = lang)) &&
      (decide (s.get (Fld.USB_DTDIR_SPEED e) = 0) || decide (s.get (Fld.USB_DTDIR_SPEED e) = speed))

/-- Byte `i` of the table RAM. -/
def State.dtByte (s : State) (i : Nat) : Byte :=
  BitVec.ofNat 8 ((s.reg (Reg.USB_TABLE (i / 4 % 1024))).toNat / 2 ^ (8 * (i % 4)))

/-- The bytes of a table entry. -/
def State.dtBytes (s : State) (e : Nat) : List Byte :=
  (List.range (s.get (Fld.USB_DTLEN_LEN e))).map fun i => s.dtByte (s.get (Fld.USB_DTLEN_OFS e) + i)

/-- A new configuration value, with its interrupt. -/
def setConfig (s : State) (v : Nat) : State :=
  if s.get Fld.USB_STATUS_CONFIG = v then s
  else (s.put Fld.USB_STATUS_CONFIG v).irqF Fld.USB_IRQ_STATUS_CONFIG

/-- New alternate settings, with their interrupt; setting 0 of playback drops its frames (R388). -/
def setAlt (s : State) (play rec : Nat) : State :=
  if s.get Fld.USB_STATUS_ALT_PLAY = play ∧ s.get Fld.USB_STATUS_ALT_REC = rec then s
  else
    let s := if play = 0 then (s.setMix { s.mix with usbPlay := [] }).setConv convUsbIn false else s
    let s := if rec = 0 then (s.setMix { s.mix with recNow := [], recPrev := [] }).setConv convUsbOut false else s
    ((s.put Fld.USB_STATUS_ALT_PLAY play).put Fld.USB_STATUS_ALT_REC rec).irqF Fld.USB_IRQ_STATUS_ALTSET

/-- The interface number is one of USB_IF. -/
def State.usbIf (s : State) (i : Nat) : Bool :=
  i = s.get Fld.USB_IF_IF_AC || i = s.get Fld.USB_IF_IF_PLAY || i = s.get Fld.USB_IF_IF_REC || i = s.get Fld.USB_IF_IF_VEND

/-- SET_INTERFACE (Table 16.2, R376). -/
def setInterface (s : State) (req : List Byte) : State :=
  let i := fieldAt req 4 2
  let a := fieldAt req 2 2
  let play := s.get Fld.USB_STATUS_ALT_PLAY
  let rec' := s.get Fld.USB_STATUS_ALT_REC
  let max := if s.usbHs then 3 else 0
  if !s.usbConfigured || !s.usbIf i then ep0Stall s
  else if i = s.get Fld.USB_IF_IF_PLAY then
    if max < a then ep0Stall s else ep0Reply (setAlt s a rec') req []
  else if i = s.get Fld.USB_IF_IF_REC then
    if max < a then ep0Stall s else ep0Reply (setAlt s play a) req []
  else if a = 0 then ep0Reply s req [] else ep0Stall s

/-- The halt of EP3 that an endpoint address names. -/
def usbHalt (s : State) (ep : Nat) : Option Bool :=
  match ep with
  | 0x03 => some s.usb.haltOut
  | 0x83 => some s.usb.haltIn
  | _ => none

/-- The endpoint exists (Table 16.1). -/
def usbEp (ep : Nat) : Bool := ep = 0 || ep = 0x80 || ep = 0x01 || ep = 0x81 || ep = 0x82 || ep = 0x03 || ep = 0x83

/-- SET_FEATURE and CLEAR_FEATURE (Table 16.2). -/
def usbFeature (s : State) (req : List Byte) (set : Bool) : State :=
  let f := fieldAt req 2 2
  let ix := fieldAt req 4 2
  match fieldAt req 0 1 % 32, f with
  | 0, 1 => ep0Reply (s.putB Fld.USB_STATUS_RWAKE_EN set) req []
  | 0, 2 =>
    let sel := ix / 256
    if set && decide (1 ≤ sel) && decide (sel ≤ 4) then s.setUsb { s.usb with ep0 := some ⟨[], false, none, some sel, false⟩ }
    else ep0Stall s
  | 2, 0 =>
    match ix with
    | 0x03 => ep0Reply (s.setUsb { s.usb with haltOut := set, togOut := s.usb.togOut && set }) req []
    | 0x83 => ep0Reply (s.setUsb { s.usb with haltIn := set, togIn := s.usb.togIn && set }) req []
    | _ => ep0Stall s
  | _, _ => ep0Stall s

/-- A standard request that the hardware does not answer: stalled, or forwarded where it names an interface of USB_IF (R379). One whose
recipient is neither the device nor an interface nor an endpoint is stalled (DESIGN CHOICE, log entry 21). -/
def usbOther (s : State) (req : List Byte) : State :=
  if fieldAt req 0 1 % 32 = 1 ∧ s.usbIf (fieldAt req 4 1) then usbForward s req else ep0Stall s

/-- A standard request (R379, Table 16.2), by bmRequestType and bRequest. -/
def usbStandard (s : State) (req : List Byte) : State :=
  let v := fieldAt req 2 2
  let ix := fieldAt req 4 2
  match fieldAt req 0 1, fieldAt req 1 1 with
  | _, 7 => ep0Stall s
  | _, 12 => ep0Stall s
  | 0x80, 6 =>
    match s.dtEntry (v / 256) (v % 256) ix with
    | some e => ep0Reply s req (s.dtBytes e)
    | none => ep0Stall s
  | 0x00, 5 => if 127 < v then ep0Stall s else s.setUsb { s.usb with ep0 := some ⟨[], false, some v, none, false⟩ }
  | 0x00, 9 =>
    if v = 0 then ep0Reply (setAlt (setConfig s 0) 0 0) req []
    else if v = s.get Fld.USB_CFGVAL_VAL then ep0Reply (setConfig s v) req []
    else ep0Stall s
  | 0x80, 8 => ep0Reply s req (leBytes 1 (s.get Fld.USB_STATUS_CONFIG))
  | 0x01, 11 => setInterface s req
  | 0x81, 10 =>
    if !s.usbConfigured || !s.usbIf ix then ep0Stall s
    else ep0Reply s req (leBytes 1 (if ix = s.get Fld.USB_IF_IF_PLAY then s.get Fld.USB_STATUS_ALT_PLAY
      else if ix = s.get Fld.USB_IF_IF_REC then s.get Fld.USB_STATUS_ALT_REC else 0))
  | 0x80, 0 => ep0Reply s req (leBytes 2 (s.get Fld.USB_CTRL_SELFPWR + 2 * s.get Fld.USB_STATUS_RWAKE_EN))
  | 0x81, 0 => if s.usbIf ix then ep0Reply s req [0, 0] else ep0Stall s
  | 0x82, 0 =>
    if usbEp ix then ep0Reply s req (leBytes 2 (if usbHalt s ix = some true then 1 else 0)) else ep0Stall s
  | 0x00, 1 => usbFeature s req false
  | 0x00, 3 => usbFeature s req true
  | 0x02, 1 => usbFeature s req false
  | 0x02, 3 => usbFeature s req true
  | _, _ => usbOther s req

/-- SETUP_PACKET: a SETUP with its 8 bytes: it cancels a pending request; a standard request is answered or stalled by hardware,
or forwarded; a class or vendor request is forwarded (R34, R379 to R383). One of type 3, which is none of these, is stalled as the
standard requests that the hardware does not know are, and counts as a hardware stall (DESIGN CHOICE, log entry 21). -/
def execSetupPacket (setup : Vector Byte 8) (s : State) : Host.Outcome State Fault Refusal :=
  act s fun s =>
    if !s.usbUp || s.flag Fld.USB_STATUS_SUSPENDED || decide (s.get Fld.USB_STATUS_TESTMODE ≠ 0) then s
    else
      let req := setup.toList
      let s := usbCancel s
      let s := s.setUsb { s.usb with ep0 := none }
      match fieldAt req 0 1 / 32 % 4 with
      | 0 => usbStandard s req
      | 3 => ep0Stall s
      | _ => usbForward s req

/-- The packets of an IN data stage: 64 bytes at a time, and the zero-length packet that may end it (R379, R382). -/
def Ep0.packets (e : Ep0) : List (List Byte) :=
  ((List.range ((e.data.length + 63) / 64)).map fun i => (e.data.drop (64 * i)).take 64) ++ if e.zlp then [[]] else []

/-- STATUS_STAGE: the USB host completes the data and status stages of the control transfer on EP0: an address and a test mode take
effect (R379, R382). -/
def execStatusStage (s : State) : Host.Outcome State Fault Refusal :=
  act s fun s =>
    match s.usb.ep0 with
    | none => s
    | some e =>
      if !s.usbUp then s
      else
        let s := s.setUsb { s.usb with ep0 := none, sent := e.packets }
        if e.stall then s
        else
          let s := match e.addr with
            | some a => s.put Fld.USB_STATUS_ADDRESS a
            | none => s
          match e.test with
          | some t => s.put Fld.USB_STATUS_TESTMODE t
          | none => s

/-! ### Connection, reset, suspend (R378, R386, R391) -/

/-- Address 0, not configured, every alternate setting 0. -/
def usbDeconfigure (s : State) : State :=
  let s := setAlt (setConfig (s.put Fld.USB_STATUS_ADDRESS 0) 0) 0 0
  let s := s.putB Fld.USB_STATUS_RWAKE_EN false
  s.setUsb { s.usb with ep0 := none, haltIn := false, haltOut := false, togIn := false, togOut := false, rwake := 0
                        sofs := [], lastSof := none }

/-- CONNECT goes to 0: the pull-up goes off (R378, R383). -/
def usbDetach (s : State) : State :=
  let s := s.putB Fld.USB_CTRL_CONNECT false
  if !s.flag Fld.USB_STATUS_CONNECTED then s
  else
    let s := usbDeconfigure (usbCancel s)
    let s := (s.putB Fld.USB_STATUS_CONNECTED false).putB Fld.USB_STATUS_HS false
    (s.putB Fld.USB_STATUS_SUSPENDED false).put Fld.USB_STATUS_TESTMODE 0

/-- A connection is refused (R378). -/
def usbRefuse (s : State) : Bool :=
  let valid := (List.range 32).filter fun e => s.flag (Fld.USB_DTDIR_VALID e)
  !valid.any (fun e => s.get (Fld.USB_DTDIR_TYPE e) = 1) ||
    valid.any (fun e => decide (4096 < s.get (Fld.USB_DTLEN_OFS e) + s.get (Fld.USB_DTLEN_LEN e))) || !s.ready 13

/-- A write of USB_CTRL (R378, R391, Table 16.5). -/
def usbCtrlWrite (s : State) (v : Word) : State :=
  let was := s.flag Fld.USB_CTRL_CONNECT
  let con := Fld.USB_CTRL_CONNECT.get v = 1
  let s := s.put Fld.USB_CTRL_SELFPWR (Fld.USB_CTRL_SELFPWR.get v)
  let s := if was then s else s.put Fld.USB_CTRL_FSONLY (Fld.USB_CTRL_FSONLY.get v)
  let s := if was && !con then usbDetach s
    else if con && !was then
      if usbRefuse s then s.putB Fld.USB_STATUS_CFGERR true
      else ((s.putB Fld.USB_CTRL_CONNECT true).putB Fld.USB_STATUS_CONNECTED true).putB Fld.USB_STATUS_CFGERR false
    else s
  if Fld.USB_CTRL_RWAKE.get v = 1 && s.flag Fld.USB_STATUS_RWAKE_EN && s.flag Fld.USB_STATUS_SUSPENDED then
    s.setUsb { s.usb with rwake := s.cyc + 393216 }
  else s

/-- The port drives resume signalling, for 2 ms after an accepted RWAKE (R391). -/
def State.resumeDriven (s : State) : Bool := decide (s.cyc < s.usb.rwake)

/-- USB_CONNECT: a write of USB_CTRL with CONNECT = 1 (R378). -/
def execUsbConnect (v : Word) (s : State) : Host.Outcome State Fault Refusal :=
  act s fun s => if s.served Reg.USB_CTRL then usbCtrlWrite s (v ||| 0x80000000) else s

/-- USB_DISCONNECT: a write of USB_CTRL with CONNECT = 0 (R378). -/
def execUsbDisconnect (v : Word) (s : State) : Host.Outcome State Fault Refusal :=
  act s fun s => if s.served Reg.USB_CTRL then usbCtrlWrite s (v &&& 0x7FFFFFFF) else s

/-- USB_RWAKE: a write of USB_CTRL with RWAKE = 1 (R391). -/
def execUsbRwake (v : Word) (s : State) : Host.Outcome State Fault Refusal :=
  act s fun s => if s.served Reg.USB_CTRL then usbCtrlWrite s (v ||| 0x10) else s

/-- A BULK descriptor that has moved bytes completes at a bus reset; one that has moved nothing waits on (R386). -/
def bulkReset (s : State) (b : Bulk) : State :=
  if b.moved = 0 then s
  else
    let s := s.setUsb { s.usb with rx := s.usb.rx.filter (· ≠ b), tx := s.usb.tx.filter (· ≠ b) }
    match s.findDesc b.sq b.seq with
    | some d => s.complete d stBadSequence 0x03 b.moved
    | none => s

/-- USB_BUS_RESET: a bus reset that ends at high speed or at full speed (R375, R383, R386). -/
def execUsbBusReset (hs : Bool) (s : State) : Host.Outcome State Fault Refusal :=
  act s fun s =>
    if !s.usbUp || decide (s.get Fld.USB_STATUS_TESTMODE ≠ 0) then s
    else
      let s := usbDeconfigure (usbCancel s)
      let s := (s.usb.rx ++ s.usb.tx).foldl bulkReset s
      let s := s.putB Fld.USB_STATUS_HS (hs && !s.flag Fld.USB_CTRL_FSONLY)
      (s.putB Fld.USB_STATUS_SUSPENDED false).irqF Fld.USB_IRQ_STATUS_RESET

/-- USB_SUSPEND: 3 ms of bus idle; record frames are discarded from here on (R391). -/
def execUsbSuspend (s : State) : Host.Outcome State Fault Refusal :=
  act s fun s =>
    if s.usbUp && !s.flag Fld.USB_STATUS_SUSPENDED then
      let s := s.setMix { s.mix with recNow := [], recPrev := [], usbPlay := [] }
      let s := s.setUsb { s.usb with lastSof := none }
      (s.putB Fld.USB_STATUS_SUSPENDED true).irqF Fld.USB_IRQ_STATUS_SUSPEND
    else s

/-- USB_RESUME: the USB host resumes the bus (R391). -/
def execUsbResume (s : State) : Host.Outcome State Fault Refusal :=
  act s fun s =>
    if s.usbUp && s.flag Fld.USB_STATUS_SUSPENDED then
      (s.putB Fld.USB_STATUS_SUSPENDED false).irqF Fld.USB_IRQ_STATUS_RESUME
    else s

/-! ### Bulk pipe (R385) -/

/-- The bulk endpoints move data. -/
def State.bulkUp (s : State) : Bool := s.usbUp && s.usbConfigured && !s.flag Fld.USB_STATUS_SUSPENDED

/-- BULK_RX: a dispatched BULK_RX descriptor waits for packets (R385). -/
def execBulkRx (sq : Fin 64) (seq : BitVec 16) (s : State) : Host.Outcome State Fault Refusal :=
  act s fun s =>
    match s.takeDispatched sq seq.toNat 0x0B with
    | none => s
    | some d =>
      if d.pay 32 1 ≠ 2 || !s.up 13 then s
      else
        let s := s.begin d
        s.setUsb { s.usb with rx := s.usb.rx ++ [⟨d.sq, d.seq, 0, []⟩] }

/-- A BULK_TX with its data joins the pipe. -/
def bulkTxBegin (s : State) (d : Desc) (l : List Byte) : State :=
  let s := s.begin d
  s.setUsb { s.usb with tx := s.usb.tx ++ [⟨d.sq, d.seq, 0, l⟩] }

/-- BULK_TX: a dispatched BULK_TX descriptor; `input` is what its host buffer gives (R385). -/
def execBulkTx (sq : Fin 64) (seq : BitVec 16) (input : HostRead) (s : State) : Host.Outcome State Fault Refusal :=
  act s fun s =>
    match s.takeDispatched sq seq.toNat 0x0B with
    | none => s
    | some d =>
      let len := d.pay 36 4
      if d.pay 32 1 ≠ 3 || !s.up 13 then s
      else if d.pay 48 1 = 1 then
        let (l, t) := memRead s (d.pay 40 8) len
        if !s.memAnswers (d.pay 40 8) len then s
        else if s.memIn (d.pay 40 8) len then bulkTxBegin t d l else t.rangeFail d
      else s.withHost d input fun d l s => bulkTxBegin s d (slice l 0 len)

/-- BULK_OUT_PACKET: a packet on EP3 OUT; with no BULK_RX waiting it is NAKed. The descriptor completes when its buffer is full
or a short packet ends it; bytes beyond the buffer are not stored (R385; log entry 21). -/
def execBulkOutPacket (data : List Byte) (s : State) : Host.Outcome State Fault Refusal :=
  act s fun s =>
    match s.usb.rx with
    | [] => s
    | b :: rest =>
      if !s.bulkUp || s.usb.haltOut || decide (s.ep3Max < data.length) then s
      else match s.findDesc b.sq b.seq with
        | none => s.setUsb { s.usb with rx := rest }
        | some d =>
          let len := d.pay 36 4
          let l := data.take (len - b.moved)
          if d.pay 48 1 = 1 ∧ s.ready 16 ∧ !s.memIn (d.pay 40 8 + b.moved) l.length then
            ((s.memRefuse (d.pay 40 8 + b.moved)).setUsb { s.usb with rx := rest }).rangeFail d
          else match usbStore s d b.moved l with
            | none => usbWait s d
            | some s =>
              let (d, s) := s.episodeDone d
              let b' := { b with moved := b.moved + l.length }
              let done := b'.moved = len ∨ data.length < s.ep3Max
              let s := s.setUsb { s.usb with togOut := !s.usb.togOut, rx := if done then rest else b' :: rest }
              if done then s.complete d stOK 0 b'.moved else s

/-- BULK_IN_ACK: the USB host acknowledges the packet of EP3 IN; the BULK_TX completes with its last one, a zero-length packet
where ZLP asks for it (R385). -/
def execBulkInAck (s : State) : Host.Outcome State Fault Refusal :=
  act s fun s =>
    match s.usb.tx with
    | [] => s
    | b :: rest =>
      if !s.bulkUp || s.usb.haltIn then s
      else match s.findDesc b.sq b.seq with
        | none => s.setUsb { s.usb with tx := rest }
        | some d =>
          let len := d.pay 36 4
          let n := min s.ep3Max (len - b.moved)
          let b' := { b with moved := b.moved + n }
          let zlp := bitOf (d.pay 33 1) 0 && decide (len % s.ep3Max = 0)
          let done := b'.moved = len ∧ (!zlp ∨ n = 0)
          let s := s.setUsb { s.usb with togIn := !s.usb.togIn, sent := [slice b.data b.moved n],
                                         tx := if done then rest else b' :: rest }
          if done then s.complete d stOK 0 len else s

/-! ### Audio streams and frames (R387 to R390) -/

/-- Bytes of a sample by SUBSLOT (R388). -/
def subBytes (sub : Nat) : Nat := sub + 2

/-- A sample of a playback packet (R388). -/
def subDecode (sub : Nat) (l : List Byte) : Int :=
  let v := leNat l
  match sub with
  | 0 => sgn 16 v * 256
  | 1 => sgn 24 v
  | _ => sgn 24 (v / 256)

/-- A sample of a record packet (R388). -/
def subEncode (sub : Nat) (y : Int) : List Byte :=
  match sub with
  | 0 => leBytes 2 (lowBits 16 (satS 16 (rsh y 8)))
  | 1 => leBytes 3 (lowBits 24 y)
  | _ => leBytes 4 (lowBits 32 (y * 256))

/-- The frames of a playback packet. -/
def isoFrames (nch sub : Nat) (l : List Byte) : List (List Int) :=
  let w := subBytes sub
  (List.range (l.length / (nch * w))).map fun f =>
    (List.range nch).map fun c => subDecode sub (slice l ((f * nch + c) * w) w)

/-- The streams run: high speed, configured, not suspended. -/
def State.isoUp (s : State) : Bool := s.bulkUp && s.usbHs

/-- ISO_OUT_PACKET: the playback packet of a microframe, none where it is missing or fails its CRC; one that is no whole number of
frames counts as well (R388). -/
def execIsoOutPacket (data : Option (List Byte)) (s : State) : Host.Outcome State Fault Refusal :=
  act s fun s =>
    let alt := s.get Fld.USB_STATUS_ALT_PLAY
    if !s.isoUp || decide (alt = 0) then s
    else
      let nch := min 4 (s.get (Fld.USB_ALTFMT_NCH (alt - 1)))
      let sub := s.get (Fld.USB_ALTFMT_SUBSLOT (alt - 1))
      let size := nch * subBytes sub
      match data with
      | some l =>
        if size = 0 ∨ l.length % size ≠ 0 then (s.incSat Fld.USB_CNT_ISOERR).irqF Fld.USB_IRQ_STATUS_ISOERR
        else s.setMix { s.mix with usbPlay := s.mix.usbPlay ++ isoFrames nch sub l }
      | none => (s.incSat Fld.USB_CNT_ISOERR).irqF Fld.USB_IRQ_STATUS_ISOERR

/-- ISO_IN_PACKET: the record packet carries every D1 frame of the previous microframe (R388). -/
def execIsoInPacket (s : State) : Host.Outcome State Fault Refusal :=
  act s fun s =>
    let alt := s.get Fld.USB_STATUS_ALT_REC
    if !s.isoUp || decide (alt = 0) then s
    else
      let nch := s.get (Fld.USB_ALTFMT_NCH (alt + 2))
      let sub := s.get (Fld.USB_ALTFMT_SUBSLOT (alt + 2))
      let l := (s.mix.recPrev.map fun f => ((List.range nch).map fun c => subEncode sub (f.getD c 0)).flatten).flatten
      { s with usb := { s.usb with sent := [l] }, mix := { s.mix with recPrev := [] } }

/-- FEEDBACK_POLL: an EP1 IN poll returns the latest V (R389). -/
def execFeedbackPoll (s : State) : Host.Outcome State Fault Refusal :=
  act s fun s => if s.isoUp then s.setUsb { s.usb with sent := [leBytes 4 (s.get Fld.USB_FB_V)] } else s

/-- The SOF intervals of 128 microframes: a full-speed frame is eight of them. -/
def State.sofWindow (s : State) : Nat := if s.usbHs then 128 else 16

/-- V at an SOF: 512 × N, rounded to nearest, for N D1 instants in the last 128 microframes (R389). A port that has seen fewer
since its connection or bus reset shows a value the spec does not state (log entry 3). -/
def feedback (s : State) : State :=
  let l := s.usb.sofs.take s.sofWindow
  if l.length < s.sofWindow then
    let (v, s) := s.free (2 ^ 32)
    s.put Fld.USB_FB_V v
  else s.put Fld.USB_FB_V ((512 * l.sum * 2 + 196608000) / (2 * 196608000))

/-- A new stream rate takes effect: the D1 edge converters or bridges relock (R387). -/
def usbRate (s : State) : State :=
  let fs := s.get Fld.USB_UAC_FS
  if s.usb.fs = fs then s
  else
    let s := s.setUsb { s.usb with fs := fs, fsAt := s.cyc }
    if s.bridged then bridgesUnlock s [0, 1, 4, 5] else (s.setConv convUsbIn false).setConv convUsbOut false

/-- SOF: a start of frame with its frame number and microframe (R387 to R390); event 0x20. -/
def execSof (frame : BitVec 11) (uframe : BitVec 3) (s : State) : Host.Outcome State Fault Refusal :=
  act s fun s =>
    if !s.usbUp || s.flag Fld.USB_STATUS_SUSPENDED then s
    else
      let now := s.cyc
      let s := match s.usb.lastSof with
        | some t => s.setUsb { s.usb with sofs := ((now - t) * uacRate s.usb.fs :: s.usb.sofs).take 128 }
        | none => s
      let s := s.setUsb { s.usb with lastSof := some now }
      let s := usbRate (feedback s)
      let s := (s.put Fld.USB_FRAME_FRNUM frame.toNat).put Fld.USB_FRAME_UFRAME uframe.toNat
      let s := (s.incWrap Fld.USB_SOFCNT_SOFCNT).setWide 64 Reg.USB_SOFSTAMP_LO s.dtime.toNat
      let s := s.setMix { s.mix with recPrev := s.mix.recNow, recNow := [] }
      s.event 0x20

/-- USB_CNT_CLR (Table 16.5). -/
def execUsbCntClr (s : State) : Host.Outcome State Fault Refusal :=
  act s fun s =>
    if s.served Reg.USB_CNT then ((s.clrReg Reg.USB_CNT).clrReg Reg.USB_CNT2).clrReg Reg.USB_CNT3 else s

/-- A write of the descriptor table or its directory: only while CONNECT = 0 (R377). -/
def usbTableWrite (s : State) (off : Nat) (v : Word) : Option State :=
  if s.flag Fld.USB_CTRL_CONNECT then none else storeWord s off v

end Sys2Proof.Machine
end

