-- ==== Sys2Proof/Machine/Engines.lean ====
section
/-!
DEFINITION. What the five vision engines compute (R366 to R372), on images held as rows of numbers.
-/
namespace Sys2Proof.Machine

/-- An image: its width, its height, its rows. -/
structure Img where
  w : Nat
  h : Nat
  rows : List (List Nat)
deriving DecidableEq, Repr

/-- The image whose pixel at x, y is `f x y`. -/
def Img.of (w h : Nat) (f : Nat → Nat → Nat) : Img := ⟨w, h, (List.range h).map fun y => (List.range w).map fun x => f x y⟩

/-- A pixel. -/
def Img.px (m : Img) (x y : Nat) : Nat := (m.rows.getD y []).getD x 0

/-- cl(v, n): an index clamped to 0 to n - 1. -/
def clampIx (v : Int) (n : Nat) : Nat := min v.toNat (n - 1)

/-- A pixel with replicated borders. -/
def Img.at (m : Img) (x y : Int) : Nat := m.px (clampIx x m.w) (clampIx y m.h)

/-- The invalid code of a pixel, and of a filter output, gradient or flow (R16). -/
def invPx : Nat := 0xFFFF
def invQ : Nat := 0x8000

/-- Ingest of one source pixel (R367). -/
def ingestPx (black lsh s : Nat) : Nat := if s = invPx then invPx else min ((s - black) * 2 ^ lsh) 0xFFFE

/-- Pyramid: the next level (R368). -/
def pyramidNext (m : Img) : Img :=
  Img.of (m.w / 2) (m.h / 2) fun x y =>
    let l := [m.px (2 * x) (2 * y), m.px (2 * x + 1) (2 * y), m.px (2 * x) (2 * y + 1), m.px (2 * x + 1) (2 * y + 1)]
    if l.any (· = invPx) then invPx else (l.sum + 2) / 4

/-- Levels 0 to n - 1. -/
def pyramid (m : Img) : Nat → List Img
  | 0 => []
  | n + 1 => m :: pyramid (pyramidNext m) n

/-- A filter output as its code: clamp(rshift(v, FSH)) or invalid (R369). -/
def filterOut (px : List Nat) (v : Int) (fsh : Nat) : Nat :=
  if px.any (· = invPx) then invQ else lowBits 16 (clampI (rsh v fsh) (-16384) 16383)

/-- Filter with separable taps (R369). -/
def filterSep (m : Img) (ch cv : List Int) (fsh : Nat) : Img :=
  let n := ch.length
  let h := ((n - 1) / 2 : Nat)
  let ix := List.range n
  let row (x : Nat) (r : Int) : List Nat := ix.map fun i => m.at ((x : Int) + i - h) r
  let dot (c : List Int) (l : List Int) : Int := (c.zip l).foldl (fun a e => a + e.1 * e.2) 0
  Img.of m.w m.h fun x y =>
    let rs := ix.map fun j => row x ((y : Int) + j - h)
    filterOut rs.flatten (dot cv (rs.map fun l => dot ch (l.map (Int.ofNat ·)))) fsh

/-- Filter with a 5 × 5 kernel (R369). -/
def filterGen5 (m : Img) (c5 : List Int) (fsh : Nat) : Img :=
  Img.of m.w m.h fun x y =>
    let l := (List.range 25).map fun t => m.at ((x : Int) + (t % 5 : Nat) - 2) ((y : Int) + (t / 5 : Nat) - 2)
    filterOut l ((c5.zip l).foldl (fun a e => a + e.1 * (e.2 : Int)) 0) fsh

/-- The difference of two filter outputs, clamped; invalid where either is (R370). -/
def gradOf (a b : Nat) : Nat :=
  if a = invQ ∨ b = invQ then invQ else lowBits 16 (clampI (sgn 16 a - sgn 16 b) (-16384) 16383)

/-- Gx and Gy of a filter output (R370). -/
def gradients (f : Img) : Img × Img :=
  (Img.of f.w f.h fun x y => gradOf (f.at ((x : Int) + 1) y) (f.at ((x : Int) - 1) y),
    Img.of f.w f.h fun x y => gradOf (f.at x ((y : Int) + 1)) (f.at x ((y : Int) - 1)))

/-- round(a / b), ties towards plus infinity. -/
def roundDiv (a b : Int) : Int := Int.fdiv (2 * a + b) (2 * b)

/-- The first point of a scan that meets the conditions of R370, from point i on; `ms` are the magnitudes, none where the gradient
is invalid. Answers 8 × the position along the scan and the strength. -/
def scanFind (thresh : Int) : Nat → List (Option Int) → Option (Int × Int)
  | i, some a :: some b :: some c :: r =>
    if thresh ≤ b ∧ a < b ∧ c ≤ b then some (8 * (i : Int) + roundDiv (4 * (a - c)) (a - 2 * b + c), b)
    else scanFind thresh (i + 1) (some b :: some c :: r)
  | _, _ => none

/-- One scan record's result: position and strength (R370). -/
def scanEdge (gx gy : Img) (pol thresh : Nat) (rec : List Byte) : Nat × Nat :=
  let bad := (invPx, invQ)
  let x := fieldAt rec 0 2
  let y := fieldAt rec 2 2
  let len := fieldAt rec 4 2
  let dir := fieldAt rec 6 1
  let inside := match dir with
    | 0 => decide (x + len ≤ gx.w ∧ y < gx.h)
    | 1 => decide (len ≤ x + 1 ∧ x < gx.w ∧ y < gx.h)
    | 2 => decide (y + len ≤ gx.h ∧ x < gx.w)
    | 3 => decide (len ≤ y + 1 ∧ y < gx.h ∧ x < gx.w)
    | _ => false
  if !inside || fieldAt rec 7 1 ≠ 0 || decide (len < 3) || decide (4096 < len) then bad
  else
    let point (i : Nat) : Nat := match dir with
      | 0 => gx.px (x + i) y
      | 1 => gx.px (x - i) y
      | 2 => gy.px x (y + i)
      | _ => gy.px x (y - i)
    let mag (i : Nat) : Option Int :=
      let p := point i
      if p = invQ then none
      else
        let g := if dir % 2 = 0 then sgn 16 p else -sgn 16 p
        some (match pol with
          | 0 => g
          | 1 => -g
          | _ => (g.natAbs : Int))
    match scanFind thresh 1 ((List.range len).map mag) with
    | none => bad
    | some (t, m) =>
      let start : Int := 8 * (if dir < 2 then x else y : Nat)
      let pos := if dir % 2 = 0 then start + t else start - t
      if pos < 0 ∨ 65534 < pos then bad else (pos.toNat, lowBits 16 m)

/-! ### Track (R371) -/

/-- A pixel as a number, none outside the image or invalid. -/
def Img.valid (m : Img) (x y : Int) : Option Int :=
  if x < 0 ∨ y < 0 ∨ (m.w : Int) ≤ x ∨ (m.h : Int) ≤ y then none
  else
    let p := m.px x.toNat y.toNat
    if p = invPx then none else some p

/-- bilin(P, qx, qy) in 1/64 pixel (R371). -/
def bilin (m : Img) (qx qy : Int) : Option Int := do
  let x := qx / 64
  let y := qy / 64
  let fx := qx % 64
  let fy := qy % 64
  let a ← m.valid x y
  let b ← m.valid (x + 1) y
  let c ← m.valid x (y + 1)
  let d ← m.valid (x + 1) (y + 1)
  return ((64 - fx) * (64 - fy) * a + fx * (64 - fy) * b + (64 - fx) * fy * c + fx * fy * d + 2048) / 4096

/-- The window offsets of radius r, in 1/64 pixel. -/
def window (r : Nat) : List (Int × Int) :=
  let l := (List.range (2 * r + 1)).map fun i => (64 : Int) * ((i : Int) - r)
  (l.map fun v => l.map fun u => (u, v)).flatten

/-- A window point of the earlier image: offset, Iw, Ix, Iy. -/
structure TrackPt where
  u : Int
  v : Int
  iw : Int
  ix : Int
  iy : Int
deriving DecidableEq, Repr

/-- The window of the earlier image at px, py. -/
def trackWindow (i : Img) (px py : Int) (win : List (Int × Int)) : Option (List TrackPt) :=
  win.mapM fun o => do
    let x := px + o.1
    let y := py + o.2
    let iw ← bilin i x y
    let e ← bilin i (x + 64) y
    let w ← bilin i (x - 64) y
    let s ← bilin i x (y + 64)
    let n ← bilin i x (y - 64)
    return ⟨o.1, o.2, iw, e - w, s - n⟩

/-- The iterations of a level: the displacement from (dx, dy) on. -/
def trackIter (j : Img) (bx by_ : Int) (pts : List TrackPt) (gxx gxy gyy det : Int) : Nat → Int → Int → Option (Int × Int)
  | 0, dx, dy => some (dx, dy)
  | k + 1, dx, dy =>
    match pts.mapM fun p => (bilin j (bx + dx + p.u) (by_ + dy + p.v)).map fun q => (p, p.iw - q) with
    | none => none
    | some l =>
      let ex := l.foldl (fun a e => a + e.2 * e.1.ix) 0
      let ey := l.foldl (fun a e => a + e.2 * e.1.iy) 0
      let ux := roundDiv (128 * (gyy * ex - gxy * ey)) det
      let uy := roundDiv (128 * (gxx * ey - gxy * ex)) det
      if ux.natAbs ≤ 1 ∧ uy.natAbs ≤ 1 then some (dx + ux, dy + uy)
      else trackIter j bx by_ pts gxx gxy gyy det k (dx + ux) (dy + uy)

/-- The levels from l - 1 down to 0: the flow from the guess (gx, gy). -/
def trackLevels (is js : List Img) (x y : Nat) (win iter : Nat) (mindet : Nat) : Nat → Int → Int → Option (Int × Int)
  | 0, gx, gy => some (gx, gy)
  | l + 1, gx, gy => do
    let i := is.getD l ⟨0, 0, []⟩
    let j := js.getD l ⟨0, 0, []⟩
    let px : Int := (8 * x / 2 ^ l : Nat)
    let py : Int := (8 * y / 2 ^ l : Nat)
    let pts ← trackWindow i px py (window ((win - 1) / 2))
    let gxx := pts.foldl (fun a p => a + p.ix * p.ix) 0
    let gxy := pts.foldl (fun a p => a + p.ix * p.iy) 0
    let gyy := pts.foldl (fun a p => a + p.iy * p.iy) 0
    let det := gxx * gyy - gxy * gxy
    if det ≤ (mindet : Int) then none
    else
      let (dx, dy) ← trackIter j (px + gx) (py + gy) pts gxx gxy gyy det iter 0 0
      if l = 0 then some (gx + dx, gy + dy)
      else trackLevels is js x y win iter mindet l (2 * (gx + dx)) (2 * (gy + dy))

/-- One feature: X2, Y2, fx, fy as they are written (R371). -/
def trackFeature (is js : List Img) (x y win iter mindet : Nat) : List Nat :=
  let lost := [invPx, invPx, invQ, invQ]
  if x = invPx ∨ y = invPx then lost
  else match trackLevels is js x y win iter mindet js.length 0 0 with
    | none => lost
    | some (fx, fy) =>
      let x2 := (x : Int) + rsh fx 3
      let y2 := (y : Int) + rsh fy 3
      let inFlow (f : Int) : Bool := decide (-16384 ≤ f ∧ f ≤ 16383)
      let inPos (p : Int) : Bool := decide (0 ≤ p ∧ p ≤ 0xFFFE)
      if inFlow fx && inFlow fy && inPos x2 && inPos y2 then
        [x2.toNat, y2.toNat, lowBits 16 fx, lowBits 16 fy]
      else lost

end Sys2Proof.Machine
end

