-- ==== Sys2Proof/Machine/Payload.lean ====
section
/-!
DEFINITION. The payload checks of R85 step 3: for each opcode, the byte offset of the first field of a descriptor that is not
as the opcode's chapter defines (R89), or none.
-/
namespace Sys2Proof.Machine

/-- The offset beside the first condition that fails. -/
def firstBad : List (Bool × Nat) → Option Nat
  | [] => none
  | (bad, o) :: r => if bad then some o else firstBad r

/-- Whether `n` bytes from `o` are not all 0. -/
def nz (raw : List Byte) (o n : Nat) : Bool := decide (fieldAt raw o n ≠ 0)

/-- Table 4.2. -/
def payloadSignal (raw : List Byte) : Option Nat :=
  firstBad [(!bitOf (fieldAt raw 1 1) 2, 1), (decide (1 < fieldAt raw 32 1), 32), (decide (1 < fieldAt raw 33 1), 33),
    (nz raw 34 6, 34), (bitOf (fieldAt raw 33 1) 0 && decide (fieldAt raw 40 8 % 8 ≠ 0), 40), (nz raw 48 16, 48)]

/-- Table 4.1. -/
def payloadWait (raw : List Byte) : Option Nat :=
  let mode := fieldAt raw 32 1
  let extra := mode % 4
  firstBad ([(!bitOf (fieldAt raw 1 1) 1, 1), (decide (mode &&& 0xEC ≠ 0), 32), (nz raw 33 1, 33)] ++
    ((List.range 3).map fun i =>
      if i < extra then [(decide (1024 ≤ fieldAt raw (34 + 10 * i) 2), 34 + 10 * i)]
      else [(nz raw (34 + 10 * i) 2, 34 + 10 * i), (nz raw (36 + 10 * i) 8, 36 + 10 * i)]).flatten)

/-- Table 22.3. -/
def payloadLog (raw : List Byte) : Option Nat :=
  let op := fieldAt raw 32 1
  let copy := decide (op = 0)
  let cnt := fieldAt raw 36 4
  firstBad [(decide (1 < op), 32), (decide (fieldAt raw 33 1 > if copy then 1 else 0), 33), (nz raw 34 2, 34),
    (if copy then decide (cnt = 0 ∨ 4096 < cnt) else decide (cnt ≠ 0), 36),
    (copy && decide (fieldAt raw 40 8 % 32 ≠ 0), 40), (copy && nz raw 48 8, 48), (nz raw 56 8, 56)]

/-- Table 23.2. -/
def payloadCfg (raw : List Byte) : Option Nat :=
  let cnt := fieldAt raw 38 2
  firstBad [(decide (cnt = 0 ∨ 256 < cnt), 38), (decide (fieldAt raw 40 8 % 8 ≠ 0), 40), (decide (1 < fieldAt raw 48 1), 48),
    (nz raw 49 15, 49)]

/-- Table 9.1. -/
def payloadMotion (raw : List Byte) : Option Nat :=
  firstBad [(decide (5 < fieldAt raw 32 1), 32), (decide (3 < fieldAt raw 33 1), 33), (nz raw 46 2, 46),
    (decide (fieldAt raw 54 2 ≠ if bitOf (fieldAt raw 48 8) 47 then 0xFFFF else 0), 48), (nz raw 56 8, 56)]

/-- Table 9.3. -/
def payloadStart (raw : List Byte) : Option Nat :=
  firstBad [(decide (5 < fieldAt raw 32 1), 32), (decide (1 < fieldAt raw 33 1), 33), (!nz raw 34 2, 34),
    (bitOf (fieldAt raw 36 2) 15, 36), (nz raw 38 26, 38)]

/-- The STOP payload (R256). -/
def payloadStop (raw : List Byte) : Option Nat :=
  firstBad [(decide (63 < fieldAt raw 32 1), 32), (decide (1 < fieldAt raw 33 1), 33), (nz raw 34 30, 34)]

/-- Table 6.6, with what R169 checks without the slot; the rest waits for dispatch. -/
def payloadInfer (raw : List Byte) : Option Nat :=
  firstBad [(decide (3 < fieldAt raw 33 1), 33), (!nz raw 34 1, 34), (decide (3 < fieldAt raw 35 1), 35), (nz raw 39 1, 39),
    (decide (fieldAt raw 40 8 % 64 ≠ 0), 40), (decide (fieldAt raw 48 8 % 64 ≠ 0), 48)]

/-- Table 6.4: a plan LOAD ignores SLOT and DEST (R165); an unload reads no image, so its SRC_ADDR and DEST are not checked
(DEDUCED, R166; log entry 27). -/
def payloadLoad (raw : List Byte) : Option Nat :=
  let t := fieldAt raw 32 1
  firstBad [(decide (3 < t), 32), (decide (1 < t ∧ 31 < fieldAt raw 33 1), 33), (nz raw 34 6, 34),
    (decide (t ≠ 3 ∧ fieldAt raw 40 8 % 64 ≠ 0), 40), (nz raw 52 4, 52), (decide (t = 2 ∧ fieldAt raw 56 8 % 4096 ≠ 0), 56)]

/-- Table 6.7. -/
def payloadReheat (raw : List Byte) : Option Nat :=
  firstBad [(decide (15 < fieldAt raw 32 1), 32), (nz raw 33 7, 33)]

/-- Table 14.5, with what R346 checks without the mixer's configuration. -/
def payloadAudio (raw : List Byte) : Option Nat :=
  let play := decide (fieldAt raw 32 1 = 1)
  let nch := fieldAt raw 34 1
  firstBad ([(decide (1 < fieldAt raw 32 1), 32), (decide (2 < fieldAt raw 33 1), 33),
      (decide (nch = 0 ∨ (if play then 4 else 8) < nch), 34), (decide ((if play then 0 else 3) < fieldAt raw 35 1), 35)] ++
    ((List.range 8).map fun i =>
      let c := fieldAt raw (36 + i) 1
      (if i < nch then (if play then decide (c < 20 ∨ 23 < c) else decide (19 < c)) else decide (c ≠ 0xFF), 36 + i)) ++
    [(decide (fieldAt raw 48 8 % 4 ≠ 0), 48), (decide (1 < fieldAt raw 62 1), 62), (nz raw 63 1, 63)])

/-- Table 15.3; EDGE needs FILT (Table 15.4). -/
def payloadVision (raw : List Byte) : Option Nat :=
  let e := fieldAt raw 33 1
  firstBad [(decide (1 < fieldAt raw 32 1), 32), (decide (15 < e) || (bitOf e 2 && !bitOf e 1), 33),
    (decide (15 < fieldAt raw 34 1), 34), (nz raw 35 1, 35), (decide (fieldAt raw 32 1 = 1) && nz raw 36 4, 36),
    (decide (fieldAt raw 40 8 % 64 ≠ 0), 40), (decide (fieldAt raw 48 8 % 4096 ≠ 0), 48),
    (decide (fieldAt raw 56 8 % 64 ≠ 0), 56)]

/-- Table 17.2 (R400). -/
def payloadTwb (raw : List Byte) : Option Nat :=
  let a := fieldAt raw 33 1
  let op := fieldAt raw 34 1
  let slow := decide (fieldAt raw 35 1 = 1)
  let w := fieldAt raw 36 2
  let r := fieldAt raw 38 2
  firstBad [(decide (1 < fieldAt raw 32 1), 32), (decide ((1 ≤ a ∧ a ≤ 7) ∨ 0x78 ≤ a ∨ (a = 0 ∧ op ≠ 0)), 33),
    (decide (2 < op), 34), (decide (1 < fieldAt raw 35 1), 35),
    (decide (4096 < w ∨ (op = 1 ∧ w ≠ 0) ∨ (op = 2 ∧ w = 0)), 36),
    (decide (4096 < r ∨ (op = 0 ∧ r ≠ 0) ∨ (op ≠ 0 ∧ r = 0)) || (slow && decide (r ≠ 2)), 38),
    (decide (w = 0) && nz raw 40 8, 40), (decide (r = 0) && nz raw 48 8, 48), (decide (3 < fieldAt raw 56 1), 56),
    (decide ((if slow then 5 else 0) < fieldAt raw 57 1), 57), (decide ((if slow then 15 else 0) < fieldAt raw 58 1), 58),
    (nz raw 59 5, 59)]

/-- Table 16.3 (R384). -/
def payloadUsb (raw : List Byte) : Option Nat :=
  let op := fieldAt raw 32 1
  let u := fieldAt raw 33 1
  let len := fieldAt raw 36 4
  firstBad [(decide (3 < op), 32), (decide ((if op = 1 then 2 else if op = 3 then 1 else 0) < u), 33),
    (decide (op ≠ 1) && nz raw 34 2, 34),
    (if op = 0 then decide (4096 < len)
      else if op = 1 then (if u = 0 then decide (len = 0 ∨ 4096 < len) else decide (len ≠ 0))
      else decide (len = 0 ∨ 2 ^ 24 < len), 36),
    (decide (fieldAt raw 40 8 % 4 ≠ 0), 40), (decide (1 < fieldAt raw 48 1), 48), (nz raw 49 15, 49)]

/-- The CASC payload (R434). -/
def payloadCasc (raw : List Byte) : Option Nat :=
  let op := fieldAt raw 32 1
  firstBad [(decide (1 < op), 32), (decide ((if op = 1 then 7 else 0) < fieldAt raw 33 1), 33), (nz raw 34 30, 34)]

/-- R85 step 3. -/
def payloadBad (raw : List Byte) : Option Nat :=
  match fieldAt raw 0 1 with
  | 0x01 => payloadMotion raw
  | 0x02 => payloadInfer raw
  | 0x03 => payloadLoad raw
  | 0x04 => payloadAudio raw
  | 0x05 => payloadVision raw
  | 0x06 => payloadTwb raw
  | 0x07 => payloadSignal raw
  | 0x08 => payloadWait raw
  | 0x09 => payloadCfg raw
  | 0x0A => payloadLog raw
  | 0x0B => payloadUsb raw
  | 0x0C => payloadCasc raw
  | 0x0D => payloadReheat raw
  | 0x0E => payloadStart raw
  | 0x0F => payloadStop raw
  | _ => none

/-- Whether a payload uses LPDDR5X. -/
def usesLpddr (raw : List Byte) : Bool :=
  match fieldAt raw 0 1 with
  | 0x02 => decide (fieldAt raw 35 1 ≠ 3)
  | 0x03 => decide (fieldAt raw 32 1 = 2) && nz raw 56 8
  | 0x04 => decide (fieldAt raw 62 1 = 1)
  | 0x05 => true
  | 0x06 => (bitOf (fieldAt raw 56 1) 0 && nz raw 36 2) || (bitOf (fieldAt raw 56 1) 1 && nz raw 38 2)
  | 0x09 => decide (fieldAt raw 48 1 = 1)
  | 0x0B => decide (fieldAt raw 48 1 = 1)
  | _ => false

/-- Whether a payload names LPDDR5X for the check of R85 (R449). The DEST of a LOAD is checked in step 4 of R166 (log entry 30). -/
def namesLpddr (raw : List Byte) : Bool := decide (fieldAt raw 0 1 ≠ 0x03) && usesLpddr raw

end Sys2Proof.Machine
end

