-- ==== Sys2Proof/Machine/Vision.lean ====
section
/-!
DEFINITION. The camera port and the vision chains (chapter 15, R356 to R374).
-/
namespace Sys2Proof.Machine

def State.setVis (s : State) (x : Vis) : State := { s with vis := x }

/-- The vision unit runs: ready, clocked, not halted. -/
def State.visUp (s : State) : Bool := s.up 12 && !s.halted

/-! ### Capture (R356 to R362) -/

def State.visW (s : State) : Nat := s.get Fld.VIS_GEOM_WIDTH
def State.visH (s : State) : Nat := s.get Fld.VIS_GEOM_HEIGHT

/-- A row's pitch: twice the width, rounded up to 64 bytes (R359, R366). -/
def rowPitch (w : Nat) : Nat := (2 * w + 63) / 64 * 64

/-- SLOTSIZE (R359). -/
def State.slotSize (s : State) : Nat := (rowPitch s.visW * s.visH + 4095) / 4096 * 4096

/-- The slot of frame k (R359). -/
def State.slotOfFrame (s : State) (k : Nat) : Nat := (k + s.get Fld.VIS_CAP_SLOTS) % (s.get Fld.VIS_CAP_SLOTS + 1)

/-- The address of a slot. -/
def State.slotAddr (s : State) (i : Nat) : Nat := s.wide Reg.VIS_CAP_BASE_LO / 4096 * 4096 + i * s.slotSize

/-- Group size, and the values a pixel takes, of the data type (Table 15.1). -/
def visGroup (dt : Nat) : Nat := [1, 4, 2, 2].getD dt 1
def visRange (dt : Nat) : Nat := [256, 1024, 4096, 256].getD dt 256

/-- The CSI-2 code of the data type (Table 15.1). -/
def visCode (dt : Nat) : Nat := [0x2A, 0x2B, 0x2C, 0x1E].getD dt 0

/-- A row of pixels as stored. -/
def rowBytes (l : List Nat) : List Byte := (l.map (leBytes 2)).flatten

/-- A packet error is counted (R357, Table 15.2); only an uncorrectable header also sets PKT_ERR (R357). -/
def pktErr (s : State) : State := s.incSat Fld.VIS_CNT2_PKTERR

/-- A row goes to the open frame's slot; it is dropped while external memory is not ready (R449). -/
def storeRow (s : State) (f : CapFrame) (l : List Nat) : State :=
  if s.ready 16 then memWrite s (s.slotAddr (s.slotOfFrame f.num) + f.lines * rowPitch s.visW) (rowBytes l) else s

/-- The open frame, with IN_FRAME and LINES. -/
def setFrame (s : State) (f : Option CapFrame) : State :=
  let s := s.setVis { s.vis with cur := f }
  (s.putB Fld.VIS_CAP_STAT_IN_FRAME f.isSome).put Fld.VIS_CAP_STAT_LINES ((f.map (·.lines)).getD 0)

/-- Rows of invalid pixels up to HEIGHT. -/
def padRows (s : State) (f : CapFrame) : Nat → State
  | 0 => s
  | n + 1 => storeRow (padRows s f n) { f with lines := f.lines + n } (List.replicate s.visW invPx)

/-- The open frame ends (R359 to R362): a short one is padded; unless it is dropped its slot becomes valid; VIS_FCNT takes its
number. -/
def frameEnd (s : State) : State :=
  match s.vis.cur with
  | none => s
  | some f =>
    let short := !f.dropped && decide (f.lines < s.visH)
    let s := if short then
        ((padRows s f (s.visH - f.lines)).incSat Fld.VIS_CNT_SHORT).irqF Fld.VIS_IRQ_STATUS_SHORT_FRAME
      else s
    let s := if f.dropped then s
      else
        let i := s.slotOfFrame f.num
        let s := (s.put (Fld.VIS_SLOT_FRAME_FRAME i) f.num).put (Fld.VIS_SLOT_FLAGS_FLAGS i)
          (if short then orBit f.flags 0 else f.flags)
        s.putB (Fld.VIS_SLOT_FLAGS_VALID i) true
    let s := (setFrame s none).put Fld.VIS_FCNT_FCNT f.num
    (s.event 0x02).irqF Fld.VIS_IRQ_STATUS_FRAME_END

/-- A frame opens in the next slot; where the slot is locked the frame is dropped (R359, R361). -/
def frameOpen (s : State) : State :=
  let k := s.vis.next
  let i := s.slotOfFrame k
  let locked := s.flag (Fld.VIS_SLOT_FLAGS_LOCKED i)
  let s := s.setVis { s.vis with next := (k + 1) % 2 ^ 32 }
  let s := if locked then (s.incSat Fld.VIS_CNT3_DROP).irqF Fld.VIS_IRQ_STATUS_DROP
    else s.putB (Fld.VIS_SLOT_FLAGS_VALID i) false
  (setFrame s (some ⟨k, locked, 0, 0, s.cyc⟩)).event 0x01

/-- Capture takes packets. -/
def State.capturing (s : State) : Bool := s.visUp && s.flag Fld.VIS_CAP_EN

/-- FRAME_START: a Frame Start short packet of a virtual channel; a frame still open ends first (R357, R359, Table 15.2). -/
def execFrameStart (vc : BitVec 2) (s : State) : Host.Outcome State Fault Refusal :=
  act s fun s =>
    if !s.capturing || decide (vc.toNat ≠ s.get Fld.VIS_CSI_VC) then s
    else frameOpen (if s.vis.cur.isSome then frameEnd (pktErr s) else s)

/-- FRAME_END: a Frame End short packet (R357, R359, Table 15.2). -/
def execFrameEnd (vc : BitVec 2) (s : State) : Host.Outcome State Fault Refusal :=
  act s fun s =>
    if !s.capturing || decide (vc.toNat ≠ s.get Fld.VIS_CSI_VC) then s
    else if s.vis.cur.isSome then frameEnd s
    else pktErr s

/-- A flag of the open frame, with its interrupt bit. -/
def frameFlag (s : State) (f : CapFrame) (bit : Nat) (irq : Field) : State × CapFrame :=
  (s.irqF irq, { f with flags := orBit f.flags bit })

/-- A line of the open frame (R357, R360). -/
def frameLine (s : State) (f : CapFrame) (px : List Nat) (crcOk part busy : Bool) : State :=
  let w := s.visW
  let blank := List.replicate w invPx
  if f.dropped then s
  else if s.visH ≤ f.lines then
    if bitOf f.flags 1 then s
    else
      let (s, f) := frameFlag s f 1 Fld.VIS_IRQ_STATUS_LONG_FRAME
      setFrame (s.incSat Fld.VIS_CNT_LONG) (some f)
  else
    let (s, f, row) :=
      if !crcOk then (pktErr s, { f with flags := orBit f.flags 4 }, blank)
      else if busy then
        let (s, f) := frameFlag s f 2 Fld.VIS_IRQ_STATUS_LINE_ERR
        (s.incSat Fld.VIS_CNT2_LINEERR, f, blank)
      else if w < px.length then
        let (s, f) := frameFlag s f 3 Fld.VIS_IRQ_STATUS_LINE_ERR
        (s.incSat Fld.VIS_CNT2_LINEERR, f, px.take w)
      else if px.length < w || part then
        let (s, f) := frameFlag s f 2 Fld.VIS_IRQ_STATUS_LINE_ERR
        (s.incSat Fld.VIS_CNT2_LINEERR, f, px ++ List.replicate (w - px.length) invPx)
      else (s, f, px)
    setFrame (storeRow s f row) (some { f with lines := f.lines + 1 })

/-- CSI_LINE: a long packet (R357, R360). -/
def execCsiLine (pkt : CsiLong) (s : State) : Host.Outcome State Fault Refusal :=
  act s fun s =>
    if !s.capturing then s
    else match pkt with
      | .badHeader => (pktErr s).irqF Fld.VIS_IRQ_STATUS_PKT_ERR
      | .line vc dt px crcOk part busy =>
        let t := s.get Fld.VIS_CSI_DT
        if vc.toNat ≠ s.get Fld.VIS_CSI_VC ∨ dt.toNat ≠ visCode t then s.incSat Fld.VIS_CNT3_DISCARD
        else match s.vis.cur with
          | none => s.incSat Fld.VIS_CNT3_DISCARD
          | some f => frameLine s f (px.map fun p => p.toNat % visRange t) crcOk part busy

/-- FTMO ms (FTMO ≠ 0) have passed since the Frame Start of the open frame (Table 15.2). -/
def State.frameOverdue (s : State) : Bool :=
  let t := s.get Fld.VIS_CAP_FTMO
  decide (t ≠ 0) && s.vis.cur.any fun f => decide (f.at_ + 196608 * t ≤ s.cyc)

/-- FRAME_TIMEOUT: FTMO ms have passed since the Frame Start (Table 15.2); before that the command has no effect (DESIGN CHOICE, log
entry 12). -/
def execFrameTimeout (s : State) : Host.Outcome State Fault Refusal :=
  act s fun s => if s.capturing && s.frameOverdue then frameEnd (s.irqF Fld.VIS_IRQ_STATUS_TIMEOUT) else s

/-- A write of VIS_CAP: SLOTS only while EN = 0; an enable numbers frames from 1; a disable abandons the open frame (R359,
R360). -/
def visCapWrite (s : State) (v : Word) : Option State :=
  if Fld.VIS_CAP_SLOTS.get v = 0 then none
  else
    let was := s.flag Fld.VIS_CAP_EN
    let en := Fld.VIS_CAP_EN.get v = 1
    let s := (s.put Fld.VIS_CAP_FTMO (Fld.VIS_CAP_FTMO.get v)).putB Fld.VIS_CAP_EN en
    let s := if was then s else s.put Fld.VIS_CAP_SLOTS (Fld.VIS_CAP_SLOTS.get v)
    let s := if en && !was then (s.setVis { s.vis with next := 1 }).put Fld.VIS_CAP_SIZE_SLOTSIZE s.slotSize else s
    some (if !en then setFrame s none else s)

/-- VIS_CAP_WRITE (R359, R360). -/
def execVisCapWrite (v : Word) (s : State) : Host.Outcome State Fault Refusal :=
  act s fun s => if s.served Reg.VIS_CAP then (visCapWrite s v).getD s else s

/-- A write of VIS_CAP_BASE, VIS_GEOM or VIS_CSI: only while EN = 0 (R359); a WIDTH that is no multiple of the group size is an
unlisted encoding (R358). -/
def visGeomWrite (s : State) (off : Nat) (v : Word) : Option State :=
  if s.flag Fld.VIS_CAP_EN then none
  else if off = Reg.VIS_GEOM ∧ Fld.VIS_GEOM_WIDTH.get v % visGroup (s.get Fld.VIS_CSI_DT) ≠ 0 then none
  else (storeWord s off v).map fun s => if off = Reg.VIS_GEOM then s.put Fld.VIS_CAP_SIZE_SLOTSIZE s.slotSize else s

/-- VIS_CNT_CLR (Table 15.6). -/
def execVisCntClr (s : State) : Host.Outcome State Fault Refusal :=
  act s fun s =>
    if s.served Reg.VIS_CNT then ((s.clrReg Reg.VIS_CNT).clrReg Reg.VIS_CNT2).clrReg Reg.VIS_CNT3 else s

/-! ### VISION descriptors (R363) -/

/-- Table 15.4: the offset of the first field of a parameter block that breaks its rule. `camera`, and the bits of ENGINES. -/
def visBlockBad (b : List Byte) (camera : Bool) (eng : Nat) : Option Nat :=
  let f := fieldAt b
  let pyr := bitOf eng 0
  let filt := bitOf eng 1
  let edge := bitOf eng 2
  let track := bitOf eng 3
  let levels := f 27 1
  let last := 2 ^ (levels - 1)
  let ntap := f 30 1
  let src := if camera then
      [(decide (f 0 8 ≠ 0), 0), (decide (f 8 2 ≠ 0), 8), (decide (f 10 2 ≠ 0), 10), (decide (f 12 4 ≠ 0), 12)]
    else
      [(decide (f 0 8 % 64 ≠ 0), 0), (decide (f 8 2 = 0 ∨ 4096 < f 8 2), 8), (decide (f 10 2 = 0 ∨ 3072 < f 10 2), 10),
        (decide (f 12 4 % 2 ≠ 0 ∨ f 12 4 < 2 * f 8 2), 12), (decide (f 8 2 < f 16 2 + f 20 2), 16),
        (decide (f 10 2 < f 18 2 + f 22 2), 18)]
  let roi := [(decide (f 20 2 < 16), 20), (decide (f 22 2 < 16), 22), (decide (4095 < f 24 2), 24), (decide (4 < f 26 1), 26),
    (decide (levels = 0 ∨ 7 < levels ∨ (!pyr ∧ levels ≠ 1) ∨ f 20 2 / last < 8 ∨ f 22 2 / last < 8), 27)]
  let sep := f 29 1 = 0
  let flt := if !filt then []
    else [(decide (levels ≤ f 28 1), 28), (decide (1 < f 29 1), 29),
      (if sep then decide (ntap % 2 = 0 ∨ 9 < ntap) else decide (ntap ≠ 0), 30), (decide (15 < f 31 1), 31)] ++
      ((List.range 9).filter fun i => ntap ≤ i).map (fun i => (decide (f (32 + i) 1 ≠ 0), 32 + i)) ++
      ((List.range 9).filter fun i => ntap ≤ i).map (fun i => (decide (f (41 + i) 1 ≠ 0), 41 + i))
  let rsv1 := (List.range 6).map fun i => (nz b (50 + i) 1, 50 + i)
  let c5 := if filt && sep then (List.range 25).map fun i => (nz b (56 + i) 1, 56 + i) else []
  let edg := if !edge then []
    else [(decide (2 < f 81 1), 81), (decide (f 82 2 = 0 ∨ 16383 < f 82 2), 82), (decide (64 < f 84 1), 84),
      (decide (1 < f 85 1), 85)]
  let rsv2 := [(nz b 86 1, 86), (nz b 87 1, 87)]
  let trk := if !track then []
    else [(decide (256 < f 96 2), 96), (decide (f 98 1 ≠ 5 ∧ f 98 1 ≠ 7 ∧ f 98 1 ≠ 9), 98),
      (decide (f 99 1 = 0 ∨ 8 < f 99 1), 99), (decide (f 104 8 % 4096 ≠ 0), 104)]
  let rsv3 := (List.range 136).map fun i => (nz b (120 + i) 1, 120 + i)
  firstBad (src ++ roi ++ flt ++ rsv1 ++ c5 ++ edg ++ rsv2 ++ trk ++ rsv3)

/-- VIS_CHAIN and the slot locks follow the chains (R361, Table 15.6). -/
def visStatus (s : State) : State :=
  let l := s.vis.chains
  let s := (s.putB Fld.VIS_CHAIN_BUSY (!l.isEmpty)).put Fld.VIS_CHAIN_QUEUED (l.length - 1)
  let s := s.put Fld.VIS_CHAIN_ENGINE ((l.head?.map (·.eng)).getD 0)
  (List.range 16).foldl (fun s i => s.putB (Fld.VIS_SLOT_FLAGS_LOCKED i) (l.any fun c => c.eng = 0 && c.slot = some i)) s

/-- The engines that a descriptor runs: Ingest, and those of ENGINES. -/
def visEngines (d : Desc) : List Nat := 0 :: (bitList 4 (d.pay 33 1)).map (· + 1)

/-- BAD_DESCRIPTOR with a block offset (R363 step 2). -/
def visBlockFail (s : State) (d : Desc) (o : Nat) : State := s.complete d stBadDescriptor (0x100 + o) 0

/-- The checks of a VISION descriptor with its parameter block, and its chain (R363). -/
def visBegin (s : State) (d : Desc) (blk : List Byte) : State :=
  let camera := d.pay 32 1 = 0
  let blk := slice blk 0 256
  match visBlockBad blk camera (d.pay 33 1) with
  | some o => visBlockFail s d o
  | none =>
    let c : Chain := ⟨d.sq, d.seq, blk, 0, none, fieldAt blk 0 8, fieldAt blk 12 4, 0, 0, none⟩
    let add (s : State) (c : Chain) : State :=
      let s := s.begin d
      visStatus (s.setVis { s.vis with chains := s.vis.chains ++ [c] })
    if !camera then add s c
    else
      let k := d.pay 36 4
      let i := s.slotOfFrame k
      if s.get Fld.VIS_FCNT_FCNT < k then s.complete d stBadSequence 0x02 0
      else if !s.flag (Fld.VIS_SLOT_FLAGS_VALID i) || s.get (Fld.VIS_SLOT_FRAME_FRAME i) ≠ k then
        s.complete d stBadSequence 0x01 0
      else if s.visW < fieldAt blk 16 2 + fieldAt blk 20 2 then visBlockFail s d 16
      else if s.visH < fieldAt blk 18 2 + fieldAt blk 22 2 then visBlockFail s d 18
      else add s { c with slot := some i, base := s.slotAddr i, pitch := rowPitch s.visW,
                          flags := s.get (Fld.VIS_SLOT_FLAGS_FLAGS i) }

/-- VISION: a dispatched VISION descriptor; `param` is its parameter block where that stands in host memory (R363). -/
def execVision (sq : Fin 64) (seq : BitVec 16) (param : HostRead) (s : State) : Host.Outcome State Fault Refusal :=
  act s fun s =>
    match s.takeDispatched sq seq.toNat 0x05 with
    | none => s
    | some d =>
      let a := d.pay 40 8
      if !s.visUp then s
      else if bitOf (d.pay 34 1) 1 then s.withHost d param fun d l s => visBegin s d l
      else if !s.memAnswers a 256 then s
      else
        let (l, t) := memRead s a 256
        if s.memIn a 256 then visBegin s d l else t.rangeFail d

/-! ### The workspace (R366) -/

/-- A region of the workspace: its offset, its width, its height. -/
structure Region where
  off : Nat
  w : Nat
  h : Nat
deriving DecidableEq, Repr

/-- The first 4096-byte boundary after the end of a region. -/
def Region.next (r : Region) : Nat := (r.off + rowPitch r.w * r.h + 4095) / 4096 * 4096

/-- The regions of levels l to l + n - 1 from an offset on. -/
def levelRegions (w h off : Nat) : Nat → List Region
  | 0 => []
  | n + 1 =>
    let r : Region := ⟨off, w, h⟩
    r :: levelRegions (w / 2) (h / 2) r.next n

/-- Levels of a parameter block. -/
def blkLevels (b : List Byte) : Nat := max 1 (fieldAt b 27 1)

/-- The regions of the levels. -/
def wsLevels (b : List Byte) : List Region := levelRegions (fieldAt b 20 2) (fieldAt b 22 2) 0 (blkLevels b)

/-- The regions of F, Gx and Gy, where the descriptor's engines make them. -/
def wsFilter (b : List Byte) (eng : Nat) : List Region :=
  let l := wsLevels b
  let lv := l.getD (fieldAt b 28 1) ⟨0, 0, 0⟩
  let off := (l.getLast?.map Region.next).getD 0
  let n := if bitOf eng 1 then (if bitOf eng 2 && bitOf (fieldAt b 85 1) 0 then 3 else 1) else 0
  (List.range n).map fun i => ⟨off + i * ((rowPitch lv.w * lv.h + 4095) / 4096 * 4096), lv.w, lv.h⟩

/-- Reads the image of a region from external memory. -/
def readImg (s : State) (ws : Nat) (r : Region) : Img :=
  ⟨r.w, r.h, (List.range r.h).map fun y =>
    let row := bytesAt s.mem.ram (ws + r.off + y * rowPitch r.w) (2 * r.w)
    (List.range r.w).map fun x => fieldAt row (2 * x) 2⟩

/-- Writes an image to a region. -/
def writeImg (s : State) (ws : Nat) (r : Region) (m : Img) : State :=
  m.rows.zipIdx.foldl (fun s e => memWrite s (ws + r.off + e.2 * rowPitch r.w) (rowBytes e.1)) s

/-- A region lies in memory. -/
def State.regionIn (s : State) (ws : Nat) (r : Region) : Bool := s.memIn (ws + r.off) (rowPitch r.w * r.h)

/-! ### Engines of a chain (R364, R367 to R372) -/

/-- Signed bytes. -/
def int8s (b : List Byte) (o n : Nat) : List Int := (List.range n).map fun i => sgn 8 (fieldAt b (o + i) 1)

/-- Writes results at an offset of RES_ADDR (R363, R372). -/
def resWrite (s : State) (d : Desc) (off : Nat) (l : List Byte) : State :=
  let a := d.pay 56 8 + off
  if bitOf (d.pay 34 1) 2 then { s with hostMem := writeBytes s.hostMem a l } else memWrite s a l

/-- The ROI of a source image given as rows of bytes at `base` (R367). -/
def ingest (c : Chain) (byteAt : Nat → Byte) : Img :=
  let b := c.blk
  let black := fieldAt b 24 2
  let lsh := fieldAt b 26 1
  Img.of (fieldAt b 20 2) (fieldAt b 22 2) fun x y =>
    let o := (fieldAt b 18 2 + y) * c.pitch + 2 * (fieldAt b 16 2 + x)
    ingestPx black lsh ((byteAt o).toNat + 256 * (byteAt (o + 1)).toNat)

/-- The workspace at `ws` is filled for a chain with this parameter block (R366). -/
def visFilled (s : State) (ws : Nat) (b : List Byte) : State :=
  s.setVis { s.vis with
    spaces := (ws, fieldAt b 20 2, fieldAt b 22 2, blkLevels b) :: s.vis.spaces.filter fun x => x.1 ≠ ws }

/-- The running engine writes its outputs; `input` is what it reads from host memory. Where PREV_ADDR does not name the workspace of
an earlier chain with the same ROI_W, ROI_H and LEVELS, the values of Track are unspecified (R371, Table 15.5; log entry 3). -/
def visEngine (s : State) (d : Desc) (c : Chain) (input : List Byte) : State × Chain :=
  let b := c.blk
  let ws := d.pay 48 8
  let eng := d.pay 33 1
  let levels := wsLevels b
  let fr := wsFilter b eng
  let host (bit addr n : Nat) : List Byte := if bitOf (d.pay 34 1) bit then slice input 0 n else bytesAt s.mem.ram addr n
  match c.eng with
  | 0 =>
    let hostSrc := c.slot.isNone && bitOf (d.pay 34 1) 0
    let img := ingest c fun o => if hostSrc then input.getD o 0 else byteAt s.mem.ram (c.base + o)
    let inv := (img.rows.map fun r => (r.filter (· = invPx)).length).sum
    (visFilled (writeImg s ws (levels.getD 0 ⟨0, 0, 0⟩) img) ws b, { c with invalid := inv })
  | 1 =>
    let imgs := pyramid (readImg s ws (levels.getD 0 ⟨0, 0, 0⟩)) levels.length
    (((imgs.zip levels).drop 1).foldl (fun s e => writeImg s ws e.2 e.1) s, c)
  | 2 =>
    let m := readImg s ws (levels.getD (fieldAt b 28 1) ⟨0, 0, 0⟩)
    let f := if fieldAt b 29 1 = 0 then
        filterSep m (int8s b 32 (fieldAt b 30 1)) (int8s b 41 (fieldAt b 30 1)) (fieldAt b 31 1)
      else filterGen5 m (int8s b 56 25) (fieldAt b 31 1)
    (writeImg s ws (fr.getD 0 ⟨0, 0, 0⟩) f, c)
  | 3 =>
    let (gx, gy) := gradients (readImg s ws (fr.getD 0 ⟨0, 0, 0⟩))
    let n := fieldAt b 84 1
    let recs := host 3 (fieldAt b 88 8) (8 * n)
    let out := ((List.range n).map fun i =>
      let (p, m) := scanEdge gx gy (fieldAt b 81 1) (fieldAt b 82 2) (slice recs (8 * i) 8)
      leBytes 2 p ++ leBytes 2 m).flatten
    let s := match fr with
      | [_, rx, ry] => writeImg (writeImg s ws rx gx) ws ry gy
      | _ => s
    (resWrite s d 64 out, c)
  | _ =>
    let n := fieldAt b 96 2
    let js := levels.map (readImg s ws)
    let is := levels.map (readImg s (fieldAt b 104 8))
    let recs := host 3 (fieldAt b 112 8) (4 * n)
    let out := ((List.range n).map fun i =>
      let l := trackFeature is js (fieldAt recs (4 * i) 2) (fieldAt recs (4 * i + 2) 2) (fieldAt b 98 1) (fieldAt b 99 1)
        (fieldAt b 100 4)
      (l.map (leBytes 2)).flatten).flatten
    if s.vis.spaces.contains (fieldAt b 104 8, fieldAt b 20 2, fieldAt b 22 2, blkLevels b) then (resWrite s d 320 out, c)
    else
      let (l, s) := s.freeBytes (8 * n)
      (resWrite s d 320 l, c)

/-- The accesses of the running engine lie in external memory (R451). -/
def visInRange (s : State) (d : Desc) (c : Chain) : Bool :=
  let b := c.blk
  let ws := d.pay 48 8
  let eng := d.pay 33 1
  let resHost := bitOf (d.pay 34 1) 2
  let listHost := bitOf (d.pay 34 1) 3
  let res (off n : Nat) : Bool := resHost || s.memIn (d.pay 56 8 + off) n
  match c.eng with
  | 0 =>
    (bitOf (d.pay 34 1) 0 && c.slot.isNone || s.memIn c.base
      ((fieldAt b 18 2 + fieldAt b 22 2 - 1) * c.pitch + 2 * (fieldAt b 16 2 + fieldAt b 20 2))) &&
      s.regionIn ws ((wsLevels b).getD 0 ⟨0, 0, 0⟩)
  | 1 => (wsLevels b).all (s.regionIn ws)
  | 2 => (wsFilter b eng).take 1 |>.all (s.regionIn ws)
  | 3 => (wsFilter b eng).all (s.regionIn ws) && (listHost || s.memIn (fieldAt b 88 8) (8 * fieldAt b 84 1)) &&
      res 64 (4 * fieldAt b 84 1)
  | _ => (wsLevels b).all (fun r => s.regionIn (fieldAt b 104 8) r) &&
      (listHost || s.memIn (fieldAt b 112 8) (4 * fieldAt b 96 2)) && res 320 (8 * fieldAt b 96 2)

/-- The header of the results (R372). -/
def visHeader (d : Desc) (c : Chain) : List Byte :=
  let eng := d.pay 33 1
  let offs := (wsLevels c.blk).map (·.off)
  let fr := (wsFilter c.blk eng).map (·.off)
  let lv := (List.range 7).map fun i => offs.getD i 0
  let fg := (List.range 3).map fun i => fr.getD i 0
  let flags := if c.slot.isNone then 32 else c.flags
  slice (leBytes 4 (d.pay 36 4) ++ leBytes 4 flags ++ leBytes 4 (satU 32 c.invalid) ++ leBytes 1 (blkLevels c.blk) ++
    [0, 0, 0] ++ ((lv ++ fg).map (leBytes 4)).flatten) 0 64

/-- RESULT of a chain (R365). -/
def visResult (d : Desc) (c : Chain) : Nat :=
  d.pay 36 4 + (if c.slot.isNone then 0 else c.flags) * 2 ^ 32 + satU 24 c.invalid * 2 ^ 40

/-- A chain leaves the unit. -/
def visDrop (s : State) (c : Chain) : State := visStatus (s.setVis { s.vis with chains := s.vis.chains.filter (· ≠ c) })

/-- Free bytes over a region of the workspace: an output that a stopped chain leaves unspecified (R365). -/
def freeRegion (s : State) (ws : Nat) (r : Region) : State :=
  let (l, s) := s.freeBytes (rowPitch r.w * r.h)
  memWrite s (ws + r.off) l

/-- The outputs of the engines after the stopped one are unspecified, bounded to their regions and to the results (R365; log
entry 3). -/
def visStopped (s : State) (d : Desc) (c : Chain) : State :=
  let ws := d.pay 48 8
  let eng := d.pay 33 1
  let later (e : Nat) : Bool := (visEngines d).contains e && decide (c.eng < e)
  let s := if later 1 then ((wsLevels c.blk).drop 1).foldl (fun s r => freeRegion s ws r) s else s
  let s := if later 2 then ((wsFilter c.blk eng).take 1).foldl (fun s r => freeRegion s ws r) s else s
  let s := if later 3 then ((wsFilter c.blk eng).drop 1).foldl (fun s r => freeRegion s ws r) s else s
  let res (s : State) (off n : Nat) : State :=
    let (l, s) := s.freeBytes n
    resWrite s d off l
  let s := res s 0 64
  let s := if later 3 then res s 64 (4 * fieldAt c.blk 84 1) else s
  if later 4 then res s 320 (8 * fieldAt c.blk 96 2) else s

/-- The host reads that an engine makes. -/
def visHostRead (d : Desc) (c : Chain) : Bool :=
  match c.eng with
  | 0 => c.slot.isNone && bitOf (d.pay 34 1) 0
  | 3 => bitOf (d.pay 34 1) 3
  | 4 => bitOf (d.pay 34 1) 3
  | _ => false

/-- What an engine reads of external memory, as addresses and lengths (R366 to R371). -/
def visMemReads (d : Desc) (c : Chain) : List (Nat × Nat) :=
  let b := c.blk
  let at_ (ws : Nat) (r : Region) : Nat × Nat := (ws + r.off, rowPitch r.w * r.h)
  let ws := d.pay 48 8
  let eng := d.pay 33 1
  let list (addr n : Nat) : List (Nat × Nat) := if bitOf (d.pay 34 1) 3 then [] else [(addr, n)]
  match c.eng with
  | 0 => if c.slot.isNone && bitOf (d.pay 34 1) 0 then [] else
      [(c.base, (fieldAt b 18 2 + fieldAt b 22 2 - 1) * c.pitch + 2 * (fieldAt b 16 2 + fieldAt b 20 2))]
  | 1 => ((wsLevels b).take 1).map (at_ ws)
  | 2 => (((wsLevels b).drop (fieldAt b 28 1)).take 1).map (at_ ws)
  | 3 => (wsFilter b eng).map (at_ ws) ++ list (fieldAt b 88 8) (8 * fieldAt b 84 1)
  | _ => (wsLevels b).map (at_ ws) ++ (wsLevels b).map (at_ (fieldAt b 104 8)) ++ list (fieldAt b 112 8) (4 * fieldAt b 96 2)

/-- The running engine ends: a stopped chain completes with its status, else the next engine begins, or the chain reaches its
point of no return (R364, R365). -/
def visEngineEnd (s : State) (d : Desc) (c : Chain) (input : List Byte) : State :=
  if !visInRange s d c then (visDrop s c).rangeFail d
  else
    let (s, c') := visEngine s d c input
    match c.stop with
    | some st =>
      let s := visStopped s d c'
      (visDrop s c).complete d st (if st = stTimeout then 0x1000000 + satU 24 d.allow else 0) (visResult d c')
    | none =>
      match (visEngines d).find? (c.eng < ·) with
      | some e =>
        visStatus (s.setVis { s.vis with chains := s.vis.chains.map fun x => if x = c then { c' with eng := e } else x })
      | none =>
        let s := resWrite s d 0 (visHeader d c')
        let s := (visDrop s c).complete d stOK 0 (visResult d c')
        (s.irqF Fld.VIS_IRQ_STATUS_CHAIN_DONE).event 0x03

/-- VISION_ENGINE_DONE: the running engine of the running chain writes its last output; `input` is what it has read from host
memory (R364 to R372). -/
def execVisionEngineDone (input : HostRead) (s : State) : Host.Outcome State Fault Refusal :=
  act s fun s =>
    match s.vis.chains with
    | [] => s
    | c :: _ =>
      if !s.visUp || !s.ready 16 then s
      else match s.findDesc c.sq c.seq with
        | none => visDrop s c
        | some d =>
          if (visMemReads d c).any fun e => s.memFlawed e.1 e.2 then s
          else if visHostRead d c then
            if !s.canDma then s.hostEpisode d
            else match input with
              | .bytes l => let (d, s) := s.episodeDone d; visEngineEnd s d c l
              | .refused => (visDrop s c).complete d stBadDescriptor 0x010000FF 0
              | .timeout => s.hostEpisode d
          else if bitOf (d.pay 34 1) 2 && !s.canDma then s.hostEpisode d
          else
            let (d, s) := s.episodeDone d
            visEngineEnd s d c []

end Sys2Proof.Machine
end

