-- ==== Sys2Proof/Machine/Stop.lean ====
section
/-!
DEFINITION. The gaffer stops (R43, R44, R553).
-/
namespace Sys2Proof.Machine

/-- What every stop of the gaffer does: every PWMAn is disabled, every slot stops, slices and pinned runs end, the writes that
wait for a tick edge take effect, and RUNNING clears (R43, R44, R553). CFG batches with TICK = 0 follow in `batchesIdle`
(Registers.lean). -/
def gafStopped (s : State) : State :=
  let s := slotsStop (pwmDisableAll s 3)
  let s := jobTickEdge { s with runs := [], gaf := { s.gaf with started := [], ended := [] } }
  let s := modTickEdge (fenceEdge (dvfsEdge (thermLoads (loadShadows s)))) false
  (s.putB Fld.GAF_STATUS_RUNNING false).showPinned

/-- The tick PLL loses lock: LOCKED clears, a start whose first edge is to come is withdrawn but in a slave, whose first edge waits for
a lock anyway (R41; DESIGN CHOICE, log entry 39), and a running gaffer stops and sets
LOCK_LOST (R44): it can start again once LOCKED has returned. -/
def tickLost (s : State) : State :=
  let s := (s.putB Fld.GAF_STATUS_LOCKED false).putB Fld.PWR_PLL_TICK false
  let s := { s with gaf := { s.gaf with starting := if s.isSlave && !s.running then s.gaf.starting else none } }
  if s.running then
    let s := gafStopped s
    ({ s with gaf := { s.gaf with lost := true } }).irqF Fld.GAF_IRQ_STATUS_LOCK_LOST
  else s

/-- The tick PLL is locked, to the crystal or to a beacon (R41, R63): DTIME counts from the first lock after a cold reset. -/
def tickLocked (s : State) (beacon : Bool) : State :=
  let s := ((s.putB Fld.GAF_STATUS_LOCKED true).putB Fld.GAF_STATUS_TCLK_SRC beacon).putB Fld.PWR_PLL_TICK true
  { s with dtimeOn := true, gaf := { s.gaf with lost := false } }

end Sys2Proof.Machine
end

