-- ==== Sys2Proof/Machine/Cascade.lean ====
section
/-!
DEFINITION. The Vexiq link (chapter 18, R418 to R444): frames, slots, the roster, CASC descriptors, the agreed sleep. Beacons and
kept tick edges, which open ticks, are in Beacon.lean.
-/
namespace Sys2Proof.Machine

def State.setVxl (s : State) (x : Vxl) : State := { s with vxl := x }

/-- VXL_STATUS.STATE (Table 18.4). -/
def State.linkState (s : State) : Nat := s.get Fld.VXL_STATUS_STATE
def State.setLinkState (s : State) (v : Nat) : State := s.put Fld.VXL_STATUS_STATE v

def State.present (s : State) : Nat := s.get Fld.VXL_ROSTER_PRESENT

/-- The partners listed in PRESENT. -/
def State.partners (s : State) : List Nat := (bitList 8 s.present).filter (· ≠ s.cascId)

/-! ### Frames (R419, R420) -/

/-- The frame with its CRC (R419). -/
def withCrc (l : List Byte) : List Byte := l ++ leBytes 4 (crc32 l)

/-- The CRC of a received frame is good (R419). -/
def frameOk (l : List Byte) : Bool :=
  decide (4 < l.length) && crc32 (l.take (l.length - 4)) = fieldAt l (l.length - 4) 4

/-- TCLK cycles that a frame of `n` bytes occupies the link: 2⌈n/2⌉ + 4 ns, rounded up (R419). -/
def linkCycles (n : Nat) : Nat := ((2 * ((n + 1) / 2) + 4) * 196608 + 999999) / 1000000

/-- A symbol of a lane (R419): the start and the end of a frame, the symbol between frames, a byte. -/
inductive Symbol where
  | k277 | k297 | k285 | data (b : Byte)
deriving DecidableEq, Repr

/-- The symbols of a frame on its lane 0 or 1: byte 2i travels on lane 0 and byte 2i + 1 on lane 1 (R419). -/
def laneSymbols (f : List Byte) (lane : Nat) : List Symbol :=
  [.k277] ++ ((List.range ((f.length + 1) / 2)).map fun i =>
    match f[2 * i + lane]? with
    | some b => .data b
    | none => .k285) ++ [.k297]

/-- A frame that becomes ready in cycle `at_` takes its place among those that wait for the TX port (R420). -/
def queueFrame (s : State) (at_ : Nat) (f : List Byte) : State :=
  s.setVxl { s.vxl with tx := s.vxl.tx.filter (·.1 ≤ at_) ++ (at_, f) :: s.vxl.tx.filter (fun e => !decide (e.1 ≤ at_)) }

/-- A frame of the device's own becomes ready for the TX port (R420). -/
def sendFrame (s : State) (f : List Byte) : State := queueFrame s s.cyc f

/-- A received frame of another device is forwarded unchanged, 24 TCLK cycles after its first symbol, which came `age` cycles ago
(R420). -/
def forwardFrame (s : State) (f : List Byte) (age : Nat) : State := queueFrame s (s.cyc - age + 24) f

/-- A receiver sees a CRC failure (R428). -/
def crcFailed (s : State) : State := (s.incSat Fld.VXL_CNT_CRCERR).irqF Fld.VXL_IRQ_STATUS_CRC_ERR

/-! ### EXCHANGE (R425 to R427) -/

/-- The slots that are not in STOPPED. -/
def State.runningMask (s : State) : Nat := ((List.range 6).filter fun n => s.slotState n ≠ 0).foldl orBit 0

/-- Every slot of the device is in STOPPED. -/
def State.allStopped (s : State) : Bool := s.runningMask = 0

/-- SLEEPACK or SLEEPNAK, in the ticks from PROPOSE to the tick before the commit tick (R435). -/
def State.sleepFlags (s : State) : Nat :=
  match s.vxl.commitAt with
  | none => 0
  | some c =>
    if c ≤ s.tickno + 8 ∧ s.tickno < c then (if s.flag Fld.VXL_SLPCFG_AGREE && s.allStopped then 1 else 2) else 0

/-- The feature section: the newest NPUFEAT frame complete now (R343, Table 18.2). -/
def State.featSection (s : State) : List Byte :=
  let words := match s.mix.featDue with
    | some (_, due, w) => if due ≤ s.cyc then w else (List.range 64).map fun w => s.get (Fld.MIX_FEATBUF_WORD w)
    | none => (List.range 64).map fun w => s.get (Fld.MIX_FEATBUF_WORD w)
  ((List.range 64).map fun w => leBytes 2 (words.getD w 0)).flatten

/-- The audio section (R427, Table 18.2); without a frame its SCNT is 0. -/
def State.audioSection (s : State) : List Byte :=
  let fs := s.mix.casc
  let nch := s.get Fld.VXL_RXCFG_NCH
  let sinks := (List.range nch).map fun c => bitsOf (s.get Fld.VXL_RXCFG_SINKS) (5 * c + 4) (5 * c)
  let data := (fs.map fun f => (sinks.map fun k => fmtEncode 0 (f.y.getD k 0)).flatten).flatten
  slice (leBytes 1 fs.length ++ leBytes 1 nch ++ [0, 0] ++ leBytes 4 ((fs.head?.map (·.cnt)).getD 0) ++ data) 0 256

/-- The device's slot of this tick, without its CRC, with retransmit number `k` (Table 18.2). -/
def State.slotFrame (s : State) (k : Nat) : List Byte :=
  let feat := s.flag Fld.VXL_CFG_FEAT
  let aud := s.flag Fld.VXL_CFG_AUD
  let len := 128 + (if feat then 128 else 0) + (if aud then 256 else 0)
  let exports := ((List.range 4).map fun e =>
    if s.flag (Fld.FEN_EXPORT_EN e) then
      let n := s.get (Fld.FEN_EXPORT_FENCE e)
      leBytes 8 (s.fenceValue n) ++ leBytes 4 (1 + if s.poisoned n then 2 else 0)
    else leBytes 12 0).flatten
  let obs := ((List.range 6).map fun a => ((List.range 4).map fun o => leBytes 2 (s.get (Fld.OBS_VAL_VAL a o))).flatten).flatten
  let srcs := ((List.range 6).map fun a =>
    leBytes 1 (((List.range 4).map fun o => s.get (Fld.OBS_STATE_SRC a o) * 4 ^ o).sum)).flatten
  [2] ++ leBytes 1 (s.cascId + 16 * k) ++ leBytes 2 len ++ leBytes 6 s.tickno ++
    leBytes 1 ((if feat then 1 else 0) + if aud then 2 else 0) ++ leBytes 1 s.sleepFlags ++ leBytes 4 0 ++ exports ++ obs ++
    srcs ++ leBytes 1 s.axesInPlan ++ leBytes 1 s.runningMask ++ leBytes 1 (s.get Fld.OBS_COL_STATUS_LASTREQ) ++ leBytes 7 0 ++
    (if feat then s.featSection else []) ++ (if aud then s.audioSection else [])

/-- The EXCHANGE action completes once a copy of the own slot has left and the good slots of all other members not LOST have come
(R426, R430). -/
def exchangeCheck (s : State) : State :=
  match (s.actionsOf 6).head? with
  | none => s
  | some i =>
    let waits := s.partners.filter fun d => !bitOf s.vxl.got d && s.get (Fld.VXL_PEER_STATE d) ≠ 2
    if s.vxl.ownSent && waits.isEmpty then actionDone s i else s

/-- EXCHANGE_START: the own slot is formed and becomes ready for the TX port (R425 to R427). -/
def execExchangeStart (i : Fin 64) (s : State) : Host.Outcome State Fault Refusal :=
  act s fun s =>
    if !s.mayStart i 6 then s
    else
      let s := s.startAction i
      let f := s.slotFrame 0
      let s := s.setVxl { s.vxl with own := some f, ownSent := false, retx := 0 }
      sendFrame (s.setMix { s.mix with casc := [] }) (withCrc f)

/-- FRAME_TRANSMIT: the last symbol of the frame first in order leaves the TX port, once the port was free for it and it has occupied
the link (R419, R420); the port stops while its PLL is not locked (Table 20.4). -/
def execFrameTransmit (s : State) : Host.Outcome State Fault Refusal :=
  act s fun s =>
    match s.vxl.tx with
    | [] => s
    | (at_, f) :: r =>
      let done := max at_ s.vxl.free + linkCycles f.length
      if !(s.up 15 && s.flag Fld.PWR_PLL_VXLTX) || decide (s.cyc < done) then s
      else
        let own := fieldAt f 0 1 = 2 && fieldAt f 1 1 % 8 = s.cascId
        exchangeCheck (s.setVxl { s.vxl with tx := r, free := done, sent := f, ownSent := s.vxl.ownSent || own })

/-! ### Partner slots (R428 to R430) -/

/-- The fence imports from partner `d` take the exports of its slot (R126). -/
def importFences (s : State) (d : Nat) (f : List Byte) : State :=
  (List.range 16).foldl (fun s i =>
    if s.flag (Fld.FEN_IMPORT_EN i) && s.get (Fld.FEN_IMPORT_DEVICE i) = d then
      let o := 16 + 12 * s.get (Fld.FEN_IMPORT_EXPORT i)
      let fl := fieldAt f (o + 8) 1
      if bitOf fl 0 then s.fence (s.get (Fld.FEN_IMPORT_FENCE i)) [fieldAt f o 8] (bitOf fl 1) false else s
    else s) s

/-- The receive ring takes a slot (R429). -/
def ringWrite (s : State) (d : Nat) (f : List Byte) (late : Bool) : State :=
  if !s.flag Fld.VXL_RXCFG_EN then s
  else
    let len := fieldAt f 2 2
    let a := s.wide Reg.VXL_RXBASE_LO + (1024 * d + fieldAt f 4 6 % 1024) * 512
    if !s.ready 16 then s.incSat Fld.VXL_CNT2_RXDROP
    else if !s.memIn a len then (s.memRefuse a).incSat Fld.VXL_CNT2_RXDROP
    else memWrite s a ((f.take len).set 12 (if late then 1 else f.getD 12 0))

/-- The descriptor of the proposal that awaits the slot of member `d`. -/
def State.proposalDesc (s : State) (d : Nat) : Option Desc :=
  match s.vxl.prop with
  | none => none
  | some p => if p.tick.isSome && bitOf p.members d then s.findDesc p.sq p.seq else none

/-- A retransmit episode begins for a slot that the proposal awaits: its deadline moves by one tick period (R93, R434). -/
def proposalEpisode (s : State) (d : Nat) : State :=
  match s.proposalDesc d with
  | some e =>
    if bitOf s.vxl.retries d || bitOf s.vxl.got d then s
    else
      let s := s.setVxl { s.vxl with retries := orBit s.vxl.retries d }
      s.setDesc e { e with episode := true, allow := e.allow + (s.get Fld.GAF_TICKDIV_TICKDIV * 1000 + 98303) / 98304 }
  | none => s

/-- The good slot of member `d` ends its retransmit episode with success (R95). -/
def proposalRetried (s : State) (d : Nat) : State :=
  if !bitOf s.vxl.retries d then s
  else
    let s := s.setVxl { s.vxl with retries := clrBit s.vxl.retries d }
    match s.proposalDesc d with
    | some e =>
      let (e, s) := s.episodeDone e
      if s.vxl.retries = 0 then s else s.setDesc e { e with episode := true }
    | none => s

/-- A retransmit comes within its tick or not at all: the episodes end with the tick (R93, Table 3.6). -/
def proposalTickEnds (s : State) : State :=
  if s.vxl.retries = 0 then s
  else
    let d := (List.range 8).find? fun d => bitOf s.vxl.retries d
    let s := match s.proposalDesc (d.getD 0) with
      | some e => s.setDesc e { e with episode := false }
      | none => s
    s.setVxl { s.vxl with retries := 0 }

/-- The proposal at the master takes the sleep flags of a member's slot (R436). -/
def proposalHears (s : State) (d : Nat) (f : List Byte) : State :=
  match s.vxl.prop with
  | none => s
  | some p => match p.tick with
    | none => s
    | some t =>
      let n := fieldAt f 4 6
      if t ≤ n ∧ n < t + 8 then
        s.setVxl { s.vxl with prop := some { p with
          heard := orBit p.heard d, refused := if fieldAt f 11 1 % 4 = 1 then p.refused else orBit p.refused d } }
      else s

/-- A partner's slot with a good CRC (R426, R428 to R430). -/
def slotTaken (s : State) (d : Nat) (f : List Byte) : State :=
  let n := fieldAt f 4 6
  let dup := match s.vxl.peers[d]? with
    | some (b :: r) => decide (fieldAt (b :: r) 4 6 = n)
    | _ => false
  if dup then s
  else
    let now := decide (n = s.tickno)
    let late := s.vxl.overran || !now
    let inTime := now && decide (s.edgeOfs + 17 ≤ s.get Fld.GAF_TICKDIV_TICKDIV)
    let s := s.setVxl { s.vxl with peers := s.vxl.peers.set d f
                                   got := if now then orBit s.vxl.got d else s.vxl.got
                                   inTime := if inTime then orBit s.vxl.inTime d else s.vxl.inTime }
    let s := importFences s d f
    let s := ((s.put (Fld.VXL_PEER_RUNNING d) (fieldAt f 119 1)).putB (Fld.VXL_PEER_LATE d) late).putB (Fld.VXL_PEER_STALE d) (!now)
    let s := if s.get (Fld.VXL_PEER_STATE d) = 2 then (s.put (Fld.VXL_PEER_STATE d) 1).put (Fld.VXL_PEER_MISS d) 0 else s
    let s := if inTime then s.put (Fld.VXL_PEER_MISS d) 0 else s
    let s := ringWrite s d f late
    exchangeCheck (proposalHears (if now then proposalRetried s d else s) d f)

/-- SLOT_RECEIVE: a slot of another device arrives: it is forwarded unchanged; with a bad CRC it is counted, with a good one it is
taken if its device is in PRESENT (R420, R426, R428, R429). -/
def execSlotReceive (frame : List Byte) (s : State) : Host.Outcome State Fault Refusal :=
  act s fun s =>
    let d := fieldAt frame 1 1 % 8
    if !(s.up 15 && s.linkOn) || d = s.cascId then s
    else
      let s := forwardFrame s frame (linkCycles frame.length)
      if !frameOk frame then proposalEpisode (crcFailed s) d
      else if bitOf s.present d then slotTaken s d frame else s

/-- SLOT_RETURN: the own slot returns; with a bad CRC it is sent again with the next retransmit number, while MAXRETX and the time
to the edge guard allow (R428). -/
def execSlotReturn (frame : List Byte) (s : State) : Host.Outcome State Fault Refusal :=
  act s fun s =>
    if !(s.up 15 && s.linkOn) || frameOk frame then s
    else
      let s := crcFailed s
      match s.vxl.own with
      | none => s
      | some f =>
        let k := s.vxl.retx + 1
        let arrives := s.edgeOfs + linkCycles (f.length + 4) + s.get Fld.VXL_LOOP_LOOP
        if s.vxl.retx < s.get Fld.VXL_CFG_MAXRETX ∧ arrives + 17 ≤ s.get Fld.GAF_TICKDIV_TICKDIV then
          let s := (s.incSat Fld.VXL_CNT_RETX).irqF Fld.VXL_IRQ_STATUS_RETX
          sendFrame (s.setVxl { s.vxl with retx := k }) (withCrc (f.set 1 (BitVec.ofNat 8 (s.cascId + 16 * k))))
        else s

/-- JOIN_RECEIVE: the master notes the tick of a good JOIN; any other device forwards it (R420, R432). -/
def execJoinReceive (frame : List Byte) (s : State) : Host.Outcome State Fault Refusal :=
  act s fun s =>
    let d := fieldAt frame 1 1 % 8
    if !(s.up 15 && s.linkOn) || d = s.cascId then s
    else
      let s := forwardFrame s frame (linkCycles frame.length)
      if !frameOk frame then crcFailed s
      else if s.isMaster && !bitOf s.present d && !(s.vxl.joins.any fun j => j.1 = d) then
        s.setVxl { s.vxl with joins := s.vxl.joins ++ [(d, s.tickno)] }
      else s

/-- PEER_LINK_LOST: a partner whose consecutive misses have reached MISSLIM is declared LINK_LOST (R126, R430). -/
def execPeerLinkLost (d : Fin 8) (s : State) : Host.Outcome State Fault Refusal :=
  act s fun s =>
    if s.linkOn && s.partners.contains d.val && s.get (Fld.VXL_PEER_STATE d) ≠ 2 &&
        decide (s.get Fld.VXL_CFG_MISSLIM ≤ s.get (Fld.VXL_PEER_MISS d)) then
      let s := ((s.put (Fld.VXL_PEER_STATE d) 2).incSat Fld.VXL_CNT2_LOST).irqF Fld.VXL_IRQ_STATUS_PEER_LOST
      let s := (List.range 16).foldl (fun s i =>
        if s.flag (Fld.FEN_IMPORT_EN i) && s.get (Fld.FEN_IMPORT_DEVICE i) = d.val && s.flag (Fld.FEN_IMPORT_POISON_ON_LOST i) then
          s.fence (s.get (Fld.FEN_IMPORT_FENCE i)) [] true false
        else s) s
      let s := match s.vxl.prop with
        | some p => if p.tick.isSome && bitOf p.members d then s.setVxl { s.vxl with prop := some { p with lost := true } } else s
        | none => s
      exchangeCheck s
    else s

/-- RX_LOSS: symbol lock is lost on a lane (Table 18.4). -/
def execRxLoss (s : State) : Host.Outcome State Fault Refusal :=
  act s fun s => if s.up 15 then (s.putB Fld.VXL_STATUS_RXLOCK false).irqF Fld.VXL_IRQ_STATUS_RX_LOSS else s

/-- RX_LOCK: both lanes are locked (Table 18.4). -/
def execRxLock (s : State) : Host.Outcome State Fault Refusal :=
  act s fun s => if s.up 15 then s.putB Fld.VXL_STATUS_RXLOCK true else s

/-! ### Wake pin (R436, R438) -/

/-- The WAKE pin reads low for `n` more TCLK cycles; the master samples it. -/
def wakeLow (s : State) (n : Nat) : State :=
  s.setVxl { s.vxl with wakeUntil := max s.vxl.wakeUntil (s.cyc + n)
                        prop := s.vxl.prop.map fun (p : Proposal) => if p.tick.isSome then { p with wake := true } else p }

/-- The device has a wake request to follow, should it sleep (R438, R468). -/
def wakeAsked (s : State) : State := { s with pwr := { s.pwr with wake := true } }

/-- A wake request drives WAKE low for 20 µs (R438). -/
def wakeRequest (s : State) : State := wakeAsked (wakeLow s 3933)

/-- VXL_WAKE: a write of VXL_WAKE.REQ = 1 (R438, R467). -/
def execVxlWake (s : State) : Host.Outcome State Fault Refusal :=
  act s fun s => if s.served Reg.VXL_WAKE then wakeRequest s else s

/-- WAKE_PIN_LOW: the device has seen WAKE low for `low` TCLK cycles up to now, and it stays low for `more`: from 1 µs on, WAKE_LATCH
sets (R436, R438, R468). -/
def execWakePinLow (low more : BitVec 32) (s : State) : Host.Outcome State Fault Refusal :=
  act s fun s =>
    let s := wakeLow s more.toNat
    if 197 ≤ low.toNat then wakeAsked (s.putB Fld.VXL_STATUS_WAKE_LATCH true) else s

/-! ### Counters and configuration -/

def vxlCntClr (s : State) : State := ((s.clrReg Reg.VXL_CNT).clrReg Reg.VXL_CNT2).clrReg Reg.VXL_CNT3

/-- VXL_CNT_CLR (Table 18.4). -/
def execVxlCntClr (s : State) : Host.Outcome State Fault Refusal :=
  act s fun s => if s.served Reg.VXL_CNT_CLR then vxlCntClr s else s

/-- A slave without a beacon: its tick PLL is not locked, and it acquires (R424, R441). -/
def acquire (s : State) : State :=
  (tickLost (s.setVxl { s.vxl with missed := 0, hold := false, sleeping := false, commitAt := none, acqAt := s.cyc })).setLinkState 1

/-- A write of VXL_CFG: turned on, a slave acquires and a master with a running gaffer is MEMBER; turned off, the link's waiting
frames are gone, its STATE is OFF, and a slave loses the beacon that its tick PLL follows (R441, Table 18.4; log entry 22). -/
def vxlCfgWrite (s : State) (v : Word) : State :=
  match storeWord s Reg.VXL_CFG v with
  | none => s
  | some t =>
    let was := s.linkOn
    let now := t.linkOn
    if was = now then t
    else if now then
      if t.cascId ≠ 0 then acquire t else t.setLinkState (if t.running then 3 else 0)
    else
      let t := t.setVxl { t.vxl with tx := [], joins := [], commitAt := none, hold := false }
      let t := if t.cascId ≠ 0 then tickLost t else t
      t.setLinkState 0

/-! ### CASC descriptors (R434) -/

/-- The check that a CASC descriptor fails first: its DETAIL. -/
def State.cascBad (s : State) (release : Bool) (dev : Nat) : Option Nat :=
  if !(s.isMaster && s.running) then some 0x01
  else if release then (if bitOf s.present dev then some 0x04 else none)
  else if s.vxl.prop.isSome then some 0x05
  else if !s.allStopped then some 0x102
  else none

/-- SLEEP_PROPOSE: a dispatched CASC descriptor with OP SLEEP_PROPOSE: the next tick edge sends PROPOSE (R434, R435). -/
def execSleepPropose (sq : Fin 64) (seq : BitVec 16) (s : State) : Host.Outcome State Fault Refusal :=
  act s fun s =>
    match s.takeDispatched sq seq.toNat 0x0C with
    | none => s
    | some d =>
      if d.pay 32 1 ≠ 0 then s
      else match s.cascBad false 0 with
        | some e => s.complete d stBadSequence e 0
        | none => (s.begin d).setVxl { s.vxl with prop := some ⟨d.sq, d.seq, none, 0, 0, 0, false, false⟩ }

/-- RELEASE: a dispatched CASC descriptor with OP RELEASE clears the RESERVED bit of DEV (R434). -/
def execRelease (sq : Fin 64) (seq : BitVec 16) (s : State) : Host.Outcome State Fault Refusal :=
  act s fun s =>
    match s.takeDispatched sq seq.toNat 0x0C with
    | none => s
    | some d =>
      if d.pay 32 1 ≠ 1 then s
      else
        let dev := d.pay 33 1 % 8
        match s.cascBad true dev with
        | some e => s.complete d stBadSequence e 0
        | none =>
          let s := s.putBit Fld.VXL_ROSTER_RESERVED dev false
          let s := if s.get (Fld.VXL_PEER_STATE dev) = 0 then s else s.put (Fld.VXL_PEER_STATE dev) 0
          s.complete d stOK 0 0

/-! ### Roster (R430 to R433) -/

/-- VXL_PEER[d].STATE follows the roster: PRESENT, which a declared loss keeps at LOST; RESERVED only; neither. A device newly in
PRESENT has no misses, and its values are of no tick before its first slot (R430, R433). -/
def showPeers (s : State) (before : Nat) : State :=
  (List.range 8).foldl (fun s d =>
    if d = s.cascId then s
    else
      let was := s.get (Fld.VXL_PEER_STATE d)
      if bitOf s.present d then
        if bitOf before d && was = 2 then s
        else
          let s := s.put (Fld.VXL_PEER_STATE d) 1
          if bitOf before d then s else (s.put (Fld.VXL_PEER_MISS d) 0).putB (Fld.VXL_PEER_STALE d) true
      else if bitOf (s.get Fld.VXL_ROSTER_RESERVED) d then s.put (Fld.VXL_PEER_STATE d) 3
      else s.put (Fld.VXL_PEER_STATE d) 0) s

/-- The roster takes new masks. -/
def setRoster (s : State) (present reserved : Nat) : State :=
  let before := s.present
  showPeers ((s.put Fld.VXL_ROSTER_PRESENT present).put Fld.VXL_ROSTER_RESERVED reserved) before

/-- The values of the partners that satisfy `p` are not of this tick (R52, Table 18.4). -/
def staleAll (s : State) (p : Nat → Bool) : State :=
  (s.partners.filter p).foldl (fun s d => s.putB (Fld.VXL_PEER_STALE d) true) s

/-- The ended tick counts against each partner without a good slot before the edge guard (R430). -/
def countMisses (s : State) : State :=
  s.partners.foldl (fun s d =>
    if bitOf s.vxl.inTime d then s.put (Fld.VXL_PEER_MISS d) 0 else s.incSat (Fld.VXL_PEER_MISS d)) s

/-- The master's roster at a tick edge: declared losses leave PRESENT; at a roster frame the JOINs of earlier ticks are admitted or
refused; the master itself is in both masks (R430, R432, R433). -/
def masterRoster (s : State) : State :=
  let lost := (List.range 8).filter fun d => s.get (Fld.VXL_PEER_STATE d) = 2
  let pres := orBit (lost.foldl clrBit s.present) 0
  let s := setRoster s pres (orBit (s.get Fld.VXL_ROSTER_RESERVED) 0)
  if s.tickno % 1024 ≠ 0 then s
  else
    let due := s.vxl.joins.filter fun j => j.2 ≠ s.tickno
    let s := s.setVxl { s.vxl with joins := s.vxl.joins.filter fun j => j.2 = s.tickno }
    due.foldl (fun s j =>
      let res := s.get Fld.VXL_ROSTER_RESERVED
      if bitOf res j.1 || s.flag Fld.VXL_CFG_OPEN then
        (setRoster s (orBit s.present j.1) (orBit res j.1)).irqF Fld.VXL_IRQ_STATUS_JOINED
      else s.irqF Fld.VXL_IRQ_STATUS_JOIN_REFUSED) s

/-! ### Agreed sleep (R435 to R437) -/

/-- Every device at COMMIT, and a standalone device at its tick C: no action starts, tick time is kept, and SLEEP follows once the
queued records are written (R437, R466). -/
def commitSleep (s : State) : State :=
  let s := s.setVxl { s.vxl with sleeping := true, hold := false, commitAt := none, kept := 0, keptFrom := s.cyc - s.edgeOfs }
  let s := s.irqF Fld.VXL_IRQ_STATUS_SLEEP_COMMIT
  let s := if s.linkOn then s.setLinkState 4 else s
  let s := (s.put Fld.PWR_STATUS_PREV s.pstate).putB Fld.PWR_STATUS_BUSY true
  { s with pwr := { s.pwr with target := some 2 } }

/-- Every device at CANCEL (R436, R437). -/
def cancelSleep (s : State) : State :=
  let s := s.setVxl { s.vxl with hold := false, commitAt := none }
  let s := { s with pwr := { s.pwr with wake := false } }
  (s.putB Fld.VXL_STATUS_WAKE_LATCH false).irqF Fld.VXL_IRQ_STATUS_SLEEP_CANCEL

/-- PROPOSE is sent, or received (R435, R436). -/
def proposed (s : State) (c : Nat) : State :=
  let s := s.setVxl { s.vxl with commitAt := some c }
  let s := { s with pwr := { s.pwr with wake := false } }
  (s.setWide 48 Reg.VXL_SLPTICK_LO c).putB Fld.VXL_STATUS_WAKE_LATCH false

/-- The commit tick's decision at the master, with the descriptor's completion: LINK_LOST before REFUSED before CANCELLED where
several hold (R434, R436; log entry 22). -/
def decideSleep (s : State) (p : Proposal) : State × Bool :=
  let silent := (bitList 8 p.members).filter fun d => !bitOf p.heard d
  let refused := silent.foldl orBit (p.refused &&& p.members)
  let refused := if s.allStopped then refused else orBit refused 0
  let s := s.setVxl { s.vxl with prop := none }
  let done (s : State) (status detail result : Nat) : State := finishDesc s (some (p.sq, p.seq)) status detail result
  if p.lost then (cancelSleep (done s stLinkLost 0 0), false)
  else if refused ≠ 0 then (cancelSleep (done s stBadSequence (0x02 + 256 * refused) 0), false)
  else if p.wake then (cancelSleep (done s stBadSequence 0x03 0), false)
  else (commitSleep (done s stOK 0 s.tickno), true)

/-- The master's beacon of this tick (Table 18.1). -/
def State.beaconFrame (s : State) (flags slp : Nat) : List Byte :=
  withCrc ([1] ++ leBytes 1 (flags + if s.tickno % 1024 = 0 then 1 else 0) ++ leBytes 2 (s.get Fld.GAF_TICKDIV_TICKDIV) ++
    leBytes 6 s.tickno ++ leBytes 1 s.present ++ leBytes 1 (s.get Fld.VXL_ROSTER_RESERVED) ++ leBytes 6 slp ++
    leBytes 2 (s.get Fld.VXL_LOOP_LOOP) ++ leBytes 8 0)

/-- The master's tick edge: roster, proposal or commit, beacon, which leaves in this cycle, event 0x30 with a roster frame (R421, R431,
R435, R436). -/
def masterEdge (s : State) : State :=
  let s := (masterRoster s).setLinkState 3
  let (s, flags, slp) := match s.vxl.prop with
    | none => (s, 0, 0)
    | some p => match p.tick with
      | none =>
        let mem := clrBit s.present 0
        let p := { p with tick := some s.tickno, members := mem, wake := decide (s.cyc < s.vxl.wakeUntil) }
        let s := s.setVxl { s.vxl with prop := some p }
        let c := (s.tickno + 8) % 2 ^ 48
        (proposed s c, 2, c)
      | some _ =>
        if s.vxl.commitAt = some s.tickno then
          let (s, yes) := decideSleep s p
          (s, if yes then 4 else 8, s.tickno)
        else (s, 0, 0)
  let s :=
    if s.up 15 && s.flag Fld.PWR_PLL_VXLTX then
      s.setVxl { s.vxl with sent := s.beaconFrame flags slp, free := max s.vxl.free (s.cyc + linkCycles 32) }
    else s
  if s.tickno % 1024 = 0 then s.event 0x30 else s

/-- A tick edge, with TICKNO of the new tick: a standalone device keeps nothing; the link counts the ended tick's misses and
starts the new tick; a slave holds its actions at the commit tick until the beacon is decoded (R430, R437). -/
def cascEdge (s : State) (first : Bool) : State :=
  let s := if s.linkOn then staleAll (if first then s else countMisses s) fun _ => true else s
  let s := proposalTickEnds s
  let s := s.setVxl { s.vxl with own := none, ownSent := false, retx := 0, got := 0, inTime := 0, overran := false
                                 hold := s.isSlave && s.vxl.commitAt = some s.tickno }
  if s.isMaster then masterEdge s else s

end Sys2Proof.Machine
end

