-- ==== Sys2Proof/Machine/GafCtl.lean ====
section
/-!
DEFINITION. The gaffer's control registers: start, stop, bank switch, per-action counters (chapter 2, R41 to R43, R60, R61, R65).
-/
namespace Sys2Proof.Machine

/-- A write of GAF_CTRL. RUN = 1 while RUNNING = 0 is refused with RUN_ERR and no other effect if the bank or a parison that it names
does not pass; else it starts the gaffer on BANK_INIT, whose first edge is to come (R41, R42); a second such write before that edge
starts it on the bank it names (DEDUCED, log entry 39). It is ignored while GAF READY is clear (R476), and starts nothing while the
crystal's tick PLL is not locked, or after a loss of lock until LOCKED returns (R44). RUN = 0 stops a running gaffer at its next edge
(R43), and withdraws a start; RUN = 1 written before the stopping edge withdraws the stop (DESIGN CHOICE, log entry 39). -/
def gafCtrlWrite (s : State) (v : Word) : State :=
  let run := Fld.GAF_CTRL_RUN.get v = 1
  let b := Fld.GAF_CTRL_BANK_INIT.get v = 1
  let keep (s : State) : State := (s.putB Fld.GAF_CTRL_RUN run).putB Fld.GAF_CTRL_BANK_INIT b
  if !run then { keep s with gaf := { s.gaf with starting := none } }
  else if s.running then keep s
  else if !s.ready 0 then s
  else if !(s.bankValid b && s.planParisonsOk (s.bank b)) then s.putB Fld.GAF_STATUS_RUN_ERR true
  else if !s.flag Fld.GAF_STATUS_LOCKED && (!s.isSlave || s.gaf.lost) then keep s
  else { keep s with gaf := { s.gaf with starting := some b } }

/-- GAF_RUN: a write of GAF_CTRL with RUN = 1 and BANK_INIT = `bank` (R41, R42). -/
def execGafRun (bank : Bool) (s : State) : Host.Outcome State Fault Refusal :=
  act s fun s => if s.served Reg.GAF_CTRL then gafCtrlWrite s (if bank then 3 else 1) else s

/-- GAF_STOP_REQUEST: a write of GAF_CTRL with RUN = 0 (R43). -/
def execGafStopRequest (bank : Bool) (s : State) : Host.Outcome State Fault Refusal :=
  act s fun s => if s.served Reg.GAF_CTRL then gafCtrlWrite s (if bank then 2 else 0) else s

/-- A switch is refused with a code of Table 2.7. -/
def switchRefuse (s : State) (code : Nat) : State :=
  (s.put Fld.GAF_STATUS_SWITCH_ERR code).irqF Fld.GAF_IRQ_STATUS_SWITCH_ERR

/-- The bank of the armed switch, and what shows it. -/
def setSwitch (s : State) (b : Option Bool) : State :=
  ({ s with gaf := { s.gaf with swBank := b } }).putB Fld.GAF_STATUS_SW_PENDING b.isSome

/-- In a running slave, a switch at the next edge to a plan of another tick period than the master's is refused; a switch at a
named tick can be the ring's agreed change of tick rate (Table 2.7 code 0x3, R424; log entry 17). -/
def State.switchDivBad (s : State) (b : Bool) : Bool :=
  s.isSlave && s.running && s.wide Reg.GAF_SWTICK_LO = 0 && planTickdiv (s.bank b) ≠ s.get Fld.GAF_TICKDIV_TICKDIV

/-- A write of GAF_SWITCH: CANCEL withdraws an armed switch; ARM asks for one, and is refused with the first code of Table 2.7 that
holds (R60, R61). A refused ARM leaves an earlier armed switch standing (DESIGN CHOICE, log entry 39). -/
def gafSwitchWrite (s : State) (v : Word) : State :=
  if Fld.GAF_SWITCH_CANCEL.get v = 1 then setSwitch s none
  else if Fld.GAF_SWITCH_ARM.get v ≠ 1 then s
  else
    let s := s.put Fld.GAF_STATUS_SWITCH_ERR 0
    let b := decide (Fld.GAF_SWITCH_BANK.get v = 1)
    let t := s.wide Reg.GAF_SWTICK_LO
    if !s.bankValid b then switchRefuse s 1
    else if t ≠ 0 ∧ t ≤ s.tickno then switchRefuse s 2
    else if s.switchDivBad b then switchRefuse s 3
    else if s.bankInUse b then switchRefuse s 5
    else setSwitch s (some b)

/-- GAF_SWITCH_ARM: a write of GAF_SWITCH with ARM = 1 (R60). -/
def execGafSwitchArm (bank : Bool) (s : State) : Host.Outcome State Fault Refusal :=
  act s fun s => if s.served Reg.GAF_SWITCH then gafSwitchWrite s (if bank then 3 else 2) else s

/-- GAF_SWITCH_CANCEL: a write of GAF_SWITCH with CANCEL = 1 (R61). -/
def execGafSwitchCancel (s : State) : Host.Outcome State Fault Refusal :=
  act s fun s => if s.served Reg.GAF_SWITCH then gafSwitchWrite s 4 else s

/-- CLR of an action: OVRCNT and MINSLACK return to their reset values (Table 2.19). -/
def actionClr (s : State) (k : Nat) : State :=
  (s.clrField (Fld.GAF_ACT_CNT_OVRCNT k)).put (Fld.GAF_ACT_TIME_MINSLACK k) 0xFFFF

/-- ACTION_CLR (Table 2.19). -/
def execActionClr (k : Fin 64) (s : State) : Host.Outcome State Fault Refusal :=
  act s fun s => if s.served (Reg.GAF_ACT_CNT k) then actionClr s k else s

/-- A write of a word of GAF_TICKNO: ignored while the gaffer runs and in a slave (R62, R423). -/
def gafTicknoWrite (s : State) (off : Nat) (v : Word) : Option State :=
  if s.running || s.isSlave then none else storeWord s off v

end Sys2Proof.Machine
end

