-- ==== Sys2Proof/Machine/Rings.lean ====
section
/-!
DEFINITION. Rings, doorbells, descriptor fetch and dispatch, completion records, MSI-X and the PCI Express link (chapter 3,
R66 to R107). Aborts and timeouts, which act on every unit, are in Aborts.lean.
-/
namespace Sys2Proof.Machine

/-- The entries of a ring (R70). -/
def State.sqSize (s : State) (n : Nat) : Nat := 2 ^ s.get (Fld.SQ_CFG_LOG2SIZE n)
def State.cqSize (s : State) (n : Nat) : Nat := 2 ^ s.get (Fld.CQ_CFG_LOG2SIZE n)

/-- The entries an SQ holds, from SQ_HEAD to SQ_TAIL - 1 (R72). -/
def State.sqCount (s : State) (n : Nat) : Nat :=
  (s.get (Fld.SQ_TAIL_TAIL n) + s.sqSize n - s.get (Fld.SQ_HEAD_HEAD n)) % s.sqSize n

/-- SQ_STATUS.ACTIVE: EN = 1, or INFLIGHT > 0 (Table 3.14). -/
def State.sqActive (s : State) (n : Nat) : Bool := s.flag (Fld.SQ_CFG_EN n) || decide (0 < s.get (Fld.SQ_STATUS_INFLIGHT n))

/-- A record of the CQ is unwritten: one is queued, or a descriptor fetched for it has none yet. -/
def State.cqUnwritten (s : State) (n : Nat) : Bool := s.ring.recs.any (·.cq = n) || s.ring.flight.any (·.cq = n)

/-- The status fields of the rings that follow from others are brought up to date. -/
def State.ringStatus (s : State) (sq cq : Nat) : State :=
  (s.putB (Fld.SQ_STATUS_ACTIVE sq) (s.sqActive sq)).putB (Fld.CQ_STATUS_ACTIVE cq)
    (s.flag (Fld.CQ_CFG_EN cq) || s.cqUnwritten cq)

/-- An SQ error: ERR takes the code, and SQ_ERR is set where ERR was 0 (Table 3.12). -/
def State.sqError (s : State) (n code : Nat) : State :=
  let t := s.put (Fld.SQ_STATUS_ERR n) code
  if s.get (Fld.SQ_STATUS_ERR n) = 0 then t.irqF Fld.RING_IRQ_STATUS_SQ_ERR else t

/-- An SQ halts with an error: no further fetch until it is disabled and enabled again (R78). -/
def State.sqHalt (s : State) (n code : Nat) : State := (s.putB (Fld.SQ_STATUS_HALTED n) true).sqError n code

/-- A CQ error: CQ_ERR is set where ERR was 0 (Table 3.12). -/
def State.cqError (s : State) (n code : Nat) : State :=
  let t := s.put (Fld.CQ_STATUS_ERR n) code
  if s.get (Fld.CQ_STATUS_ERR n) = 0 then t.irqF Fld.RING_IRQ_STATUS_CQ_ERR else t

/-- A write of the doorbell of SQn with bits [15:0] of `v` (R77, R78, R80). -/
def sqDoorbell (s : State) (n : Nat) (v : Word) : State :=
  if !s.flag (Fld.SQ_CFG_EN n) then s
  else
    let t := v.toNat % 2 ^ 16
    let size := s.sqSize n
    if t < size ∧ (t + size - s.get (Fld.SQ_TAIL_TAIL n)) % size + s.sqCount n < size then s.put (Fld.SQ_TAIL_TAIL n) t
    else s.sqHalt n 1

/-- SQ_DOORBELL (R78). -/
def execSqDoorbell (n : Fin 64) (v : Word) (s : State) : Host.Outcome State Fault Refusal := act s fun s => sqDoorbell s n v

/-- A write of the doorbell of CQn; the records consumed free their entries (R73, R77, R79, R80). -/
def cqDoorbell (s : State) (n : Nat) (v : Word) : State :=
  if !s.flag (Fld.CQ_CFG_EN n) then s
  else
    let h := v.toNat % 2 ^ 16
    let size := s.cqSize n
    let old := s.get (Fld.CQ_HEAD_HEAD n)
    let k := (h + size - old) % size
    if h < size ∧ k ≤ (s.get (Fld.CQ_TAIL_TAIL n) + size - old) % size then
      (s.put (Fld.CQ_HEAD_HEAD n) h).put (Fld.CQ_STATUS_FREE n) (s.get (Fld.CQ_STATUS_FREE n) + k)
    else s.cqError n 1

/-- CQ_DOORBELL (R79). -/
def execCqDoorbell (n : Fin 64) (v : Word) (s : State) : Host.Outcome State Fault Refusal := act s fun s => cqDoorbell s n v

/-- A write of SQ_CFG (R71, Table 3.14): a LOG2SIZE outside 4 to 16 is unlisted; EN = 1 with the bound CQ disabled is ignored
with ERR = UNBOUND; LOG2SIZE and CQ keep their values while ACTIVE = 1; EN going from 0 to 1 clears HALTED and ERR and sets
head and tail to 0. -/
def sqCfgWrite (s : State) (n : Nat) (v : Word) : State :=
  let k := (Fld.SQ_CFG_LOG2SIZE n).get v
  if k < 4 ∨ 16 < k then s
  else
    let live := s.sqActive n
    let en := (Fld.SQ_CFG_EN n).get v = 1
    let cq := if live then s.get (Fld.SQ_CFG_CQ n) else (Fld.SQ_CFG_CQ n).get v
    if en && !s.flag (Fld.CQ_CFG_EN cq) then s.sqError n 5
    else
      let rise := en && !s.flag (Fld.SQ_CFG_EN n)
      let s := (s.put (Fld.SQ_CFG_PRIO n) ((Fld.SQ_CFG_PRIO n).get v)).putB (Fld.SQ_CFG_EN n) en
      let s := if live then s else (s.put (Fld.SQ_CFG_LOG2SIZE n) k).put (Fld.SQ_CFG_CQ n) cq
      let s := if rise then
          (((s.putB (Fld.SQ_STATUS_HALTED n) false).put (Fld.SQ_STATUS_ERR n) 0).put (Fld.SQ_HEAD_HEAD n) 0).put
            (Fld.SQ_TAIL_TAIL n) 0
        else s
      s.ringStatus n cq

/-- SQ_CFG_WRITE (R71). -/
def execSqCfgWrite (n : Fin 64) (v : Word) (s : State) : Host.Outcome State Fault Refusal :=
  act s fun s => if s.served (Reg.SQ_CFG n) then sqCfgWrite s n v else s

/-- A write of CQ_CFG (Tables 3.8 and 3.15): clearing EN while an enabled SQ is bound or a record is unwritten is ignored with
ERR = BUSY; LOG2SIZE keeps its value while EN = 1 or ACTIVE = 1; EN going from 0 to 1 sets head and tail to 0 and PHASE to 1,
clears ERR and frees every entry but one (R73, R75). Records counted and not yet signalled are forgotten then (DESIGN CHOICE: R102
does not say, log entry 39). -/
def cqCfgWrite (s : State) (n : Nat) (v : Word) : State :=
  let k := (Fld.CQ_CFG_LOG2SIZE n).get v
  if k < 4 ∨ 16 < k then s
  else
    let was := s.flag (Fld.CQ_CFG_EN n)
    let en := (Fld.CQ_CFG_EN n).get v = 1
    let bound := (List.range 64).any fun q => s.flag (Fld.SQ_CFG_EN q) && s.get (Fld.SQ_CFG_CQ q) = n
    if was && !en && (bound || s.cqUnwritten n) then s.cqError n 2
    else
      let s' := ((s.put (Fld.CQ_CFG_VECTOR n) ((Fld.CQ_CFG_VECTOR n).get v)).put (Fld.CQ_CFG_ERR_IMM n)
        ((Fld.CQ_CFG_ERR_IMM n).get v)).putB (Fld.CQ_CFG_EN n) en
      let s' := if was || s.cqUnwritten n then s' else s'.put (Fld.CQ_CFG_LOG2SIZE n) k
      let s' := if en && !was then
          let s' := (s'.setReg (Reg.CQ_TAIL n) 0x10000).put (Fld.CQ_HEAD_HEAD n) 0
          let s' := (s'.put (Fld.CQ_STATUS_ERR n) 0).put (Fld.CQ_STATUS_FREE n) (s'.cqSize n - 1)
          { s' with ring := { s'.ring with counted := sset 0 s'.ring.counted n 0 } }
        else s'
      s'.putB (Fld.CQ_STATUS_ACTIVE n) (en || s'.cqUnwritten n)

/-- CQ_CFG_WRITE (R75, Table 3.15). -/
def execCqCfgWrite (n : Fin 64) (v : Word) (s : State) : Host.Outcome State Fault Refusal :=
  act s fun s => if s.served (Reg.CQ_CFG n) then cqCfgWrite s n v else s

/-! ### Fetch (R74, R81, R85) -/

/-- Whether a gather engine could fetch for SQn now. -/
def State.fetchable (s : State) (n : Nat) : Bool :=
  s.flag (Fld.SQ_CFG_EN n) && !s.flag (Fld.SQ_STATUS_HALTED n) && decide (0 < s.sqCount n) &&
    decide (0 < s.get (Fld.CQ_STATUS_FREE (s.get (Fld.SQ_CFG_CQ n)))) && decide (s.get (Fld.SQ_STATUS_INFLIGHT n) < 32)

/-- R81: the SQ served next: the highest priority, and among equal priorities round-robin in ascending index from the SQ after
the one served last at that priority. -/
def State.nextSq (s : State) : Option Nat :=
  [3, 2, 1, 0].findSome? fun p =>
    let from_ := sget 0 s.ring.rr p
    ((List.range 64).map fun i => (from_ + i) % 64).find? fun n => s.fetchable n && s.get (Fld.SQ_CFG_PRIO n) = p

/-- R85 step 2: the byte offset of the first header field that is not well formed. -/
def headerBad (raw : List Byte) : Option Nat :=
  let op := fieldAt raw 0 1
  let fl := fieldAt raw 1 1
  firstBad [(decide (op = 0 ∨ 0x0F < op), 0), (decide (16 ≤ fl), 1),
    (bitOf fl 1 && decide (1024 ≤ fieldAt raw 12 2), 12), (bitOf fl 2 && decide (1024 ≤ fieldAt raw 14 2), 14)]

/-- R85 step 4: whether the READY bit of an opcode's unit is set, and the memory controller's where the payload names LPDDR5X
(R449). -/
def State.unitReady (s : State) (raw : List Byte) : Bool :=
  (!namesLpddr raw || s.ready 16) &&
  match fieldAt raw 0 1 with
  | 0x01 => s.ready 6 | 0x0E => s.ready 6 | 0x0F => s.ready 6
  | 0x02 => s.ready 3 | 0x0D => s.ready 3
  | 0x03 => s.ready 17 && (if fieldAt raw 32 1 ≤ 1 then s.ready 0 else s.ready 3)
  | 0x04 => s.ready 11 | 0x05 => s.ready 12 | 0x06 => s.ready 14
  | 0x07 => s.ready 2 | 0x08 => s.ready 2
  | 0x09 => s.ready 0 | 0x0A => s.ready 18 | 0x0B => s.ready 13 | 0x0C => s.ready 15
  | _ => true

/-- The abort held for SQ `n`, if its SEQ is `seq` (R99). -/
def State.heldIs (s : State) (n seq : Nat) : Bool := s.ring.held.any fun h => h.1 = n && h.2 = seq

/-- RING_ABORT_STS.HELD shows whether the last abort is held for an unfetched SEQ (R99, Table 3.11). -/
def State.showHeld (s : State) : State :=
  s.putB Fld.RING_ABORT_STS_HELD (match s.ring.lastHeld with
    | some h => s.ring.held.contains h
    | none => false)

/-- One descriptor is fetched and checked in the order of R85; an abort held for it takes effect (R99). A wait is evaluated from the
end of this cycle on (R113, R115). -/
def fetchOne (s : State) (n : Nat) (raw : List Byte) : State :=
  let cq := s.get (Fld.SQ_CFG_CQ n)
  let exp := s.get (Fld.SQ_SEQ_NEXT n)
  let raw := slice raw 0 64
  let d : Desc := ⟨n, cq, raw, .ready, s.cyc, 0, false, false, 0, 0, [], 0⟩
  let s := s.put (Fld.SQ_HEAD_HEAD n) ((s.get (Fld.SQ_HEAD_HEAD n) + 1) % s.sqSize n)
  let s := (s.incWrap (Fld.SQ_STATUS_INFLIGHT n)).put (Fld.CQ_STATUS_FREE cq) (s.get (Fld.CQ_STATUS_FREE cq) - 1)
  let held := s.heldIs n exp
  let s := if held then ({ s with ring := { s.ring with held := s.ring.held.filter fun h => h.1 ≠ n } }).showHeld else s
  let s := { s with ring := { s.ring with flight := s.ring.flight ++ [d] } }
  let s := s.ringStatus n cq
  if d.seq ≠ exp then (s.complete d stBadSequence (0x1000000 + exp) 0).sqHalt n 2
  else
    let s := s.incWrap (Fld.SQ_SEQ_NEXT n)
    if held then s.complete d stAborted 0 0
    else match headerBad raw with
      | some o => s.complete d stBadDescriptor (0x1000000 + o) 0
      | none => match payloadBad raw with
        | some o => s.badDesc d o
        | none =>
          if !s.unitReady raw then s.complete d stNotReady 0 0
          else if d.wait then s.setDesc d { d with stage := .waiting }
          else s

/-- Fetches from SQ `n` while it can be fetched from: a halt ends the read (R85 step 1). -/
def fetchMany : State → Nat → List (List Byte) → State
  | s, _, [] => s
  | s, n, raw :: r => if s.fetchable n then fetchMany (fetchOne s n raw) n r else s

/-- DESCRIPTOR_FETCH: a gather engine reads up to 8 consecutive descriptors of the SQ that R81 serves next. `read` is what the
read gives: the entries' bytes; a read that ends in Unsupported Request, Completer Abort or Completion Timeout with the link
up, which halts the SQ; or one cut off, which fetches nothing (R91). A read that fails or is cut off counts as service in the
round-robin (DESIGN CHOICE: R81 does not say, log entry 39). -/
def execDescriptorFetch (read : FetchRead) (s : State) : Host.Outcome State Fault Refusal :=
  act s fun s =>
    if !(s.canDma && s.ready 1) then s
    else match s.nextSq with
      | none => s
      | some n =>
        let p := s.get (Fld.SQ_CFG_PRIO n)
        let s := { s with ring := { s.ring with rr := sset 0 s.ring.rr p ((n + 1) % 64) } }
        match read with
        | .entries l => fetchMany s n (l.take 8)
        | .failed => s.sqHalt n 4
        | .cut => s

/-- DESCRIPTOR_DISPATCH: a checked descriptor whose wait is satisfied goes to its unit, in the order that R82, R83 and R116 leave
(`mayGo`), and not in a halt (R115, R522). -/
def execDescriptorDispatch (sq : Fin 64) (seq : BitVec 16) (s : State) : Host.Outcome State Fault Refusal :=
  act s fun s =>
    match s.findDesc sq seq.toNat with
    | none => s
    | some d =>
      if d.stage = .ready && s.mayGo d && !s.halted then
        let k := s.ring.sent + 1
        { s.setDesc d { d with stage := .dispatched, order := k } with ring.sent := k }
      else s

/-! ### Records and messages (R88, R101, R102, R104) -/

/-- The 32 bytes of a record with its PHASE (Table 3.4). -/
def Rec.bytes (r : Rec) (phase : Nat) : List Byte :=
  leBytes 4 r.tag.toNat ++ leBytes 2 r.seq ++ leBytes 1 r.sq ++ leBytes 1 r.opcode ++ leBytes 1 r.status ++
    leBytes 1 (phase + (if r.retried then 2 else 0) + (if r.signalled then 4 else 0) + (if r.late then 128 else 0)) ++
    leBytes 2 r.sqHead ++ leBytes 4 r.detail ++ leBytes 6 r.tick ++ leBytes 2 r.ofs ++ leBytes 8 r.result

/-- A CQ sends its message; its counts clear (R102). -/
def State.cqMessage (s : State) (n : Nat) : State :=
  ({ s with ring := { s.ring with counted := sset 0 s.ring.counted n 0 } }).sendMsg (s.get (Fld.CQ_CFG_VECTOR n))

/-- A written record counts towards its CQ's interrupt, and the message goes when moderation allows (R101, R102). -/
def recordCounts (s : State) (r : Rec) : State :=
  let imm := s.flag (Fld.CQ_CFG_ERR_IMM r.cq) && decide (r.status ≠ stOK)
  if r.irq || imm then
    let c := sget 0 s.ring.counted r.cq + 1
    let s := { s with ring := { s.ring with counted := sset 0 s.ring.counted r.cq c } }
    if imm || decide (max 1 (s.get (Fld.CQ_MOD_COUNT r.cq)) ≤ c) || s.get (Fld.CQ_MOD_TIME r.cq) = 0 then
      s.cqMessage r.cq
    else s
  else s

/-- RECORD_WRITE: the oldest queued record is written to its CQ at CQ_TAIL, after the cycle of its point of no return (R97), behind a
posted write-back of its descriptor; the tail advances, and PHASE inverts when it wraps (R75, R84, R88, R122). -/
def execRecordWrite (s : State) : Host.Outcome State Fault Refusal :=
  act s fun s =>
    match s.ring.recs with
    | [] => s
    | r :: rest =>
      if !s.canDma || r.at_ = s.cyc then s
      else
        let s := { s with ring := { s.ring with recs := rest } }
        let tail := s.get (Fld.CQ_TAIL_TAIL r.cq)
        let phase := s.get (Fld.CQ_TAIL_PHASE r.cq)
        let mem := match r.wb with
          | some (a, b) => writeBytes s.hostMem a b
          | none => s.hostMem
        let s := { s with hostMem := writeBytes mem (s.wide (Reg.CQ_BASE_LO r.cq) + 32 * tail) (r.bytes phase) }
        let nxt := (tail + 1) % s.cqSize r.cq
        let s := (s.put (Fld.CQ_TAIL_TAIL r.cq) nxt).put (Fld.CQ_TAIL_PHASE r.cq) (if nxt = 0 then 1 - phase else phase)
        let s := s.put (Fld.SQ_STATUS_INFLIGHT r.sq) (s.get (Fld.SQ_STATUS_INFLIGHT r.sq) - 1)
        let s := if r.retried then s.incSat Fld.LOG_RETRY_RETRIED else s
        (recordCounts s r).ringStatus r.sq r.cq

/-- CQ_MODERATION_TIMEOUT: CQ_MOD.TIME has passed since the first counted record not yet signalled (R102). -/
def execCqModerationTimeout (n : Fin 64) (s : State) : Host.Outcome State Fault Refusal :=
  act s fun s => if sget 0 s.ring.counted n = 0 then s else s.cqMessage n

/-- The message of a vector whose PBA bit is set is sent, if it is unmasked and messages can be sent (R104). -/
def State.pbaFlush (s : State) (v : Nat) : State :=
  if s.bitF (Fld.MSIX_PBA_PENDING (v / 32)) (v % 32) && s.canDma && !s.flag (Fld.MSIX_CTRL_MASK v) then
    (s.putBit (Fld.MSIX_PBA_PENDING (v / 32)) (v % 32) false).sendMsg v
  else s

/-- The same for every vector (R104). -/
def State.pbaFlushAll (s : State) : State := (List.range 128).foldl State.pbaFlush s

/-- MSIX_UNMASK: the host unmasks a vector of the MSI-X table (R104, R107). -/
def execMsixUnmask (v : Fin 128) (s : State) : Host.Outcome State Fault Refusal :=
  act s fun s => if s.served (Reg.MSIX_CTRL v) then (s.putB (Fld.MSIX_CTRL_MASK v) false).pbaFlush v else s

/-! ### The link (R68, R69, R91) -/

/-- The PCI Express link goes down (Table 1.8). -/
def linkDown (s : State) : State :=
  let was := s.flag Fld.RING_LINK_UP
  let s := s.setReg Reg.RING_LINK 0
  if was then s.irqF Fld.RING_IRQ_STATUS_LINK_EVT else s

/-- Bus Master Enable of the Command register changes (R69, R104). -/
def setBusMaster (s : State) (on : Bool) : State :=
  let s := { s with ring := { s.ring with bme := on } }
  if on then s.pbaFlushAll else s

/-- The function enters D3hot, or returns to D0 (R68, R104). -/
def setD3hot (s : State) (on : Bool) : State :=
  let s := { s with ring := { s.ring with d3hot := on } }
  if on then s else s.pbaFlushAll

/-- LINK_DOWN: the PCI Express link goes down, or Bus Master Enable is cleared: fetch, record writes and messages stop (R69,
Table 1.8). -/
def execLinkDown (cause : LinkLoss) (s : State) : Host.Outcome State Fault Refusal :=
  act s fun s =>
    match cause with
    | .busMaster => setBusMaster s false
    | .link => linkDown s

/-- LINK_UP: the link returns with a width and a speed, or Bus Master Enable is set again: fetch resumes at the ring heads, and
pending messages go (R69, R91, R104). -/
def execLinkUp (how : LinkGain) (s : State) : Host.Outcome State Fault Refusal :=
  act s fun s =>
    match how with
    | .busMaster => setBusMaster s true
    | .link width speed =>
      let was := s.flag Fld.RING_LINK_UP
      let s := ((s.put Fld.RING_LINK_WIDTH width).put Fld.RING_LINK_SPEED speed).putB Fld.RING_LINK_UP true
      (if was then s else s.irqF Fld.RING_IRQ_STATUS_LINK_EVT).pbaFlushAll

/-- D3HOT_ENTRY (R68). -/
def execD3hotEntry (s : State) : Host.Outcome State Fault Refusal := act s fun s => setD3hot s true

/-- D0_RETURN: fetch resumes at the ring heads (R68, R104). -/
def execD0Return (s : State) : Host.Outcome State Fault Refusal := act s fun s => setD3hot s false

/-! ### Doorbell reads and the configuration space (R66, R77) -/

/-- What a read of a BAR2 word returns: the value a doorbell accepted last in bits [15:0], else 0 (R77, R527). -/
def State.bar2Word (s : State) (off : Nat) : Word :=
  if off % 8 ≠ 0 then 0
  else if 0x1000 ≤ off ∧ off < 0x1200 then BitVec.ofNat 32 (s.get (Fld.SQ_TAIL_TAIL ((off - 0x1000) / 8)))
  else if 0x2000 ≤ off ∧ off < 0x2200 then BitVec.ofNat 32 (s.get (Fld.CQ_HEAD_HEAD ((off - 0x2000) / 8)))
  else 0

/-- A write of 32 or 64 bits in BAR2: a doorbell takes its low word, every other offset ignores it (R77, R527). -/
def bar2Write (s : State) (off : Nat) (v : Word) : State :=
  if off % 8 ≠ 0 then s
  else if 0x1000 ≤ off ∧ off < 0x1200 then sqDoorbell s ((off - 0x1000) / 8) v
  else if 0x2000 ≤ off ∧ off < 0x2200 then cqDoorbell s ((off - 0x2000) / 8) v
  else s

/-- A word of the configuration space: the bits that Table 3.1 and R527 give, and their values. The places of the fields are those of
the PCI Express specification (PRESUMED, log entry 40); what the spec gives no value for is free. -/
def State.configWord (s : State) (r : PciReg) : Word × Word :=
  match r with
  | .header w => match w.val with
    | 0 => (0xFFFF0000, 0x46200000)
    | 1 => (0x4, if s.ring.bme then 0x4 else 0)
    | 2 => (0xFFFFFFFF, 0x12000000 ||| BitVec.ofNat 32 (s.get Fld.GLB_IDENT_STEP))
    | 4 => (0x00FFFFFF, 0)
    | 6 => (0x0000FFFF, 0)
    | 8 => (0x03FFFFFF, 0x8)
    | 5 => (0xFFFFFFFF, 0)
    | 7 => (0xFFFFFFFF, 0)
    | 9 => (0xFFFFFFFF, 0)
    | 15 => (0x0000FF00, 0)
    | _ => (0, 0)
  | .devCap => (0x7, 2)
  | .devCtl => (0x70E0, BitVec.ofNat 32 (s.pci.mps * 32 + s.pci.mrrs * 4096))
  | .linkCap => (0xFFF, 0x844)
  | .linkCtl => (0x03FF0003, BitVec.ofNat 32 ((if s.pci.aspm then 2 else 0) + s.get Fld.RING_LINK_SPEED * 2 ^ 16 +
      s.get Fld.RING_LINK_WIDTH * 2 ^ 20))
  | .pmCsr => (0x3, if s.ring.d3hot then 3 else 0)
  | .msixCtl => (0x07FF0000, 127 * 2 ^ 16)
  | .msixTable => (0xFFFFFFFF, 0x28000)
  | .msixPba => (0xFFFFFFFF, 0x29000)

/-- A write of a word of the configuration space: Bus Master Enable, the power-management state (D0 or D3hot), Max Payload Size (128,
256 or 512 bytes), Max Read Request Size (any setting), ASPM L1; L0s is absent (Table 3.1). -/
def configWrite (s : State) (r : PciReg) (v : Word) : State :=
  match r with
  | .header w => if w.val = 1 ∧ v.getLsbD 2 ≠ s.ring.bme then setBusMaster s (v.getLsbD 2) else s
  | .pmCsr =>
    let p := v.toNat % 4
    if p = 3 ∧ !s.ring.d3hot then setD3hot s true else if p = 0 ∧ s.ring.d3hot then setD3hot s false else s
  | .devCtl =>
    let m := bitsOf v.toNat 7 5
    { s with pci := { s.pci with mps := if m ≤ 2 then m else s.pci.mps, mrrs := bitsOf v.toNat 14 12 } }
  | .linkCtl => { s with pci := { s.pci with aspm := v.getLsbD 1 } }
  | _ => s

/-- What a read of a configuration word returns, and the state after it: the bits that the spec gives no value for are free. -/
def configRead (s : State) (r : PciReg) : Word × State :=
  let (m, v) := s.configWord r
  let (x, s) := s.free (2 ^ 32)
  (v ||| (BitVec.ofNat 32 x &&& (m ^^^ 0xFFFFFFFF)), s)

end Sys2Proof.Machine
end

