-- ==== Sys2Proof/Machine/Telemetry.lean ====
section
/-!
DEFINITION. The event log, LOG descriptors and the mirror ring (chapter 22, R506 to R517, R525).
-/
namespace Sys2Proof.Machine

/-- The 32 bytes of a record with its entry number (Table 22.1). -/
def TelRec.bytes (r : TelRec) (num : Nat) : List Byte :=
  leBytes 1 r.typ ++ leBytes 1 r.flags ++ leBytes 2 num ++ leBytes 4 r.tick32 ++ leBytes 2 r.ofs ++ leBytes 1 r.src ++
    leBytes 1 r.sub ++ slice r.payload 0 20

/-- Entry `e` of the log RAM. -/
def State.logEntry (s : State) (e : Nat) : List Byte := slice (sget [] s.tel.ram (e % 4096)) 0 32

/-- A record reaches the event log (R508, R510): WRAP overwrites the oldest entry, STOP discards the record; with EN = 0 it is
discarded uncounted. An appended record whose type passes LOG_MFILT waits for the mirror (R516). -/
def logAppend (s : State) (r : TelRec) : State :=
  if !s.flag Fld.LOG_CFG_EN then s
  else
    let full := s.get Fld.LOG_STATUS_COUNT = 4096
    let s := if full then
        let s := s.incSat Fld.LOG_LOST_LOST
        { s with tel := { s.tel with lostCold := satU 32 (s.tel.lostCold + 1) } }
      else s
    if full && s.flag Fld.LOG_CFG_MODE then
      (s.putB Fld.LOG_STATUS_FULL true).irqF Fld.LOG_IRQ_STATUS_FULL
    else
      let s := if full then (s.incWrap Fld.LOG_RIDX_RIDX).irqF Fld.LOG_IRQ_STATUS_WRAPPED
        else s.incWrap Fld.LOG_STATUS_COUNT
      let raw := r.bytes (s.get Fld.LOG_TOTAL_TOTAL)
      let w := s.get Fld.LOG_WIDX_WIDX
      let s := { s with tel := { s.tel with ram := sset [] s.tel.ram w raw, stored := min 4096 (s.tel.stored + 1) } }
      let s := (s.incWrap Fld.LOG_WIDX_WIDX).incWrap Fld.LOG_TOTAL_TOTAL
      if s.flag Fld.LOG_MCFG_EN && bitOf (s.get Fld.LOG_MFILT_MFILT) r.typ then
        { s with tel := { s.tel with mirror := s.tel.mirror ++ [raw] } }
      else s

/-- After records were discarded, one LOST record as soon as the queue has room, at most one in 1 µs (197 TCLK cycles)
(R509). -/
def lostRecord (s : State) : State :=
  if !s.telOn || s.tel.qlost = 0 || decide (256 ≤ s.tel.queue.length) || s.tel.lostAt.any fun t => decide (s.cyc < t + 197) then s
  else
    let n := s.tel.qlost
    let s := s.tell 0x10 20 0 (leBytes 4 n)
    { s with tel := { s.tel with qlost := 0, lostAt := some s.cyc } }

/-- LOG_APPEND: the oldest record of the queue reaches the log, after its event cycle (R508 to R510). -/
def execLogAppend (s : State) : Host.Outcome State Fault Refusal :=
  act s fun s =>
    if !s.telOn then s
    else match s.tel.queue with
      | [] => s
      | r :: q => if s.cyc ≤ r.at_ then s else lostRecord (logAppend { s with tel := { s.tel with queue := q } } r)

/-- `n` records lost to the mirror (R516, R517). -/
def State.mlost (s : State) (n : Nat) : State :=
  if n = 0 then s else (s.incSat Fld.LOG_LOSS_MLOST n).irqF Fld.LOG_IRQ_STATUS_MLOST

/-- The size of the mirror ring. -/
def State.mirrorSize (s : State) : Nat := 2 ^ s.get Fld.LOG_MCFG_LOG2SIZE

/-- MIRROR_WRITE: the oldest record waiting for the mirror is written to its ring entry, MTAIL advances and is written back;
a record that finds the ring full or the link down is lost (R516, R517). -/
def execMirrorWrite (s : State) : Host.Outcome State Fault Refusal :=
  act s fun s =>
    match s.tel.mirror with
    | [] => s
    | raw :: rest =>
      if s.halted then s
      else
        let s := { s with tel := { s.tel with mirror := rest } }
        let size := s.mirrorSize
        let tail := s.get Fld.LOG_MTAIL_MTAIL % size
        let nxt := (tail + 1) % size
        if !s.canDma || nxt = s.get Fld.LOG_MHEAD_MHEAD then s.mlost 1
        else
          let s := { s with hostMem := writeBytes s.hostMem (s.wide Reg.LOG_MBASE_LO + 32 * tail) raw }
          let s := s.put Fld.LOG_MTAIL_MTAIL nxt
          let c := s.tel.mirCnt + 1
          let hit := max 1 (s.get Fld.LOG_MCFG_THRESH) ≤ c
          let s := { s with tel := { s.tel with mirCnt := if hit then 0 else c } }
          let s := if hit then s.irqF Fld.LOG_IRQ_STATUS_MIRROR else s
          let wb := s.wide Reg.LOG_MWB_LO
          if wb = 0 then s else { s with hostMem := writeBytes s.hostMem wb (leBytes 8 nxt) }

/-- `n` entries are consumed: the read index passes them, and FULL clears when an entry is (R510). -/
def State.logConsume (s : State) (n : Nat) : State :=
  if n = 0 then s
  else ((s.incWrap Fld.LOG_RIDX_RIDX n).put Fld.LOG_STATUS_COUNT (s.get Fld.LOG_STATUS_COUNT - n)).putB
    Fld.LOG_STATUS_FULL false

/-- A write of LOG_RIDX (R511). -/
def logRidxWrite (s : State) (v : Word) : State :=
  let v := Fld.LOG_RIDX_RIDX.get v
  let count := s.get Fld.LOG_STATUS_COUNT
  let n := (v + 4096 - s.get Fld.LOG_RIDX_RIDX) % 4096
  if v = s.get Fld.LOG_WIDX_WIDX then s.logConsume count
  else if n ≤ count then s.logConsume n
  else s

/-- LOG_RIDX_WRITE (R511). -/
def execLogRidxWrite (v : Word) (s : State) : Host.Outcome State Fault Refusal :=
  act s fun s => if s.served Reg.LOG_RIDX then logRidxWrite s v else s

/-- A write of LOG_MHEAD, in the circular range from the present MHEAD to MTAIL; any other value is ignored (Table 22.6). -/
def logMheadWrite (s : State) (v : Word) : State :=
  let size := s.mirrorSize
  let v := Fld.LOG_MHEAD_MHEAD.get v
  let h := s.get Fld.LOG_MHEAD_MHEAD
  let t := s.get Fld.LOG_MTAIL_MTAIL
  if v < size ∧ (v + size - h % size) % size ≤ (t + size - h % size) % size then s.put Fld.LOG_MHEAD_MHEAD v else s

/-- LOG_MHEAD_WRITE (R516, R525). -/
def execLogMheadWrite (v : Word) (s : State) : Host.Outcome State Fault Refusal :=
  act s fun s => if s.served Reg.LOG_MHEAD then logMheadWrite s v else s

/-- Records not yet written to the mirror ring are dropped and counted (R512, R516). -/
def State.mirrorDrop (s : State) : State :=
  let n := s.tel.mirror.length
  ({ s with tel := { s.tel with mirror := [] } }).mlost n

/-- A write of LOG_MCFG: a LOG2SIZE outside 6 to 16 is unlisted (R23); clearing EN drops the records not yet written; a write
that keeps EN at 1 leaves LOG2SIZE unchanged (R516, Table 22.6). -/
def logMcfgWrite (s : State) (v : Word) : State :=
  let k := Fld.LOG_MCFG_LOG2SIZE.get v
  if k < 6 ∨ 16 < k then s
  else
    let was := s.flag Fld.LOG_MCFG_EN
    let now := Fld.LOG_MCFG_EN.get v = 1
    let s := s.put Fld.LOG_MCFG_THRESH (Fld.LOG_MCFG_THRESH.get v)
    let s := if was && now then s else s.put Fld.LOG_MCFG_LOG2SIZE k
    let s := s.putB Fld.LOG_MCFG_EN now
    if was && !now then s.mirrorDrop else s

/-- LOG_MCFG_WRITE (R516, R525). -/
def execLogMcfgWrite (v : Word) (s : State) : Host.Outcome State Fault Refusal :=
  act s fun s => if s.served Reg.LOG_MCFG then logMcfgWrite s v else s

/-- The CLR of the LOG block clears LOG_LOST, MLOST, QLOST and LOG_RETRY (Table 22.6). -/
def logCntClr (s : State) : State :=
  ((s.clrReg Reg.LOG_LOST).clrReg Reg.LOG_LOSS).clrReg Reg.LOG_RETRY

/-- LOG_CNT_CLR (R518, R525). -/
def execLogCntClr (s : State) : Host.Outcome State Fault Refusal :=
  act s fun s => if s.served Reg.LOG_CNT_CLR then logCntClr s else s

/-- `n` unconsumed entries from the read index, oldest first. -/
def State.logTake (s : State) (n : Nat) : List Byte :=
  ((List.range n).map fun i => s.logEntry (s.get Fld.LOG_RIDX_RIDX + i)).flatten

/-- COPY: a dispatched LOG descriptor with OP COPY writes the unconsumed entries, oldest first and up to COUNT, to host memory
(R514). While host memory cannot be reached it waits in a retry episode (R69). -/
def execCopy (sq : Fin 64) (seq : BitVec 16) (s : State) : Host.Outcome State Fault Refusal :=
  act s fun s =>
    match s.takeDispatched sq seq.toNat 0x0A with
    | none => s
    | some d =>
      if d.pay 32 1 ≠ 0 ∨ s.halted then s
      else if !s.canDma then s.hostEpisode d
      else
        let (d, s) := s.episodeDone d
        let count := s.get Fld.LOG_STATUS_COUNT
        let n := min count (d.pay 36 4)
        let first := (s.get Fld.LOG_TOTAL_TOTAL + 2 ^ 32 - count) % 2 ^ 32
        let res := n + first * 2 ^ 16 + s.get Fld.LOG_STATUS_FULL * 2 ^ 48
        let s := { s with hostMem := writeBytes s.hostMem (d.pay 40 8) (s.logTake n) }
        let s := if bitOf (d.pay 33 1) 0 then s.logConsume n else s
        s.complete d stOK 0 res

/-- The entry number of the record that stands at place `i` of the queue, all ones where it will be discarded (R508, R510). -/
def State.markNum (s : State) (i : Nat) : Nat :=
  if s.flag Fld.LOG_CFG_EN && !(s.flag Fld.LOG_CFG_MODE && decide (4096 ≤ s.get Fld.LOG_STATUS_COUNT + i)) then
    (s.get Fld.LOG_TOTAL_TOTAL + i) % 2 ^ 32
  else 0xFFFFFFFF

/-- RESULT of the MARK descriptors of this cycle: records of the same cycle that come before theirs have moved them (R508, R515). -/
def markResults (s : State) : State :=
  let places := (List.range s.tel.queue.length).filter fun i =>
    match s.tel.queue[i]? with
    | some r => r.typ = 0x0F && r.at_ = s.cyc
    | none => false
  (s.seen.marks.zip places).foldl (fun s e =>
    { s with ring := { s.ring with recs := s.ring.recs.map fun r =>
        if r.sq = e.1.1 && r.seq = e.1.2 && r.at_ = s.cyc then { r with result := s.markNum e.2 } else r } }) s

/-- MARK: a dispatched LOG descriptor with OP MARK appends one MARK record; its point of no return is the cycle in which the
record enters the queue, and RESULT is the entry number the record will have, or all ones where it is discarded: the end of the cycle
brings it up to date (`markResults`, R515; log entry 9). -/
def execMark (sq : Fin 64) (seq : BitVec 16) (s : State) : Host.Outcome State Fault Refusal :=
  act s fun s =>
    match s.takeDispatched sq seq.toNat 0x0A with
    | none => s
    | some d =>
      if d.pay 32 1 ≠ 1 ∨ s.halted then s
      else
        let ahead := s.tel.queue.length
        let queued := s.telOn && decide (ahead < 256)
        let num := if queued then s.markNum ahead else 0xFFFFFFFF
        let s := s.tell 0x0F 20 0 (slice d.raw 40 16 ++ leBytes 1 d.sq) 2
        let s := if queued then { s with seen := { s.seen with marks := s.seen.marks ++ [(d.sq, d.seq)] } } else s
        s.complete d stOK 0 num

end Sys2Proof.Machine
end

