-- ==== Sys2Proof/Machine/Aborts.lean ====
section
/-!
DEFINITION. Aborts, timeouts and failed retries: what they do to each unit (Table 3.7), and the commands that cause them (R92 to
R100, R458).
-/
namespace Sys2Proof.Machine

/-- DETAIL of a TIMEOUT: the allowance added to the deadline (R89). -/
def stopDetail (d : Desc) (status : Nat) : Nat := if status = stTimeout then 0x1000000 + satU 24 d.allow else 0

/-- MOTION: the setpoint is removed (Table 3.7). -/
def stopMotion (s : State) (d : Desc) : State :=
  (List.range 6).foldl (fun s n =>
    let x := s.slotOf n
    let q := x.queue.filter fun p => p.owner ≠ some (d.sq, d.seq)
    if q.length = x.queue.length then s else showDepth (s.setCtl n { x with queue := q }) n) s

/-- INFER: the job stops at its next slice boundary, and what its output region holds is unspecified (Table 3.7; log entry 3). With
`now` it is gone at once (R94). -/
def stopInfer (s : State) (d : Desc) (status detail : Nat) (now : Bool) : State :=
  match s.jobOf d.sq d.seq with
  | none => s.complete d status detail 0
  | some j =>
    if now || !s.jobInSlice j then stopJob s j status detail
    else
      let mark (k : Job) : Job :=
        if k.sq = j.sq && k.seq = j.seq && k.stop.isNone then { k with stop := some (status, detail) } else k
      { s with jobs := s.jobs.map mark }

/-- LOAD: the target bank is left invalid; a slot is, once its second read has begun, and is as it was before (Table 3.7, R167,
Table 6.8). -/
def stopLoad (s : State) (d : Desc) (status detail : Nat) : State :=
  let mine (j : SigJob) : Bool := j.sq = d.sq && j.seq = d.seq
  let s := match s.sig.find? fun j => mine j && j.stage ≠ .waits with
    | some j => freeWrites s d j.image
    | none => s
  let s := { s with sig := s.sig.filter fun j => !mine j }
  if d.pay 32 1 ≤ 1 then planFail s d status detail else s.complete d status detail 0

/-- AUDIO: the transfer stops at a frame boundary, and RESULT holds the bytes transferred (Table 3.7). -/
def stopAudio (s : State) (d : Desc) (status detail : Nat) : State :=
  let mine (sq seq : Nat) : Bool := sq = d.sq && seq = d.seq
  let bytes := match s.mix.caps.find? (fun c => mine c.sq c.seq), s.mix.plays.find? (fun p => mine p.sq p.seq) with
    | some c, _ => c.moved * c.chs.length * fmtBytes c.fmt
    | none, some p => p.fed * p.chs.length * fmtBytes p.fmt
    | none, none => 0
  let s := s.setMix { s.mix with caps := s.mix.caps.filter (fun c => !mine c.sq c.seq)
                                 plays := s.mix.plays.filter (fun p => !mine p.sq p.seq) }
  s.complete d status detail bytes

/-- VISION: the running chain stops when its engine ends and completes then; a queued one completes at once (R365). With `now`, or
where the unit no longer runs, it is gone at once. -/
def stopVision (s : State) (d : Desc) (status detail : Nat) (now : Bool) : State :=
  match s.vis.chains with
  | [] => s.complete d status detail 0
  | c :: r =>
    if c.sq = d.sq && c.seq = d.seq && !now then
      s.setVis { s.vis with chains := (if c.stop.isSome then c else { c with stop := some status }) :: r }
    else
      (visStatus (s.setVis { s.vis with chains := s.vis.chains.filter fun c => !(c.sq = d.sq && c.seq = d.seq) })).complete d status
        detail 0

/-- TWB: before its START nothing is put on the bus; after it, the transfer ends with a STOP after the current byte and completes
then (R401). -/
def stopTwb (s : State) (d : Desc) (status detail : Nat) (now : Bool) : State :=
  let p := d.pay 32 1 % 2
  let x := s.twbAt p
  let mine (q : Xfer) : Bool := q.sq = d.sq && q.seq = d.seq
  match x.queue with
  | [] => s.complete d status detail 0
  | q :: r =>
    if mine q && x.active && !now then
      s.setTwb p { x with queue := (if q.stop.isSome then q else { q with stop := some status }) :: r }
    else
      let s := s.setTwb p { x with queue := x.queue.filter fun q => !mine q, active := x.active && !mine q }
      s.complete d status detail (twbResult (0, 0) (((x.queue.find? mine).map (·.retries)).getD 0) 0)

/-- USB: nothing is sent to the USB host (Table 3.7); a request whose data a SETUP_WAIT was receiving waits for the next one. -/
def stopUsb (s : State) (d : Desc) (status detail : Nat) : State :=
  let me := (d.sq, d.seq)
  let taker := s.usb.taker = some me
  let s := s.setUsb { s.usb with
    waits := s.usb.waits.filter (· ≠ me), rx := s.usb.rx.filter (fun b => (b.sq, b.seq) ≠ me)
    tx := s.usb.tx.filter (fun b => (b.sq, b.seq) ≠ me), taker := if taker then none else s.usb.taker
    inbox := if taker then .request :: s.usb.inbox else s.usb.inbox }
  s.complete d status detail 0

/-- CASC: the cascade state is unchanged: a proposal already sent ends with CANCEL at its commit tick (Table 3.7; log entry
22). -/
def stopCasc (s : State) (d : Desc) (status detail : Nat) : State :=
  let s := match s.vxl.prop with
    | none => s
    | some p =>
      if p.sq = d.sq && p.seq = d.seq then
        s.setVxl { s.vxl with prop := if p.tick.isNone then none else some { p with sq := 64, wake := true } }
      else s
  s.complete d status detail 0

/-- REHEAT: the marver stays fenced (Table 3.7, R180). -/
def stopReheat (s : State) (d : Desc) (status detail : Nat) : State :=
  let s := { s with sig := s.sig.filter fun j => !(j.sq = d.sq && j.seq = d.seq) }
  let m := d.pay 32 1 % 16
  match (s.mrvAt m).reheat with
  | some r => if r.sq = d.sq && r.seq = d.seq then reheatEnd s m status detail else s.complete d status detail 0
  | none => s.complete d status detail 0

/-- START: the slot stays STOPPED and its PWM disabled (Table 3.7, R255); one that had left STOPPED for the catch enters it again
(R252). -/
def stopStart (s : State) (d : Desc) (status detail : Nat) : State :=
  let hit := (List.range 6).find? fun n => match (s.slotOf n).start with
    | some c => c.sq = d.sq && c.seq = d.seq
    | none => false
  let s := s.complete d status detail 0
  match hit with
  | some n => if s.slotState n = 0 then slotIdle s n else stopSlot s n none true
  | none => s

/-- STOP: the axes whose response has not begun continue as before (Table 3.7). -/
def stopStop (s : State) (d : Desc) (status detail : Nat) : State :=
  let me := some (d.sq, d.seq)
  match s.stops.find? fun x => x.sq = d.sq && x.seq = d.seq with
  | none => s.complete d status detail 0
  | some r =>
    let s := { s with stops := s.stops.filter (· ≠ r) }
    let s := (bitList 6 r.left).foldl (fun s n =>
      let x := s.slotOf n
      let others := s.stops.any fun q => bitOf q.left n
      s.setCtl n { x with
        ramp := if x.ramp = some 1 && !others then none else x.ramp
        asks := x.asks.filter (·.owner ≠ me)
        off := match x.off with
          | some o => if (o.askers.filter (· ≠ me)).isEmpty then none else some { o with askers := o.askers.filter (· ≠ me) }
          | none => none }) s
    s.complete d status detail 0

/-- What a stopped descriptor held goes to the next one of its unit: staged capture frames, a pending request of the USB port. -/
def serveNext (s : State) : State := usbServe ((List.range 4).foldl capServe s)

/-- A descriptor before its point of no return stops with a status and the side effects of Table 3.7. `now` is for a stop that does
not wait for the unit: the unit is reset, or the link to its data has failed. `serveNext` follows. -/
def stopDesc (s : State) (d : Desc) (status : Nat) (now : Bool := false) : State :=
  let det := stopDetail d status
  if d.stage ≠ .active then s.complete d status det 0
  else match d.opcode with
    | 0x01 => (stopMotion s d).complete d status det 0
    | 0x02 => stopInfer s d status det now
    | 0x03 => stopLoad s d status det
    | 0x04 => stopAudio s d status det
    | 0x05 => stopVision s d status det now
    | 0x06 => stopTwb s d status det now
    | 0x09 => ({ s with batches := s.batches.filter fun b => !(b.sq = d.sq && b.seq = d.seq) }).complete d status det 0
    | 0x0B => stopUsb s d status det
    | 0x0C => stopCasc s d status det
    | 0x0D => stopReheat s d status det
    | 0x0E => stopStart s d status det
    | 0x0F => stopStop s d status det
    | _ => s.complete d status det 0

/-- RING_ABORT_STS after an abort (Table 3.11). -/
def abortStatus (s : State) (result matched : Nat) (held : Bool) : State :=
  ((s.put Fld.RING_ABORT_STS_RESULT result).put Fld.RING_ABORT_STS_MATCHED matched).putB Fld.RING_ABORT_STS_HELD held

/-! ### What a cycle latches (R96, R98 to R100) -/

/-- An abort, not an expiry, names the descriptor. -/
def Latch.aborts (l : Latch) (sq seq : Nat) : Bool :=
  match l with
  | .one n q => n = sq && q = seq
  | .all n => n = sq
  | .expiry _ _ => false

/-- The status with which what is latched in this cycle stops a descriptor: an abort wins over its timeout (R96). -/
def State.latchStatus (s : State) (d : Desc) : Option Nat :=
  if s.ring.latched.any (·.aborts d.sq d.seq) then some stAborted
  else if s.ring.latched.contains (.expiry d.sq d.seq) then some stTimeout
  else none

/-- The descriptors in flight that are stopped, those that wait on a fence or the others. -/
def State.toStop (s : State) (waiting : Bool) : List Desc :=
  s.ring.flight.filter fun d => decide (d.stage = .waiting) = waiting && (s.latchStatus d).isSome

/-- They stop. -/
def stopLatched (s : State) (waiting : Bool) : State :=
  if (s.toStop waiting).isEmpty then s
  else serveNext ((s.toStop waiting).foldl (fun s d => match s.findDesc d.sq d.seq with
    | some e => match s.latchStatus e with
      | some st => stopDesc s e st
      | none => s
    | none => s) s)

/-- The report of an abort (R98 to R100, Table 3.11): the descriptors that it stopped are `stopped`; the others that it names and whose
record is queued and not yet written become ABORT_LATE. -/
def abortReport (stopped : List (Nat × Nat)) (s : State) (l : Latch) : State :=
  let late (r : Rec) : Bool := l.aborts r.sq r.seq && !stopped.contains (r.sq, r.seq)
  let hits := (stopped.filter fun x => l.aborts x.1 x.2).length
  let lates := (s.ring.recs.filter late).length
  let s := { s with ring := { s.ring with
    recs := s.ring.recs.map fun r => if late r then { r with late := true } else r
    lastHeld := match l with
      | .expiry _ _ => s.ring.lastHeld
      | _ => none } }
  match l with
  | .expiry _ _ => s
  | .all n =>
    abortStatus (s.ringStatus n (s.get (Fld.SQ_CFG_CQ n))) (if hits + lates = 0 then 3 else 1) (hits + lates) false
  | .one n seq =>
    if hits ≠ 0 then abortStatus s 1 1 false
    else if lates ≠ 0 then abortStatus s 2 1 false
    else if (seq + 2 ^ 16 - s.get (Fld.SQ_SEQ_NEXT n)) % 2 ^ 16 < s.sqCount n then
      let held := (n, seq) :: s.ring.held.filter fun h => h.1 ≠ n
      abortStatus { s with ring := { s.ring with held := held, lastHeld := some (n, seq) } } 0 0 true
    else abortStatus s 3 0 false

/-- The end of a cycle: what it latched stops the descriptors that no wait holds, the waits are evaluated against the fence state
after the cycle, the waiting descriptors that are left are stopped, and what this poisons is seen; then each abort is reported. A
descriptor that reaches its point of no return in the cycle of its abort keeps its status and is ABORT_LATE (R96, R98 to R100, R106,
R113 to R115). -/
def cycleEnd (s : State) : State :=
  let keys (l : List Desc) : List (Nat × Nat) := l.map fun d => (d.sq, d.seq)
  let a := keys (s.toStop false)
  let s := (stopLatched s false).settle
  let b := keys (s.toStop true)
  let s := (stopLatched s true).settle
  let s := markResults <| signalResults (s.ring.latched.foldl (abortReport (a ++ b)) s)
  { s with ring := { s.ring with latched := [] }, seen := ⟨[], false, [], [], []⟩ }

/-- Something is latched in this cycle. -/
def State.latch1 (s : State) (l : Latch) : State := { s with ring := { s.ring with latched := s.ring.latched ++ [l] } }

/-- An abort of a whole SQ: fetch stops at once, the descriptors stop at the end of the cycle (R100). -/
def ringAbortAll (s : State) (n : Nat) : State := ((s.putB (Fld.SQ_CFG_EN n) false).sqError n 3).latch1 (.all n)

/-- An abort of one SEQ is latched (R98, R99). -/
def ringAbortOne (s : State) (n seq : Nat) : State := s.latch1 (.one n seq)

/-- A write of RING_ABORT (Table 3.10). -/
def ringAbortWrite (s : State) (v : Word) : State :=
  let n := Fld.RING_ABORT_SQ.get v
  if Fld.RING_ABORT_ALL.get v = 1 then ringAbortAll s n else ringAbortOne s n (Fld.RING_ABORT_SEQ.get v)

/-- RING_ABORT: a write of RING_ABORT with ALL = 0 (R98, R99). -/
def execRingAbort (n : Fin 64) (seq : BitVec 16) (s : State) : Host.Outcome State Fault Refusal :=
  act s fun s => if s.served Reg.RING_ABORT then ringAbortOne s n seq.toNat else s

/-- RING_ABORT_ALL: a write of RING_ABORT with ALL = 1 (R100). -/
def execRingAbortAll (n : Fin 64) (s : State) : Host.Outcome State Fault Refusal :=
  act s fun s => if s.served Reg.RING_ABORT then ringAbortAll s n else s

/-- Cycles from a descriptor's fetch to its deadline: TIMEOUT µs and the allowances added, in half microseconds (R92, R93). -/
def Desc.deadline (d : Desc) : Nat := ((2 * d.timeout + d.allow) * 98304 + 999) / 1000

/-- DESCRIPTOR_TIMEOUT: the deadline of a descriptor has passed while no retry episode is in progress: the expiry is latched in this
cycle. None passes in a halt, and an earlier one does not act (R92, R93, R96, R117, R522). -/
def execDescriptorTimeout (sq : Fin 64) (seq : BitVec 16) (s : State) : Host.Outcome State Fault Refusal :=
  act s fun s =>
    match s.findDesc sq seq.toNat with
    | none => s
    | some d =>
      if d.timeout ≠ 0 && !d.episode && !s.halted && decide (d.fetchedAt + d.deadline ≤ s.cyc) then
        s.latch1 (.expiry sq seq.toNat)
      else s

/-- A dispatched descriptor waits for external memory (R449). -/
def State.awaitsMemory (s : State) (d : Desc) : Bool :=
  !s.ready 16 && usesLpddr d.raw && (d.stage = .dispatched || d.stage = .active)

/-- PCIE_RETRIES_EXHAUSTED: the retry episode of a descriptor that needs host memory passes its allowance, or external memory stays
away for as long: the descriptor completes at once with LINK_LOST (R69, R94, R449). -/
def execPcieRetriesExhausted (sq : Fin 64) (seq : BitVec 16) (s : State) : Host.Outcome State Fault Refusal :=
  act s fun s =>
    match s.findDesc sq seq.toNat with
    | none => s
    | some d => if (d.episode && d.opcode ≠ 0x0C) || s.awaitsMemory d then serveNext (stopDesc s d stLinkLost true) else s

/-- A descriptor completes with MEMORY_ECC: its unit stops it as an abort would (R94, R458). -/
def memoryEcc (s : State) (d : Desc) (address : Nat) : State :=
  let s := serveNext (stopDesc s d stMemoryEcc true)
  let det := 0x1000000 + address / 8 % 2 ^ 24
  { s with ring := { s.ring with recs := s.ring.recs.map fun r =>
      if r.sq = d.sq && r.seq = d.seq then { r with detail := det } else r } }

/-- MEM_READ_RETRY: the retry episode of a read whose burst was uncorrectable ends: `found` is what the check bits of its last re-read
show. Where the stored word is marked in error no re-read succeeds (R93 to R95, R455 to R458). -/
def execMemReadRetry (who : Reader) (address : BitVec 34) (found : Ecc) (s : State) : Host.Outcome State Fault Refusal :=
  act s fun s =>
    if !s.ready 16 then s
    else
      let a := address.toNat
      let ok := !s.memFlawed a 1 && (match found with
        | .uncorrectable _ => false
        | _ => true)
      let s := match who with
        | .descriptor sq seq => match s.findDesc sq seq.toNat with
          | some d => s.setDesc d { d with allow := d.allow + 3, retried := d.retried || ok }
          | none => s
        | .bar4 _ => s
      if ok then
        let s := ((s.memCorrected found).incSat Fld.MEM_CNT2_RETRY_OK).irqF Fld.MEM_IRQ_STATUS_RETRY
        match who with
        | .bar4 n => { s with rdata := bytesAt s.mem.ram a n }
        | .descriptor _ _ => s
      else match who with
        | .bar4 n => s.memPoisoned a n
        | .descriptor sq seq =>
          let s := ((s.incSat Fld.MEM_CNT2_UNCORR).memErr a 0).irqF Fld.MEM_IRQ_STATUS_UNCORR
          match s.findDesc sq seq.toNat with
          | some d => memoryEcc s d a
          | none => s

end Sys2Proof.Machine
end

