-- ==== Sys2Proof/Machine/Resets.lean ====
section
/-!
DEFINITION. The fuse array and its shadows (R486 to R493), and what the cold, the warm and the function resets do to the state
(R25, R472 to R474, R486, R491).
-/
namespace Sys2Proof.Machine

/-! ### The fuse array -/

/-- A fuse word: a bit reads 1 when either copy is blown (R486). -/
def Fuses.word (f : Fuses) (w : Nat) : Word := sget 0 f.a w ||| sget 0 f.b w

/-- Words 14, 15 and 32 to 63 are reserved (R489). -/
def fuseReserved (w : Nat) : Bool := w = 14 || w = 15 || decide (32 ≤ w)

/-- The array as the device reads it: reserved words read 0 (R486, R489). -/
def Fuses.scan (f : Fuses) : Store Word :=
  (List.range 64).foldl (fun r w => if fuseReserved w then r else sset 0 r w (f.word w)) []

/-- How many bits differ between the two copies (R487). -/
def Fuses.mismatch (f : Fuses) : Nat :=
  ((List.range 64).map fun w => popCount (sget 0 f.a w ^^^ sget 0 f.b w).toNat).sum

/-- Bits [hi:lo] of a fuse word as read at the last cold reset. -/
def Fuses.bits (f : Fuses) (w hi lo : Nat) : Nat := bitsOf (sget 0 f.read w).toNat hi lo

/-- A key slot is blank: all its 256 bits are 0 (R489). -/
def Fuses.blank (f : Fuses) (k : Nat) : Bool := (List.range 8).all fun i => sget 0 f.read (16 + 8 * k + i) = 0

/-- The bits of a fuse word that Table 21.1 lists. -/
def fuseListed (w : Nat) : Nat :=
  if w = 0 then 0x7F1F
  else if w = 1 then 0x3FFFFFFF
  else if w = 2 then 0x3FFFF
  else if w ≤ 8 then 0x3FFFFFFF
  else if w ≤ 11 then 0x7FFF7FFF
  else if w ≤ 13 then 0x0FFF0FFF
  else if fuseReserved w then 0
  else 0xFFFFFFFF

/-- FUS_STATUS shows the locks, the revoked and the blank slots (Table 21.3). -/
def showLocks (s : State) : State :=
  let f := s.fus
  let s := (s.putB Fld.FUS_STATUS_PROT_LOCKED (f.bits 0 0 0 = 1)).putB Fld.FUS_STATUS_DEBUG_LOCKED (f.bits 0 1 1 = 1)
  let s := (s.putB Fld.FUS_STATUS_REVOKED0 (f.bits 0 3 3 = 1)).putB Fld.FUS_STATUS_REVOKED1 (f.bits 0 4 4 = 1)
  let s := (s.putB Fld.FUS_STATUS_BLANK0 (f.blank 0)).putB Fld.FUS_STATUS_BLANK1 (f.blank 1)
  (s.putB Fld.GLB_CAPS_DEBUG_LOCKED (f.bits 0 1 1 = 1)).putB Fld.GLB_CAPS_LEHR_EN (f.bits 0 2 2 = 1)

/-- The registers whose Reset is "fuse" and that stand outside the FUS block take the protection in effect (R25, Table 21.2). -/
def loadProtection (s : State) : State :=
  let s := (s.put Fld.PWR_STATUS_LEHR_EN (s.get Fld.FUS_CFG_LEHR_EN)).put Fld.PWR_VSAG_CODE (s.get Fld.FUS_CFG_VSAG)
  let s := (List.range 6).foldl (fun s n =>
    let s := s.put (Fld.CTL_DMAX_DMAX n) (s.get (Fld.FUS_FMAX_FMAX n))
    let s := s.put (Fld.SNS_TRIPOC_TH n) (s.get (Fld.FUS_AXIS_OC_CEIL n))
    let s := s.put (Fld.SNS_TRIPOV_TH n) (s.get (Fld.FUS_AXIS_OV_CEIL n))
    (s.put (Fld.PWM_DT_DT n) (s.get (Fld.FUS_AXIS_DTFLOOR n))).loadReg (Reg.PWM_DT n)) s
  (List.range 4).foldl (fun s p => s.put (Fld.VLV_FPEAK_FPEAK p) (s.get (Fld.FUS_FPEAK_FPEAK p))) s

/-- The shadows take the values read at the last cold reset, decoded as Table 21.1 states, and the registers that depend on them
follow (R25, R486, R491). -/
def loadFuses (s : State) : State :=
  let f := s.fus
  let s := (showLocks s).put Fld.FUS_CFG_LEHR_EN (f.bits 0 2 2)
  let s := s.put Fld.FUS_CFG_VSAG (70 - min (f.bits 0 14 8) 70)
  let s := (s.put Fld.FUS_DISLVL0_DIS (f.bits 1 29 0)).put Fld.FUS_DISLVL1_DIS (f.bits 2 17 0)
  let s := (List.range 6).foldl (fun s n =>
    let h := 16 * (n % 2)
    let s := s.put (Fld.FUS_AXIS_OC_CEIL n) (f.bits (3 + n) 9 0)
    let s := s.put (Fld.FUS_AXIS_OV_CEIL n) (f.bits (3 + n) 19 10)
    let s := s.put (Fld.FUS_AXIS_DTFLOOR n) (1023 - f.bits (3 + n) 29 20)
    s.put (Fld.FUS_FMAX_FMAX n) (0x8000 + f.bits (9 + n / 2) (h + 14) h)) s
  let s := (List.range 4).foldl (fun s p =>
    let h := 16 * (p % 2)
    s.put (Fld.FUS_FPEAK_FPEAK p) (f.bits (12 + p / 2) (h + 11) h)) s
  let s := (List.range 8).foldl (fun s i =>
    (s.setReg (Reg.FUS_KEYHASH0 i) (sget 0 f.read (16 + i))).setReg (Reg.FUS_KEYHASH1 i) (sget 0 f.read (24 + i))) s
  loadProtection (f.read.foldl (fun s e => s.setReg (Reg.FUS_RAW e.1) e.2) s)

/-- GLB_STRAP and what shows it take CASC_ID (R38, Tables 1.9 and 18.4). -/
def loadStrap (s : State) (strap : Nat) : State :=
  let s := (s.put Fld.GLB_STRAP_CASC_ID strap).putB Fld.GLB_STRAP_MASTER (strap = 0)
  (s.put Fld.VXL_STATUS_CASC_ID strap).putB Fld.VXL_STATUS_MASTER (strap = 0)

/-- The bits of a program operation that is stopped: any subset of them can have been blown, in either copy or both (R554, log
entry 3). -/
def stopProgram (s : State) : State :=
  match s.fus.prog with
  | none => s
  | some (w, data) =>
    let (x, s) := s.free (2 ^ 32)
    let (y, s) := s.free (2 ^ 32)
    let f := s.fus
    { s with fus := { f with a := sset 0 f.a w (sget 0 f.a w ||| (data &&& BitVec.ofNat 32 x))
                             b := sset 0 f.b w (sget 0 f.b w ||| (data &&& BitVec.ofNat 32 y))
                             prog := none } }

/-! ### Cold reset (R472) -/

/-- What the state is in a cold reset: what the reset does not touch is the lehr store, the fuse array, which it reads, host memory
and the outside's side of the queue; bytes of LPDDR5X and of marver SRAM read as bytes that nothing has written (R446, log entry
6). -/
def coldState (s : State) (cause : Nat) : State :=
  let s := stopProgram s
  let f := { s.fus with read := s.fus.scan }
  let t := { State.reset with
    regs := []
    act := []
    freeCtr := s.freeCtr
    hostMem := s.hostMem
    ring := { State.reset.ring with msix := s.ring.msix }
    pwr := { State.reset.pwr with
      hold := .cold
      mram := s.pwr.mram
      perst := s.pwr.perst
      supplies := s.pwr.supplies
      driven := s.pwr.driven || s.pwr.supplies }
    fus := f
    sns := s.pinsKept
    scan := s.scan
    rdata := s.rdata
    pending := s.pending }
  let t := (t.put Fld.FUS_STATUS_MISMATCH (satU 16 f.mismatch)).put Fld.PWR_RSTCAUSE_CAUSE cause
  deferredAborts s (loadStrap (loadFuses t) 0)

/-! ### Warm reset (R473) -/

/-- The register words that a warm reset keeps (R221, R462, R485, R525; log entry 24). -/
def keptWarm (off : Nat) : Bool :=
  let r := off % 0x10000
  match off / 0x10000 with
  | 0 => r = 8
  | 5 => (List.range 6).any fun n => off = Reg.OBS_THSTATE n
  | 17 => off ≠ Reg.MEM_IRQ_EN
  | 18 => off ≠ Reg.PWR_IRQ_EN
  | 20 => off ≠ Reg.LOG_IRQ_EN && !(decide (0x40 ≤ r) && decide (r < 0x60))
  | _ => false

/-- A warm reset (R473): registers as R25 states, descriptors and what they had under way discarded (Table 3.16), every module
disabled (R277), slots of parisons and fences lost (R108, R164), the log, LPDDR5X, marver SRAM, the thermal states and the lehr
store kept. All ring registers reset, RING_LINK with them (Table 3.16): LINK_UP shows the link again (log entry 24). A hot reset or FLR
also resets the configuration space. -/
def warmState (s : State) (cause : Nat) (hot : Bool) : State :=
  let s := s.mirrorDrop
  let s := stopProgram s
  let ready := s.get Fld.GLB_READY_READY
  let fstat := s.reg Reg.FUS_STATUS
  let strap := s.cascId
  let tick := s.flag Fld.PWR_PLL_TICK && !s.flag Fld.GAF_STATUS_TCLK_SRC
  let b := State.reset
  let t := { s with
    regs := s.regs.filter fun e => keptWarm e.1
    act := []
    latch := []
    gaf := b.gaf
    seen := b.seen
    ring := { b.ring with bme := s.ring.bme && !hot, d3hot := s.ring.d3hot && !hot, msix := s.ring.msix }
    pci := if hot then b.pci else s.pci
    batches := []
    evtCount := []
    tel := { s.tel with haltReq := false, haltRan := false, mirCnt := 0 }
    pwr := { s.pwr with target := none, wake := false, frst := 0 }
    pwm := List.replicate 7 (.startAt (2 * s.cyc))
    vlv := b.vlv
    sns := s.pinsKept
    mods := b.mods
    mrv := s.mrv.map fun (m : Mrv) => { Mrv.init with sram := m.sram, flaws := m.flaws, dirty := m.dirty }
    slots := b.slots
    jobs := []
    runs := []
    sig := []
    ctl := b.ctl
    stops := []
    obs := s.obs.map fun (o : Obs) => { Obs.init with tw := o.tw, thh := o.thh, ta := o.ta }
    tmr := b.tmr
    tmrStage := []
    tmrDue := false
    aud := b.aud
    mix := b.mix
    vis := { b.vis with spaces := s.vis.spaces }
    usb := b.usb
    twb := b.twb
    vxl := b.vxl }
  let t := t.put Fld.GLB_READY_READY (ready &&& (2 ^ 16 + 2 ^ 19))
  let t := (t.put Fld.FUS_STATUS_MISMATCH (Fld.FUS_STATUS_MISMATCH.get fstat)).put Fld.FUS_STATUS_VPROG_OK
    (Fld.FUS_STATUS_VPROG_OK.get fstat)
  let t := loadStrap (loadFuses t) strap
  let t := ((t.put Fld.PWR_STATUS_STATE 4).putB Fld.PWR_STATUS_BUSY false).putB Fld.PWR_RSTCAUSE_COLD false
  let t := (t.put Fld.PWR_RSTCAUSE_CAUSE cause).putB Fld.PWR_PLL_TICK tick
  let t := t.putB Fld.GAF_STATUS_LOCKED tick
  deferredAborts s ((List.range 7).foldl (fun t m => t.put (Fld.PWM_STATUS_DISCAUSE m) 3) t)

/-! ### STANDBY and function resets (R463, R474) -/

/-- The registers of a block take their Reset values. -/
def blockReset (s : State) (b : Nat) : State :=
  { s with regs := s.regs.filter fun (e : Nat × Word) => e.1 / 0x10000 ≠ b
           act := s.act.filter fun (e : Nat × Word) => e.1 / 0x10000 ≠ b
           latch := s.latch.filter fun (e : Nat × Option Word) => e.1 / 0x10000 ≠ b }

/-- The registers of the LOG block that go with the log's contents through STANDBY (R512; log entry 24). -/
def keptStandby (off : Nat) : Bool :=
  let r := off % 0x10000
  match off / 0x10000 with
  | 0 => true
  | 2 => off = Reg.RING_LINK
  | 10 => true
  | 18 => true
  | 19 => true
  | 20 => (decide (0x14 ≤ r) && decide (r < 0x28)) || decide (0x80 ≤ r)
  | _ => false

/-- On leaving STANDBY the blocks that were not powered take their Reset values, and what Table 20.1 calls lost is lost; the timers,
the log, the power, fuse and identity registers and LPDDR5X are kept, and LPDDR5X trains again (R463, R512, Table 20.1; log entry
24). A timer interrupt that SLOWRUN raised in STANDBY falls due again (R310). DTIME, which counts from a cold reset only, keeps its value
(DEDUCED from R63, log entry 24). -/
def standbyState (s : State) : State :=
  let vec := s.get (Fld.RING_BVEC_VECTOR 10) % 128
  let due := s.bitF (Fld.MSIX_PBA_PENDING (vec / 32)) (vec % 32)
  let s := s.mirrorDrop
  let b := State.reset
  let t := { s with
    regs := s.regs.filter fun e => keptStandby e.1
    act := []
    latch := []
    gaf := b.gaf
    seen := b.seen
    ring := { b.ring with bme := s.ring.bme, d3hot := s.ring.d3hot, msix := s.ring.msix }
    batches := []
    evtCount := []
    tel := { s.tel with mirCnt := 0 }
    pwm := List.replicate 7 (.startAt (2 * s.cyc))
    vlv := b.vlv
    sns := s.pinsKept
    mods := b.mods
    mem := { b.mem with ram := s.mem.ram }
    mrv := b.mrv
    slots := b.slots
    jobs := []
    runs := []
    sig := []
    ctl := b.ctl
    stops := []
    obs := b.obs
    aud := b.aud
    mix := b.mix
    vis := { b.vis with spaces := s.vis.spaces }
    usb := b.usb
    twb := b.twb
    vxl := b.vxl }
  let t := deferredAborts s (loadStrap (loadProtection t) s.cascId)
  if due then t.sendMsg (t.get (Fld.RING_BVEC_VECTOR 10)) else t

/-- The opcode whose descriptors go to a function that can be reset (R474, Table 3.3). -/
def frstOpcode (bit : Nat) : Option Nat :=
  match bit with
  | 11 => some 0x04 | 12 => some 0x05 | 13 => some 0x0B | 14 => some 0x06 | 15 => some 0x0C | 18 => some 0x0A
  | _ => none

/-- The dispatched descriptors of a function complete with ABORTED (R474). -/
def frstAborts (s : State) (bit : Nat) : State :=
  match frstOpcode bit with
  | none => s
  | some op =>
    serveNext <| (s.ring.flight.filter fun d => d.opcode = op && (d.stage = .dispatched || d.stage = .active)).foldl (fun s d =>
      match s.findDesc d.sq d.seq with
      | some d => stopDesc s d stAborted true
      | none => s) s

/-- What a function holds beside its registers, at reset, and the registers of its block (R474, R512). What tells that clocks stand
still (SUSPENDED, HALTED) stays (log entry 24). -/
def frstBlock (s : State) (bit : Nat) : State :=
  let b := State.reset
  match bit with
  | 8 => deferredAborts s <| (List.range 4).foldl (fun s p => s.put (Fld.VLV_FPEAK_FPEAK p) (s.get (Fld.FUS_FPEAK_FPEAK p)))
      (blockReset { s with vlv := b.vlv } 9)
  | 9 => (blockReset { s with tmr := b.tmr, tmrStage := [], tmrDue := false } 10).setSuspended s.suspended
  | 10 => blockReset { s with aud := b.aud } 11
  | 11 => blockReset { s with mix := b.mix } 12
  | 12 => blockReset { s with vis := { b.vis with spaces := s.vis.spaces } } 13
  | 13 => blockReset { s with usb := b.usb } 14
  | 14 => blockReset { s with twb := b.twb } 15
  | 15 =>
    let t := if s.isSlave then (tickLost s).putB Fld.GAF_STATUS_TCLK_SRC false else s
    loadStrap (blockReset { t with vxl := b.vxl } 16) s.cascId
  | 18 =>
    (blockReset { s with tel := { b.tel with haltReq := s.tel.haltReq, haltRan := s.tel.haltRan } } 20).putB
      Fld.LOG_DBG_HALTED s.halted
  | _ => s

/-- The functions that PWR_FRST can reset (R474). -/
def frstAllowed (s : State) (bit : Nat) : Bool :=
  bit = 8 || bit = 9 || bit = 10 || bit = 11 || bit = 12 || bit = 13 || bit = 14 || bit = 18 || (bit = 15 && !s.running)

/-- One function is reset (R474). -/
def frstOne (s : State) (bit : Nat) : State :=
  let s := clearReady s bit
  let s := { s with pwr := { s.pwr with frst := orBit s.pwr.frst bit } }
  frstBlock (frstAborts s bit) bit

/-- A write of PWR_FRST (R474). -/
def pwrFrstWrite (s : State) (v : Word) : State :=
  let bits := bitList 20 (Fld.PWR_FRST_FRST.get v)
  let s' := (bits.filter (frstAllowed s)).foldl frstOne s
  if bits.all (frstAllowed s) then s' else s'.irqF Fld.PWR_IRQ_STATUS_REFUSED

end Sys2Proof.Machine
end

