-- ==== Sys2Proof/Machine/Lehr.lean ====
section
/-!
DEFINITION. The lehr store: the image of a save, copies and their check, save and erase (R477, R479 to R481).
-/
namespace Sys2Proof.Machine

/-- The store offset of copy slot A or B (R479). -/
def lehrSlot (b : Bool) : Nat := if b then 0x20000 else 0

/-- A copy is valid when its MAGIC, VERSION and CRC are correct (R480). -/
def State.copyValid (s : State) (b : Bool) : Bool :=
  let m := s.pwr.mram
  let o := lehrSlot b
  let head := bytesAt m o 8
  fieldAt head 0 4 = 0x5248454C && fieldAt head 4 2 = 1 &&
    crc32 (bytesAt m o 49148) = leNat (bytesAt m (o + 49148) 4)

/-- SEQ of a copy. -/
def State.copySeq (s : State) (b : Bool) : Nat := leNat (bytesAt s.pwr.mram (lehrSlot b + 8) 4)

/-- SEQ `p` comes before SEQ `q`: their difference modulo 2^32, as a signed number, is negative (R480). -/
def seqBefore (p q : Nat) : Bool := decide (sgn 32 (p + 2 ^ 32 - q) < 0)

/-- The newest valid copy: B or not. -/
def State.newestB (s : State) : Bool :=
  s.copyValid true && (!s.copyValid false || seqBefore (s.copySeq false) (s.copySeq true))

/-- The check of both copies at a cold reset (R480). -/
def lehrCheck (s : State) : State :=
  let a := s.copyValid false
  let b := s.copyValid true
  let s := (((s.putB Fld.LEHR_STATUS_CHECKED true).putB Fld.LEHR_STATUS_VALID_A a).putB Fld.LEHR_STATUS_VALID_B b).putB
    Fld.LEHR_STATUS_NEWEST s.newestB
  (s.put Fld.LEHR_SEQ_A_SEQ_A (if a then s.copySeq false else 0)).put Fld.LEHR_SEQ_B_SEQ_B (if b then s.copySeq true else 0)

/-- The CRC word of a copy slot goes to 0 (R480). -/
def zeroCrc (s : State) (b : Bool) : State :=
  { s with pwr := { s.pwr with mram := writeBytes s.pwr.mram (lehrSlot b + 49148) [0, 0, 0, 0] } }

/-- An integer as `n` bytes in two's complement (R7, R9). -/
def intBytes (n : Nat) (x : Int) : List Byte := leBytes n (lowBits (8 * n) x)

/-- The record of axis a (Table 20.7). -/
def State.lehrAxis (s : State) (a : Nat) : List Byte :=
  let o := s.obsAt a
  let vals := ((List.range 4).map fun i => leBytes 2 (s.get (Fld.OBS_VAL_VAL a i))).flatten
  let srcs := ((List.range 4).map fun i =>
    leBytes 1 (s.get (Fld.OBS_STATE_SRC a i) + 4 * s.get (Fld.OBS_STATE_STATE a i))).flatten
  slice (intBytes 8 (s.slotPos a) ++ leBytes 4 (s.snsAt a).qpos.toNat ++ leBytes 4 (s.reg (Reg.SNS_QIDX a)).toNat ++ vals ++ srcs ++
    leBytes 1 (s.slotState a + 16 * s.get (Fld.CTL_STATE_MODE a)) ++ leBytes 1 (s.get (Fld.CTL_STATE_CAUSE a)) ++ [0, 0] ++
    intBytes 4 o.tw ++ intBytes 4 o.thh ++ intBytes 4 o.ta ++ intBytes 4 o.tl ++ leBytes 2 o.th ++ intBytes 2 o.wr ++
    leBytes 4 (s.reg (Reg.CTL_XD a)).toNat ++ leBytes 4 (s.reg (Reg.CTL_XQ a)).toNat ++
    leBytes 4 (s.reg (Reg.OBS_CULLCNT a)).toNat) 0 512

/-- The image without its CRC, for a SEQ (Table 20.6). -/
def State.lehrImage (s : State) (cause seq : Nat) : List Byte :=
  let n := min 864 s.tel.stored
  let flags := (if s.flag Fld.PWR_STATUS_HOLD_OK then 0 else 1) + (if s.running then 2 else 0) +
    if s.pwr.userWritten then 4 else 0
  let bank := (if s.activeBank then 1 else 0) + 2 * s.get Fld.GAF_STATUS_VALID_A + 4 * s.get Fld.GAF_STATUS_VALID_B
  let head := leBytes 4 0x5248454C ++ leBytes 2 1 ++ leBytes 1 cause ++ leBytes 1 flags ++ leBytes 4 seq ++
    leBytes 4 (s.reg Reg.GLB_IDENT).toNat ++ leBytes 6 s.tickno ++ leBytes 1 s.pstate ++ leBytes 1 (s.reg Reg.GLB_STRAP).toNat ++
    leBytes 8 s.dtime.toNat ++ leBytes 2 s.edgeOfs ++ leBytes 2 (s.get Fld.GAF_TICKDIV_TICKDIV) ++
    leBytes 4 (fieldAt s.plan 12 4) ++ leBytes 1 bank ++ leBytes 1 s.axesInPlan ++ leBytes 2 n ++ leBytes 4 s.tel.lostCold
  let user := ((List.range 4096).map fun w => leBytes 4 (s.reg (Reg.LEHR_USER w)).toNat).flatten
  let first := s.get Fld.LOG_WIDX_WIDX + 4096 - n
  let log := ((List.range n).map fun i => s.logEntry (first + i)).flatten
  slice head 0 512 ++ slice ((List.range 6).map s.lehrAxis).flatten 0 3584 ++ user ++ slice log 0 27648 ++ leBytes 1020 0

/-- A save starts: an erase in progress is abandoned, having zeroed some of the CRC words or none (log entry 3), and slot A is
the target; else the target is as R480 says. The target's CRC word goes to 0 first, and the image waits to be written (R477,
R480). -/
def lehrSaveStart (s : State) (cause : Nat) : State :=
  let cut := s.pwr.erasing
  let s := if cut then
      let (x, s) := s.free 4
      let s := { s with pwr := { s.pwr with erasing := false } }
      let s := if bitOf x 0 then zeroCrc s false else s
      if bitOf x 1 then zeroCrc s true else s
    else s
  let va := s.copyValid false
  let vb := s.copyValid true
  let target := if cut then false
    else if va && vb then seqBefore (s.copySeq true) (s.copySeq false)
    else va
  let seq := if va || vb then (s.copySeq s.newestB + 1) % 2 ^ 32 else 1
  let img := s.lehrImage cause seq
  let s := zeroCrc s target
  { s with pwr := { s.pwr with image := img ++ leBytes 4 (crc32 img), imageAt := lehrSlot target } }

/-- A save ends: the image is written whole, or, where VHOLD was lost, its first `n` bytes below the CRC (R480). -/
def lehrSaveEnd (s : State) (cut : Option Nat) : State :=
  let l := match cut with
    | none => s.pwr.image
    | some n => s.pwr.image.take (min n 49148)
  { s with pwr := { s.pwr with mram := writeBytes s.pwr.mram s.pwr.imageAt l, image := [] } }

/-- A write of LEHR_CTRL: with ERASE and the key an erase begins (R480). -/
def lehrCtrlWrite (s : State) (v : Word) : State :=
  if Fld.LEHR_CTRL_ERASE.get v = 1 ∧ Fld.LEHR_CTRL_KEY.get v = 0x4C45 then { s with pwr := { s.pwr with erasing := true } } else s

/-- An erase in progress ends: both CRC words are 0. It ends at the next cycle in which the block has nothing to do, which is within
the 10 ms of R480 (log entry 25). -/
def eraseDone (s : State) : State :=
  if s.pwr.erasing then
    let s := zeroCrc (zeroCrc s false) true
    { s with pwr := { s.pwr with erasing := false } }
  else s

/-- LEHR_ERASE: a write of LEHR_CTRL with ERASE = 1 and this KEY (R480). -/
def execLehrErase (key : BitVec 16) (s : State) : Host.Outcome State Fault Refusal :=
  act s fun s => if s.served Reg.LEHR_CTRL then lehrCtrlWrite s (0x80000000 ||| BitVec.ofNat 32 key.toNat) else s

end Sys2Proof.Machine
end

