-- ==== Sys2Proof/Machine/Idle.lean ====
section
/-!
DEFINITION. A TCLK cycle passes.
-/
namespace Sys2Proof.Machine

/-- The cycle ends and the next begins (log entry 2): sets that wait for a pair latch (R189), stop requests are resolved
(R250), what the cycle latched is resolved (`cycleEnd`), an erase of the lehr store ends (R480), a LOST record that is due waits no
longer (R509), DTIME counts once the tick PLL has locked, while TCLK runs (R63, Table 20.1), a TORQUE_OFF that is due disables its
module (R250), a LOAD makes the writes that wait (R167). -/
def nextCycle (s : State) : State :=
  let s := lostRecord (eraseDone (cycleEnd (resolveAll (heldLatches s))))
  let s := { s with cyc := s.cyc + 1 }
  loadWrites (torqueDues (if s.dtimeOn && decide (3 ≤ s.pstate) then { s with dtime := s.dtime + 1 } else s))

/-- A cycle with no command (DESIGN CHOICE, log entry 2). -/
def idleCycle (s : State) : State := if s.pwr.hold = .running then nextCycle s else s

end Sys2Proof.Machine
end

