-- ==== Sys2Proof/Machine/Power.lean ====
section
/-!
DEFINITION. Power states, clocks, resets, READY bits, the sag response (chapter 20, R463 to R478, R482, R484, R539) and the debug
halt (R521 to R523).
-/
namespace Sys2Proof.Machine

/-! ### READY bits (R476, Table 20.1, Table 20.5) -/

/-- The functions not powered in IDLE: GAF, MRV, OBS, SNS, CTL, AUD, MIX, VIS, VXL (Table 20.1). -/
def idleOff : List Nat := [0, 3, 4, 5, 6, 10, 11, 12, 15]

/-- A function is powered in a power state; SLEEP keeps what the state before it had (Table 20.1). -/
def State.powered (s : State) (bit : Nat) : Bool :=
  let st := if s.pstate = 2 then s.get Fld.PWR_STATUS_PREV else s.pstate
  st = 4 || (st = 3 && !idleOff.contains bit) || bit = 19

/-- A function is ready: its bit sets where it is powered, and is remembered where it is not (R476, Table 20.1); the comparators run
from SNS ready on (R196). -/
def comesReady (s : State) (bit : Nat) : State :=
  if s.powered bit then compareAll (setReady s bit)
  else { s with pwr := { s.pwr with ever := orBit s.pwr.ever bit, frst := clrBit s.pwr.frst bit } }

/-- READY bits clear. -/
def clearReadies (s : State) (bits : List Nat) : State := bits.foldl clearReady s

/-- READY bits of functions that have been ready and are in no function reset set again. -/
def restoreReadies (s : State) (bits : List Nat) : State :=
  compareAll ((bits.filter fun b => bitOf s.pwr.ever b && !bitOf s.pwr.frst b).foldl setReady s)

/-- FUNCTION_READY: a function gets ready after a reset (R476). MEM gets ready at the end of its training (R446), a function in a
function reset with FRST_DONE (R474); the lehr checks its copies first (R480). -/
def execFunctionReady (bit : Fin 20) (s : State) : Host.Outcome State Fault Refusal :=
  act s fun s =>
    if bit.val = 16 || bitOf s.pwr.frst bit then s
    else
      let s := if bit.val = 19 && !s.flag Fld.LEHR_STATUS_CHECKED then lehrCheck s else s
      comesReady s bit

/-- PWR_FRST: a write of PWR_FRST (R474). -/
def execPwrFrst (v : Word) (s : State) : Host.Outcome State Fault Refusal :=
  act s fun s => if s.served Reg.PWR_FRST then pwrFrstWrite s v else s

/-- FRST_DONE: a function in a function reset is ready again (R474). -/
def execFrstDone (bit : Fin 20) (s : State) : Host.Outcome State Fault Refusal :=
  act s fun s => if bitOf s.pwr.frst bit then (comesReady s bit).irqF Fld.PWR_IRQ_STATUS_FRST_DONE else s

/-! ### Debug halt (R521 to R523) -/

/-- The halt cycle (R521): modules and valve channels off, slots stopped, the HALT record, HALTED; the timers are suspended (R522). -/
def haltEnter (s : State) : State :=
  let s := (List.range 7).foldl (fun s m => pwmDisable s m 3) s
  let s := slotsStop s
  let s := s.tell 0x0E 20 0 (leBytes 8 s.dtime.toNat ++ leBytes 6 s.tickno)
  let s := (s.incSat Fld.LOG_DBG_HALTS).setWide 64 Reg.LOG_HALTSTAMP_LO s.dtime.toNat
  let s := tmrSuspend (s.putB Fld.LOG_DBG_HALTED true)
  { s with tel := { s.tel with haltReq := false, haltRan := s.running, haltAt := s.cyc }
           gaf := { s.gaf with started := [], ended := [] } }

/-- HALTREQ (R495, R521): with the gaffer running the halt waits for the next tick edge, else it takes effect in the next TCLK cycle;
while TCLK stands still it waits. -/
def execHaltreq (s : State) : Host.Outcome State Fault Refusal :=
  act s fun s =>
    if s.flag Fld.GLB_CAPS_DEBUG_LOCKED || s.halted then s
    else if s.running || decide (s.pstate < 3) then { s with tel := { s.tel with haltReq := true } }
    else haltEnter (nextCycle s)

/-- The time spent halted is added to the deadlines (R522). -/
def haltedTime (s : State) : State :=
  { s with ring := { s.ring with flight := s.ring.flight.map fun d =>
      if d.timeout = 0 then d else { d with fetchedAt := d.fetchedAt + (s.cyc - max s.tel.haltAt d.fetchedAt) } } }

/-- HALTREL (R523): the halt ends; a gaffer that ran restarts on its active bank as under R41. -/
def execHaltrel (s : State) : Host.Outcome State Fault Refusal :=
  act s fun s =>
    if s.flag Fld.GLB_CAPS_DEBUG_LOCKED then s
    else if !s.halted then { s with tel := { s.tel with haltReq := false } }
    else
      let s := ((haltedTime s).putB Fld.LOG_DBG_HALTED false).irqF Fld.LOG_IRQ_STATUS_HALT
      let s := s.tell 0x0E 20 1 (leBytes 8 s.dtime.toNat ++ leBytes 6 s.tickno)
      let s := if s.tel.haltRan && s.running then
          let b := s.activeBank
          { s with gaf := { s.gaf with starting := some b } }
        else s
      ({ s with tel := { s.tel with haltRan := false } }).pbaFlushAll

/-! ### Power states (R463 to R469) -/

/-- PWR_CMD is refused, with its code of Table 20.2. -/
def cmdRefuse (s : State) (err : Nat) : State := (s.put Fld.PWR_STATUS_ERR err).irqF Fld.PWR_IRQ_STATUS_REFUSED

/-- The transitions of Table 20.2, in PWR_CMD encoding. -/
def cmdLegal (cur t : Nat) : Bool :=
  match cur with
  | 4 => t = 3 || t = 2
  | 3 => t = 4 || t = 2 || t = 1 || t = 0
  | 2 => t = 4 || t = 3
  | 1 => t = 3 || t = 0
  | _ => false

/-- The opcodes whose units power down in IDLE: those of Table 3.3 with a unit of `idleOff`; LOAD writes plan banks and marver SRAM,
CFG waits for the gaffer (log entry 26). -/
def idleOps : List Nat := [0x01, 0x02, 0x03, 0x04, 0x05, 0x09, 0x0C, 0x0D, 0x0E, 0x0F]

/-- A descriptor is in flight to a unit that the transition powers down (Table 20.2). -/
def State.cmdBusy (s : State) (t : Nat) : Bool :=
  match s.pstate, t with
  | 4, 3 => s.ring.flight.any fun d => idleOps.contains d.opcode
  | 3, 1 => !s.ring.flight.isEmpty
  | 3, 0 => !s.ring.flight.isEmpty
  | _, _ => false

/-- The first check of a PWR_CMD that fails, in the order of the ERR codes; 0 when none does (R465). -/
def State.cmdErr (s : State) (t : Nat) : Nat :=
  if !cmdLegal s.pstate t then 1
  else if s.flag Fld.PWR_STATUS_BUSY then 2
  else if s.pstate = 4 && t = 3 && s.running then 3
  else if t = 2 && s.running && !s.allStopped then 4
  else if t = 2 && s.running && s.linkOn then 5
  else if s.cmdBusy t then 6
  else 0

/-- An accepted PWR_CMD (R465 to R469, R438): out of SLEEP it is a wake request; into SLEEP a running gaffer goes at its next tick
edge; OFF saves first where LEHR_EN is set. -/
def cmdAccept (s : State) (t : Nat) : State :=
  let s := (s.put Fld.PWR_STATUS_ERR 0).putB Fld.PWR_STATUS_BUSY true
  if s.pstate = 2 then (if s.linkOn then wakeRequest s else wakeAsked s)
  else
    let s := { s with pwr := { s.pwr with target := some t } }
    if t = 2 then
      let s := s.put Fld.PWR_STATUS_PREV s.pstate
      { s with pwr := { s.pwr with wake := false } }
    else if t = 0 && s.flag Fld.PWR_STATUS_LEHR_EN then lehrSaveStart s 2
    else s

/-- A write of PWR_CMD with a TARGET (R465). -/
def pwrCmdWrite (s : State) (t : Nat) : State :=
  let e := s.cmdErr t
  if e = 0 then cmdAccept s t else cmdRefuse s e

/-- PWR_CMD_RUN (R465, R468). -/
def execPwrCmdRun (s : State) : Host.Outcome State Fault Refusal :=
  act s fun s => if s.served Reg.PWR_CMD then pwrCmdWrite s 4 else s

/-- PWR_CMD_IDLE (R465, R468). -/
def execPwrCmdIdle (s : State) : Host.Outcome State Fault Refusal :=
  act s fun s => if s.served Reg.PWR_CMD then pwrCmdWrite s 3 else s

/-- PWR_CMD_SLEEP (R465, R466). -/
def execPwrCmdSleep (s : State) : Host.Outcome State Fault Refusal :=
  act s fun s => if s.served Reg.PWR_CMD then pwrCmdWrite s 2 else s

/-- PWR_CMD_STANDBY (R465). -/
def execPwrCmdStandby (s : State) : Host.Outcome State Fault Refusal :=
  act s fun s => if s.served Reg.PWR_CMD then pwrCmdWrite s 1 else s

/-- PWR_CMD_OFF (R469). -/
def execPwrCmdOff (s : State) : Host.Outcome State Fault Refusal :=
  act s fun s => if s.served Reg.PWR_CMD then pwrCmdWrite s 0 else s

/-- SLEEP can be entered: queued records are written, and dispatched descriptors that can reach their points of no return without a
tick, a fence or the outside have (R437, R466; log entry 26). -/
def State.sleepReady (s : State) : Bool :=
  s.ring.recs.isEmpty && (!s.running || s.vxl.sleeping) &&
    !(s.ring.flight.any fun d => (d.stage = .dispatched || d.stage = .active) && [0x03, 0x07, 0x0A, 0x0D].contains d.opcode)

/-- The PLLs that lock again when clocks return (Table 20.3, R468): without the marvers' in IDLE. A slave's tick PLL locks to the
crystal after an agreed sleep, else it waits for a beacon (R440, R441). -/
def relock (s : State) (run : Bool) : State :=
  let s := ((s.putB Fld.PWR_PLL_FABRIC true).putB Fld.PWR_PLL_MEM true).putB Fld.PWR_PLL_USB true
  let s := (s.putB Fld.PWR_PLL_VXLTX true).put Fld.PWR_PLL_NCLK (if run then 0xFFFF else 0)
  if s.isSlave && s.linkState ≠ 5 then s else tickLocked s false

/-- The PLLs that stand still in SLEEP and STANDBY (Table 20.3). -/
def unlock (s : State) : State := s.setReg Reg.PWR_PLL (s.reg Reg.PWR_PLL &&& 0x01100000)

/-- The new state is reached (R465). -/
def reached (s : State) (t : Nat) : State :=
  let s := (s.put Fld.PWR_STATUS_STATE t).putB Fld.PWR_STATUS_BUSY false
  ({ s with pwr := { s.pwr with target := none } }).irqF Fld.PWR_IRQ_STATUS_DONE

/-- What OFF leaves: the lehr and the VIN monitor (R469). -/
def offState (s : State) : State :=
  let t := (coldState s 1).put Fld.PWR_STATUS_STATE 0
  { t with pwr := { t.pwr with hold := .off } }

/-- PWR_TRANSITION_DONE: a transition in progress reaches its state (R463, R465 to R469, Table 20.1). -/
def execPwrTransitionDone (s : State) : Host.Outcome State Fault Refusal :=
  act s fun s =>
    match s.pwr.target, s.pstate with
    | none, _ => s
    | some 0, _ => if s.pwr.image.isEmpty then offState s else s
    | some 1, _ => reached (unlock (usbDetach (tmrSuspend (clearReadies s (List.range 19))))) 1
    | some 2, _ => if s.sleepReady then reached (unlock (usbDetach (tmrSuspend s))) 2 else s
    | some t, 2 =>
      let s := (reached (relock s (t = 4)) t).pbaFlushAll
      if s.tel.haltReq && !s.running then haltEnter s else s
    | some t, 1 =>
      let s := reached (relock (standbyState s) false) t
      (restoreReadies s ((List.range 19).filter fun b => b ≠ 16 && !idleOff.contains b)).pbaFlushAll
    | some 3, _ => clearReadies ((reached s 3).put Fld.PWR_PLL_NCLK 0) idleOff
    | some t, _ => restoreReadies ((reached s t).put Fld.PWR_PLL_NCLK 0xFFFF) idleOff

/-! ### Warm resets (R473, Table 20.4) -/

/-- XTAL stops: every module is disabled, and a warm reset holds until XTAL runs again (Table 20.4). -/
def xtalLost (s : State) : State :=
  let s := warmState (tickLost (pwmDisableAll s 3)) 9 false
  let s := s.setReg Reg.PWR_PLL (s.reg Reg.PWR_PLL &&& 0x00100000)
  { s with pwr := { s.pwr with hold := .xtal } }

/-- The fabric PLL loses lock: a warm reset with cause PLL (Table 20.4). -/
def fabricLost (s : State) : State := (warmState s 8 false).putB Fld.PWR_PLL_FABRIC false

/-- WARM_RESET: a warm reset and its cause (R473, R475). -/
def execWarmReset (cause : WarmCause) (s : State) : Host.Outcome State Fault Refusal :=
  act s fun s =>
    match cause with
    | .hotReset => warmState s 5 true
    | .flr => warmState s 6 true
    | .soft => warmState s 7 false
    | .fabricPll => fabricLost s
    | .xtal => xtalLost s

/-- A write of PWR_CTRL: WARM = 1 causes a warm reset (R473). -/
def pwrCtrlWrite (s : State) (v : Word) : State := if Fld.PWR_CTRL_WARM.get v = 1 then warmState s 7 false else s

/-- PWR_CTRL_WARM: a write of PWR_CTRL with WARM = 1 (R473). -/
def execPwrCtrlWarm (s : State) : Host.Outcome State Fault Refusal :=
  act s fun s => if s.served Reg.PWR_CTRL then pwrCtrlWrite s 0x80000000 else s

/-! ### PLLs (R44, R471) -/

/-- A PLL that was locked loses lock, and the device is not reset: PLL_LOST is set (R471). -/
def pllLost (s : State) (f : Field) (react : State → State) : State :=
  if s.get f = 0 then s else (react (s.put f 0)).irqF Fld.PWR_IRQ_STATUS_PLL_LOST

/-- The tick PLL loses lock (R44); a slave acquires (R441). -/
def tickPllLost (s : State) : State :=
  if !s.flag Fld.PWR_PLL_TICK then s
  else (if s.isSlave then acquire s else tickLost s).irqF Fld.PWR_IRQ_STATUS_PLL_LOST

/-- PLL_LOCK_ACQUIRED (R44, R471, Table 20.4): with XTAL the warm reset that its loss holds ends. A slave's tick PLL locks to a
beacon (R441). -/
def execPllLockAcquired (p : Pll) (s : State) : Host.Outcome State Fault Refusal :=
  let s := match p, s.pwr.hold with
    | .xtal, .xtal => { s with pwr := { s.pwr with hold := .running } }
    | _, _ => s
  act s fun s =>
    match p with
    | .xtal => s.putB Fld.PWR_PLL_XTAL_OK true
    | .tick => if s.isSlave then s else tickLocked s false
    | .fabric => s.putB Fld.PWR_PLL_FABRIC true
    | .nclk m => s.put ⟨Reg.PWR_PLL, m.val, m.val⟩ 1
    | .mem => s.putB Fld.PWR_PLL_MEM true
    | .usb => s.putB Fld.PWR_PLL_USB true
    | .pcie => s.putB Fld.PWR_PLL_PCIE true
    | .vxltx => s.putB Fld.PWR_PLL_VXLTX true

/-! ### Cold resets and the sag response (R472, R477, R478, R539) -/

/-- The device enters cold reset, and stays there until the release (R472). -/
def enterCold (s : State) (cause : Nat) : State :=
  match s.pwr.hold with
  | .running => coldState s cause
  | .xtal => coldState s cause
  | .off => coldState s cause
  | .cold => s
  | .sagSave => s
  | .sagHold => s

/-- COLD_RESET: a cause of a cold reset (R472). The first cause of a hold is the cause shown (R475); a save runs to its end before the
sag hold turns into a cold reset (R477, R478). The fuse read of a cold reset with valid supplies ends the high-impedance interval of
the pins (R277, R538). -/
def execColdReset (cause : ColdCause) (s : State) : Host.Outcome State Fault Refusal :=
  .next (match cause with
    | .supplies =>
      let held := s.pwr.hold = .sagSave || s.pwr.hold = .sagHold
      enterCold { s with pwr := { s.pwr with supplies := true, driven := s.pwr.driven || !held } } 1
    | .perst => enterCold { s with pwr := { s.pwr with perst := true } } 2
    | .sagHold => if s.pwr.hold = .sagHold then coldState s 3 else s)

/-- VIN, in 20 mV, is below PWR_VWARN: VWARN shows it, and its status bit sets when VIN falls below (R478). -/
def vwarnEval (s : State) (fell : Bool) : State :=
  let below := decide (s.get Fld.PWR_VMON_VIN < s.get Fld.PWR_VWARN_TH)
  let was := s.flag Fld.PWR_STATUS_VWARN
  let s := s.putB Fld.PWR_STATUS_VWARN below
  if fell && below && !was then s.irqF Fld.PWR_IRQ_STATUS_VWARN else s

/-- VHOLD, in 20 mV: HOLD_OK is 1 from 11.0 V, and HOLD_LOW sets when it falls to 0 (R482, Table 20.10). -/
def vholdSet (s : State) (vhold : Nat) : State :=
  let ok := decide (550 ≤ vhold)
  let was := s.flag Fld.PWR_STATUS_HOLD_OK
  let s := (s.put Fld.PWR_VMON_VHOLD vhold).putB Fld.PWR_STATUS_HOLD_OK ok
  if was && !ok then s.irqF Fld.PWR_IRQ_STATUS_HOLD_LOW else s

/-- COLD_RESET_RELEASE: a cold reset is released with these strap pins, VIN and VHOLD in 20 mV, PERST# being deasserted: VIN is at
least VSAG + 0.30 V, the supplies are valid, and with LEHR_EN VHOLD is at least 11.0 V (R38, R472). -/
def execColdResetRelease (strap : Fin 8) (vin vhold : BitVec 10) (s : State) : Host.Outcome State Fault Refusal :=
  let vinOk := decide (8300 + 50 * s.get Fld.PWR_VSAG_CODE ≤ 20 * vin.toNat)
  let holdOk := !s.flag Fld.PWR_STATUS_LEHR_EN || decide (550 ≤ vhold.toNat)
  .next (if s.pwr.hold = .cold && s.pwr.supplies && vinOk && holdOk then
      let s := { s with pwr := { s.pwr with hold := .running, perst := false } }
      let s := (loadStrap s strap).put Fld.PWR_VMON_VIN vin.toNat
      vwarnEval (vholdSet s vhold.toNat) false
    else s)

/-- SUPPLY_INVALID: a supply other than VIN, VHOLD, SPKVDD and VFPROG is below its valid threshold for 1 µs (R539); without
VDDIO33 the pins are high-impedance until the next fuse read (R277, R478). -/
def execSupplyInvalid (vddio : Bool) (s : State) : Host.Outcome State Fault Refusal :=
  .next (enterCold { s with pwr := { s.pwr with supplies := false, driven := s.pwr.driven && vddio } } 1)

/-- The sag cycle (R477): outputs off, the port pins released, the host link dropped, a program operation stopped, a transition
abandoned; then the save, or the hold. -/
def vinSag (s : State) : State :=
  let s := (List.range 7).foldl (fun s m => pwmDisable s m 1) s
  let s := twbRelease (twbRelease (audStopAll (valvesOff s)) 0) 1
  let s := stopProgram (s.setReg Reg.RING_LINK 0)
  let s := { (s.putB Fld.PWR_STATUS_BUSY false) with pwr := { s.pwr with target := none } }
  if !s.pwr.image.isEmpty then { s with pwr := { s.pwr with hold := .sagSave } }
  else if s.flag Fld.PWR_STATUS_LEHR_EN then
    let s := lehrSaveStart s 1
    { s with pwr := { s.pwr with hold := .sagSave } }
  else { s with pwr := { s.pwr with hold := .sagHold } }

/-- VIN_SAG: VIN is below VSAG for 1.0 µs, in any power state but OFF (R477, R478); in the hold that a sag began it starts no second
save. -/
def execVinSag (s : State) : Host.Outcome State Fault Refusal :=
  .next (match s.pwr.hold with
    | .running => vinSag s
    | .xtal => vinSag s
    | .cold => vinSag s
    | .off => s
    | .sagSave => s
    | .sagHold => s)

/-- LEHR_SAVE_DONE: the save in progress ends: whole, or cut after `n` bytes by the loss of VHOLD; after a sag the hold follows (R477,
R478, R480). -/
def execLehrSaveDone (cut : Option Nat) (s : State) : Host.Outcome State Fault Refusal :=
  .next (if s.pwr.image.isEmpty then s
    else
      let s := lehrSaveEnd s cut
      if s.pwr.hold = .sagSave then { s with pwr := { s.pwr with hold := .sagHold } } else s)

/-- VIN_WARN: VIN crosses PWR_VWARN and now reads `vin`, in 20 mV (R478). -/
def execVinWarn (vin : BitVec 10) (s : State) : Host.Outcome State Fault Refusal :=
  act s fun s => vwarnEval (s.put Fld.PWR_VMON_VIN vin.toNat) true

/-- HOLD_LOW: VHOLD crosses 11.0 V and now reads `vhold`, in 20 mV (R482). -/
def execHoldLow (vhold : BitVec 10) (s : State) : Host.Outcome State Fault Refusal :=
  act s fun s => vholdSet s vhold.toNat

end Sys2Proof.Machine
end

