-- ==== Sys2Proof/Machine/Fuses.lean ====
section
/-!
DEFINITION. Writes of the fuse shadows, fuse programming, boundary scan (chapter 21, R491 to R498).
-/
namespace Sys2Proof.Machine

/-! ### Shadows (R491 to R493, Table 21.2) -/

/-- The BAR0 offset of a shadow (Table 21.3). -/
def shadowOff (r : FuseShadow) : Nat :=
  match r with
  | .cfg => Reg.FUS_CFG
  | .dislvl0 => Reg.FUS_DISLVL0
  | .dislvl1 => Reg.FUS_DISLVL1
  | .axis n => Reg.FUS_AXIS n
  | .fmax n => Reg.FUS_FMAX n
  | .fpeak p => Reg.FUS_FPEAK p

/-- The outputs are still: the gaffer is stopped, no PWMAn is enabled, every valve channel is OFF (R492, R496). -/
def State.outputsOff (s : State) : Bool :=
  !s.running && (List.range 6).all (fun n => !s.flag (Fld.PWM_STATUS_EN n)) && (List.range 8).all fun c => s.vState c = 0

/-- The registers that depend on the ceilings and the dead-time floor of axis n are clamped against them (Table 21.2). -/
def clampAxis (s : State) (n : Nat) : State :=
  let s := if s.get (Fld.FUS_AXIS_OC_CEIL n) < s.get (Fld.SNS_TRIPOC_TH n) then
      (s.put (Fld.SNS_TRIPOC_TH n) (s.get (Fld.FUS_AXIS_OC_CEIL n))).putB (Fld.SNS_TRIPOC_CLAMPED n) true else s
  let s := if s.get (Fld.FUS_AXIS_OV_CEIL n) < s.get (Fld.SNS_TRIPOV_TH n) then
      (s.put (Fld.SNS_TRIPOV_TH n) (s.get (Fld.FUS_AXIS_OV_CEIL n))).putB (Fld.SNS_TRIPOV_CLAMPED n) true else s
  if s.get (Fld.PWM_DT_DT n) < s.get (Fld.FUS_AXIS_DTFLOOR n) then
    (s.put (Fld.PWM_DT_DT n) (s.get (Fld.FUS_AXIS_DTFLOOR n))).putB (Fld.PWM_DT_CLAMPED n) true else s

/-- CTL_DMAX follows a lowered FMAX (Table 21.2). -/
def clampDmax (s : State) (n : Nat) : State :=
  if s.get (Fld.FUS_FMAX_FMAX n) < s.get (Fld.CTL_DMAX_DMAX n) then
    (s.put (Fld.CTL_DMAX_DMAX n) (s.get (Fld.FUS_FMAX_FMAX n))).putB (Fld.CTL_DMAX_CLAMPED n) true else s

/-- VLV_FPEAK shows FPEAK of pair p, and the IPEAK of its channels follow (Table 21.2). -/
def clampPeak (s : State) (p : Nat) : State :=
  let lim := s.get (Fld.FUS_FPEAK_FPEAK p)
  let s := s.put (Fld.VLV_FPEAK_FPEAK p) lim
  [2 * p, 2 * p + 1].foldl (fun s c =>
    if lim < s.get (Fld.VLV_LEVELS_IPEAK c) then
      (s.put (Fld.VLV_LEVELS_IPEAK c) lim).putB (Fld.VLV_LEVELS_CLAMPED c) true else s) s

/-- A write of a shadow: read-only after the lock (R493); the disable levels only while the outputs are off (R492); an unlisted
encoding is ignored (R23); what depends on the shadow follows (Table 21.2). -/
def shadowWrite (s : State) (r : FuseShadow) (v : Word) : Option State :=
  if s.flag Fld.FUS_STATUS_PROT_LOCKED then none
  else match r with
    | .cfg => (storeWord s Reg.FUS_CFG v).map fun s =>
        (s.put Fld.PWR_STATUS_LEHR_EN (s.get Fld.FUS_CFG_LEHR_EN)).put Fld.PWR_VSAG_CODE (s.get Fld.FUS_CFG_VSAG)
    | .dislvl0 => if s.outputsOff then storeWord s Reg.FUS_DISLVL0 v else some (s.irqF Fld.FUS_IRQ_STATUS_WREFUSED)
    | .dislvl1 => if s.outputsOff then storeWord s Reg.FUS_DISLVL1 v else some (s.irqF Fld.FUS_IRQ_STATUS_WREFUSED)
    | .axis n => (storeWord s (Reg.FUS_AXIS n) v).map fun s => compare (clampAxis s n) n
    | .fmax n => (storeWord s (Reg.FUS_FMAX n) v).map fun s => clampDmax s n
    | .fpeak p => (storeWord s (Reg.FUS_FPEAK p) v).map fun s => clampPeak s p

/-- FUSE_SHADOW_WRITE (R491). -/
def execFuseShadowWrite (r : FuseShadow) (v : Word) (s : State) : Host.Outcome State Fault Refusal :=
  act s fun s => if s.served (shadowOff r) then (shadowWrite s r v).getD s else s

/-! ### Programming (R496 to R498) -/

/-- R498: after the lock a word or a bit of it is refused. -/
def State.fuseLocked (s : State) (w : Nat) (data : Word) : Bool :=
  s.flag Fld.FUS_STATUS_PROT_LOCKED &&
    if w = 0 then (data &&& (0x1A ^^^ 0xFFFFFFFF) &&& (s.reg (Reg.FUS_RAW 0) ^^^ 0xFFFFFFFF)) ≠ 0
    else if w ≤ 13 then true
    else
      let k := if w < 24 then 0 else 1
      !(s.fus.blank k && s.fus.bits 0 (3 + k) (3 + k) = 0)

/-- The first check of R496 that fails; 0 when none does. -/
def State.programErr (s : State) (key : Nat) : Nat :=
  let w := s.get Fld.FUS_PADDR_WORD
  let data := s.reg Reg.FUS_PDATA
  if key ≠ 0x4655 then 1
  else if s.flag Fld.FUS_PSTAT_BUSY then 2
  else if !s.outputsOff then 3
  else if !s.flag Fld.FUS_STATUS_VPROG_OK then 4
  else if (data &&& (BitVec.ofNat 32 (fuseListed w) ^^^ 0xFFFFFFFF)) ≠ 0 || fuseReserved w then 5
  else if s.fuseLocked w data then 6
  else 0

/-- A write of FUS_PCMD with GO = 1 and a KEY: a program operation starts, or is refused with its ERR (R496). -/
def programGo (s : State) (key : Nat) : State :=
  let e := s.programErr key
  if e ≠ 0 then (s.put Fld.FUS_PSTAT_ERR e).irqF Fld.FUS_IRQ_STATUS_PROG_ERR
  else
    let s := (s.put Fld.FUS_PSTAT_ERR 0).putB Fld.FUS_PSTAT_BUSY true
    { s with fus := { s.fus with prog := some (s.get Fld.FUS_PADDR_WORD, s.reg Reg.FUS_PDATA) } }

/-- A write of FUS_PCMD. -/
def pcmdWrite (s : State) (v : Word) : State :=
  if Fld.FUS_PCMD_GO.get v = 1 then programGo s (Fld.FUS_PCMD_KEY.get v) else s

/-- FUSE_PROGRAM: a write of FUS_PCMD with GO = 1 and this KEY, the VFPROG supply being valid or not (R496). -/
def execFuseProgram (key : BitVec 16) (vprog : Bool) (s : State) : Host.Outcome State Fault Refusal :=
  act s fun s =>
    let s := s.putB Fld.FUS_STATUS_VPROG_OK vprog
    if s.served Reg.FUS_PCMD then programGo s key.toNat else s

/-- FUSE_PROGRAM_DONE: the operation in progress ends: each requested bit is blown in each copy but where it sensed 0 after its three
pulses; FUS_RAW takes the sensed word; a bit that senses 0 in both copies is a VERIFY error (R497). -/
def execFuseProgramDone (r : Programmed) (s : State) : Host.Outcome State Fault Refusal :=
  act s fun s =>
    match s.fus.prog with
    | none => s
    | some (w, data) =>
      let f := s.fus
      let a := sget 0 f.a w ||| (data &&& (r.failA ^^^ 0xFFFFFFFF))
      let b := sget 0 f.b w ||| (data &&& (r.failB ^^^ 0xFFFFFFFF))
      let s := { s with fus := { f with a := sset 0 f.a w a, b := sset 0 f.b w b, prog := none } }
      let s := (s.setReg (Reg.FUS_RAW w) (a ||| b)).putB Fld.FUS_PSTAT_BUSY false
      let s := (s.put Fld.FUS_PSTAT_PULSES r.pulses.toNat).irqF Fld.FUS_IRQ_STATUS_PROG_DONE
      if (data &&& ((a ||| b) ^^^ 0xFFFFFFFF)) ≠ 0 then (s.put Fld.FUS_PSTAT_ERR 7).irqF Fld.FUS_IRQ_STATUS_PROG_ERR else s

/-- FUS_SIGCNT_CLR (Table 21.3). -/
def execFusSigcntClr (s : State) : Host.Outcome State Fault Refusal :=
  act s fun s => if s.served Reg.FUS_SIGCNT_CLR then s.clrReg Reg.FUS_SIGCNT else s

/-! ### Boundary scan (R494, R495) -/

/-- An instruction drives output pins from the boundary-scan cells: with the debug lock a code that is not mandatory nor CLAMP acts as
BYPASS (R494, R495). -/
def State.scanDrives (s : State) (i : ScanInstr) : Bool :=
  match i with
  | .bypass => false
  | .samplePreload => false
  | .idcode => false
  | .extest => true
  | .clamp => true
  | .other drives => drives && !s.flag Fld.GLB_CAPS_DEBUG_LOCKED

/-- BOUNDARY_SCAN_INSTRUCTION: instruction `i` is loaded with these cells (bit `6 n + i` for pin i of PWMAn, `36 + c` for VLVGc, `44 + p`
for HSWGp): pins follow their cells, or the device (R494, R495). It acts in every reset too. -/
def execBoundaryScanInstruction (i : ScanInstr) (cells : Vector Bool 48) (s : State) : Host.Outcome State Fault Refusal :=
  .next { s with scan := if s.scanDrives i then some cells.toList else none }

end Sys2Proof.Machine
end

