-- ==== Sys2Proof/Machine/Registers.lean ====
section
/-!
DEFINITION. Host reads and writes of BAR0 (R8, R23, R24, R526 to R530, R552) and CFG batches (R531 to R533, R553).
-/
namespace Sys2Proof.Machine

/-! ### Reads -/

/-- A word of a byte list. -/
def wordAt (l : List Byte) (o : Nat) : Word := BitVec.ofNat 32 (fieldAt l o 4)

/-- A marver runs an action, a slice or a reheat (Table 5.12). -/
def State.mrvBusy (s : State) (m : Nat) : Bool :=
  let x := s.mrvAt m
  x.slice.isSome || x.reheat.isSome || s.runs.any fun r => r.marver = m && r.out.isNone

/-- Bit k: channel k has a status bit set that its TMR_IEN enables (Table 12.4). -/
def State.tmrSum (s : State) : Nat :=
  ((List.range 16).filter fun k => (s.reg (Reg.TMR_STATUS k) &&& s.reg (Reg.TMR_IEN k)) ≠ 0).foldl orBit 0

/-- VXL_STATUS: WAKE_LOW shows the pin; in SLEEP only STATE and WAKE_LATCH are returned (R467, Table 18.4). -/
def State.vxlStatus (s : State) : Word :=
  if s.pstate = 2 then s.reg Reg.VXL_STATUS &&& 0x20070000
  else Fld.VXL_STATUS_WAKE_LOW.put (s.reg Reg.VXL_STATUS) (if s.cyc < s.vxl.wakeUntil then 1 else 0)

/-- What a BAR0 word reads as when its block answers: a register, a bank image (Table 2.19), the lehr window (R481), the log
window (Table 22.6), or 0 at a reserved offset (R23). -/
def State.readWord (s : State) (off : Nat) : Word :=
  if off = Reg.GAF_DTIME_LO then BitVec.ofNat 32 s.dtime.toNat
  else if off = Reg.GAF_DTIME_HI then BitVec.ofNat 32 (s.dtime.toNat / 2 ^ 32)
  else if 0x14000 ≤ off ∧ off < 0x144C0 then wordAt s.gaf.bankA (off - 0x14000)
  else if 0x16000 ≤ off ∧ off < 0x164C0 then wordAt s.gaf.bankB (off - 0x16000)
  else if off = Reg.TMR_IRQ_SUM then BitVec.ofNat 32 s.tmrSum
  else if off = Reg.VXL_STATUS then s.vxlStatus
  else if 0x12C000 ≤ off ∧ off < 0x130000 then
    if s.ready 19 then wordAt (bytesAt s.pwr.mram (s.get Fld.LEHR_PAGE_PAGE * 0x4000 + (off - 0x12C000)) 4) 0 else 0
  else if 0x148000 ≤ off ∧ off < 0x150000 then
    wordAt (s.logEntry (1024 * s.get Fld.LOG_PAGE_PAGE + (off - 0x148000) / 32)) (off % 32)
  else match (List.range 16).find? fun m => off = Reg.MRV_STATE m with
    | some m => (Fld.MRV_STATE_BUSY m).put (s.reg off) (if s.mrvBusy m then 1 else 0)
    | none => match (List.range 7).find? fun m => off = Reg.PWM_STATUS m with
      | some m => (Fld.PWM_STATUS_COUNT m).put (s.reg off) (s.pwmCount m)
      | none => s.reg off

/-- The registers wider than 32 bits, by the offset of their low word (R8). -/
def wideLow (off : Nat) : Bool :=
  off ∈ [Reg.GAF_SWTICK_LO, Reg.GAF_TICKNO_LO, Reg.GAF_DTIME_LO, Reg.GAF_EDGE_LO, Reg.FEN_HSIG_LO, Reg.OBS_COL_TICK_LO,
    Reg.OBS_COL_SCORE_LO, Reg.TMR_GSTAMP_LO, Reg.MIX_FEATSEQ_LO, Reg.VIS_CAP_BASE_LO, Reg.USB_SOFSTAMP_LO, Reg.VXL_RXBASE_LO,
    Reg.VXL_SLPTICK_LO, Reg.MEM_WINBASE_LO, Reg.MEM_ERRADDR_LO, Reg.LOG_MBASE_LO, Reg.LOG_MWB_LO, Reg.LOG_HALTSTAMP_LO] ||
  (List.range 16).any (fun k => off = Reg.FEN_WATCH_THRESH_LO k || off = Reg.TMR_COUNT_LO k || off = Reg.TMR_RELOAD_LO k ||
    off = Reg.TMR_CMP0_LO k || off = Reg.TMR_CMP1_LO k || off = Reg.TMR_CAPR_LO k || off = Reg.TMR_CAPF_LO k) ||
  (List.range 32).any (fun k => off = Reg.FEN_EVT_BASE_LO k) ||
  (List.range 6).any (fun n => off = Reg.CTL_POS_LO n || off = Reg.CTL_FERR_LO n) ||
  (List.range 7).any (fun m => off = Reg.PWM_EVSTAMP_LO m) ||
  (decide (0x32000 ≤ off) && decide (off < 0x34000) && off % 8 = 0)

/-- The capture that an offset is the low word of: its channel, and whether it is the falling one (R306). -/
def capLow (off : Nat) : Option (Nat × Bool) :=
  match (List.range 16).find? fun k => off = Reg.TMR_CAPR_LO k with
  | some k => some (k, false)
  | none => ((List.range 16).find? fun k => off = Reg.TMR_CAPF_LO k).map fun k => (k, true)

/-- A host read of one BAR0 word (R8, R23, R467, R476, R530): the word, and what the read does. -/
def hostRead (s : State) (off : Nat) : Word × State :=
  if !s.served off then (0, s)
  else if off = Reg.MRV_IRQ_SRC then (s.reg off, s.setReg off 0)
  else match capLow off with
    | some (k, falling) => (s.reg off, capRead s k falling)
    | none =>
      if wideLow off then (s.readWord off, { s with latch := sset none s.latch (off + 4) (some (s.readWord (off + 4))) })
      else match sget none s.latch off with
        | some v => (v, { s with latch := sset none s.latch off none })
        | none => (s.readWord off, s)

/-- A BAR0 read of one or two words, the lower word first (R528, R529); any other access completes with Unsupported Request, which
returns no data. -/
def bar0Read (s : State) (off : Nat) (two : Bool) : State :=
  if off % (if two then 8 else 4) ≠ 0 then { s with rdata := [] }
  else
    let (a, s) := hostRead s off
    if two then
      let (b, s) := hostRead s (off + 4)
      { s with rdata := leBytes 4 a.toNat ++ leBytes 4 b.toNat }
    else { s with rdata := leBytes 4 a.toNat }

/-- WIDE_LOW_WORD_READ: a host read of registers, of one word or of two. It stands for every read of BAR0, BAR2 or the configuration
space that has no row of its own; the low word of a BAR0 register wider than 32 bits latches the high word (R8, R66, R77, R528 to
R530). -/
def execWideLowWordRead (at_ : HostReg) (two : Bool) (s : State) : Host.Outcome State Fault Refusal :=
  act s fun s =>
    match at_ with
    | .bar0 off => bar0Read s off.toNat two
    | .bar2 off =>
      let l := leBytes 4 (s.bar2Word off.toNat).toNat
      { s with rdata := if two then l ++ leBytes 4 (s.bar2Word (off.toNat + 4)).toNat else l }
    | .config r =>
      let (v, s) := configRead s r
      { s with rdata := leBytes 4 v.toNat }

/-! ### Writes -/

/-- A write that is taken or ignored (R23). -/
def optWrite (s : State) (o : Option State) : State × Bool := (o.getD s, o.isSome)

/-- A write that is ignored while `stop` holds, else stored. -/
def gatedStore (s : State) (stop : Bool) (off : Nat) (v : Word) : State × Bool :=
  if stop then (s, false) else optWrite s (storeWord s off v)

/-- A write that was ignored leaves the register without the written value. -/
def tookWrite (t : State) (off : Nat) (d : RegDesc) (old v : Word) : State × Bool := (t, t.reg off = d.stored old v)

/-- A write with a CLR bit in bit 31. -/
def clrWrite (s : State) (v : Word) (f : State → State) : State × Bool := (if bitOf v.toNat 31 then f s else s, true)

/-- An RWS register of the SNS, OBS or CTL block: with the gaffer stopped the active value loads at once (R24, R553). -/
def shadowStore (s : State) (off : Nat) (v : Word) : State × Bool :=
  match storeWord s off v with
  | none => (s, false)
  | some t => (if t.running then t else loadShadow t off, true)

/-- GAF (chapter 2). -/
def writeGaf (s : State) (off k : Nat) (v : Word) : State × Bool :=
  if off = Reg.GAF_CTRL then (gafCtrlWrite s v, true)
  else if off = Reg.GAF_SWITCH then (gafSwitchWrite s v, true)
  else if off = Reg.GAF_TICKNO_LO ∨ off = Reg.GAF_TICKNO_HI then optWrite s (gafTicknoWrite s off v)
  else if off = Reg.GAF_ACT_CNT k then clrWrite s v fun s => actionClr s k
  else optWrite s (storeWord s off v)

/-- RING (Tables 3.14 and 3.15). -/
def writeRing (s : State) (off n : Nat) (v : Word) : State × Bool :=
  if off = Reg.RING_ABORT then (ringAbortWrite s v, true)
  else if off = Reg.SQ_CFG n then (sqCfgWrite s n v, true)
  else if off = Reg.CQ_CFG n then (cqCfgWrite s n v, true)
  else if off = Reg.SQ_BASE_LO n ∨ off = Reg.SQ_BASE_HI n then gatedStore s (s.sqActive n) off v
  else if off = Reg.SQ_SEQ n then gatedStore s (s.flag (Fld.SQ_CFG_EN n)) off v
  else if off = Reg.CQ_BASE_LO n ∨ off = Reg.CQ_BASE_HI n then gatedStore s (s.flag (Fld.CQ_CFG_EN n)) off v
  else if off = Reg.MSIX_CTRL n then ((s.store off v).pbaFlush n, true)
  else optWrite s (storeWord s off v)

/-- FEN (R132, R552): the rows of VALUE and STATE take no write but that of POISON_ON_FAIL (R109). -/
def writeFen (s : State) (off k : Nat) (d : RegDesc) (v : Word) : State × Bool :=
  if Reg.FEN_VALUE_LO 0 ≤ off then optWrite s (storeWord s off v)
  else if off = Reg.FEN_HSIG_CMD then (fenHsigCmd s v, true)
  else if off = Reg.FEN_STALE then clrWrite s v fun s => s.clrField Fld.FEN_STALE_COUNT
  else if off = Reg.FEN_WATCH k then (fenWatchWrite s k .control v, true)
  else if off = Reg.FEN_WATCH_THRESH_LO k then (fenWatchWrite s k .threshLo v, true)
  else if off = Reg.FEN_WATCH_THRESH_HI k then (fenWatchWrite s k .threshHi v, true)
  else if off = Reg.FEN_EVT k then tookWrite (fenEvtWrite s k v) off d (s.reg off) v
  else if off = Reg.FEN_EVT_BASE_LO k ∨ off = Reg.FEN_EVT_BASE_HI k then gatedStore s (s.flag (Fld.FEN_EVT_EN k)) off v
  else optWrite s (storeWord s off v)

/-- MRV (R159, R182). -/
def writeMrv (s : State) (off m : Nat) (d : RegDesc) (v : Word) : State × Bool :=
  if off = Reg.MRV_DVFS m then tookWrite (mrvDvfsWrite s m v) off d (s.reg off) v
  else if off = Reg.MRV_CNT_CLR m then clrWrite s v fun s => mrvCntClr s m
  else if off = Reg.MRV_FENCE m then clrWrite s v fun s => mrvFenceWrite s m
  else optWrite s (storeWord s off v)

/-- OBS (R230). -/
def writeObs (s : State) (off n : Nat) (d : RegDesc) (v : Word) : State × Bool :=
  if off = Reg.OBS_TSLOW n then (obsTslowWrite s n v, true)
  else if off = Reg.OBS_CTRL n then
    let s := if (Fld.OBS_CTRL_THLOAD n).get v = 1 then obsThload s n else s
    clrWrite s v fun s => obsCntClr s n
  else if d.rws = 0 then optWrite s (storeWord s off v)
  else shadowStore s off v

/-- SNS (R185, R197, R201). -/
def writeSns (s : State) (off n : Nat) (d : RegDesc) (v : Word) : State × Bool :=
  if off = Reg.MOD_CFG n then tookWrite (modCfgWrite s n v) off d (s.reg off) v
  else if off = Reg.MOD_CNT_CLR n then clrWrite s v fun s => s.clrReg (Reg.MOD_CNT n)
  else if off = Reg.SNS_TRIPOC n then (tripThresholdWrite s n false v, true)
  else if off = Reg.SNS_TRIPOV n then (tripThresholdWrite s n true v, true)
  else if off = Reg.SNS_CNT_CLR n then clrWrite s v fun s => s.clrReg (Reg.SNS_CNT n)
  else if d.rws = 0 then optWrite s (storeWord s off v)
  else shadowStore s off v

/-- CTL (R243, R246, R247): a refused coefficient is not taken. -/
def writeCtl (s : State) (off n : Nat) (d : RegDesc) (v : Word) : State × Bool :=
  if off ∈ coefRegs n then
    let w := d.stored (s.reg off) v
    let t := coefWrite s n off w
    (t, t.get (Fld.CTL_CNT2_REFUSED n) = s.get (Fld.CTL_CNT2_REFUSED n) && t.reg off = w)
  else if off = Reg.CTL_DMAX n then
    (ctlDmaxWrite s n v, decide (0x8000 ≤ (Fld.CTL_DMAX_DMAX n).get v))
  else if off = Reg.CTL_POS_LO n ∨ off = Reg.CTL_POS_HI n then gatedStore s (decide (s.slotState n ≠ 0)) off v
  else if off = Reg.CTL_CNT_CLR n then clrWrite s v fun s => ctlCntClr s n
  else optWrite s (storeWord s off v)

/-- PWM (R279). -/
def writePwm (s : State) (off : Nat) (v : Word) : State × Bool :=
  let m := off % 0x10000 / 0x100 - 0x10
  if off < Reg.PWM_CFG 0 then optWrite s (storeWord s off v)
  else if off = Reg.PWM_CFG m then (pwmCfgWrite s s.axesInPlan m v, true)
  else if off = Reg.PWM_PERIOD m then (pwmPeriodWrite s m v, true)
  else if off = Reg.PWM_DT m then (pwmDtWrite s m v, true)
  else if off = Reg.PWM_CTRL m then (if (Fld.PWM_CTRL_DIS m).get v = 1 then pwmDisable s m 7 else s, true)
  else if off = Reg.PWM_TRIP m then (tripLatchClear s m v, true)
  else if off = Reg.PWM_CNT_CLR m then clrWrite s v fun s => s.clrReg (Reg.PWM_CNT m)
  else match (List.range 4).find? fun e => off = Reg.PWM_EVC m e, (List.range 6).find? fun x => off = Reg.PWM_EVOUT m x with
    | some e, _ => (pwmEvcWrite s m e v, true)
    | _, some x => (pwmEvoutWrite s m x v, true)
    | _, _ => optWrite s (storeWord s off v)

/-- VLV (R292). -/
def writeVlv (s : State) (off c : Nat) (v : Word) : State × Bool :=
  if off = Reg.VLV_LEVELS c then (vlvLevelsWrite s c v, true)
  else if off = Reg.VLV_CMD c then (vlvCmdWrite s c v, true)
  else if off = Reg.VLV_CNT_CLR c then clrWrite s v fun s => s.clrReg (Reg.VLV_CNT c)
  else optWrite s (storeWord s off v)

/-- The wide timer register that an offset belongs to, and whether the offset is its high word (R303). -/
def tmrWideAt (off k : Nat) : Option (TmrWide × Bool) :=
  [TmrWide.count, .reload, .cmp0, .cmp1].findSome? fun r =>
    if off = tmrOff r k then some (r, false) else if off = tmrOff r k + 4 then some (r, true) else none

/-- TMR (R300, R303, R312). -/
def writeTmr (s : State) (off k : Nat) (v : Word) : State × Bool :=
  let busy := s.tState k = 1 || s.tState k = 2
  if off = Reg.TMR_GSTART then (tmrGstartWrite s v, true)
  else if off = Reg.TMR_CTRL k then (tmrCtrlWrite s k v, true)
  else if off = Reg.TMR_CFG k ∨ off = Reg.TMR_DIV k then gatedStore s busy off v
  else match tmrWideAt off k with
    | some (r, false) => (tmrStageLow s k r v, true)
    | some (r, true) => (tmrCommit s k r v, !(busy && r = .count))
    | none => optWrite s (storeWord s off v)

/-- AUD (R329). Whether a fault condition persists at a write of AUD_PROT by a batch is a free value (log entry 3). -/
def writeAud (s : State) (off i : Nat) (v : Word) : State × Bool :=
  if off = Reg.AUD_PROT then
    let (p, s) := s.free 16
    (s.setReg off (s.reg off &&& ((v &&& (BitVec.ofNat 32 p ^^^ 0xFFFFFFFF)) ^^^ 0xFFFFFFFF)), true)
  else if off = Reg.AUD_HP then optWrite s (audOutWrite s .hp v)
  else if off = Reg.AUD_SPK then optWrite s (audOutWrite s .spk v)
  else if off = Reg.AUD_PDM then optWrite s (audPdmWrite s v)
  else if off = Reg.AUD_LIN i ∨ (i < 4 ∧ off = Reg.AUD_MIC i) ∨ off = Reg.AUD_MIC3 then optWrite s (audInputWrite s off v)
  else if off = Reg.AUD_JACK_CFG then optWrite s (storeWord (s.noteAud off) off v)
  else optWrite s (storeWord s off v)

/-- MIX (R355). -/
def writeMix (s : State) (off i : Nat) (d : RegDesc) (v : Word) : State × Bool :=
  if off = Reg.MIX_CTRL then optWrite s (mixCtrlWrite s v)
  else if off = Reg.MIX_METCLR then (mixMetclr s v, true)
  else if off = Reg.MIX_CAPDROP_CLR then clrWrite s v mixCapdropClr
  else if off = Reg.SP_CFG i then optWrite s (spCfgWrite s i v)
  else if off = Reg.SP_CNT_CLR i then clrWrite s v fun s => (s.clrReg (Reg.SP_CNT i)).clrReg (Reg.SP_CNT2 i)
  else if off = Reg.MIX_SPIN i ∨ off = Reg.MIX_SPOUT i then optWrite s (mixAssignWrite s off v)
  else if Reg.MIX_NODE 0 0 ≤ off ∧ off < Reg.MIX_LLNODE 0 0 then
    match mixNodeWrite s i ((off - Reg.MIX_NODE i 0) / 4) v with
    | some t => tookWrite t off d (s.reg off) v
    | none => (s, false)
  else if off < Reg.MIX_BQ 0 0 ∧ Reg.MIX_LLNODE 0 0 ≤ off then optWrite s (mixLlnodeWrite s off v)
  else optWrite s (storeWord s off v)

/-- VIS (R374). -/
def writeVis (s : State) (off : Nat) (v : Word) : State × Bool :=
  if off = Reg.VIS_CAP then optWrite s (visCapWrite s v)
  else if off ∈ [Reg.VIS_CAP_BASE_LO, Reg.VIS_CAP_BASE_HI, Reg.VIS_GEOM, Reg.VIS_CSI] then optWrite s (visGeomWrite s off v)
  else if off = Reg.VIS_CNT_CLR then
    clrWrite s v fun s => ((s.clrReg Reg.VIS_CNT).clrReg Reg.VIS_CNT2).clrReg Reg.VIS_CNT3
  else optWrite s (storeWord s off v)

/-- USB (R377, R393). -/
def writeUsb (s : State) (off : Nat) (v : Word) : State × Bool :=
  if off = Reg.USB_CTRL then (usbCtrlWrite s v, true)
  else if off = Reg.USB_CNT_CLR then
    clrWrite s v fun s => ((s.clrReg Reg.USB_CNT).clrReg Reg.USB_CNT2).clrReg Reg.USB_CNT3
  else if Reg.USB_DTDIR 0 ≤ off then optWrite s (usbTableWrite s off v)
  else optWrite s (storeWord s off v)

/-- TWB (R417). -/
def writeTwb (s : State) (off p : Nat) (v : Word) : State × Bool :=
  if off = Reg.TWB_CFG p then optWrite s (twbCfgWrite s p v)
  else if off = Reg.TWB_SCL p then (twbSclWrite s p v, true)
  else if off = Reg.TWB_TREG p then (twbTregWrite s p v, true)
  else if off = Reg.TWB_TSTAT p then (twbTstatWrite s p v, true)
  else if off = Reg.TWB_TCTL p then (if (Fld.TWB_TCTL_ATT p).get v = 1 then twbAttRequest s p else s, true)
  else if off = Reg.TWB_CNT_CLR p then
    clrWrite s v fun s => ((s.clrReg (Reg.TWB_CNT p)).clrReg (Reg.TWB_CNT2 p)).clrReg (Reg.TWB_CNT3 p)
  else optWrite s (storeWord s off v)

/-- VXL (R443). -/
def writeVxl (s : State) (off : Nat) (v : Word) : State × Bool :=
  if off = Reg.VXL_CFG then (vxlCfgWrite s v, true)
  else if off = Reg.VXL_WAKE then (if Fld.VXL_WAKE_REQ.get v = 1 then wakeRequest s else s, true)
  else if off = Reg.VXL_CNT_CLR then clrWrite s v vxlCntClr
  else optWrite s (storeWord s off v)

/-- MEM (R462). -/
def writeMem (s : State) (off : Nat) (v : Word) : State × Bool :=
  if off = Reg.MEM_CTRL then (memCtrlWrite s v, true)
  else if off = Reg.MEM_CNT_CLR then clrWrite s v memCntClr
  else optWrite s (storeWord s off v)

/-- PWR (R485): a TARGET that Table 20.2 does not list is no legal transition. -/
def writePwr (s : State) (off : Nat) (v : Word) : State × Bool :=
  if off = Reg.PWR_CMD then (pwrCmdWrite s (Fld.PWR_CMD_TARGET.get v), true)
  else if off = Reg.PWR_CTRL then (pwrCtrlWrite s v, true)
  else if off = Reg.PWR_FRST then (pwrFrstWrite s v, true)
  else if off = Reg.PWR_VWARN then (vwarnEval (s.store off v) false, true)
  else if off = Reg.LEHR_CTRL then (lehrCtrlWrite s v, true)
  else if Reg.LEHR_USER 0 ≤ off ∧ off < 0x12C000 then
    let s := s.setReg off v
    ({ s with pwr := { s.pwr with userWritten := true } }, true)
  else optWrite s (storeWord s off v)

/-- The fuse shadow at an offset. -/
def shadowAt (off : Nat) : Option FuseShadow :=
  if off = Reg.FUS_CFG then some .cfg
  else if off = Reg.FUS_DISLVL0 then some .dislvl0
  else if off = Reg.FUS_DISLVL1 then some .dislvl1
  else match (List.finRange 6).find? fun (n : Fin 6) => off = Reg.FUS_AXIS n.val with
    | some n => some (.axis n)
    | none => match (List.finRange 6).find? fun (n : Fin 6) => off = Reg.FUS_FMAX n.val with
      | some n => some (.fmax n)
      | none => ((List.finRange 4).find? fun (p : Fin 4) => off = Reg.FUS_FPEAK p.val).map .fpeak

/-- FUS (R505). -/
def writeFus (s : State) (off : Nat) (v : Word) : State × Bool :=
  if off = Reg.FUS_PCMD then (pcmdWrite s v, true)
  else if off = Reg.FUS_SIGCNT_CLR then clrWrite s v fun s => s.clrReg Reg.FUS_SIGCNT
  else match shadowAt off with
    | some r => optWrite s (shadowWrite s r v)
    | none => optWrite s (storeWord s off v)

/-- LOG (R525). -/
def writeLog (s : State) (off : Nat) (v : Word) : State × Bool :=
  if off = Reg.LOG_RIDX then (logRidxWrite s v, true)
  else if off = Reg.LOG_MHEAD then (logMheadWrite s v, true)
  else if off = Reg.LOG_MCFG then (logMcfgWrite s v, true)
  else if off = Reg.LOG_CNT_CLR then clrWrite s v logCntClr
  else if off = Reg.LOG_MBASE_LO ∨ off = Reg.LOG_MBASE_HI then gatedStore s (s.flag Fld.LOG_MCFG_EN) off v
  else optWrite s (storeWord s off v)

/-- A host write of one BAR0 word (R23, R24, R467, R476, R530), and whether it was taken. -/
def hostWrite (s : State) (off : Nat) (v : Word) : State × Bool :=
  if !s.served off then (s, false)
  else match regAt off with
    | none => (s, false)
    | some (d, i) =>
      if off ≠ Reg.PWR_CMD && !d.accepts v then (s, false)
      else match off / 0x10000 with
        | 1 => writeGaf s off i v
        | 2 => writeRing s off i v
        | 3 => writeFen s off i d v
        | 4 => writeMrv s off i d v
        | 5 => writeObs s off i d v
        | 6 => writeSns s off i d v
        | 7 => writeCtl s off i d v
        | 8 => writePwm s off v
        | 9 => writeVlv s off i v
        | 10 => writeTmr s off i v
        | 11 => writeAud s off i v
        | 12 => writeMix s off i d v
        | 13 => writeVis s off v
        | 14 => writeUsb s off v
        | 15 => writeTwb s off i v
        | 16 => writeVxl s off v
        | 17 => writeMem s off v
        | 18 => writePwr s off v
        | 19 => writeFus s off v
        | 20 => writeLog s off v
        | _ => optWrite s (storeWord s off v)

/-- A BAR0 write of one or two words with their byte enables: a word whose four enables are not all set is ignored; an access that
is not one or two naturally aligned words has no effect (R528, R529). -/
def bar0Write (s : State) (off : Nat) (words : List (BitVec 4 × Word)) : State :=
  let put (s : State) (off : Nat) (e : BitVec 4 × Word) : State := if e.1 = 15 then (hostWrite s off e.2).1 else s
  match words with
  | [a] => if off % 4 = 0 then put s off a else s
  | [a, b] => if off % 8 = 0 then put (put s off a) (off + 4) b else s
  | _ => s

/-- PWM_CFG_WRITE (R265). -/
def execPwmCfgWrite (m : Fin 7) (v : Word) (s : State) : Host.Outcome State Fault Refusal :=
  act s fun s => if s.served (Reg.PWM_CFG m) then pwmCfgWrite s s.axesInPlan m v else s

/-! ### CFG (R531 to R533, R553) -/

/-- The entries of a batch's list. -/
def cfgEntries (n : Nat) (l : List Byte) : List (Nat × Word) :=
  (List.range n).map fun i => (fieldAt l (8 * i) 4, wordAt l (8 * i + 4))

/-- An entry that R532 does not allow. -/
def cfgEntryBad (e : Nat × Word) : Bool :=
  e.1 % 4 ≠ 0 || decide (0x150000 ≤ e.1) || [2, 17, 18, 19, 20].contains (e.1 / 0x10000) ||
    (decide (0x10000 ≤ e.1) && decide (e.1 < 0x10020))

/-- The period of a module that a batch wrote loads in the edge cycle; a tick-locked module loads it by its counter zero in that
cycle (R262, R263, R533). While CEN = 0 none loads (R265). -/
def periodLoads (s : State) (m : Nat) : State :=
  if s.flag (Fld.PWM_CFG_TICKLOCK m) || !s.flag (Fld.PWM_CFG_CEN m) then s
  else
    let count := s.pwmCount m
    let s := loadPeriod s m
    if s.pwmPeriod m ≤ count then periodShort s m else reLap s m

/-- An RWS register written by a batch loads in the same edge cycle (R533). -/
def batchLoad (s : State) (off : Nat) : State :=
  if off / 0x10000 = 8 then
    let m := off % 0x10000 / 0x100 - 0x10
    if off = Reg.PWM_PERIOD m then periodLoads s m
    else if off = Reg.PWM_DT m then (if s.flag (Fld.PWM_CFG_CEN m) then s.loadReg off else s)
    else s
  else if 5 ≤ off / 0x10000 ∧ off / 0x10000 ≤ 7 then loadShadow s off
  else s

/-- The entries of a batch are written in list order; how many were taken. -/
def batchWrites (edge : Bool) (s : State) (l : List (Nat × Word)) : State × Nat :=
  l.foldl (fun (a : State × Nat) e =>
    let (t, ok) := hostWrite a.1 e.1 e.2
    if ok then (if edge then batchLoad t e.1 else t, a.2 + 1) else (t, a.2)) (s, 0)

/-- A batch applies and its descriptor completes (R533). -/
def batchApply (edge : Bool) (s : State) (b : Batch) : State :=
  let (s, n) := batchWrites edge s b.entries
  let s := { s with batches := s.batches.filter (· ≠ b) }
  match s.findDesc b.sq b.seq with
  | some d => s.complete d stOK 0 (n + 65536 * (b.entries.length - n))
  | none => s

/-- A batch whose tick an edge passes completes with OVERRUN (R533). -/
def batchLate (s : State) (b : Batch) : State :=
  let s := { s with batches := s.batches.filter (· ≠ b) }
  match s.findDesc b.sq b.seq with
  | some d => s.complete d stOverrun 0 0
  | none => s

/-- The batches at the edge of the present tick, in dispatch order (R533). -/
def batchesEdge (s : State) : State :=
  s.batches.foldl (fun s b =>
    if b.tick = 0 ∨ b.tick = s.tickno then batchApply true s b
    else if b.tick < s.tickno then batchLate s b
    else s) s

/-- With the gaffer stopped, the batches with TICK = 0 apply (R533, R553). -/
def batchesIdle (s : State) : State :=
  if s.running then s else (s.batches.filter (·.tick = 0)).foldl (batchApply false) s

/-- The list of a CFG descriptor is read and checked (R532). -/
def cfgListed (s : State) (d : Desc) (l : List Byte) : State :=
  let e := cfgEntries (d.pay 38 2) l
  let tick := d.pay 32 6
  match e.findIdx? cfgEntryBad with
  | some i => s.complete d stBadDescriptor i 0
  | none =>
    if tick ≠ 0 ∧ tick ≤ s.tickno then s.complete d stOverrun 0 0
    else batchesIdle { s.begin d with batches := insertBy (fun b => s.orderOf b.sq b.seq) ⟨d.sq, d.seq, tick, e⟩ s.batches }

/-- The on-die store has room for a batch of `n` entries (R532). -/
def State.batchFits (s : State) (n : Nat) : Bool :=
  decide (s.batches.length < 8) && decide ((s.batches.map (·.entries.length)).sum + n ≤ 2048)

/-- CFG: the list of a dispatched CFG descriptor is read, from host memory as `list` or from LPDDR5X, once its batch fits (R531,
R532, R533). -/
def execCfg (sq : Fin 64) (seq : BitVec 16) (list : HostRead) (s : State) : Host.Outcome State Fault Refusal :=
  act s fun s =>
    match s.takeDispatched sq seq.toNat 0x09 with
    | none => s
    | some d =>
      let n := d.pay 38 2
      if !s.batchFits n then s
      else if d.pay 48 1 = 0 then s.withHost d list fun d l s => cfgListed s d l
      else if !s.memAnswers (d.pay 40 8) (8 * n) then s
      else if !s.memIn (d.pay 40 8) (8 * n) then (s.memRefuse (d.pay 40 8)).rangeFail d
      else
        let (l, s) := memRead s (d.pay 40 8) (8 * n)
        cfgListed s d l

/-- REGISTER_WRITE: a host write of one or two words of BAR0, of BAR2 or of the configuration space (R24, R66, R77, R528, R529); a slave
that it makes lose its beacon lets its batches with TICK = 0 apply (R553). -/
def execRegisterWrite (at_ : HostReg) (words : List (BitVec 4 × Word)) (s : State) : Host.Outcome State Fault Refusal :=
  act s fun s =>
    match at_, words with
    | .bar0 off, l => batchesIdle (bar0Write s off.toNat l)
    | .bar2 off, e :: _ => bar2Write s off.toNat e.2
    | .config r, e :: _ => configWrite s r e.2
    | _, [] => s

end Sys2Proof.Machine
end

