-- ==== Sys2Proof/Machine/Gaffer.lean ====
section
/-!
DEFINITION. The tick edge (R17, R41, R43, R58, R60, R61, R437, R521), overruns and their fallbacks (R49 to R55), SIGNAL actions.
-/
namespace Sys2Proof.Machine

/-! ### Switching (R60, R61) -/

/-- Every consecutive-miss count returns to 0 (R56); that the run of AUDIO misses of R52 is one of them is the model's choice (DEDUCED,
log entry 39). -/
def clearMisses (s : State) : State :=
  let s := { s with gaf := { s.gaf with audioMiss := 0 } }
  (List.range 64).foldl (fun s k => s.put (Fld.GAF_ACT_CNT_CONSEC k) 0) (s.put Fld.GAF_CTLMISS_MISS 0)

/-- The plan of a bank becomes the active plan (R59, R61). -/
def activate (s : State) (b : Bool) : State :=
  let s := s.putB Fld.GAF_STATUS_ACTIVE_BANK b
  clearMisses (s.put Fld.GAF_TICKDIV_TICKDIV (planTickdiv (s.bank b)))

/-- The first code of Table 2.7 that refuses an armed switch to bank `b` at the edge; 0 when none does. -/
def State.switchErr (s : State) (b : Bool) : Nat :=
  let t := s.wide Reg.GAF_SWTICK_LO
  if !s.bankValid b then 1
  else if t ≠ 0 ∧ t < s.tickno then 2
  else if s.switchDivBad b then 3
  else if !s.planParisonsOk (s.bank b) then 4
  else if s.activeBank = b then 5
  else 0

/-- An armed switch at the edge of its tick: it takes effect, or is refused and the plan runs on (R60, R61); the second component
says whether it took effect. GAF_SWTICK is read at each edge, so that a write after ARM moves the switch (DESIGN CHOICE, log entry
39). -/
def switchEdge (s : State) : State × Bool :=
  let t := s.wide Reg.GAF_SWTICK_LO
  match s.gaf.swBank with
  | none => (s, false)
  | some b =>
    if s.tickno < t then (s, false)
    else
      let e := s.switchErr b
      let s := setSwitch s none
      if e ≠ 0 then (switchRefuse s e, false)
      else
        let s := activate (rejoinAll s) b
        ((List.range 64).foldl actionClr s |>.irqF Fld.GAF_IRQ_STATUS_SWITCHED, true)

/-! ### The tick edge (R17) -/

/-- The first tick edge after a start on bank `b` (R41). RUNNING sets and RUN_ERR clears at this edge (DESIGN CHOICE: R41 names no cycle,
log entry 39). -/
def startEdge (s : State) (b : Bool) : State :=
  let s := { s with gaf := { s.gaf with starting := none } }
  activate ((s.putB Fld.GAF_STATUS_RUNNING true).putB Fld.GAF_STATUS_RUN_ERR false) b

/-- GAF_EDGE takes the DTIME of a tick-edge cycle (R63). -/
def edgeTime (s : State) : State := s.setWide 64 Reg.GAF_EDGE_LO s.dtime.toNat

/-- TICKNO increments, and GAF_EDGE takes DTIME (R62, R63). -/
def nextTick (s : State) : State :=
  let s := edgeTime (s.setWide 48 Reg.GAF_TICKNO_LO ((s.tickno + 1) % 2 ^ 48))
  { s with gaf := { s.gaf with started := [], ended := [] } }

/-- What every block does in the edge cycle, batches and shadows first (R24, R57, R58, R533). -/
def edgeEffects (s : State) (first switched : Bool) : State :=
  let s := loadShadows (batchesEdge s)
  let s := (fenceEdge (dvfsEdge s)).showPinned
  let s := modTickEdge (snsTickEdge s) first
  let s := pwmEnables (pwmTickEdge s s.axesInPlan (s.get Fld.GAF_TICKDIV_TICKDIV) first switched)
  let s := obsEdge (jobTickEdge (motionEdge s)) first switched
  tmrTickEdge (mixTickEdge s first)

/-- A standalone device with a running gaffer goes to sleep at this edge (R466). -/
def State.sleepDue (s : State) : Bool := s.pwr.target = some 2 && !s.linkOn

/-- What a tick edge of a gaffer that runs on does: `first` after a start (R17, R41). An armed switch waits where the edge `halts`
(Table 22.5). -/
def edgeCycle (s : State) (first : Option Bool) (halts : Bool) : State :=
  let s := nextTick s
  let s := match first with
    | some b => startEdge s b
    | none => s
  let (s, switched) := if halts then (s, false) else switchEdge s
  cascEdge (edgeEffects s first.isSome switched) first.isSome

/-- A tick edge that begins a tick (R17, R41, R437, R466). -/
def tickBegins (s : State) (first : Option Bool) : State :=
  let s := edgeCycle s first false
  if s.sleepDue then commitSleep s else s

/-- The tick edge at which a gaffer stops (R43): it is a tick edge for PWM modules and timers, and pending writes take effect (R263,
R298, R553; log entry 39). -/
def edgeStops (s : State) : State :=
  let s := pwmTickEdge (edgeTime s) s.axesInPlan (s.get Fld.GAF_TICKDIV_TICKDIV) false false
  tmrTickEdge (batchesIdle (gafStopped s))

/-- A start whose bank a LOAD has left invalid since the write of RUN = 1 is refused at its first edge, as R42 refuses one (DESIGN
CHOICE, log entry 39). -/
def startRefused (s : State) : State :=
  { s.putB Fld.GAF_STATUS_RUN_ERR true with gaf := { s.gaf with starting := none } }

/-- A tick edge ends a tick (R174), and then the gaffer stops (R43), a debug halt begins in the tick-edge cycle (R521; log entry 39), in
which the timers are suspended (R307), or a tick begins. -/
def tickEdge (s : State) : State :=
  let s := tickEnds s
  match s.gaf.starting with
  | some b => if s.bankValid b then tickBegins s (some b) else startRefused s
  | none =>
    if !s.flag Fld.GAF_CTRL_RUN then edgeStops s
    else if s.tel.haltReq then haltEnter (edgeCycle (tmrSuspend s) none true)
    else tickBegins s none

/-- The next cycle contains the instant 20 ns after the predicted arrival of a beacon, which came somewhere within its cycle (R422). -/
def State.edgePredicted (s : State) : Bool := s.cyc = s.vxl.pred + 2 || s.cyc = s.vxl.pred + 3

/-- A tick edge is possible: the tick PLL is locked, in a slave one that follows beacons and where it predicts the edge, the gaffer runs
or is about to, no halt lasts and no tick time is kept (R41, R44, R422, R437, R441, R522). -/
def State.edgePossible (s : State) : Bool :=
  s.up 0 && s.flag Fld.GAF_STATUS_LOCKED && !s.halted && !s.vxl.sleeping &&
    (!s.isSlave || ((s.linkState = 2 || s.linkState = 3) && s.edgePredicted)) && (s.running || s.gaf.starting.isSome)

/-- TICK_EDGE: the cycle of the commands before it ends, and in the next cycle the tick counter reloads, so that every event of that
cycle belongs to the tick that begins (R17, R18). -/
def execTickEdge (s : State) : Host.Outcome State Fault Refusal :=
  act s fun s => if s.edgePossible then tickEdge (nextCycle s) else s

/-! ### Overruns (R49 to R55) -/

/-- A PWMOFF fallback acts on an axis (R54): a slot whose module it disables stops at its next CONTROL action (R251), and one whose
module is not yet enabled stops at once. -/
def pwmOff (s : State) (n : Nat) : State :=
  let on := s.flag (Fld.PWM_STATUS_EN n)
  let s := pwmDisable s n 4
  let s := (s.setBit Fld.GAF_PWMOFF_AXIS n).irqF Fld.GAF_IRQ_STATUS_PWMOFF
  if on || s.slotState n = 0 then s else enterStopped s n 5

/-- A CONTROL action has missed for an axis (R54): `limit` is its N. -/
def controlMissed (s : State) (limit n : Nat) : State :=
  let s := s.incSat (Fld.missOf n)
  let s := slotPost (s.setCtl n { s.slotOf n with duties := none }) n
  if s.get (Fld.missOf n) = limit then pwmOff s n else s

/-- SAMPLE has missed for an axis: where the set has not landed the previous one stands, stale (R52). -/
def sampleMissed (s : State) (n : Nat) : State :=
  if (s.setN n).isSome then s else obsLatch (repeatSet s n) n

/-- The fallback of action i (R52 to R55). -/
def fallback (s : State) (i : Nat) : State :=
  let code := actFallback s.plan i % 8
  let limit := bitsOf (actFallback s.plan i) 6 4 + 1
  match actType s.plan i with
  | 1 => (s.actAxes i).foldl sampleMissed s
  | 2 => specDrop s i
  | 3 => finalFallback s i (if code = 1 then .refest else .hold)
  | 4 =>
    let s := { s with runs := s.runs.filter fun r => r.action ≠ i }
    if code = 3 ∧ s.get (Fld.GAF_ACT_CNT_CONSEC i) = limit then (s.actAxes i).foldl pwmOff s else s
  | 5 => (s.actAxes i).foldl (fun s n => controlMissed s limit n) s
  | 6 => staleAll { s with vxl := { s.vxl with overran := true } } fun d => !bitOf s.vxl.got d
  | 7 => audioMissed s
  | 8 => jobStops (sliceEnd s i)
  | _ => s

/-- What an overrun records (R51). -/
def overrunCounts (s : State) (i : Nat) : State :=
  let s := { s with gaf := { s.gaf with ended := i :: s.gaf.ended } }
  let s := (s.incSat (Fld.GAF_ACT_CNT_OVRCNT i)).incSat (Fld.GAF_ACT_CNT_CONSEC i)
  let s := s.put (Fld.GAF_ACT_TIME_LASTDONE i) 0xFFFF
  let s := if i < 32 then s.setBit Fld.GAF_OVR_LO_OVR i else s.setBit Fld.GAF_OVR_HI_OVR (i - 32)
  let p := s.plan
  (s.irqF Fld.GAF_IRQ_STATUS_OVERRUN).tell 0x01 1 i
    (leBytes 1 (actType p i) ++ leBytes 1 (actFallback p i) ++ leBytes 2 (actDeadline p i) ++ leBytes 4 (fieldAt p 12 4) ++
      leBytes 2 (s.get (Fld.GAF_ACT_CNT_OVRCNT i)))

/-- ACTION_OVERRUN: action i is not complete at the end of its DEADLINE cycle (R49, R51). -/
def execActionOverrun (i : Fin 64) (s : State) : Host.Outcome State Fault Refusal :=
  act s fun s =>
    if s.running && !s.halted && !s.vxl.sleeping && s.gaf.starting.isNone && decide (i.val < planCount s.plan) &&
        !s.gaf.ended.contains i.val && decide (actDeadline s.plan i < s.edgeOfs) then
      fallback (overrunCounts s i) i
    else s

/-- SIGNAL_ACTION: a SIGNAL action signals fence PARAM with TICKNO and completes in its start cycle (R46, R52). -/
def execSignalAction (i : Fin 64) (s : State) : Host.Outcome State Fault Refusal :=
  act s fun s =>
    if s.mayStart i 9 && decide (s.edgeOfs ≤ actDeadline s.plan i) then
      actionDone ((s.startAction i).signal (actParam s.plan i % 1024) s.tickno) i
    else s

end Sys2Proof.Machine
end

