-- ==== Sys2Proof/Machine/Beacon.lean ====
section
/-!
DEFINITION. Tick lock at a slave of the Vexiq link, sleep and wake (R422 to R424, R432, R437 to R441), and the losses of lock.
-/
namespace Sys2Proof.Machine

/-! ### Losses of lock (R44, R471) -/

/-- TICK_PLL_LOCK_LOST (R44, R553). -/
def execTickPllLockLost (s : State) : Host.Outcome State Fault Refusal := act s fun s => batchesIdle (tickPllLost s)

/-- PLL_LOCK_LOST (R471, Table 20.4). -/
def execPllLockLost (p : Pll) (s : State) : Host.Outcome State Fault Refusal :=
  act s fun s =>
    match p with
    | .xtal => xtalLost s
    | .tick => batchesIdle (tickPllLost s)
    | .fabric => fabricLost s
    | .nclk m => pllLost s ⟨Reg.PWR_PLL, m.val, m.val⟩ fun s => fenceMarver s m 1
    | .mem => pllLost s Fld.PWR_PLL_MEM fun s =>
        let s := (clearReady s 16).putB Fld.MEM_STATUS_TRAINED false
        { s with mem := { s.mem with training := true } }
    | .usb => pllLost s Fld.PWR_PLL_USB usbDetach
    | .pcie => pllLost s Fld.PWR_PLL_PCIE linkDown
    | .vxltx => pllLost s Fld.PWR_PLL_VXLTX id

/-! ### Beacons (R422 to R424, R431, R432, R440, R441) -/

/-- The link is on and its function runs. -/
def State.vxlUp (s : State) : Bool := s.up 15 && s.linkOn

/-- A slave that is locked to beacons. -/
def State.beaconLocked (s : State) : Bool := s.isSlave && (s.linkState = 2 || s.linkState = 3)

/-- A slave loses its beacon, and acquires (R424). -/
def beaconLost (s : State) : State :=
  batchesIdle (acquire ((s.incSat Fld.VXL_CNT3_BLOST).irqF Fld.VXL_IRQ_STATUS_BEACON_LOST))

/-- A predicted beacon was missing or bad: the prediction goes on uncorrected (R422), and the fourth in a row is a loss (R424). -/
def beaconMiss (s : State) : State :=
  let n := s.vxl.missed + 1
  let s := s.setVxl { s.vxl with pred := s.vxl.pred + s.get Fld.GAF_TICKDIV_TICKDIV }
  if 4 ≤ n then beaconLost s else s.setVxl { s.vxl with missed := n }

/-- The JOIN frame of a SYNCED device (R432). -/
def State.joinFrame (s : State) : List Byte :=
  withCrc ([3] ++ leBytes 1 s.cascId ++ [0, 0] ++ leBytes 6 s.tickno ++ [0, 0])

/-- A slave takes the masks of a beacon; with its own bit it is a MEMBER, else SYNCED (R431, R432, R440). -/
def beaconRoster (s : State) (f : List Byte) : State :=
  let s := setRoster s (fieldAt f 10 1) (fieldAt f 11 1)
  let s := s.setLinkState (if bitOf s.present s.cascId then 3 else 2)
  if bitOf (fieldAt f 1 1) 0 then s.event 0x30 else s

/-- What a beacon says of an agreed sleep: PROPOSE, COMMIT, CANCEL (R435 to R437). -/
def beaconSleep (s : State) (f : List Byte) : State :=
  let flags := fieldAt f 1 1
  let s := s.setVxl { s.vxl with hold := false }
  let s := if bitOf flags 1 then proposed s (fieldAt f 12 6) else s
  let s := if bitOf flags 3 then cancelSleep s else s
  if bitOf flags 2 then commitSleep s else s

/-- A slave that was looking for a beacon locks its tick PLL to this one and adopts its TICKNO; ticks resume after a sleep (R440,
R441). -/
def beaconLock (s : State) (f : List Byte) : State :=
  let s := (tickLocked s true).setWide 48 Reg.GAF_TICKNO_LO (fieldAt f 4 6)
  let s := if s.vxl.sleeping then
      (s.setVxl { s.vxl with sleeping := false }).irqF Fld.VXL_IRQ_STATUS_WAKE
    else s
  beaconSleep (beaconRoster s f) f

/-- TICKNO against the beacon's: while the gaffer runs a difference is a TICKSLIP (R423). -/
def beaconTick (s : State) (n : Nat) : State :=
  if s.tickno = n then s
  else
    let t := s.setWide 48 Reg.GAF_TICKNO_LO n
    if s.running then (t.incSat Fld.VXL_CNT3_TICKSLIP).irqF Fld.VXL_IRQ_STATUS_TICKSLIP else t

/-- A good beacon at a locked slave: a tick period that is not the active plan's loses lock (R424); in a debug halt TICKNO holds
(R522). -/
def beaconTaken (s : State) (f : List Byte) : State :=
  let s := s.setVxl { s.vxl with missed := 0 }
  if s.halted then beaconRoster s f
  else if s.running ∧ fieldAt f 2 2 ≠ planTickdiv s.plan then beaconLost (s.irqF Fld.VXL_IRQ_STATUS_TDIV_MIS)
  else beaconSleep (beaconRoster (beaconTick s (fieldAt f 4 6)) f) f

/-- A good beacon whose first symbol came `age` cycles ago corrects the prediction of the next (R422). -/
def predict (s : State) (f : List Byte) (age : Nat) : State :=
  s.setVxl { s.vxl with pred := s.cyc - age + fieldAt f 2 2 }

/-! ### Guard windows (R437, R440, R444) -/

/-- `us` µs in thousandths of a TCLK cycle. -/
def milliCycles (us : Nat) : Nat := us * 196608

/-- Kept edge `k` lies at kept time k × TICKDIV (R437). -/
def State.keptEdge (s : State) (k : Nat) : Nat := s.vxl.keptFrom + k * s.get Fld.GAF_TICKDIV_TICKDIV

/-- The first kept edge at or after W + SETTLE and `ofs` more cycles (R439, R440). -/
def State.keptAfter (s : State) (ofs : Int) : Nat :=
  let t := (1000 * (s.vxl.wakeAt : Int) + milliCycles (s.get Fld.VXL_SLPCFG_SETTLE) + 1000 * (ofs - s.vxl.keptFrom)).toNat
  let per := 1000 * s.get Fld.GAF_TICKDIV_TICKDIV
  (t + per - 1) / per

/-- The half-width of the guard windows (R444). -/
def State.guard (s : State) : Nat := min (s.get Fld.GAF_GUARD_GUARD) (s.get Fld.GAF_TICKDIV_TICKDIV / 2)

/-- A waking slave's last window is past at cycle `t` (R440, R441). -/
def State.windowsOver (s : State) (t : Nat) : Bool :=
  s.keptEdge (s.keptAfter (s.get Fld.GAF_TICKDIV_TICKDIV)) + s.guard < t

/-- Cycle `t` lies in a window of a waking slave (R440). -/
def State.inWindow (s : State) (t : Nat) : Bool :=
  let per := s.get Fld.GAF_TICKDIV_TICKDIV
  let a := s.keptAfter (-(per : Int))
  (List.range (s.keptAfter per + 1 - a)).any fun j =>
    let e := s.keptEdge (a + j)
    decide (e ≤ t + s.guard) && decide (t ≤ e + s.guard)

/-- A good beacon whose first symbol came at `t` is one that the slave listens for: any in ACQUIRE and after, one in a guard window
while it wakes, and any again once the last window is past (R440, R441). -/
def State.listens (s : State) (t : Nat) : Bool :=
  s.linkState = 1 || s.linkState = 6 || (s.linkState = 5 && (s.inWindow t || s.windowsOver t))

/-- A beacon at a slave: it is forwarded, it is taken by the slave's state, and behind it goes a SYNCED device's JOIN (R420, R422 to
R424, R432, R440, R441). -/
def slaveBeacon (s : State) (f : List Byte) (age : Nat) : State :=
  let s := forwardFrame s f age
  let s :=
    if !frameOk f then
      let s := crcFailed s
      if s.beaconLocked then beaconMiss s else s
    else
      let s := s.put Fld.VXL_LOOP_LOOP (fieldAt f 18 2)
      if s.beaconLocked then beaconTaken (predict s f age) f
      else if s.listens (s.cyc - age) then beaconLock (predict s f age) f
      else s
  if s.linkState = 2 && !s.halted then queueFrame s (s.cyc - age + 24) s.joinFrame else s

/-- BEACON_RECEIVE: a beacon has been received, `age` TCLK cycles after its first symbol reached the RX pins. At the master it is the
own one that returns, and VXL_LOOP measures its way (R420, R422). -/
def execBeaconReceive (frame : List Byte) (age : BitVec 16) (s : State) : Host.Outcome State Fault Refusal :=
  act s fun s =>
    if !s.vxlUp then s
    else if s.isSlave then slaveBeacon s frame age.toNat
    else if frameOk frame then s.put Fld.VXL_LOOP_LOOP (satU 16 (s.edgeOfs - age.toNat))
    else crcFailed s

/-- BEACON_MISSED: a predicted beacon has not come by the tick edge that follows it (R422, R424). -/
def execBeaconMissed (s : State) : Host.Outcome State Fault Refusal :=
  act s fun s => if s.vxlUp && s.beaconLocked && decide (s.vxl.pred + 4 < s.cyc) then beaconMiss s else s

/-- ACQUIRE_TIMEOUT: 4096 tick periods in ACQUIRE without a good beacon (R441). -/
def execAcquireTimeout (s : State) : Host.Outcome State Fault Refusal :=
  act s fun s =>
    if s.vxlUp && s.isSlave && s.linkState = 1 && decide (s.vxl.acqAt + 4096 * s.get Fld.GAF_TICKDIV_TICKDIV ≤ s.cyc) then
      (s.setLinkState 6).irqF Fld.VXL_IRQ_STATUS_ACQ_FAIL
    else s

/-! ### Wake (R438 to R440, R468) -/

/-- SLEEP_WAKE: the wake instant W of a sleeping device that has a wake request, at the earliest 100 µs after the edge from which it keeps
tick time: it begins to return to the state it came from; on the link its STATE is WAKING (R438, R439, R468). -/
def execSleepWake (s : State) : Host.Outcome State Fault Refusal :=
  act s fun s =>
    if s.pstate = 2 && s.pwr.target.isNone && s.pwr.wake && (!s.vxl.sleeping || decide (s.vxl.keptFrom + 19661 ≤ s.cyc)) then
      let s := s.setVxl { s.vxl with wakeAt := s.cyc }
      let s := s.putB Fld.PWR_STATUS_BUSY true
      let s := { s with pwr := { s.pwr with target := some (s.get Fld.PWR_STATUS_PREV), wake := false } }
      if s.linkOn then
        let s := s.putB Fld.VXL_STATUS_WAKE_LATCH true
        if s.linkState = 4 then s.setLinkState 5 else s
      else s
    else s

/-- A tick edge at which a master or a standalone device resumes (R439). -/
def resumeEdge (s : State) : State :=
  let s := (s.setVxl { s.vxl with sleeping := false }).irqF Fld.VXL_IRQ_STATUS_WAKE
  tickEdge (if s.linkOn then s.setLinkState 3 else s)

/-- KEPT_TICK_EDGE: the next edge of kept tick time, once it is due: TICKNO increments and no action starts. From W on, a master and a
standalone device resume at the first edge at or after W + SETTLE, and a slave that has found no beacon in its windows acquires (R437,
R439 to R441). -/
def execKeptTickEdge (s : State) : Host.Outcome State Fault Refusal :=
  act s fun s =>
    let k := s.vxl.kept + 1
    if !(s.vxl.sleeping && s.running && decide (s.keptEdge k ≤ s.cyc)) then s
    else
      let s := s.setVxl { s.vxl with kept := k }
      let awake := s.up 0 && s.pwr.target.isNone && decide (3 ≤ s.pstate)
      if awake && s.isSlave && s.linkState = 5 && s.windowsOver s.cyc then
        let s := (((nextTick s).putB Fld.GAF_STATUS_LOCKED false).putB Fld.PWR_PLL_TICK false).setLinkState 1
        s.setVxl { s.vxl with acqAt := s.cyc }
      else if awake && !s.isSlave && s.flag Fld.GAF_STATUS_LOCKED && decide (s.keptAfter 0 ≤ k) then resumeEdge s
      else nextTick s

end Sys2Proof.Machine
end

