-- ==== Sys2Proof/Machine/Dispatch.lean ====
section
/-!
DEFINITION. What each command does: one arm for each constructor of Instr, each one call of its meaning.
-/
namespace Sys2Proof.Machine

def exec (i : Instr) (s : State) : Host.Outcome State Fault Refusal :=
  match i with
  | .tickEdge => Sys2Proof.Machine.execTickEdge s
  | .gafRun bank => Sys2Proof.Machine.execGafRun bank s
  | .gafStopRequest bank => Sys2Proof.Machine.execGafStopRequest bank s
  | .gafSwitchArm bank => Sys2Proof.Machine.execGafSwitchArm bank s
  | .gafSwitchCancel => Sys2Proof.Machine.execGafSwitchCancel s
  | .actionClr k => Sys2Proof.Machine.execActionClr k s
  | .tickPllLockLost => Sys2Proof.Machine.execTickPllLockLost s
  | .actionOverrun k => Sys2Proof.Machine.execActionOverrun k s
  | .sampleStart k => Sys2Proof.Machine.execSampleStart k s
  | .obsSpecStart k => Sys2Proof.Machine.execObsSpecStart k s
  | .obsFinalDecide k => Sys2Proof.Machine.execObsFinalDecide k s
  | .collideStart k => Sys2Proof.Machine.execCollideStart k s
  | .controlStart k => Sys2Proof.Machine.execControlStart k s
  | .controlDutyWrite k => Sys2Proof.Machine.execControlDutyWrite k s
  | .exchangeStart k => Sys2Proof.Machine.execExchangeStart k s
  | .audioHandoff k => Sys2Proof.Machine.execAudioHandoff k s
  | .sliceStart k => Sys2Proof.Machine.execSliceStart k s
  | .signalAction k => Sys2Proof.Machine.execSignalAction k s
  | .pinnedRunDone k corrected => Sys2Proof.Machine.execPinnedRunDone k corrected s
  | .collisionVerdict k => Sys2Proof.Machine.execCollisionVerdict k s
  | .chunkDone m corrected => Sys2Proof.Machine.execChunkDone m corrected s
  | .sqDoorbell n v => Sys2Proof.Machine.execSqDoorbell n v s
  | .cqDoorbell n v => Sys2Proof.Machine.execCqDoorbell n v s
  | .sqCfgWrite n v => Sys2Proof.Machine.execSqCfgWrite n v s
  | .cqCfgWrite n v => Sys2Proof.Machine.execCqCfgWrite n v s
  | .descriptorFetch read => Sys2Proof.Machine.execDescriptorFetch read s
  | .descriptorDispatch sq seq => Sys2Proof.Machine.execDescriptorDispatch sq seq s
  | .recordWrite => Sys2Proof.Machine.execRecordWrite s
  | .cqModerationTimeout n => Sys2Proof.Machine.execCqModerationTimeout n s
  | .msixUnmask v => Sys2Proof.Machine.execMsixUnmask v s
  | .ringAbort n seq => Sys2Proof.Machine.execRingAbort n seq s
  | .ringAbortAll n => Sys2Proof.Machine.execRingAbortAll n s
  | .descriptorTimeout sq seq => Sys2Proof.Machine.execDescriptorTimeout sq seq s
  | .linkDown cause => Sys2Proof.Machine.execLinkDown cause s
  | .linkUp how => Sys2Proof.Machine.execLinkUp how s
  | .d3hotEntry => Sys2Proof.Machine.execD3hotEntry s
  | .d0Return => Sys2Proof.Machine.execD0Return s
  | .bar4Access off op ecc => Sys2Proof.Machine.execBar4Access off op ecc s
  | .wideLowWordRead a two => Sys2Proof.Machine.execWideLowWordRead a two s
  | .mrvIrqSrcRead => Sys2Proof.Machine.execMrvIrqSrcRead s
  | .registerWrite a words => Sys2Proof.Machine.execRegisterWrite a words s
  | .motion sq seq => Sys2Proof.Machine.execMotion sq seq s
  | .infer sq seq input => Sys2Proof.Machine.execInfer sq seq input s
  | .loadPlan sq seq image => Sys2Proof.Machine.execLoadPlan sq seq image s
  | .loadParison sq seq image => Sys2Proof.Machine.execLoadParison sq seq image s
  | .unloadSlot sq seq => Sys2Proof.Machine.execUnloadSlot sq seq s
  | .signatureVerify second => Sys2Proof.Machine.execSignatureVerify second s
  | .audioCapture sq seq => Sys2Proof.Machine.execAudioCapture sq seq s
  | .audioPlayback sq seq input late => Sys2Proof.Machine.execAudioPlayback sq seq input late s
  | .vision sq seq param => Sys2Proof.Machine.execVision sq seq param s
  | .twbWrite sq seq input => Sys2Proof.Machine.execTwbWrite sq seq input s
  | .twbRead sq seq => Sys2Proof.Machine.execTwbRead sq seq s
  | .twbWriteRead sq seq input => Sys2Proof.Machine.execTwbWriteRead sq seq input s
  | .signal sq seq => Sys2Proof.Machine.execSignal sq seq s
  | .unpoison sq seq => Sys2Proof.Machine.execUnpoison sq seq s
  | .wait sq seq => Sys2Proof.Machine.execWait sq seq s
  | .cfg sq seq list => Sys2Proof.Machine.execCfg sq seq list s
  | .copy sq seq => Sys2Proof.Machine.execCopy sq seq s
  | .mark sq seq => Sys2Proof.Machine.execMark sq seq s
  | .setupWait sq seq => Sys2Proof.Machine.execSetupWait sq seq s
  | .answer sq seq input => Sys2Proof.Machine.execAnswer sq seq input s
  | .bulkRx sq seq => Sys2Proof.Machine.execBulkRx sq seq s
  | .bulkTx sq seq input => Sys2Proof.Machine.execBulkTx sq seq input s
  | .sleepPropose sq seq => Sys2Proof.Machine.execSleepPropose sq seq s
  | .release sq seq => Sys2Proof.Machine.execRelease sq seq s
  | .reheat sq seq img0 img1 => Sys2Proof.Machine.execReheat sq seq img0 img1 s
  | .reheatScrubDone m fail => Sys2Proof.Machine.execReheatScrubDone m fail s
  | .reheatReloadDone m => Sys2Proof.Machine.execReheatReloadDone m s
  | .start sq seq => Sys2Proof.Machine.execStart sq seq s
  | .stop sq seq => Sys2Proof.Machine.execStop sq seq s
  | .fenHsigSignal v => Sys2Proof.Machine.execFenHsigSignal v s
  | .fenHsigUnpoison v => Sys2Proof.Machine.execFenHsigUnpoison v s
  | .fenHsigPoison v => Sys2Proof.Machine.execFenHsigPoison v s
  | .fenWatchWrite w part v => Sys2Proof.Machine.execFenWatchWrite w part v s
  | .fenEvtEnable k v => Sys2Proof.Machine.execFenEvtEnable k v s
  | .fenStaleClr => Sys2Proof.Machine.execFenStaleClr s
  | .mrvDvfsWrite m v => Sys2Proof.Machine.execMrvDvfsWrite m v s
  | .dvfsRampDone m => Sys2Proof.Machine.execDvfsRampDone m s
  | .mrvFenceCmd m => Sys2Proof.Machine.execMrvFenceCmd m s
  | .sramUncorrectable m w => Sys2Proof.Machine.execSramUncorrectable m w s
  | .sramScrub m found => Sys2Proof.Machine.execSramScrub m found s
  | .mrvCounterClr m => Sys2Proof.Machine.execMrvCounterClr m s
  | .pwmEvent m v => Sys2Proof.Machine.execPwmEvent m v s
  | .sarLatch n codes => Sys2Proof.Machine.execSarLatch n codes s
  | .sincosLatch n sin cos => Sys2Proof.Machine.execSincosLatch n sin cos s
  | .referenceReady n => Sys2Proof.Machine.execReferenceReady n s
  | .obsRecomputeDone k => Sys2Proof.Machine.execObsRecomputeDone k s
  | .obsTslowWrite n v => Sys2Proof.Machine.execObsTslowWrite n v s
  | .obsThload n => Sys2Proof.Machine.execObsThload n s
  | .obsCtrlClr n => Sys2Proof.Machine.execObsCtrlClr n s
  | .quadEdge n a b na nb => Sys2Proof.Machine.execQuadEdge n a b na nb s
  | .qzIndex n a b na nb nz => Sys2Proof.Machine.execQzIndex n a b na nb nz s
  | .modDecimation k e => Sys2Proof.Machine.execModDecimation k e s
  | .modClockLost k => Sys2Proof.Machine.execModClockLost k s
  | .modGlitch k e => Sys2Proof.Machine.execModGlitch k e s
  | .modRateChange k e => Sys2Proof.Machine.execModRateChange k e s
  | .modCfgWrite k v => Sys2Proof.Machine.execModCfgWrite k v s
  | .snsCntClr which => Sys2Proof.Machine.execSnsCntClr which s
  | .trip n live => Sys2Proof.Machine.execTrip n live s
  | .tripThresholdWrite n bus v => Sys2Proof.Machine.execTripThresholdWrite n bus v s
  | .tripLatchClear m v => Sys2Proof.Machine.execTripLatchClear m v s
  | .pwmCounterZero m => Sys2Proof.Machine.execPwmCounterZero m s
  | .pwmPeriodWrite m v => Sys2Proof.Machine.execPwmPeriodWrite m v s
  | .pwmCfgWrite m v => Sys2Proof.Machine.execPwmCfgWrite m v s
  | .pwmEvcWrite m e v => Sys2Proof.Machine.execPwmEvcWrite m e v s
  | .pwmEvoutWrite m e v => Sys2Proof.Machine.execPwmEvoutWrite m e v s
  | .pwmDtWrite m v => Sys2Proof.Machine.execPwmDtWrite m v s
  | .ctlDmaxWrite n v => Sys2Proof.Machine.execCtlDmaxWrite n v s
  | .pwmDisableCmd m => Sys2Proof.Machine.execPwmDisableCmd m s
  | .pwmCntClr m => Sys2Proof.Machine.execPwmCntClr m s
  | .ctlCntClr n => Sys2Proof.Machine.execCtlCntClr n s
  | .vlvSampleBoundary codes => Sys2Proof.Machine.execVlvSampleBoundary codes s
  | .vlvOn c => Sys2Proof.Machine.execVlvOn c s
  | .vlvOff c => Sys2Proof.Machine.execVlvOff c s
  | .vlvLevelsWrite c v => Sys2Proof.Machine.execVlvLevelsWrite c v s
  | .vlvCntClr c => Sys2Proof.Machine.execVlvCntClr c s
  | .tmrGstart v => Sys2Proof.Machine.execTmrGstart v s
  | .tmrGstartCancel v => Sys2Proof.Machine.execTmrGstartCancel v s
  | .timerRelease => Sys2Proof.Machine.execTimerRelease s
  | .tmrStop k => Sys2Proof.Machine.execTmrStop k s
  | .tmrCntClr k => Sys2Proof.Machine.execTmrCntClr k s
  | .timerCountTick k edges => Sys2Proof.Machine.execTimerCountTick k edges s
  | .tmrLowWordWrite k r v => Sys2Proof.Machine.execTmrLowWordWrite k r v s
  | .tmrHighWordCommit k r v => Sys2Proof.Machine.execTmrHighWordCommit k r v s
  | .timerCapture pin rising => Sys2Proof.Machine.execTimerCapture pin rising s
  | .tmrCaptureRead k falling => Sys2Proof.Machine.execTmrCaptureRead k falling s
  | .timerResume e => Sys2Proof.Machine.execTimerResume e s
  | .timerSlowrunStep => Sys2Proof.Machine.execTimerSlowrunStep s
  | .audGainWrite r v => Sys2Proof.Machine.execAudGainWrite r v s
  | .audOutputEnable o v => Sys2Proof.Machine.execAudOutputEnable o v s
  | .audOutputDisable o v => Sys2Proof.Machine.execAudOutputDisable o v s
  | .audStartupDone o => Sys2Proof.Machine.execAudStartupDone o s
  | .audRampStep o => Sys2Proof.Machine.execAudRampStep o s
  | .audProtectionFault f => Sys2Proof.Machine.execAudProtectionFault f s
  | .audProtClear v present => Sys2Proof.Machine.execAudProtClear v present s
  | .jackSample jdet volts => Sys2Proof.Machine.execJackSample jdet volts s
  | .mixSampleInstant dom pins sdi => Sys2Proof.Machine.execMixSampleInstant dom pins sdi s
  | .mixNodeWrite k j v => Sys2Proof.Machine.execMixNodeWrite k j v s
  | .mixCtrlWrite v => Sys2Proof.Machine.execMixCtrlWrite v s
  | .bridgeLock c => Sys2Proof.Machine.execBridgeLock c s
  | .featFrameComplete => Sys2Proof.Machine.execFeatFrameComplete s
  | .selfHandoff => Sys2Proof.Machine.execSelfHandoff s
  | .mixMetclr v => Sys2Proof.Machine.execMixMetclr v s
  | .mixCapdropClr => Sys2Proof.Machine.execMixCapdropClr s
  | .spCfgWrite p v => Sys2Proof.Machine.execSpCfgWrite p v s
  | .spLock p periods => Sys2Proof.Machine.execSpLock p periods s
  | .spClkLost p => Sys2Proof.Machine.execSpClkLost p s
  | .spGlitch p bclks => Sys2Proof.Machine.execSpGlitch p bclks s
  | .spRateChange p periods => Sys2Proof.Machine.execSpRateChange p periods s
  | .spCntClr p => Sys2Proof.Machine.execSpCntClr p s
  | .frameStart vc => Sys2Proof.Machine.execFrameStart vc s
  | .frameEnd vc => Sys2Proof.Machine.execFrameEnd vc s
  | .csiLine pkt => Sys2Proof.Machine.execCsiLine pkt s
  | .frameTimeout => Sys2Proof.Machine.execFrameTimeout s
  | .visCapWrite v => Sys2Proof.Machine.execVisCapWrite v s
  | .visionEngineDone input => Sys2Proof.Machine.execVisionEngineDone input s
  | .visCntClr => Sys2Proof.Machine.execVisCntClr s
  | .usbConnect v => Sys2Proof.Machine.execUsbConnect v s
  | .usbDisconnect v => Sys2Proof.Machine.execUsbDisconnect v s
  | .usbRwake v => Sys2Proof.Machine.execUsbRwake v s
  | .setupPacket setup => Sys2Proof.Machine.execSetupPacket setup s
  | .setupOutData data => Sys2Proof.Machine.execSetupOutData data s
  | .usbBusReset hs => Sys2Proof.Machine.execUsbBusReset hs s
  | .sof frame uframe => Sys2Proof.Machine.execSof frame uframe s
  | .usbSuspend => Sys2Proof.Machine.execUsbSuspend s
  | .usbResume => Sys2Proof.Machine.execUsbResume s
  | .bulkOutPacket data => Sys2Proof.Machine.execBulkOutPacket data s
  | .bulkInAck => Sys2Proof.Machine.execBulkInAck s
  | .isoOutPacket data => Sys2Proof.Machine.execIsoOutPacket data s
  | .isoInPacket => Sys2Proof.Machine.execIsoInPacket s
  | .feedbackPoll => Sys2Proof.Machine.execFeedbackPoll s
  | .usbCntClr => Sys2Proof.Machine.execUsbCntClr s
  | .twbTransferStart p => Sys2Proof.Machine.execTwbTransferStart p s
  | .twbTransferDone p end_ => Sys2Proof.Machine.execTwbTransferDone p end_ s
  | .arbitrationLost p where_ => Sys2Proof.Machine.execArbitrationLost p where_ s
  | .busStart p => Sys2Proof.Machine.execBusStart p s
  | .busStop p => Sys2Proof.Machine.execBusStop p s
  | .twbBusFree p => Sys2Proof.Machine.execTwbBusFree p s
  | .twbTargetAddressed p address read => Sys2Proof.Machine.execTwbTargetAddressed p address read s
  | .twbTargetWrite p bytes => Sys2Proof.Machine.execTwbTargetWrite p bytes s
  | .twbTargetRead p n => Sys2Proof.Machine.execTwbTargetRead p n s
  | .twbStretchTimeout p => Sys2Proof.Machine.execTwbStretchTimeout p s
  | .twbTregWrite p v => Sys2Proof.Machine.execTwbTregWrite p v s
  | .twbTstatClear p v => Sys2Proof.Machine.execTwbTstatClear p v s
  | .twbAttRequest p => Sys2Proof.Machine.execTwbAttRequest p s
  | .twbAttPulseDone p collided => Sys2Proof.Machine.execTwbAttPulseDone p collided s
  | .twbAttnSeen p ns => Sys2Proof.Machine.execTwbAttnSeen p ns s
  | .busStuck p scl n ms => Sys2Proof.Machine.execBusStuck p scl n ms s
  | .twbCfgWrite p v => Sys2Proof.Machine.execTwbCfgWrite p v s
  | .twbSclWrite p v => Sys2Proof.Machine.execTwbSclWrite p v s
  | .twbCntClr p => Sys2Proof.Machine.execTwbCntClr p s
  | .beaconReceive frame age => Sys2Proof.Machine.execBeaconReceive frame age s
  | .beaconMissed => Sys2Proof.Machine.execBeaconMissed s
  | .frameTransmit => Sys2Proof.Machine.execFrameTransmit s
  | .slotReceive frame => Sys2Proof.Machine.execSlotReceive frame s
  | .slotReturn frame => Sys2Proof.Machine.execSlotReturn frame s
  | .joinReceive frame => Sys2Proof.Machine.execJoinReceive frame s
  | .peerLinkLost d => Sys2Proof.Machine.execPeerLinkLost d s
  | .rxLoss => Sys2Proof.Machine.execRxLoss s
  | .vxlWake => Sys2Proof.Machine.execVxlWake s
  | .wakePinLow low more => Sys2Proof.Machine.execWakePinLow low more s
  | .sleepWake => Sys2Proof.Machine.execSleepWake s
  | .keptTickEdge => Sys2Proof.Machine.execKeptTickEdge s
  | .acquireTimeout => Sys2Proof.Machine.execAcquireTimeout s
  | .vxlCntClr => Sys2Proof.Machine.execVxlCntClr s
  | .memTrainingDone r => Sys2Proof.Machine.execMemTrainingDone r s
  | .memRetrain => Sys2Proof.Machine.execMemRetrain s
  | .memReinit iecc => Sys2Proof.Machine.execMemReinit iecc s
  | .memReinitDone => Sys2Proof.Machine.execMemReinitDone s
  | .memReadRetry who address found => Sys2Proof.Machine.execMemReadRetry who address found s
  | .memScrubRead found => Sys2Proof.Machine.execMemScrubRead found s
  | .memTempHigh code => Sys2Proof.Machine.execMemTempHigh code s
  | .memCntClr => Sys2Proof.Machine.execMemCntClr s
  | .pwrCmdRun => Sys2Proof.Machine.execPwrCmdRun s
  | .pwrCmdIdle => Sys2Proof.Machine.execPwrCmdIdle s
  | .pwrCmdSleep => Sys2Proof.Machine.execPwrCmdSleep s
  | .pwrCmdStandby => Sys2Proof.Machine.execPwrCmdStandby s
  | .pwrCmdOff => Sys2Proof.Machine.execPwrCmdOff s
  | .pwrTransitionDone => Sys2Proof.Machine.execPwrTransitionDone s
  | .pwrCtrlWarm => Sys2Proof.Machine.execPwrCtrlWarm s
  | .warmReset cause => Sys2Proof.Machine.execWarmReset cause s
  | .coldReset cause => Sys2Proof.Machine.execColdReset cause s
  | .coldResetRelease strap vin vhold => Sys2Proof.Machine.execColdResetRelease strap vin vhold s
  | .supplyInvalid vddio => Sys2Proof.Machine.execSupplyInvalid vddio s
  | .functionReady bit => Sys2Proof.Machine.execFunctionReady bit s
  | .pwrFrst v => Sys2Proof.Machine.execPwrFrst v s
  | .frstDone bit => Sys2Proof.Machine.execFrstDone bit s
  | .pllLockLost p => Sys2Proof.Machine.execPllLockLost p s
  | .vinSag => Sys2Proof.Machine.execVinSag s
  | .lehrSaveDone cut => Sys2Proof.Machine.execLehrSaveDone cut s
  | .vinWarn vin => Sys2Proof.Machine.execVinWarn vin s
  | .holdLow vhold => Sys2Proof.Machine.execHoldLow vhold s
  | .lehrErase key => Sys2Proof.Machine.execLehrErase key s
  | .fuseShadowWrite r v => Sys2Proof.Machine.execFuseShadowWrite r v s
  | .fuseProgram key vprog => Sys2Proof.Machine.execFuseProgram key vprog s
  | .fuseProgramDone r => Sys2Proof.Machine.execFuseProgramDone r s
  | .fusSigcntClr => Sys2Proof.Machine.execFusSigcntClr s
  | .haltreq => Sys2Proof.Machine.execHaltreq s
  | .haltrel => Sys2Proof.Machine.execHaltrel s
  | .logAppend => Sys2Proof.Machine.execLogAppend s
  | .mirrorWrite => Sys2Proof.Machine.execMirrorWrite s
  | .logRidxWrite v => Sys2Proof.Machine.execLogRidxWrite v s
  | .logMheadWrite v => Sys2Proof.Machine.execLogMheadWrite v s
  | .logMcfgWrite v => Sys2Proof.Machine.execLogMcfgWrite v s
  | .logCntClr => Sys2Proof.Machine.execLogCntClr s
  | .pllLockAcquired p => Sys2Proof.Machine.execPllLockAcquired p s
  | .pcieRetriesExhausted sq seq => Sys2Proof.Machine.execPcieRetriesExhausted sq seq s
  | .modClockRecovery k e => Sys2Proof.Machine.execModClockRecovery k e s
  | .rxLock => Sys2Proof.Machine.execRxLock s
  | .statusStage => Sys2Proof.Machine.execStatusStage s
  | .boundaryScanInstruction r cells => Sys2Proof.Machine.execBoundaryScanInstruction r cells s

end Sys2Proof.Machine
end

