-- ==== Sys2Proof/WellFormed.lean ====
section
/-!
DEFINITION. Which commands the outside can send: what the types of the operands do not bound. A command that is not well formed does
not happen; its meaning is total all the same.
-/
namespace Sys2Proof

/-- A read of an SQ gives 1 to 8 entries of 64 bytes (R81). -/
def FetchRead.wf : FetchRead → Bool
  | .entries l => decide (1 ≤ l.length) && decide (l.length ≤ 8) && l.all fun e => e.length = 64
  | .failed => true
  | .cut => true

/-- The widths and speeds that a link can negotiate (Table 3.9). -/
def LinkGain.wf : LinkGain → Bool
  | .link w v => [1, 2, 4].contains w && decide (1 ≤ v) && decide (v ≤ 4)
  | .busMaster => true

/-- A BAR4 access moves at least one byte and stays within the BAR (R67). -/
def Bar4Op.wf (off : BitVec 26) : Bar4Op → Bool
  | .read n => decide (1 ≤ n) && decide (off.toNat + n ≤ 0x4000000)
  | .write l => !l.isEmpty && decide (off.toNat + l.length ≤ 0x4000000)

/-- A training that fails does so in at least one channel (R446, Table 19.2). -/
def Training.wf : Training → Bool
  | .read _ _ => true
  | .timing ch => decide (ch ≠ 0)
  | .zq ch => decide (ch ≠ 0)

/-- A transfer moves at most 4096 bytes each way (Table 17.2). -/
def TwbEnd.wf : TwbEnd → Bool
  | .ok l => decide (l.length ≤ 4096)
  | .nackAddr _ => true
  | .nackData n => decide (n.toNat < 4096)
  | .stopped n => decide (n.toNat ≤ 8192)

/-- A register access is word-aligned (R528). -/
def HostReg.wf : HostReg → Bool
  | .bar0 off => decide (off.toNat % 4 = 0)
  | .bar2 off => decide (off.toNat % 4 = 0)
  | .config _ => true

/-- The commands that can happen; the operands of the commands not named are bounded by their types. -/
def Instr.wf : Instr → Bool
  | .descriptorFetch r => r.wf
  | .linkUp g => g.wf
  | .bar4Access off op _ => op.wf off
  | .wideLowWordRead r _ => r.wf
  | .registerWrite r l => r.wf && !l.isEmpty
  | .setupOutData l => !l.isEmpty && decide (l.length ≤ 4096)
  | .bulkOutPacket l => decide (l.length ≤ 512)
  | .twbTransferDone _ e => e.wf
  | .twbTargetWrite _ l => decide (l.length ≤ 65535)
  | .memTrainingDone r => r.wf
  | .lehrSaveDone (some n) => decide (n < 49152)
  | _ => true

end Sys2Proof
end

