-- ==== Sys2Proof/Safety.lean ====
section
/-!
DEFINITION. The terms in which claims are stated: what a command leaves as it was (frames), what a completed descriptor leaves
behind, and the invariants of the machine.
-/
namespace Sys2Proof.Machine

/-- The canonical form of a byte memory: addresses strictly rising, no listed byte equal to what an unlisted one reads as, 0. -/
def Memory.wf (m : Store Byte) : Bool := swf (fun _ => 0) 0 m

/-- Every byte memory of the machine is in its canonical form: host memory, LPDDR5X, the lehr store, the marvers' SRAM. -/
def State.memoriesWf (s : State) : Bool :=
  Memory.wf s.hostMem && Memory.wf s.mem.ram && Memory.wf s.pwr.mram && s.mrv.all fun m => Memory.wf m.sram

end Sys2Proof.Machine

namespace Sys2Proof.Safety
open Sys2Proof Sys2Proof.Machine

/-! ### Frames -/

/-- The parts of the machine beside the register words. The rings are cut in four: messages sent, records queued, descriptors in
flight, and the rest. What the model keeps of the present cycle (`State.seen`) is no part: it is forgotten at the end of the cycle. -/
inductive Part where
  | act | latch | cyc | dtime | dtimeOn | freeCtr | hostMem | gaf | msix | recs | flight | ring | pci | batches | evtCount | tel
  | pwr | pwm | vlv | sns | mods | scan | mem | mrv | slots | jobs | runs | sig | ctl | stops | obs | tmr | tmrStage | tmrDue | aud
  | mix | vis | usb | twb | vxl | fus | rdata | pending
deriving DecidableEq, Repr

/-- Two states agree in a part. -/
def Part.same (q : Part) (s t : State) : Prop :=
  match q with
  | .act => t.act = s.act
  | .latch => t.latch = s.latch
  | .cyc => t.cyc = s.cyc
  | .dtime => t.dtime = s.dtime
  | .dtimeOn => t.dtimeOn = s.dtimeOn
  | .freeCtr => t.freeCtr = s.freeCtr
  | .hostMem => t.hostMem = s.hostMem
  | .gaf => t.gaf = s.gaf
  | .msix => t.ring.msix = s.ring.msix
  | .recs => t.ring.recs = s.ring.recs
  | .flight => t.ring.flight = s.ring.flight
  | .ring => t.ring.bme = s.ring.bme ∧ t.ring.d3hot = s.ring.d3hot ∧ t.ring.held = s.ring.held ∧
      t.ring.lastHeld = s.ring.lastHeld ∧ t.ring.latched = s.ring.latched ∧ t.ring.counted = s.ring.counted ∧
      t.ring.rr = s.ring.rr ∧ t.ring.sent = s.ring.sent
  | .pci => t.pci = s.pci
  | .batches => t.batches = s.batches
  | .evtCount => t.evtCount = s.evtCount
  | .tel => t.tel = s.tel
  | .pwr => t.pwr = s.pwr
  | .pwm => t.pwm = s.pwm
  | .vlv => t.vlv = s.vlv
  | .sns => t.sns = s.sns
  | .mods => t.mods = s.mods
  | .scan => t.scan = s.scan
  | .mem => t.mem = s.mem
  | .mrv => t.mrv = s.mrv
  | .slots => t.slots = s.slots
  | .jobs => t.jobs = s.jobs
  | .runs => t.runs = s.runs
  | .sig => t.sig = s.sig
  | .ctl => t.ctl = s.ctl
  | .stops => t.stops = s.stops
  | .obs => t.obs = s.obs
  | .tmr => t.tmr = s.tmr
  | .tmrStage => t.tmrStage = s.tmrStage
  | .tmrDue => t.tmrDue = s.tmrDue
  | .aud => t.aud = s.aud
  | .mix => t.mix = s.mix
  | .vis => t.vis = s.vis
  | .usb => t.usb = s.usb
  | .twb => t.twb = s.twb
  | .vxl => t.vxl = s.vxl
  | .fus => t.fus = s.fus
  | .rdata => t.rdata = s.rdata
  | .pending => t.pending = s.pending

/-- A set of register bits: word offset and bit number. -/
abbrev Bits := Nat → Nat → Prop

/-- The bits of a list of fields. -/
def bits (fs : List Field) : Bits := fun o b => ∃ f ∈ fs, f.off = o ∧ f.lo ≤ b ∧ b ≤ f.hi

/-- The bits of a list of register words. -/
def words (os : List Nat) : Bits := fun o _ => o ∈ os

/-- The bits of the registers from one offset to before another. -/
def range (a b : Nat) : Bits := fun o _ => a ≤ o ∧ o < b

/-- Either of two sets of bits. -/
def orBits (p q : Bits) : Bits := fun o b => p o b ∨ q o b

/-- The MSI-X pending bits: a message held back sets one (R104). -/
def pba : Bits := range 0x29000 0x29010

/-- The registers of the fence block: what a signal, a poison or a failed descriptor can change there (R110, R112). -/
def fences : Bits := range 0x30000 0x40000

/-- What a fence request can reach: the fence block, and the pending bit of a message held back. -/
def fenceReach : Bits := orBits pba fences

/-- The interrupt status word of each block; its enable word follows it (R103, Table 3.11). -/
def irqWords : List Nat :=
  [Reg.GLB_RDY_IRQ, Reg.GAF_IRQ_STATUS, Reg.RING_IRQ_STATUS, Reg.FEN_IRQ_STATUS, Reg.MRV_IRQ_STATUS, Reg.MRV_PIRQ_STATUS,
    Reg.OBS_IRQ_STATUS, Reg.SNS_IRQ_STATUS, Reg.CTL_IRQ_STATUS, Reg.PWM_IRQ_STATUS, Reg.VLV_IRQ_STATUS, Reg.AUD_IRQ_STATUS,
    Reg.MIX_IRQ_STATUS, Reg.VIS_IRQ_STATUS, Reg.USB_IRQ_STATUS, Reg.TWB_IRQ_STATUS, Reg.VXL_IRQ_STATUS, Reg.MEM_IRQ_STATUS,
    Reg.PWR_IRQ_STATUS, Reg.FUS_IRQ_STATUS, Reg.LOG_IRQ_STATUS]

/-- From `s` to `t` nothing changes but the parts of `ps` and the register bits of `p`. -/
def Frame (ps : List Part) (p : Bits) (s t : State) : Prop :=
  (∀ o b, ¬ p o b → (t.reg o).getLsbD b = (s.reg o).getLsbD b) ∧ ∀ q, q ∉ ps → q.same s t

/-! ### A cycle in which nothing is resolved -/

/-- Nothing of the present cycle is left for its end: no abort or expiry is latched, no descriptor waits on a fence, no RESULT is to be
brought up to date, no sample set waits for its pair, no stop request waits to be resolved and no TORQUE_OFF to be done, no LOAD waits
to make its writes, no lost record is to be reported (`nextCycle`, log entry 2). -/
def Quiet (s : State) : Prop :=
  s.ring.latched = [] ∧ (∀ d ∈ s.ring.flight, d.stage ≠ .waiting) ∧ s.seen.signals = [] ∧ s.seen.marks = [] ∧
  (∀ n < 6, (s.snsAt n).hold = none ∧ (s.slotOf n).asks = [] ∧ (s.slotOf n).off = none) ∧
  (∀ j ∈ s.sig, j.stage ≠ .writes) ∧ s.tel.qlost = 0

/-! ### Invariants -/

/-- Every bit read from the fuse array at the last cold reset is blown in one of its copies (R486). -/
def ReadBlown (s : State) : Prop :=
  ∀ w i, (sget 0 s.fus.read w).getLsbD i = true →
    (sget 0 s.fus.a w).getLsbD i = true ∨ (sget 0 s.fus.b w).getLsbD i = true

end Sys2Proof.Safety
end

