-- ==== Sys2Proof/Certificates/Slice0/Obligations.lean ====
section
/-!
DEFINITION. The statements: what the commands do, what they leave as it was, and what every step keeps.
-/
open Sys2Proof Sys2Proof.Machine Sys2Proof.Safety

/-- A step takes the command that waits longest and runs it on the machine with the rest of the queue (log entry 2). -/
def Obligations.StepRunsFront : Prop :=
  ∀ (c : Instr) (rest : List Instr) (s : State), s.pending = c :: rest → step s = exec c { s with pending := rest }

/-- A cycle in which no command waits (log entries 2 and 25): DTIME counts (R63), an erase of the lehr store ends (R480); where nothing
of the cycle is left to be resolved at its end (`Quiet`), nothing else changes. -/
def Obligations.IdleCycleCounts : Prop :=
  ∀ s : State, s.pending = [] →
    (s.pwr.hold = .running → step s = .next (nextCycle s)) ∧
    (s.pwr.hold = .running → Quiet s → ∃ t, step s = .next t ∧ t.cyc = s.cyc + 1 ∧ t.seen = ⟨[], false, [], [], []⟩ ∧
      t.dtime = (if s.dtimeOn = true ∧ 3 ≤ s.pstate then s.dtime + 1 else s.dtime) ∧ t.pwr.erasing = false ∧
      (s.pwr.erasing = false → t.pwr = s.pwr) ∧ Frame [.cyc, .dtime, .pwr] (words []) s t) ∧
    (s.pwr.hold ≠ .running → step s = .next s)

/-- The machine at reset: every register at its Reset value (R25, R535), nothing ready, nothing queued. That State.reset stands right
after the release is the model's choice (log entry 1). -/
def Obligations.ResetValues : Prop :=
  (∀ o, (∀ e ∈ State.resetRegs, e.1 ≠ o) → State.reset.reg o = regReset o) ∧
  State.reset.get Fld.GLB_READY_READY = 0 ∧ State.reset.reg Reg.GLB_IDENT = 0x46205311 ∧
  State.reset.get Fld.GAF_TICKDIV_TICKDIV = 0x1800 ∧ State.reset.get Fld.GAF_GUARD_GUARD = 0x400 ∧
  (∀ i < 21, State.reset.get (Fld.RING_BVEC_VECTOR i) = 0x40 + i) ∧
  (∀ v < 128, State.reset.flag (Fld.MSIX_CTRL_MASK v) = true) ∧
  (∀ n < 6, State.reset.get (Fld.CTL_DMAX_DMAX n) = 0x8000 ∧ State.reset.get (Fld.PWM_DT_DT n) = 0x3FF) ∧
  State.reset.pstate = 4 ∧ State.reset.pwr.hold = .running ∧ State.reset.mem = ⟨[], [], true, none, 0, false⟩ ∧
  State.reset.ring.flight = [] ∧ State.reset.hostMem = [] ∧ State.reset.pending = []

/-- A device held in reset does not react to commands (R472, R478; log entry 5). -/
def Obligations.HeldInResetIgnores : Prop :=
  ∀ (c : Instr) (s : State), s.pwr.hold ≠ .running →
    (∀ x, c ≠ .coldReset x) → (∀ a b d, c ≠ .coldResetRelease a b d) → (∀ v, c ≠ .supplyInvalid v) → c ≠ .vinSag →
    (∀ x, c ≠ .lehrSaveDone x) → (∀ x y, c ≠ .boundaryScanInstruction x y) → (c = .pllLockAcquired .xtal → s.pwr.hold ≠ .xtal) →
    exec c s = .next s

/-- No step un-blows a fuse bit, in either copy (R486, R497, R554). -/
def Obligations.BlownFusesStay : Prop :=
  ∀ (s t : State) (w i : Nat), step s = .next t →
    ((sget 0 s.fus.a w).getLsbD i = true → (sget 0 t.fus.a w).getLsbD i = true) ∧
    ((sget 0 s.fus.b w).getLsbD i = true → (sget 0 t.fus.b w).getLsbD i = true)

/-- Every bit read at the last cold reset is blown in one of the two copies, and every step keeps it so (R486). -/
def Obligations.ReadFusesAreBlown : Prop :=
  ∀ s t : State, step s = .next t → ReadBlown s → ReadBlown t

/-- The machine at reset has the invariant of ReadFusesAreBlown. -/
def Obligations.ResetReadFuses : Prop := ReadBlown State.reset

/-- The interrupt of a block (R103, R104). -/
def Obligations.StatusBitSendsMessage : Prop :=
  ∀ (s : State) (st : Nat), st ∈ irqWords → ∀ b < 32,
    let f : Field := ⟨st, b, b⟩
    let vec := s.get (Fld.RING_BVEC_VECTOR (st / 0x10000))
    let rises := (s.reg (st + 4)).getLsbD b = true ∧ (s.reg st).getLsbD b = false
    let sends := s.canDma = true ∧ s.flag (Fld.MSIX_CTRL_MASK vec) = false
    ((s.irqF f).reg st).getLsbD b = true ∧
    (¬ rises → (s.irqF f).ring.msix = s.ring.msix ∧ ∀ k, (s.irqF f).reg (Reg.MSIX_PBA k) = s.reg (Reg.MSIX_PBA k)) ∧
    (rises → sends → (s.irqF f).ring.msix = s.ring.msix ++ [vec]) ∧
    (rises → ¬ sends → (s.irqF f).ring.msix = s.ring.msix ∧ (s.irqF f).bitF (Fld.MSIX_PBA_PENDING (vec / 32)) (vec % 32) = true) ∧
    Frame [.msix] (orBits pba (bits [f])) s (s.irqF f)

/-- Requests that reach a fence, together with those that have reached it in the same cycle before (R110, R113, R123, R124). -/
def Obligations.FenceRequests : Prop :=
  ∀ (s : State) (n : Nat) (sigs : List Nat) (poison unpoison : Bool), n < 1024 → (∀ v ∈ sigs, v < 2 ^ 64) →
    let q := s.fenReq n
    let t := fenceApply s n sigs poison unpoison
    ((∀ r ∈ s.seen.reqs, r.n ≠ n) → q = ⟨n, s.fenceValue n, s.poisoned n, [], false, false⟩) ∧
    t.fenReq n = ⟨q.n, q.value, q.poisoned, q.sigs ++ sigs, q.poison || poison, q.unpoison || unpoison⟩ ∧
    t.fenceValue n = sigs.foldl max (s.fenceValue n) ∧
    t.poisoned n = (if poison || unpoison then q.poison || poison || (q.poisoned && !(q.unpoison || unpoison)) else s.poisoned n) ∧
    t.get Fld.FEN_STALE_COUNT = min 0xFFFF (s.get Fld.FEN_STALE_COUNT + (sigs.filter (· < q.value)).length) ∧
    (∀ m < 1024, m ≠ n → t.fenceValue m = s.fenceValue m ∧ t.poisoned m = s.poisoned m ∧ t.fenReq m = s.fenReq m) ∧
    Frame [.msix] fenceReach s t

/-- What `complete1` leaves behind (R88, R97, R112). -/
def Obligations.CompletionRecord : Prop :=
  ∀ (s : State) (d : Desc) (status detail result : Nat),
    let t := complete1 s d status detail result
    let n := d.signalFence % 1024
    (∃ r ∈ t.ring.recs, r.sq = d.sq ∧ r.cq = d.cq ∧ r.tag = BitVec.ofNat 32 d.tag ∧ r.seq = d.seq ∧ r.opcode = d.opcode ∧
      r.status = status ∧ r.detail = detail ∧ r.result = result ∧ r.retried = d.retried ∧ r.irq = d.irq ∧ r.late = false ∧
      r.at_ = s.cyc ∧ r.tick = s.tickno ∧ r.ofs = s.edgeOfs ∧ r.signalled = (decide (status = stOK) && d.signal)) ∧
    t.ring.recs.length = s.ring.recs.length + 1 ∧ t.ring.flight = s.ring.flight.erase d ∧
    (d.signal = true → status = stOK → d.opcode ≠ 0x07 → t.fenceValue n = max (s.fenceValue n) d.signalValue) ∧
    (d.signal = true → status ≠ stOK → s.flag (Fld.FEN_STATE_POISON_ON_FAIL n) = true → t.poisoned n = true) ∧
    (d.signal = false → Frame [.recs, .flight] (words []) s t) ∧
    Frame [.recs, .flight, .msix] fenceReach s t

/-- `settle`, at the end of a cycle, leaves no wait that the fences resolve (R114, R115, R120). -/
def Obligations.NoResolvedWaitIsLeft : Prop :=
  ∀ s : State,
    (∀ d ∈ s.settle.ring.flight, d.stage = .waiting → s.settle.waitStatus d = .open_ d.sat) ∧
    Frame [.recs, .flight, .msix] fenceReach s s.settle

/-- LOG_RIDX_WRITE, LOG_MHEAD_WRITE, LOG_MCFG_WRITE, LOG_CNT_CLR (R511, R516, R518, R525). A counter that has counted in the cycle
of the CLR (`seen.sets`) reads 1 after it, any other 0. -/
def Obligations.LogRegisterWrites : Prop :=
  ∀ (s : State) (v : Word), s.pwr.hold = .running → s.served Reg.LOG_RIDX = true →
    (let r := v.toNat % 4096
     let n := (r + 4096 - s.get Fld.LOG_RIDX_RIDX) % 4096
     let c := s.get Fld.LOG_STATUS_COUNT
     (r ≠ s.get Fld.LOG_WIDX_WIDX → n ≤ c → ∃ t, exec (.logRidxWrite v) s = .next t ∧
        t.get Fld.LOG_RIDX_RIDX = r ∧ t.get Fld.LOG_STATUS_COUNT = c - n ∧ (0 < n → t.get Fld.LOG_STATUS_FULL = 0) ∧
        Frame [] (bits [Fld.LOG_RIDX_RIDX, Fld.LOG_STATUS_COUNT, Fld.LOG_STATUS_FULL]) s t) ∧
     (r = s.get Fld.LOG_WIDX_WIDX → ∃ t, exec (.logRidxWrite v) s = .next t ∧ t.get Fld.LOG_STATUS_COUNT = 0 ∧
        Frame [] (bits [Fld.LOG_RIDX_RIDX, Fld.LOG_STATUS_COUNT, Fld.LOG_STATUS_FULL]) s t) ∧
     (r ≠ s.get Fld.LOG_WIDX_WIDX → c < n → exec (.logRidxWrite v) s = .next s)) ∧
    (let size := 2 ^ s.get Fld.LOG_MCFG_LOG2SIZE
     let h := v.toNat % 65536
     let from_ := s.get Fld.LOG_MHEAD_MHEAD % size
     let inRange := h < size ∧ (h + size - from_) % size ≤ (s.get Fld.LOG_MTAIL_MTAIL + size - from_) % size
     (inRange → ∃ t, exec (.logMheadWrite v) s = .next t ∧ t.get Fld.LOG_MHEAD_MHEAD = h ∧
        Frame [] (bits [Fld.LOG_MHEAD_MHEAD]) s t) ∧
     (¬ inRange → exec (.logMheadWrite v) s = .next s)) ∧
    (let k := Fld.LOG_MCFG_LOG2SIZE.get v
     let was := s.flag Fld.LOG_MCFG_EN
     let now := decide (Fld.LOG_MCFG_EN.get v = 1)
     (6 ≤ k → k ≤ 16 → ∃ t, exec (.logMcfgWrite v) s = .next t ∧
        t.get Fld.LOG_MCFG_THRESH = Fld.LOG_MCFG_THRESH.get v ∧ t.flag Fld.LOG_MCFG_EN = now ∧
        t.get Fld.LOG_MCFG_LOG2SIZE = (if was && now then s.get Fld.LOG_MCFG_LOG2SIZE else k) ∧
        (was = true → now = false → t.tel.mirror = [] ∧ t.get Fld.LOG_LOSS_MLOST = min 0xFFFF (s.get Fld.LOG_LOSS_MLOST + s.tel.mirror.length)) ∧
        (was = false ∨ now = true → Frame [] (bits [Fld.LOG_MCFG_THRESH, Fld.LOG_MCFG_EN, Fld.LOG_MCFG_LOG2SIZE]) s t) ∧
        Frame [.tel, .msix] (orBits pba (bits [Fld.LOG_MCFG_THRESH, Fld.LOG_MCFG_EN, Fld.LOG_MCFG_LOG2SIZE, Fld.LOG_LOSS_MLOST,
          Fld.LOG_IRQ_STATUS_MLOST])) s t) ∧
     (k < 6 ∨ 16 < k → exec (.logMcfgWrite v) s = .next s)) ∧
    (∃ t, exec .logCntClr s = .next t ∧ (∀ o ∈ [Reg.LOG_LOST, Reg.LOG_LOSS, Reg.LOG_RETRY], t.reg o = sget 0 s.seen.sets o) ∧
      Frame [] (words [Reg.LOG_LOST, Reg.LOG_LOSS, Reg.LOG_RETRY]) s t)

/-- LOG_APPEND and MIRROR_WRITE (R509, R510, R516, R517). -/
def Obligations.RecordsReachLogAndMirror : Prop :=
  (∀ (s : State) (r : TelRec) (q : List TelRec), s.pwr.hold = .running → s.telOn = true → s.tel.queue = r :: q → r.at_ < s.cyc →
    s.tel.qlost = 0 → s.flag Fld.LOG_CFG_EN = true → s.get Fld.LOG_STATUS_COUNT < 4096 → ∃ t, exec .logAppend s = .next t ∧
      t.tel.queue = q ∧ sget [] t.tel.ram (s.get Fld.LOG_WIDX_WIDX) = r.bytes (s.get Fld.LOG_TOTAL_TOTAL) ∧
      t.get Fld.LOG_WIDX_WIDX = (s.get Fld.LOG_WIDX_WIDX + 1) % 4096 ∧
      t.get Fld.LOG_STATUS_COUNT = s.get Fld.LOG_STATUS_COUNT + 1 ∧
      t.get Fld.LOG_TOTAL_TOTAL = (s.get Fld.LOG_TOTAL_TOTAL + 1) % 2 ^ 32 ∧
      t.tel.mirror = s.tel.mirror ++ (if s.flag Fld.LOG_MCFG_EN && bitOf (s.get Fld.LOG_MFILT_MFILT) r.typ then
        [r.bytes (s.get Fld.LOG_TOTAL_TOTAL)] else []) ∧
      Frame [.tel] (bits [Fld.LOG_WIDX_WIDX, Fld.LOG_STATUS_COUNT, Fld.LOG_TOTAL_TOTAL]) s t) ∧
  (∀ (s : State) (raw : List Byte) (q : List (List Byte)), s.pwr.hold = .running → s.halted = false →
    s.tel.mirror = raw :: q →
    let size := 2 ^ s.get Fld.LOG_MCFG_LOG2SIZE
    let tail := s.get Fld.LOG_MTAIL_MTAIL % size
    let nxt := (tail + 1) % size
    (s.canDma = true → nxt ≠ s.get Fld.LOG_MHEAD_MHEAD → nxt < 2 ^ 16 → ∃ t, exec .mirrorWrite s = .next t ∧
      t.tel.mirror = q ∧ t.get Fld.LOG_MTAIL_MTAIL = nxt ∧
      t.hostMem = (let m := writeBytes s.hostMem (s.wide Reg.LOG_MBASE_LO + 32 * tail) raw
        if s.wide Reg.LOG_MWB_LO = 0 then m else writeBytes m (s.wide Reg.LOG_MWB_LO) (leBytes 8 nxt)) ∧
      Frame [.tel, .hostMem, .msix] (orBits pba (bits [Fld.LOG_MTAIL_MTAIL, Fld.LOG_IRQ_STATUS_MIRROR])) s t) ∧
    (s.canDma = false ∨ nxt = s.get Fld.LOG_MHEAD_MHEAD → ∃ t, exec .mirrorWrite s = .next t ∧ t.tel.mirror = q ∧
      t.get Fld.LOG_LOSS_MLOST = min 0xFFFF (s.get Fld.LOG_LOSS_MLOST + 1) ∧
      Frame [.tel, .msix] (orBits pba (bits [Fld.LOG_LOSS_MLOST, Fld.LOG_IRQ_STATUS_MLOST])) s t))

/-- COPY and MARK (R514, R515; the entry number that MARK answers: log entry 9). -/
def Obligations.CopyAndMarkComplete : Prop :=
  ∀ (s : State) (sq : Fin 64) (seq : BitVec 16) (d : Desc), s.pwr.hold = .running → s.halted = false →
    s.takeDispatched sq seq.toNat 0x0A = some d →
    (d.pay 32 1 = 0 → s.canDma = true → d.episode = false →
      let count := s.get Fld.LOG_STATUS_COUNT
      let n := min count (d.pay 36 4)
      let first := (s.get Fld.LOG_TOTAL_TOTAL + 2 ^ 32 - count) % 2 ^ 32
      let m : State := { s with hostMem := writeBytes s.hostMem (d.pay 40 8) (s.logTake n) }
      exec (.copy sq seq) s = .next ((if bitOf (d.pay 33 1) 0 then m.logConsume n else m).complete d stOK 0
        (n + first * 2 ^ 16 + s.get Fld.LOG_STATUS_FULL * 2 ^ 48))) ∧
    (d.pay 32 1 = 1 → let m := s.tell 0x0F 20 0 (slice d.raw 40 16 ++ leBytes 1 d.sq) 2
      let marked : State := { m with seen := { m.seen with marks := m.seen.marks ++ [(d.sq, d.seq)] } }
      let ahead := s.tel.queue.length
      let lost := s.flag Fld.LOG_CFG_EN = false ∨ (s.flag Fld.LOG_CFG_MODE = true ∧ 4096 ≤ s.get Fld.LOG_STATUS_COUNT + ahead)
      (s.telOn = true → ahead < 256 →
        (¬ lost → exec (.mark sq seq) s = .next (marked.complete d stOK 0 ((s.get Fld.LOG_TOTAL_TOTAL + ahead) % 2 ^ 32))) ∧
        (lost → exec (.mark sq seq) s = .next (marked.complete d stOK 0 0xFFFFFFFF))) ∧
      (s.telOn = false ∨ 256 ≤ ahead → exec (.mark sq seq) s = .next (m.complete d stOK 0 0xFFFFFFFF)))

/-- HALTREQ and HALTREL (R495, R521 to R523). -/
def Obligations.DebugHaltBeginsAndEnds : Prop :=
  ∀ s : State, s.pwr.hold = .running →
    (s.flag Fld.GLB_CAPS_DEBUG_LOCKED = true → exec .haltreq s = .next s ∧ exec .haltrel s = .next s) ∧
    (s.flag Fld.GLB_CAPS_DEBUG_LOCKED = false → s.halted = false →
      (s.running = true ∨ s.pstate < 3 → exec .haltreq s = .next { s with tel := { s.tel with haltReq := true } }) ∧
      (s.running = false → 3 ≤ s.pstate → exec .haltreq s = .next (haltEnter (nextCycle s))) ∧
      exec .haltrel s = .next { s with tel := { s.tel with haltReq := false } }) ∧
    (let t := haltEnter s
     t.halted = true ∧ (∀ m < 6, t.flag (Fld.PWM_STATUS_EN m) = false) ∧ t.tel.haltReq = false ∧ t.tel.haltRan = s.running ∧
      t.wide Reg.LOG_HALTSTAMP_LO = s.dtime.toNat ∧ t.get Fld.LOG_DBG_HALTS = min 0xFFFF (s.get Fld.LOG_DBG_HALTS + 1) ∧
      t.mem = s.mem ∧ t.fus = s.fus) ∧
    (s.flag Fld.GLB_CAPS_DEBUG_LOCKED = false → s.halted = true → ∃ t, exec .haltrel s = .next t ∧ t.halted = false ∧
      (s.tel.haltRan = true → s.running = true → t.gaf.starting = some s.activeBank) ∧ t.tel.haltRan = false ∧
      t.mem = s.mem ∧ t.fus = s.fus ∧ t.ring.flight = s.ring.flight.map (fun d =>
        if d.timeout = 0 then d else { d with fetchedAt := d.fetchedAt + (s.cyc - max s.tel.haltAt d.fetchedAt) }))

/-- FEN_HSIG_SIGNAL, FEN_HSIG_UNPOISON, FEN_HSIG_POISON, FEN_STALE_CLR (R111, R123, R124, R518). -/
def Obligations.HostFenceCommands : Prop :=
  ∀ (s : State) (v : Word), s.pwr.hold = .running → s.served Reg.FEN_HSIG_CMD = true →
    let n := v.toNat % 1024
    let sig := v.getLsbD 16
    let unp := v.getLsbD 17
    let poi := v.getLsbD 18
    exec (.fenHsigSignal v) s = .next (s.fence n [s.wide Reg.FEN_HSIG_LO] poi unp) ∧
    exec (.fenHsigUnpoison v) s = .next (s.fence n [s.wide Reg.FEN_HSIG_LO] poi true) ∧
    exec (.fenHsigPoison v) s = .next (s.fence n (if sig || unp then [s.wide Reg.FEN_HSIG_LO] else []) true unp) ∧
    (∃ t, exec .fenStaleClr s = .next t ∧ t.get Fld.FEN_STALE_COUNT = Fld.FEN_STALE_COUNT.get (sget 0 s.seen.sets Reg.FEN_STALE) ∧
      Frame [] (bits [Fld.FEN_STALE_COUNT]) s t)

/-- FEN_WATCH_WRITE and FEN_EVT_ENABLE (R23, R125, R130, R552). -/
def Obligations.WatchesAndEventBindings : Prop :=
  ∀ (s : State) (v : Word), s.pwr.hold = .running → s.served Reg.FEN_HSIG_CMD = true →
    (∀ (w : Fin 16) (part : WatchWord), ∃ t, exec (.fenWatchWrite w part v) s = .next t ∧
      (part = .control → t.reg (Reg.FEN_WATCH w) = (v &&& 0x800003FF)) ∧
      (part = .threshLo → t.reg (Reg.FEN_WATCH_THRESH_LO w) = v) ∧
      (part = .threshHi → t.reg (Reg.FEN_WATCH_THRESH_HI w) = v) ∧
      (t.watchHolds w = true → t.bitF Fld.FEN_IRQ_STATUS_WATCH w = true) ∧
      (t.watchHolds w = false → t.ring.msix = s.ring.msix ∧ t.reg Reg.FEN_IRQ_STATUS = s.reg Reg.FEN_IRQ_STATUS) ∧
      Frame [.msix] (orBits pba (bits [⟨Reg.FEN_IRQ_STATUS, w, w⟩, ⟨Reg.FEN_WATCH w, 31, 0⟩,
        ⟨Reg.FEN_WATCH_THRESH_LO w, 31, 0⟩, ⟨Reg.FEN_WATCH_THRESH_HI w, 31, 0⟩])) s t) ∧
    (∀ k : Fin 32,
      (v.toNat % 256 ∈ [0x00, 0x01, 0x02, 0x03, 0x10, 0x11, 0x20, 0x30] → ∃ t, exec (.fenEvtEnable k v) s = .next t ∧
        t.reg (Reg.FEN_EVT k) = ((v ||| 0x80000000) &&& 0x8003FFFF) ∧
        (s.flag (Fld.FEN_EVT_EN k) = false → sget 0 t.evtCount k = 0 ∧ t.get (Fld.FEN_EVT_COUNT_COUNT k) = 0) ∧
        (s.flag (Fld.FEN_EVT_EN k) = true → t.evtCount = s.evtCount) ∧
        (∀ j, j ≠ k.val → sget 0 t.evtCount j = sget 0 s.evtCount j) ∧
        Frame [.evtCount] (words [Reg.FEN_EVT k, Reg.FEN_EVT_COUNT k]) s t) ∧
      (v.toNat % 256 ∉ [0x00, 0x01, 0x02, 0x03, 0x10, 0x11, 0x20, 0x30] → exec (.fenEvtEnable k v) s = .next s))

/-- SIGNAL, UNPOISON and WAIT (R119 to R122). -/
def Obligations.FenceDescriptors : Prop :=
  ∀ (s : State) (sq : Fin 64) (seq : BitVec 16) (d : Desc), s.pwr.hold = .running →
    (s.takeDispatched sq seq.toNat 0x07 = some d →
      let n := d.signalFence % 1024
      let done (unp : Bool) : State :=
        let t := fenceApply s n [d.signalValue] false unp
        complete1 { t with seen := { t.seen with signals := (sq.val, seq.toNat, n) :: t.seen.signals } } d stOK 0 (t.fenceValue n)
          (if bitOf (d.pay 33 1) 0 then some (d.pay 40 8, leBytes 8 (t.fenceValue n)) else none)
      (d.pay 32 1 = 0 → exec (.signal sq seq) s = .next (done false)) ∧
      (d.pay 32 1 = 1 → exec (.unpoison sq seq) s = .next (done true))) ∧
    (s.takeDispatched sq seq.toNat 0x08 = some d → exec (.wait sq seq) s = .next (s.complete d stOK 0 d.sat))

/-- SQ_DOORBELL and CQ_DOORBELL (R72, R73, R77 to R80). -/
def Obligations.DoorbellsMoveRings : Prop :=
  ∀ (s : State) (n : Fin 64) (v : Word), s.pwr.hold = .running →
    let x := v.toNat % 2 ^ 16
    (s.flag (Fld.SQ_CFG_EN n) = false → exec (.sqDoorbell n v) s = .next s) ∧
    (s.flag (Fld.SQ_CFG_EN n) = true →
      let size := s.sqSize n
      let fits := x < size ∧ (x + size - s.get (Fld.SQ_TAIL_TAIL n)) % size + s.sqCount n < size
      (fits → ∃ t, exec (.sqDoorbell n v) s = .next t ∧ t.get (Fld.SQ_TAIL_TAIL n) = x ∧
        Frame [] (bits [Fld.SQ_TAIL_TAIL n]) s t) ∧
      (¬ fits → ∃ t, exec (.sqDoorbell n v) s = .next t ∧ t.flag (Fld.SQ_STATUS_HALTED n) = true ∧
        t.get (Fld.SQ_STATUS_ERR n) = 1 ∧ (s.get (Fld.SQ_STATUS_ERR n) = 0 → t.flag Fld.RING_IRQ_STATUS_SQ_ERR = true) ∧
        Frame [.msix] (orBits pba (bits [Fld.SQ_STATUS_HALTED n, Fld.SQ_STATUS_ERR n, Fld.RING_IRQ_STATUS_SQ_ERR])) s t)) ∧
    (s.flag (Fld.CQ_CFG_EN n) = false → exec (.cqDoorbell n v) s = .next s) ∧
    (s.flag (Fld.CQ_CFG_EN n) = true →
      let size := s.cqSize n
      let k := (x + size - s.get (Fld.CQ_HEAD_HEAD n)) % size
      let fits := x < size ∧ k ≤ (s.get (Fld.CQ_TAIL_TAIL n) + size - s.get (Fld.CQ_HEAD_HEAD n)) % size
      (fits → ∃ t, exec (.cqDoorbell n v) s = .next t ∧
        t.get (Fld.CQ_HEAD_HEAD n) = x ∧ t.get (Fld.CQ_STATUS_FREE n) = (s.get (Fld.CQ_STATUS_FREE n) + k) % 2 ^ 16 ∧
        Frame [] (bits [Fld.CQ_HEAD_HEAD n, Fld.CQ_STATUS_FREE n]) s t) ∧
      (¬ fits → ∃ t, exec (.cqDoorbell n v) s = .next t ∧ t.get (Fld.CQ_HEAD_HEAD n) = s.get (Fld.CQ_HEAD_HEAD n) ∧
        t.get (Fld.CQ_STATUS_ERR n) = 1 ∧ (s.get (Fld.CQ_STATUS_ERR n) = 0 → t.flag Fld.RING_IRQ_STATUS_CQ_ERR = true) ∧
        Frame [.msix] (orBits pba (bits [Fld.CQ_STATUS_ERR n, Fld.RING_IRQ_STATUS_CQ_ERR])) s t))

/-- SQ_CFG_WRITE and CQ_CFG_WRITE (R23, R70, R71, R75). -/
def Obligations.RingConfigurationWrites : Prop :=
  ∀ (s : State) (n : Fin 64) (v : Word), s.pwr.hold = .running →
    (s.served (Reg.SQ_CFG n) = true →
      let k := (Fld.SQ_CFG_LOG2SIZE n).get v
      let en := decide ((Fld.SQ_CFG_EN n).get v = 1)
      let cq := if s.sqActive n then s.get (Fld.SQ_CFG_CQ n) else (Fld.SQ_CFG_CQ n).get v
      let stats : List Field := [Fld.SQ_STATUS_ACTIVE n, Fld.CQ_STATUS_ACTIVE cq]
      (k < 4 ∨ 16 < k → exec (.sqCfgWrite n v) s = .next s) ∧
      (4 ≤ k → k ≤ 16 → (en = true → s.flag (Fld.CQ_CFG_EN cq) = true) → ∃ t, exec (.sqCfgWrite n v) s = .next t ∧
        t.flag (Fld.SQ_CFG_EN n) = en ∧ t.get (Fld.SQ_CFG_PRIO n) = (Fld.SQ_CFG_PRIO n).get v ∧
        t.get (Fld.SQ_CFG_CQ n) = cq ∧
        t.get (Fld.SQ_CFG_LOG2SIZE n) = (if s.sqActive n then s.get (Fld.SQ_CFG_LOG2SIZE n) else k) ∧
        (en = true → s.flag (Fld.SQ_CFG_EN n) = false → t.flag (Fld.SQ_STATUS_HALTED n) = false ∧
          t.get (Fld.SQ_STATUS_ERR n) = 0 ∧ t.get (Fld.SQ_HEAD_HEAD n) = 0 ∧ t.get (Fld.SQ_TAIL_TAIL n) = 0) ∧
        Frame [] (bits ([Fld.SQ_CFG_EN n, Fld.SQ_CFG_PRIO n, Fld.SQ_CFG_CQ n, Fld.SQ_CFG_LOG2SIZE n, Fld.SQ_STATUS_HALTED n,
          Fld.SQ_STATUS_ERR n, Fld.SQ_HEAD_HEAD n, Fld.SQ_TAIL_TAIL n] ++ stats)) s t) ∧
      (4 ≤ k → k ≤ 16 → en = true → s.flag (Fld.CQ_CFG_EN cq) = false → ∃ t, exec (.sqCfgWrite n v) s = .next t ∧
        t.get (Fld.SQ_STATUS_ERR n) = 5 ∧
        Frame [.msix] (orBits pba (bits [Fld.SQ_STATUS_ERR n, Fld.RING_IRQ_STATUS_SQ_ERR])) s t)) ∧
    (s.served (Reg.CQ_CFG n) = true →
      let k := (Fld.CQ_CFG_LOG2SIZE n).get v
      let en := decide ((Fld.CQ_CFG_EN n).get v = 1)
      let was := s.flag (Fld.CQ_CFG_EN n)
      let inUse := (∃ q < 64, s.flag (Fld.SQ_CFG_EN q) = true ∧ s.get (Fld.SQ_CFG_CQ q) = n) ∨ s.cqUnwritten n = true
      (k < 4 ∨ 16 < k → exec (.cqCfgWrite n v) s = .next s) ∧
      (4 ≤ k → k ≤ 16 → ¬ (was = true ∧ en = false ∧ inUse) → ∃ t, exec (.cqCfgWrite n v) s = .next t ∧
        t.flag (Fld.CQ_CFG_EN n) = en ∧ t.get (Fld.CQ_CFG_VECTOR n) = (Fld.CQ_CFG_VECTOR n).get v ∧
        t.get (Fld.CQ_CFG_ERR_IMM n) = (Fld.CQ_CFG_ERR_IMM n).get v ∧
        t.get (Fld.CQ_CFG_LOG2SIZE n) = (if was || s.cqUnwritten n then s.get (Fld.CQ_CFG_LOG2SIZE n) else k) ∧
        (en = true → was = false → t.get (Fld.CQ_TAIL_TAIL n) = 0 ∧ t.get (Fld.CQ_TAIL_PHASE n) = 1 ∧
          t.get (Fld.CQ_HEAD_HEAD n) = 0 ∧ t.get (Fld.CQ_STATUS_ERR n) = 0 ∧
          t.get (Fld.CQ_STATUS_FREE n) = (t.cqSize n - 1) % 2 ^ 16 ∧ sget 0 t.ring.counted n = 0) ∧
        Frame [.ring] (bits [Fld.CQ_CFG_EN n, Fld.CQ_CFG_VECTOR n, Fld.CQ_CFG_ERR_IMM n, Fld.CQ_CFG_LOG2SIZE n,
          ⟨Reg.CQ_TAIL n, 31, 0⟩, Fld.CQ_HEAD_HEAD n, Fld.CQ_STATUS_ERR n, Fld.CQ_STATUS_FREE n, Fld.CQ_STATUS_ACTIVE n]) s t) ∧
      (4 ≤ k → k ≤ 16 → was = true → en = false → inUse → ∃ t, exec (.cqCfgWrite n v) s = .next t ∧
        t.get (Fld.CQ_STATUS_ERR n) = 2 ∧
        Frame [.msix] (orBits pba (bits [Fld.CQ_STATUS_ERR n, Fld.RING_IRQ_STATUS_CQ_ERR])) s t))

/-- DESCRIPTOR_FETCH and DESCRIPTOR_DISPATCH (R74, R81 to R85, R91, R115, R116). That a read which fails counts as service is the
model's choice (log entry 39). -/
def Obligations.FetchAndDispatch : Prop :=
  ∀ s : State, s.pwr.hold = .running →
    (∀ n, s.canDma = true → s.ready 1 = true → s.nextSq = some n →
      let served : State := { s with ring := { s.ring with rr := sset 0 s.ring.rr (s.get (Fld.SQ_CFG_PRIO n)) ((n + 1) % 64) } }
      (∀ l, exec (.descriptorFetch (.entries l)) s = .next (fetchMany served n (l.take 8))) ∧
      exec (.descriptorFetch .failed) s = .next (served.sqHalt n 4) ∧ exec (.descriptorFetch .cut) s = .next served ∧
      (∀ raw : List Byte, let cq := s.get (Fld.SQ_CFG_CQ n)
        let seq := s.get (Fld.SQ_SEQ_NEXT n)
        let d : Desc := ⟨n, cq, slice raw 0 64, .ready, s.cyc, 0, false, false, 0, 0, [], 0⟩
        let ringBits : List Field := [Fld.SQ_HEAD_HEAD n, Fld.SQ_STATUS_INFLIGHT n, Fld.SQ_SEQ_NEXT n, Fld.CQ_STATUS_FREE cq,
          Fld.SQ_STATUS_ACTIVE n, Fld.CQ_STATUS_ACTIVE cq]
        d ∉ s.ring.flight → s.heldIs n seq = false → d.seq = seq → headerBad d.raw = none → payloadBad d.raw = none →
        s.unitReady d.raw = true → ∃ t, exec (.descriptorFetch (.entries [raw])) s = .next t ∧
          t.ring.flight = s.ring.flight ++ [{ d with stage := if d.wait then .waiting else .ready }] ∧
          t.get (Fld.SQ_HEAD_HEAD n) = (s.get (Fld.SQ_HEAD_HEAD n) + 1) % s.sqSize n % 2 ^ 16 ∧
          t.get (Fld.SQ_SEQ_NEXT n) = (seq + 1) % 2 ^ 16 ∧
          t.get (Fld.SQ_STATUS_INFLIGHT n) = s.get (Fld.SQ_STATUS_INFLIGHT n) + 1 ∧
          t.get (Fld.CQ_STATUS_FREE cq) = s.get (Fld.CQ_STATUS_FREE cq) - 1 ∧
          Frame [.flight, .ring] (bits ringBits) s t)) ∧
    (∀ (sq : Fin 64) (seq : BitVec 16) (d : Desc), s.findDesc sq seq.toNat = some d →
      let earlier := (s.ring.flight.takeWhile (· ≠ d)).filter (·.sq = d.sq)
      let free := d.stage = .ready ∧ s.halted = false ∧ (d.barrier = true → earlier = []) ∧ ∀ e ∈ earlier,
        e.stage ≠ .ready ∧ ¬ (e.stage = .waiting ∧ unitOf e.opcode = unitOf d.opcode) ∧ ¬ (e.barrier = true ∧ e.stage ≠ .active)
      let k := s.ring.sent + 1
      (free → exec (.descriptorDispatch sq seq) s =
        .next { s.setDesc d { d with stage := .dispatched, order := k } with
          ring := { (s.setDesc d { d with stage := .dispatched, order := k }).ring with sent := k } }) ∧
      (¬ free → exec (.descriptorDispatch sq seq) s = .next s))

/-- RECORD_WRITE, CQ_MODERATION_TIMEOUT, MSIX_UNMASK (R75, R84, R88, R101 to R104, R122). -/
def Obligations.RecordsAndMessages : Prop :=
  (∀ (s : State) (r : Rec) (q : List Rec), s.pwr.hold = .running → s.canDma = true → s.ring.recs = r :: q →
    r.at_ ≠ s.cyc →
    let tail := s.get (Fld.CQ_TAIL_TAIL r.cq)
    let phase := s.get (Fld.CQ_TAIL_PHASE r.cq)
    let nxt := (tail + 1) % s.cqSize r.cq
    let m := match r.wb with
      | some (a, b) => writeBytes s.hostMem a b
      | none => s.hostMem
    ∃ t, exec .recordWrite s = .next t ∧
      t.hostMem = writeBytes m (s.wide (Reg.CQ_BASE_LO r.cq) + 32 * tail) (r.bytes phase) ∧ t.ring.recs = q ∧
      t.get (Fld.CQ_TAIL_TAIL r.cq) = nxt % 2 ^ 16 ∧ t.get (Fld.CQ_TAIL_PHASE r.cq) = (if nxt = 0 then 1 - phase else phase) ∧
      t.get (Fld.SQ_STATUS_INFLIGHT r.sq) = s.get (Fld.SQ_STATUS_INFLIGHT r.sq) - 1 ∧
      Frame [.hostMem, .recs, .ring, .msix] (orBits pba (bits [Fld.CQ_TAIL_TAIL r.cq, Fld.CQ_TAIL_PHASE r.cq,
        Fld.SQ_STATUS_INFLIGHT r.sq, Fld.SQ_STATUS_ACTIVE r.sq, Fld.CQ_STATUS_ACTIVE r.cq, Fld.LOG_RETRY_RETRIED])) s t) ∧
  (∀ (s : State) (n : Fin 64), s.pwr.hold = .running →
    (sget 0 s.ring.counted n = 0 → exec (.cqModerationTimeout n) s = .next s) ∧
    (sget 0 s.ring.counted n ≠ 0 → ∃ t, exec (.cqModerationTimeout n) s = .next t ∧ sget 0 t.ring.counted n = 0 ∧
      (s.canDma = true → s.flag (Fld.MSIX_CTRL_MASK (s.get (Fld.CQ_CFG_VECTOR n))) = false →
        t.ring.msix = s.ring.msix ++ [s.get (Fld.CQ_CFG_VECTOR n)]) ∧ Frame [.ring, .msix] pba s t)) ∧
  (∀ (s : State) (v : Fin 128), s.pwr.hold = .running → s.served (Reg.MSIX_CTRL v) = true →
    ∃ t, exec (.msixUnmask v) s = .next t ∧ t.flag (Fld.MSIX_CTRL_MASK v) = false ∧
      (s.bitF (Fld.MSIX_PBA_PENDING (v / 32)) (v % 32) = true → s.canDma = true →
        t.ring.msix = s.ring.msix ++ [v.val] ∧ t.bitF (Fld.MSIX_PBA_PENDING (v / 32)) (v % 32) = false) ∧
      (s.bitF (Fld.MSIX_PBA_PENDING (v / 32)) (v % 32) = false ∨ s.canDma = false →
        Frame [] (bits [Fld.MSIX_CTRL_MASK v]) s t) ∧
      Frame [.msix] (orBits pba (bits [Fld.MSIX_CTRL_MASK v])) s t)

/-- LINK_DOWN, LINK_UP, D3HOT_ENTRY, D0_RETURN (R68, R69, R104). `heldBack` are the vectors whose messages wait and may go. -/
def Obligations.LinkGoesAndComes : Prop :=
  ∀ s : State, s.pwr.hold = .running →
    let heldBack := (List.range 128).filter fun v => s.bitF (Fld.MSIX_PBA_PENDING (v / 32)) (v % 32) && !s.flag (Fld.MSIX_CTRL_MASK v)
    let vec := s.get (Fld.RING_BVEC_VECTOR 2)
    let flushed (t : State) : Prop := ∀ v ∈ heldBack, t.bitF (Fld.MSIX_PBA_PENDING (v / 32)) (v % 32) = false
    let resumes (t : State) : Prop := (t.canDma = true → t.ring.msix = s.ring.msix ++ heldBack ∧ flushed t) ∧
      (t.canDma = false → t.ring.msix = s.ring.msix ∧ ∀ k, t.reg (Reg.MSIX_PBA k) = s.reg (Reg.MSIX_PBA k))
    exec (.linkDown .busMaster) s = .next { s with ring := { s.ring with bme := false } } ∧
    (∃ t, exec (.linkDown .link) s = .next t ∧ t.reg Reg.RING_LINK = 0 ∧ t.canDma = false ∧ t.ring.msix = s.ring.msix ∧
      (s.flag Fld.RING_LINK_UP = true → t.flag Fld.RING_IRQ_STATUS_LINK_EVT = true) ∧
      Frame [] (orBits pba (bits [⟨Reg.RING_LINK, 31, 0⟩, Fld.RING_IRQ_STATUS_LINK_EVT])) s t) ∧
    (∃ t, exec (.linkUp .busMaster) s = .next t ∧ t.ring = { s.ring with bme := true, msix := t.ring.msix } ∧ resumes t ∧
      Frame [.ring, .msix] pba s t) ∧
    (∀ w v : Nat, w < 16 → v < 16 → ∃ t, exec (.linkUp (.link w v)) s = .next t ∧ t.get Fld.RING_LINK_WIDTH = w ∧
      t.get Fld.RING_LINK_SPEED = v ∧ t.flag Fld.RING_LINK_UP = true ∧
      (s.flag Fld.RING_LINK_UP = true → resumes t) ∧
      (s.flag Fld.RING_LINK_UP = false → t.flag Fld.RING_IRQ_STATUS_LINK_EVT = true ∧ (t.canDma = true →
        (t.ring.msix = s.ring.msix ++ heldBack ∨ t.ring.msix = s.ring.msix ++ [vec] ++ heldBack) ∧ flushed t)) ∧
      Frame [.msix] (orBits pba (bits [Fld.RING_LINK_WIDTH, Fld.RING_LINK_SPEED, Fld.RING_LINK_UP,
        Fld.RING_IRQ_STATUS_LINK_EVT])) s t) ∧
    exec .d3hotEntry s = .next { s with ring := { s.ring with d3hot := true } } ∧
    (∃ t, exec .d0Return s = .next t ∧ t.ring = { s.ring with d3hot := false, msix := t.ring.msix } ∧ resumes t ∧
      Frame [.ring, .msix] pba s t)

/-- RING_ABORT, RING_ABORT_ALL, DESCRIPTOR_TIMEOUT, PCIE_RETRIES_EXHAUSTED (R69, R89, R92 to R100, R117, R449): what they latch for
the end of the cycle, with which status that stops a descriptor, and what is reported of an abort. -/
def Obligations.AbortsAndTimeouts : Prop :=
  ∀ (s : State) (n : Fin 64) (seq : BitVec 16), s.pwr.hold = .running →
    let latch (l : Latch) : State := { s with ring := { s.ring with latched := s.ring.latched ++ [l] } }
    (s.served Reg.RING_ABORT = true →
      exec (.ringAbort n seq) s = .next (latch (.one n seq.toNat)) ∧
      ∃ t, exec (.ringAbortAll n) s = .next t ∧ t.flag (Fld.SQ_CFG_EN n) = false ∧ t.get (Fld.SQ_STATUS_ERR n) = 3 ∧
        t.ring.latched = s.ring.latched ++ [.all n] ∧
        (s.get (Fld.SQ_STATUS_ERR n) = 0 → t.flag Fld.RING_IRQ_STATUS_SQ_ERR = true) ∧
        Frame [.ring, .msix] (orBits pba (bits [Fld.SQ_CFG_EN n, Fld.SQ_STATUS_ERR n, Fld.RING_IRQ_STATUS_SQ_ERR])) s t) ∧
    (∀ d, s.findDesc n seq.toNat = some d →
      let due := d.timeout ≠ 0 ∧ d.episode = false ∧ s.halted = false ∧
        d.fetchedAt + ((2 * d.timeout + d.allow) * 98304 + 999) / 1000 ≤ s.cyc
      let lost := (d.episode = true ∧ d.opcode ≠ 0x0C) ∨ s.awaitsMemory d = true
      (due → exec (.descriptorTimeout n seq) s = .next (latch (.expiry n seq.toNat))) ∧
      (¬ due → exec (.descriptorTimeout n seq) s = .next s) ∧
      (lost → exec (.pcieRetriesExhausted n seq) s = .next (serveNext (stopDesc s d stLinkLost true))) ∧
      (¬ lost → exec (.pcieRetriesExhausted n seq) s = .next s)) ∧
    (∀ d : Desc,
      (d.stage ≠ .active → stopDesc s d stAborted = s.complete d stAborted 0 0 ∧
        stopDesc s d stLinkLost true = s.complete d stLinkLost 0 0 ∧
        stopDesc s d stTimeout = s.complete d stTimeout (0x1000000 + min d.allow 0xFFFFFF) 0) ∧
      (let named := Latch.one d.sq d.seq ∈ s.ring.latched ∨ Latch.all d.sq ∈ s.ring.latched
       (named → s.latchStatus d = some stAborted) ∧
       (¬ named → Latch.expiry d.sq d.seq ∈ s.ring.latched → s.latchStatus d = some stTimeout) ∧
       (¬ named → Latch.expiry d.sq d.seq ∉ s.ring.latched → s.latchStatus d = none))) ∧
    (∀ stopped : List (Nat × Nat),
      let me := (n.val, seq.toNat)
      let past := ∃ r ∈ s.ring.recs, r.sq = n ∧ r.seq = seq.toNat
      let ahead := (seq.toNat + 2 ^ 16 - s.get (Fld.SQ_SEQ_NEXT n)) % 2 ^ 16 < s.sqCount n
      let sts : Bits := bits [Fld.RING_ABORT_STS_RESULT, Fld.RING_ABORT_STS_MATCHED, Fld.RING_ABORT_STS_HELD]
      let t := abortReport stopped s (.one n seq.toNat)
      (me ∈ stopped → t.get Fld.RING_ABORT_STS_RESULT = 1 ∧ t.flag Fld.RING_ABORT_STS_HELD = false) ∧
      (me ∉ stopped → past → t.get Fld.RING_ABORT_STS_RESULT = 2 ∧ t.get Fld.RING_ABORT_STS_MATCHED = 1 ∧
        ∀ r ∈ t.ring.recs, r.sq = n → r.seq = seq.toNat → r.late = true) ∧
      (me ∉ stopped → ¬ past → ahead → t.get Fld.RING_ABORT_STS_RESULT = 0 ∧ t.flag Fld.RING_ABORT_STS_HELD = true ∧
        t.heldIs n seq.toNat = true) ∧
      (me ∉ stopped → ¬ past → ¬ ahead → t.get Fld.RING_ABORT_STS_RESULT = 3 ∧ t.ring.recs = s.ring.recs) ∧
      Frame [.ring, .recs] sts s t ∧
      (let u := abortReport stopped s (.all n)
       let count := (stopped.filter fun x => x.1 = n.val).length +
        (s.ring.recs.filter fun r => r.sq = n.val && !stopped.contains (r.sq, r.seq)).length
       u.get Fld.RING_ABORT_STS_RESULT = (if count = 0 then 3 else 1) ∧ u.get Fld.RING_ABORT_STS_MATCHED = count % 2 ^ 16 ∧
        u.flag Fld.RING_ABORT_STS_HELD = false))

/-- MEM_TRAINING_DONE, MEM_RETRAIN, MEM_REINIT, MEM_REINIT_DONE (R445 to R450, R457). -/
def Obligations.MemoryTrainsAndInitialises : Prop :=
  ∀ s : State, s.pwr.hold = .running →
    (∀ r, s.mem.training = false ∨ s.pwr.supplies = false ∨ s.flag Fld.PWR_PLL_XTAL_OK = false →
      exec (.memTrainingDone r) s = .next s) ∧
    (s.mem.training = true → s.pwr.supplies = true → s.flag Fld.PWR_PLL_XTAL_OK = true →
      let failed (t : State) (ch code : Nat) : Prop := t.mem = { s.mem with training := false } ∧
        t.get Fld.MEM_STATUS_TRAIN_ERR = ch ∧ t.get Fld.MEM_STATUS_TRAIN_CODE = code ∧ t.flag Fld.MEM_IRQ_STATUS_TRAIN_ERR = true ∧
        Frame [.mem, .msix] (orBits pba (bits [Fld.MEM_STATUS_TRAIN_ERR, Fld.MEM_STATUS_TRAIN_CODE,
          Fld.MEM_IRQ_STATUS_TRAIN_ERR])) s t
      (∀ (size : Fin 3) (rank : Bool), ∃ t,
        exec (.memTrainingDone (.read (.replicate 4 (BitVec.ofNat 16 (1024 * 2 ^ size.val))) (.replicate 4 rank))) s = .next t ∧
        t.mem = { s.mem with training := false } ∧ t.flag Fld.MEM_STATUS_TRAINED = true ∧ t.get Fld.MEM_STATUS_SIZE = size ∧
        t.flag Fld.MEM_STATUS_RANKS = rank ∧ t.get Fld.MEM_STATUS_TRAIN_ERR = 0 ∧ t.get Fld.MEM_STATUS_TRAIN_CODE = 0 ∧
        t.get Fld.MEM_USABLE_USABLE_MIB = 512 * 2 ^ size.val * (if s.flag Fld.MEM_STATUS_IECC_ON then 7 else 8) ∧
        t.ready 16 = true ∧ t.flag Fld.MEM_IRQ_STATUS_READY = true ∧
        Frame [.mem, .pwr, .msix] (orBits pba (bits [⟨Reg.MEM_STATUS, 31, 0⟩, Fld.MEM_USABLE_USABLE_MIB,
          ⟨Reg.GLB_READY, 16, 16⟩, ⟨Reg.GLB_RDY_IRQ, 16, 16⟩, Fld.MEM_IRQ_STATUS_READY])) s t) ∧
      (∀ (mib : Vector (BitVec 16) 4) (two : Vector Bool 4),
        (mib ≠ .replicate 4 mib[0] ∨ two ≠ .replicate 4 two[0] ∨ 4 * mib[0].toNat ∉ [4096, 8192, 16384]) → ∃ t,
        exec (.memTrainingDone (.read mib two)) s = .next t ∧ failed t 15 2) ∧
      ∀ ch : BitVec 4, (∃ t, exec (.memTrainingDone (.timing ch)) s = .next t ∧ failed t ch.toNat 1) ∧
        ∃ t, exec (.memTrainingDone (.zq ch)) s = .next t ∧ failed t ch.toNat 3) ∧
    (s.served Reg.MEM_CTRL = true → s.mem.training = false → s.mem.reinit = none →
      (∃ t, exec .memRetrain s = .next t ∧ t.mem = { s.mem with training := true } ∧ t.flag Fld.MEM_STATUS_TRAINED = false ∧
        t.ready 16 = false ∧ t.get Fld.MEM_CTRL_IECC = s.get Fld.MEM_CTRL_IECC ∧
        Frame [.mem] (bits [Fld.MEM_CTRL_IECC, Fld.MEM_STATUS_TRAINED, ⟨Reg.GLB_READY, 16, 16⟩]) s t) ∧
      (s.flag Fld.MEM_STATUS_TRAINED = true → ∀ iecc : Bool, ∃ t, exec (.memReinit iecc) s = .next t ∧
        t.mem = { s.mem with reinit := some iecc } ∧ t.flag Fld.MEM_STATUS_INITIALISING = true ∧ t.ready 16 = false ∧
        t.flag Fld.MEM_CTRL_IECC = iecc ∧
        Frame [.mem] (bits [Fld.MEM_CTRL_IECC, Fld.MEM_STATUS_INITIALISING, ⟨Reg.GLB_READY, 16, 16⟩]) s t)) ∧
    (∀ iecc, s.mem.reinit = some iecc → ∃ t, exec .memReinitDone s = .next t ∧
      t.mem = { s.mem with reinit := none, ram := [], flaws := [], scrubAt := 0 } ∧ t.flag Fld.MEM_STATUS_INITIALISING = false ∧
      t.flag Fld.MEM_STATUS_IECC_ON = iecc ∧ t.ready 16 = true ∧ t.flag Fld.MEM_IRQ_STATUS_READY = true ∧
      t.get Fld.MEM_USABLE_USABLE_MIB = 512 * 2 ^ s.get Fld.MEM_STATUS_SIZE * (if iecc then 7 else 8) ∧
      Frame [.mem, .pwr, .msix] (orBits pba (bits [Fld.MEM_STATUS_INITIALISING, Fld.MEM_STATUS_IECC_ON,
        Fld.MEM_USABLE_USABLE_MIB, ⟨Reg.GLB_READY, 16, 16⟩, ⟨Reg.GLB_RDY_IRQ, 16, 16⟩, Fld.MEM_IRQ_STATUS_READY])) s t)

/-- MEM_READ_RETRY, MEM_SCRUB_READ, MEM_TEMP_HIGH, MEM_CNT_CLR (R93 to R95, R453, R455 to R459, R462, R518). That a word found in error
stays so until it is written is the model's choice (log entry 42). -/
def Obligations.MemoryErrorsAndScrub : Prop :=
  ∀ s : State, s.pwr.hold = .running →
    let names (t : State) (a src : Nat) : Prop := t.get Fld.MEM_ERRADDR_LO_ADDR = a / 8 % 2 ^ 29 ∧
      t.get Fld.MEM_ERRADDR_HI_ADDR = a / 2 ^ 32 % 4 ∧ t.get Fld.MEM_ERRSRC_SRC = src ∧ t.flag Fld.MEM_ERRSRC_VALID = true
    let errBits : List Field := [Fld.MEM_ERRADDR_LO_ADDR, Fld.MEM_ERRADDR_HI_ADDR, Fld.MEM_ERRSRC_SRC, Fld.MEM_ERRSRC_VALID]
    (∀ (who : Reader) (address : BitVec 34) (found : Ecc), s.ready 16 = false →
      exec (.memReadRetry who address found) s = .next s) ∧
    (s.ready 16 = true → ∀ (address : BitVec 34) (found : Ecc),
      let a := address.toNat
      let ok := s.memFlawed a 1 = false ∧ ∀ h, found ≠ .uncorrectable h
      let fixed : Bool := found == .corrected && s.flag Fld.MEM_STATUS_IECC_ON
      let counted (t : State) : Prop := t.get Fld.MEM_CNT2_RETRY_OK = min 0xFFFF (s.get Fld.MEM_CNT2_RETRY_OK + 1) ∧
        t.flag Fld.MEM_IRQ_STATUS_RETRY = true ∧
        t.get Fld.MEM_CNT_CORR = min 0xFFFF (s.get Fld.MEM_CNT_CORR + if fixed then 1 else 0) ∧
        t.get Fld.MEM_CNT_LINK_CORR = min 0xFFFF (s.get Fld.MEM_CNT_LINK_CORR + if found = .link then 1 else 0)
      let okBits : Bits := orBits pba (bits [Fld.MEM_CNT2_RETRY_OK, Fld.MEM_CNT_CORR, Fld.MEM_CNT_LINK_CORR,
        Fld.MEM_IRQ_STATUS_RETRY, Fld.MEM_IRQ_STATUS_CORR])
      let failed (t : State) (src : Nat) : Prop := t.get Fld.MEM_CNT2_UNCORR = min 0xFFFF (s.get Fld.MEM_CNT2_UNCORR + 1) ∧
        t.flag Fld.MEM_IRQ_STATUS_UNCORR = true ∧ names t a src
      let badBits : Bits := orBits pba (bits (Fld.MEM_CNT2_UNCORR :: Fld.MEM_IRQ_STATUS_UNCORR :: errBits))
      (∀ n : Nat,
        (ok → ∃ t, exec (.memReadRetry (.bar4 n) address found) s = .next t ∧ counted t ∧ t.rdata = bytesAt s.mem.ram a n ∧
          Frame [.rdata, .msix] okBits s t) ∧
        (¬ ok → ∃ t, exec (.memReadRetry (.bar4 n) address found) s = .next t ∧ failed t 1 ∧
          t.rdata = List.replicate n 0xFF ∧ t.mem = { s.mem with poisonSent := true } ∧ Frame [.rdata, .mem, .msix] badBits s t)) ∧
      (∀ (sq : Fin 64) (seq : BitVec 16),
        (s.findDesc sq seq.toNat = none →
          (ok → ∃ t, exec (.memReadRetry (.descriptor sq seq) address found) s = .next t ∧ counted t ∧ Frame [.msix] okBits s t) ∧
          (¬ ok → ∃ t, exec (.memReadRetry (.descriptor sq seq) address found) s = .next t ∧ failed t 0 ∧
            Frame [.msix] badBits s t)) ∧
        (∀ d, s.findDesc sq seq.toNat = some d → let e := { d with allow := d.allow + 3 }
          (ok → ∃ t, exec (.memReadRetry (.descriptor sq seq) address found) s = .next t ∧ counted t ∧
            t.ring.flight = s.ring.flight.map (fun x => if x = d then { e with retried := true } else x) ∧
            Frame [.flight, .msix] okBits s t) ∧
          (¬ ok → ∃ u, exec (.memReadRetry (.descriptor sq seq) address found) s = .next (memoryEcc u e a) ∧ failed u 0 ∧
            u.ring.flight = s.ring.flight.map (fun x => if x = d then e else x) ∧ Frame [.flight, .msix] badBits s u)))) ∧
    (∀ found : Ecc,
      let on := s.flag Fld.MEM_SCRUB_EN = true ∧ s.flag Fld.MEM_STATUS_IECC_ON = true ∧ s.ready 16 = true
      let a := s.mem.scrubAt
      let bad := s.memFlawed a 8 = true ∨ ∃ h, found = .uncorrectable h
      let last := s.usable ≤ a + 8
      (¬ on → exec (.memScrubRead found) s = .next s) ∧
      (on → ∃ t, exec (.memScrubRead found) s = .next t ∧ t.mem.ram = s.mem.ram ∧
        t.mem.scrubAt = (if last then 0 else a + 8) ∧
        t.get Fld.MEM_SCRUBPASS_PASS = (s.get Fld.MEM_SCRUBPASS_PASS + if last then 1 else 0) % 2 ^ 32 ∧
        (¬ bad → t.mem.flaws = s.mem.flaws ∧
          t.get Fld.MEM_CNT3_SCRUB_CORR = min 0xFFFF (s.get Fld.MEM_CNT3_SCRUB_CORR + if found = .corrected then 1 else 0) ∧
          t.get Fld.MEM_CNT_LINK_CORR = min 0xFFFF (s.get Fld.MEM_CNT_LINK_CORR + if found = .link then 1 else 0) ∧
          (found = .corrected → t.flag Fld.MEM_IRQ_STATUS_CORR = true)) ∧
        (bad → t.memFlawed a 1 = true ∧ t.flag Fld.MEM_IRQ_STATUS_SCRUB_UNCORR = true ∧ names t a 2 ∧
          t.get Fld.MEM_CNT3_SCRUB_UNCORR = min 0xFFFF (s.get Fld.MEM_CNT3_SCRUB_UNCORR + 1)) ∧
        Frame [.mem, .msix] (orBits pba (bits (errBits ++ [Fld.MEM_SCRUBPASS_PASS, Fld.MEM_CNT3_SCRUB_CORR,
          Fld.MEM_CNT3_SCRUB_UNCORR, Fld.MEM_CNT_LINK_CORR, Fld.MEM_IRQ_STATUS_CORR, Fld.MEM_IRQ_STATUS_SCRUB_UNCORR]))) s t)) ∧
    (∀ code : BitVec 3, ∃ t, exec (.memTempHigh code) s = .next t ∧ t.get Fld.MEM_TEMP_TEMP = code.toNat ∧
      (4 ≤ code.toNat → s.get Fld.MEM_TEMP_TEMP < 4 → t.flag Fld.MEM_IRQ_STATUS_TEMP_HI = true) ∧
      (code.toNat < 4 ∨ 4 ≤ s.get Fld.MEM_TEMP_TEMP → Frame [] (bits [Fld.MEM_TEMP_TEMP]) s t) ∧
      Frame [.msix] (orBits pba (bits [Fld.MEM_TEMP_TEMP, Fld.MEM_IRQ_STATUS_TEMP_HI])) s t) ∧
    (s.served Reg.MEM_CNT_CLR = true → ∃ t, exec .memCntClr s = .next t ∧
      (∀ o ∈ [Reg.MEM_CNT, Reg.MEM_CNT2, Reg.MEM_CNT3], t.reg o = sget 0 s.seen.sets o) ∧
      Frame [] (words [Reg.MEM_CNT, Reg.MEM_CNT2, Reg.MEM_CNT3]) s t)

/-- PWR_CMD_RUN, PWR_CMD_IDLE, PWR_CMD_SLEEP, PWR_CMD_STANDBY, PWR_CMD_OFF, PWR_TRANSITION_DONE (R463 to R469). -/
def Obligations.PowerTransitions : Prop :=
  ∀ s : State, s.pwr.hold = .running →
    (s.served Reg.PWR_CMD = true → ∀ c x, (c, x) ∈ [(Instr.pwrCmdRun, 4), (.pwrCmdIdle, 3), (.pwrCmdSleep, 2),
        (.pwrCmdStandby, 1), (.pwrCmdOff, 0)] →
      (s.cmdErr x ≠ 0 → ∃ t, exec c s = .next t ∧ t.get Fld.PWR_STATUS_ERR = s.cmdErr x ∧
        t.flag Fld.PWR_IRQ_STATUS_REFUSED = true ∧
        Frame [.msix] (orBits pba (bits [Fld.PWR_STATUS_ERR, Fld.PWR_IRQ_STATUS_REFUSED])) s t) ∧
      (s.cmdErr x = 0 → s.pstate ≠ 2 → ∃ t, exec c s = .next t ∧ t.flag Fld.PWR_STATUS_BUSY = true ∧
        t.get Fld.PWR_STATUS_ERR = 0 ∧ t.pstate = s.pstate ∧ t.pwr.target = some x ∧
        (x = 2 → t.get Fld.PWR_STATUS_PREV = s.pstate ∧ t.pwr.wake = false) ∧
        Frame [.pwr, .freeCtr] (bits [Fld.PWR_STATUS_ERR, Fld.PWR_STATUS_BUSY, Fld.PWR_STATUS_PREV]) s t) ∧
      (s.cmdErr x = 0 → s.pstate = 2 → ∃ t, exec c s = .next t ∧ t.flag Fld.PWR_STATUS_BUSY = true ∧
        t.get Fld.PWR_STATUS_ERR = 0 ∧ t.pstate = 2 ∧ t.pwr.wake = true)) ∧
    (∀ x, s.pwr.target = some x →
      (1 ≤ x → x ≤ 4 → (x = 2 → s.sleepReady = true) → ∃ t, exec .pwrTransitionDone s = .next t ∧ t.pstate = x ∧
        t.flag Fld.PWR_STATUS_BUSY = false ∧ t.pwr.target = none ∧ t.flag Fld.PWR_IRQ_STATUS_DONE = true) ∧
      (x = 0 → s.pwr.image = [] → ∃ t, exec .pwrTransitionDone s = .next t ∧ t.pstate = 0 ∧ t.pwr.hold = .off ∧
        t.pwr.mram = s.pwr.mram))

/-- PWR_CTRL_WARM, WARM_RESET, COLD_RESET, COLD_RESET_RELEASE, SUPPLY_INVALID (R277, R447, R472, R473, R475, R486, R538). -/
def Obligations.ResetsTakeTheirCourse : Prop :=
  ∀ s : State,
    (s.pwr.hold = .running →
      let warm (t : State) (code : Nat) : Prop :=
        t.get Fld.PWR_RSTCAUSE_CAUSE = code ∧ t.flag Fld.PWR_RSTCAUSE_COLD = false ∧ t.ring.flight = [] ∧ t.ring.recs = [] ∧
        t.dtime = s.dtime ∧ t.pwr.mram = s.pwr.mram ∧ t.fus.read = s.fus.read ∧
        (∀ m < 7, t.flag (Fld.PWM_STATUS_EN m) = false ∧ t.get (Fld.PWM_STATUS_DISCAUSE m) = 3)
      (s.served Reg.PWR_CTRL = true → ∃ t, exec .pwrCtrlWarm s = .next t ∧ warm t 7 ∧ t.mem = s.mem ∧ t.pwr.hold = .running) ∧
      (∀ c code, (c, code) ∈ [(WarmCause.hotReset, 5), (.flr, 6), (.soft, 7), (.fabricPll, 8)] →
        ∃ t, exec (.warmReset c) s = .next t ∧ warm t code ∧ t.mem = s.mem ∧ t.pwr.hold = .running) ∧
      (∃ t, exec (.warmReset .xtal) s = .next t ∧ warm t 9 ∧ t.pwr.hold = .xtal)) ∧
    (let cold (t : State) (code : Nat) : Prop :=
      t.pwr.hold = .cold ∧ t.get Fld.PWR_RSTCAUSE_CAUSE = code ∧ t.flag Fld.PWR_RSTCAUSE_COLD = true ∧ t.ring.flight = [] ∧
      t.mem.ram = [] ∧ t.pwr.mram = s.pwr.mram ∧ t.hostMem = s.hostMem ∧ t.pending = s.pending ∧
      (s.fus.prog = none → t.fus = { s.fus with read := s.fus.scan })
     (s.pwr.hold = .running ∨ s.pwr.hold = .off →
        (∃ t, exec (.coldReset .supplies) s = .next t ∧ cold t 1 ∧ t.pwr.supplies = true ∧ t.pwr.driven = true) ∧
        (∃ t, exec (.coldReset .perst) s = .next t ∧ cold t 2 ∧ t.pwr.perst = true) ∧
        (∀ vddio : Bool, ∃ t, exec (.supplyInvalid vddio) s = .next t ∧ cold t 1 ∧ t.pwr.supplies = false ∧
          t.pwr.driven = (s.pwr.driven && vddio))) ∧
     (s.pwr.hold = .sagHold → ∃ t, exec (.coldReset .sagHold) s = .next t ∧ cold t 3)) ∧
    (∀ (strap : Fin 8) (vin vhold : BitVec 10), s.pwr.hold = .cold → s.pwr.supplies = true →
      8300 + 50 * s.get Fld.PWR_VSAG_CODE ≤ 20 * vin.toNat → (s.flag Fld.PWR_STATUS_LEHR_EN = true → 550 ≤ vhold.toNat) →
      ∃ t, exec (.coldResetRelease strap vin vhold) s = .next t ∧ t.pwr.hold = .running ∧ t.pwr.perst = false ∧
        t.get Fld.GLB_STRAP_CASC_ID = strap ∧ t.flag Fld.GLB_STRAP_MASTER = decide (strap = 0) ∧
        t.get Fld.PWR_VMON_VIN = vin.toNat ∧ t.get Fld.PWR_VMON_VHOLD = vhold.toNat ∧
        t.flag Fld.PWR_STATUS_HOLD_OK = decide (550 ≤ vhold.toNat) ∧ t.fus = s.fus ∧ t.mem = s.mem)

/-- FUNCTION_READY, PWR_FRST, FRST_DONE (R474, R476). The comparators of the sensing function compare when a function gets ready
(`compareAll`, R196). -/
def Obligations.FunctionsGetReady : Prop :=
  ∀ s : State, s.pwr.hold = .running →
    (∀ bit : Fin 20, bit.val ≠ 16 → bitOf s.pwr.frst bit = false → s.powered bit = true → s.ready bit = false →
      ∃ u, exec (.functionReady bit) s = .next (compareAll u) ∧ u.ready bit = true ∧ bitOf u.pwr.ever bit = true ∧
        u.bitF Fld.GLB_RDY_IRQ_RDY bit = true ∧ (compareAll u).ready bit = true ∧
        (compareAll u).bitF Fld.GLB_RDY_IRQ_RDY bit = true ∧
        (bit.val ≠ 19 → Frame [.pwr, .msix] (orBits pba (bits [⟨Reg.GLB_READY, bit, bit⟩, ⟨Reg.GLB_RDY_IRQ, bit, bit⟩])) s u)) ∧
    (∀ v : Word, s.served Reg.PWR_FRST = true → ∃ t, exec (.pwrFrst v) s = .next t ∧
      (∀ b < 20, v.getLsbD b = true → frstAllowed s b = true → t.ready b = false ∧ bitOf t.pwr.frst b = true) ∧
      ((∃ b < 20, v.getLsbD b = true ∧ frstAllowed s b = false) → t.flag Fld.PWR_IRQ_STATUS_REFUSED = true)) ∧
    (∀ bit : Fin 20, bitOf s.pwr.frst bit = true → s.powered bit = true → ∃ u,
      exec (.frstDone bit) s = .next ((compareAll u).irqF Fld.PWR_IRQ_STATUS_FRST_DONE) ∧
      u.ready bit = true ∧ bitOf u.pwr.frst bit = false ∧ (compareAll u).ready bit = true ∧
      Frame [.pwr, .msix] (orBits pba (bits [⟨Reg.GLB_READY, bit, bit⟩, ⟨Reg.GLB_RDY_IRQ, bit, bit⟩])) s u) ∧
    (s.ready 5 = false → compareAll s = s)

/-- PLL_LOCK_ACQUIRED, PLL_LOCK_LOST, TICK_PLL_LOCK_LOST (R41, R44, R63, R441, R471, R473, R553, Table 20.4). After a loss of the tick
PLL the CFG batches that waited for an edge are applied (`batchesIdle`, R553). -/
def Obligations.PllsLockAndLose : Prop :=
  ∀ s : State,
    (s.pwr.hold = .xtal →
      exec (.pllLockAcquired .xtal) s = .next (State.putB { s with pwr := { s.pwr with hold := .running } } Fld.PWR_PLL_XTAL_OK true)) ∧
    (s.pwr.hold = .running →
      let lostBit (t : State) : Prop := t.flag Fld.PWR_IRQ_STATUS_PLL_LOST = true
      (∀ p f, (p, f) ∈ [(Pll.xtal, Fld.PWR_PLL_XTAL_OK), (.fabric, Fld.PWR_PLL_FABRIC), (.mem, Fld.PWR_PLL_MEM),
          (.usb, Fld.PWR_PLL_USB), (.pcie, Fld.PWR_PLL_PCIE), (.vxltx, Fld.PWR_PLL_VXLTX)] →
        exec (.pllLockAcquired p) s = .next (s.putB f true)) ∧
      (∀ m : Fin 16, ∃ t, exec (.pllLockAcquired (.nclk m)) s = .next t ∧ bitOf (t.get Fld.PWR_PLL_NCLK) m = true ∧
        Frame [] (bits [⟨Reg.PWR_PLL, m, m⟩]) s t) ∧
      (s.isSlave = false → ∃ t, exec (.pllLockAcquired .tick) s = .next t ∧ t.dtimeOn = true ∧ t.gaf = { s.gaf with lost := false } ∧
        t.flag Fld.GAF_STATUS_LOCKED = true ∧ t.flag Fld.GAF_STATUS_TCLK_SRC = false ∧ t.flag Fld.PWR_PLL_TICK = true ∧
        Frame [.dtimeOn, .gaf] (bits [Fld.GAF_STATUS_LOCKED, Fld.GAF_STATUS_TCLK_SRC, Fld.PWR_PLL_TICK]) s t) ∧
      (s.isSlave = true → exec (.pllLockAcquired .tick) s = .next s) ∧
      (s.flag Fld.PWR_PLL_TICK = false → exec .tickPllLockLost s = .next (batchesIdle s) ∧
        exec (.pllLockLost .tick) s = .next (batchesIdle s)) ∧
      (s.flag Fld.PWR_PLL_TICK = true → ∃ u, exec .tickPllLockLost s = .next (batchesIdle u) ∧
        exec (.pllLockLost .tick) s = .next (batchesIdle u) ∧ u.flag Fld.GAF_STATUS_LOCKED = false ∧
        u.flag Fld.PWR_PLL_TICK = false ∧ u.running = false ∧ lostBit u ∧ u.dtime = s.dtime ∧
        (s.running = true → u.flag Fld.GAF_IRQ_STATUS_LOCK_LOST = true ∧ u.gaf.lost = true ∧
          ∀ n < 6, u.flag (Fld.PWM_STATUS_EN n) = false) ∧
        (s.isSlave = true → u.linkState = 1)) ∧
      (∀ p f, (p, f) ∈ [(Pll.mem, Fld.PWR_PLL_MEM), (.usb, Fld.PWR_PLL_USB), (.pcie, Fld.PWR_PLL_PCIE),
          (.vxltx, Fld.PWR_PLL_VXLTX)] → s.flag f = false → exec (.pllLockLost p) s = .next s) ∧
      (s.flag Fld.PWR_PLL_MEM = true → ∃ t, exec (.pllLockLost .mem) s = .next t ∧ t.flag Fld.PWR_PLL_MEM = false ∧
        t.mem = { s.mem with training := true } ∧ t.ready 16 = false ∧ t.flag Fld.MEM_STATUS_TRAINED = false ∧ lostBit t) ∧
      (s.flag Fld.PWR_PLL_PCIE = true → ∃ t, exec (.pllLockLost .pcie) s = .next t ∧ t.reg Reg.RING_LINK = 0 ∧
        t.flag Fld.PWR_PLL_PCIE = false ∧ lostBit t) ∧
      (s.flag Fld.PWR_PLL_USB = true → ∃ t, exec (.pllLockLost .usb) s = .next t ∧ t.flag Fld.PWR_PLL_USB = false ∧
        t.flag Fld.USB_STATUS_CONNECTED = false ∧ lostBit t) ∧
      (s.flag Fld.PWR_PLL_VXLTX = true → ∃ t, exec (.pllLockLost .vxltx) s = .next t ∧ t.flag Fld.PWR_PLL_VXLTX = false ∧ lostBit t ∧
        Frame [.msix] (orBits pba (bits [Fld.PWR_PLL_VXLTX, Fld.PWR_IRQ_STATUS_PLL_LOST])) s t) ∧
      (∀ m : Fin 16, (bitOf (s.get Fld.PWR_PLL_NCLK) m = false → exec (.pllLockLost (.nclk m)) s = .next s) ∧
        (bitOf (s.get Fld.PWR_PLL_NCLK) m = true → ∃ t, exec (.pllLockLost (.nclk m)) s = .next t ∧
          bitOf (t.get Fld.PWR_PLL_NCLK) m = false ∧ t.fenced m = true ∧ lostBit t)) ∧
      (∃ t, exec (.pllLockLost .fabric) s = .next t ∧ t = fabricLost s ∧ t.get Fld.PWR_RSTCAUSE_CAUSE = 8 ∧
        t.flag Fld.PWR_PLL_FABRIC = false ∧ t.pwr.hold = .running) ∧
      (∃ t, exec (.pllLockLost .xtal) s = .next t ∧ t = xtalLost s ∧ t.get Fld.PWR_RSTCAUSE_CAUSE = 9 ∧
        t.flag Fld.PWR_PLL_XTAL_OK = false ∧ t.pwr.hold = .xtal))

/-- VIN_SAG, LEHR_SAVE_DONE, VIN_WARN, HOLD_LOW, LEHR_ERASE (R477, R478, R480, R482). -/
def Obligations.SagAndSave : Prop :=
  ∀ s : State,
    (s.pwr.hold = .running → ∃ t, exec .vinSag s = .next t ∧ (∀ m < 7, t.flag (Fld.PWM_STATUS_EN m) = false) ∧
      t.reg Reg.RING_LINK = 0 ∧ t.pwr.target = none ∧ t.flag Fld.PWR_STATUS_BUSY = false ∧ t.fus.prog = none ∧
      t.pwr.hold = (if s.pwr.image ≠ [] ∨ s.flag Fld.PWR_STATUS_LEHR_EN = true then .sagSave else .sagHold)) ∧
    (s.pwr.image = [] → ∀ cut : Option Nat, exec (.lehrSaveDone cut) s = .next s) ∧
    (s.pwr.image ≠ [] → ∀ cut : Option Nat, ∃ t, exec (.lehrSaveDone cut) s = .next t ∧ t.pwr.image = [] ∧
      t.pwr.mram = writeBytes s.pwr.mram s.pwr.imageAt (match cut with
        | none => s.pwr.image
        | some n => s.pwr.image.take (min n 49148)) ∧
      t.pwr.hold = (if s.pwr.hold = .sagSave then .sagHold else s.pwr.hold) ∧ Frame [.pwr] (words []) s t) ∧
    (s.pwr.hold = .running →
      (∀ vin : BitVec 10,
        let below := vin.toNat < s.get Fld.PWR_VWARN_TH
        ∃ t, exec (.vinWarn vin) s = .next t ∧ t.get Fld.PWR_VMON_VIN = vin.toNat ∧ t.flag Fld.PWR_STATUS_VWARN = decide below ∧
          (below → s.flag Fld.PWR_STATUS_VWARN = false → t.flag Fld.PWR_IRQ_STATUS_VWARN = true) ∧
          Frame [.msix] (orBits pba (bits [Fld.PWR_VMON_VIN, Fld.PWR_STATUS_VWARN, Fld.PWR_IRQ_STATUS_VWARN])) s t) ∧
      (∀ vhold : BitVec 10,
        let ok := 550 ≤ vhold.toNat
        ∃ t, exec (.holdLow vhold) s = .next t ∧ t.get Fld.PWR_VMON_VHOLD = vhold.toNat ∧
          t.flag Fld.PWR_STATUS_HOLD_OK = decide ok ∧
          (¬ ok → s.flag Fld.PWR_STATUS_HOLD_OK = true → t.flag Fld.PWR_IRQ_STATUS_HOLD_LOW = true) ∧
          Frame [.msix] (orBits pba (bits [Fld.PWR_VMON_VHOLD, Fld.PWR_STATUS_HOLD_OK, Fld.PWR_IRQ_STATUS_HOLD_LOW])) s t) ∧
      (s.served Reg.LEHR_CTRL = true → ∀ key : BitVec 16,
        (key = 0x4C45 → exec (.lehrErase key) s = .next { s with pwr := { s.pwr with erasing := true } }) ∧
        (key ≠ 0x4C45 → exec (.lehrErase key) s = .next s)))

/-- FUSE_SHADOW_WRITE (R491 to R493, Table 21.2). -/
def Obligations.FuseShadowWrites : Prop :=
  ∀ (s : State) (r : FuseShadow) (v : Word), s.pwr.hold = .running → s.served Reg.FUS_CFG = true →
    (s.flag Fld.FUS_STATUS_PROT_LOCKED = true → exec (.fuseShadowWrite r v) s = .next s) ∧
    (s.flag Fld.FUS_STATUS_PROT_LOCKED = false → ∃ t, exec (.fuseShadowWrite r v) s = .next t ∧
      (storeWord s (shadowOff r) v = none → r ≠ .dislvl0 → r ≠ .dislvl1 → t = s) ∧
      (∀ u, storeWord s (shadowOff r) v = some u → r ≠ .dislvl0 → r ≠ .dislvl1 →
        t.reg (shadowOff r) = u.reg (shadowOff r) ∧
        (r = .cfg → t.get Fld.PWR_STATUS_LEHR_EN = t.get Fld.FUS_CFG_LEHR_EN ∧ t.get Fld.PWR_VSAG_CODE = t.get Fld.FUS_CFG_VSAG) ∧
        (∀ n : Fin 6, r = .axis n → t.get (Fld.SNS_TRIPOC_TH n) ≤ t.get (Fld.FUS_AXIS_OC_CEIL n) ∧
          t.get (Fld.SNS_TRIPOV_TH n) ≤ t.get (Fld.FUS_AXIS_OV_CEIL n) ∧
          t.get (Fld.FUS_AXIS_DTFLOOR n) ≤ t.get (Fld.PWM_DT_DT n)) ∧
        (∀ n : Fin 6, r = .fmax n → t.get (Fld.CTL_DMAX_DMAX n) ≤ t.get (Fld.FUS_FMAX_FMAX n)) ∧
        (∀ p : Fin 4, r = .fpeak p → t.get (Fld.VLV_FPEAK_FPEAK p) = t.get (Fld.FUS_FPEAK_FPEAK p) ∧
          t.get (Fld.VLV_LEVELS_IPEAK (2 * p)) ≤ t.get (Fld.FUS_FPEAK_FPEAK p) ∧
          t.get (Fld.VLV_LEVELS_IPEAK (2 * p + 1)) ≤ t.get (Fld.FUS_FPEAK_FPEAK p))) ∧
      (r = .dislvl0 → s.outputsOff = true → t.get Fld.FUS_DISLVL0_DIS = v.toNat % 2 ^ 30 ∧ Frame [] (bits [Fld.FUS_DISLVL0_DIS]) s t) ∧
      (r = .dislvl1 → s.outputsOff = true → t.get Fld.FUS_DISLVL1_DIS = v.toNat % 2 ^ 18 ∧ Frame [] (bits [Fld.FUS_DISLVL1_DIS]) s t) ∧
      (r = .dislvl0 ∨ r = .dislvl1 → s.outputsOff = false → t.flag Fld.FUS_IRQ_STATUS_WREFUSED = true ∧
        Frame [.msix] (orBits pba (bits [Fld.FUS_IRQ_STATUS_WREFUSED])) s t))

/-- FUSE_PROGRAM, FUSE_PROGRAM_DONE, FUS_SIGCNT_CLR, BOUNDARY_SCAN_INSTRUCTION (R494, R496 to R498, R505). -/
def Obligations.FuseProgramming : Prop :=
  ∀ s : State,
    (s.pwr.hold = .running → s.served Reg.FUS_PCMD = true → ∀ (key : BitVec 16) (vprog : Bool),
      let u := s.putB Fld.FUS_STATUS_VPROG_OK vprog
      let e := u.programErr key.toNat
      (e ≠ 0 → ∃ t, exec (.fuseProgram key vprog) s = .next t ∧ t.get Fld.FUS_PSTAT_ERR = e ∧ t.fus = s.fus ∧
        t.flag Fld.FUS_IRQ_STATUS_PROG_ERR = true ∧
        Frame [.msix] (orBits pba (bits [Fld.FUS_STATUS_VPROG_OK, Fld.FUS_PSTAT_ERR, Fld.FUS_IRQ_STATUS_PROG_ERR])) s t) ∧
      (e = 0 → ∃ t, exec (.fuseProgram key vprog) s = .next t ∧ t.get Fld.FUS_PSTAT_ERR = 0 ∧
        t.flag Fld.FUS_PSTAT_BUSY = true ∧ t.fus = { s.fus with prog := some (s.get Fld.FUS_PADDR_WORD, s.reg Reg.FUS_PDATA) } ∧
        Frame [.fus] (bits [Fld.FUS_STATUS_VPROG_OK, Fld.FUS_PSTAT_ERR, Fld.FUS_PSTAT_BUSY]) s t)) ∧
    (s.pwr.hold = .running → ∀ (w : Nat) (data : Word) (r : Programmed), s.fus.prog = some (w, data) →
      let a := sget 0 s.fus.a w ||| (data &&& ~~~ r.failA)
      let b := sget 0 s.fus.b w ||| (data &&& ~~~ r.failB)
      ∃ t, exec (.fuseProgramDone r) s = .next t ∧ t.fus.prog = none ∧ t.fus.read = s.fus.read ∧ sget 0 t.fus.a w = a ∧
        sget 0 t.fus.b w = b ∧ (∀ x, x ≠ w → sget 0 t.fus.a x = sget 0 s.fus.a x ∧ sget 0 t.fus.b x = sget 0 s.fus.b x) ∧
        t.flag Fld.FUS_PSTAT_BUSY = false ∧ t.get Fld.FUS_PSTAT_PULSES = r.pulses.toNat ∧
        t.flag Fld.FUS_IRQ_STATUS_PROG_DONE = true ∧ (w < 64 → t.reg (Reg.FUS_RAW w) = (a ||| b)) ∧
        (data &&& ~~~ (a ||| b) ≠ 0 → t.get Fld.FUS_PSTAT_ERR = 7 ∧ t.flag Fld.FUS_IRQ_STATUS_PROG_ERR = true) ∧
        Frame [.fus, .msix] (orBits pba (bits [⟨Reg.FUS_RAW w, 31, 0⟩, ⟨Reg.FUS_PSTAT, 31, 0⟩, Fld.FUS_IRQ_STATUS_PROG_DONE,
          Fld.FUS_IRQ_STATUS_PROG_ERR])) s t) ∧
    (s.pwr.hold = .running → s.served Reg.FUS_SIGCNT_CLR = true → ∃ t, exec .fusSigcntClr s = .next t ∧
      t.reg Reg.FUS_SIGCNT = sget 0 s.seen.sets Reg.FUS_SIGCNT ∧ Frame [] (words [Reg.FUS_SIGCNT]) s t) ∧
    (∀ (i : ScanInstr) (cells : Vector Bool 48),
      let drives := i = .extest ∨ i = .clamp ∨ (i = .other true ∧ s.flag Fld.GLB_CAPS_DEBUG_LOCKED = false)
      (drives → exec (.boundaryScanInstruction i cells) s = .next { s with scan := some cells.toList }) ∧
      (¬ drives → exec (.boundaryScanInstruction i cells) s = .next { s with scan := none }))

/-- GAF_RUN, GAF_STOP_REQUEST, GAF_SWITCH_ARM, GAF_SWITCH_CANCEL, ACTION_CLR (R41 to R44, R51, R60, R61). Which bank a start that is
written again takes is the model's choice (log entry 39). -/
def Obligations.GafferControlWrites : Prop :=
  ∀ (s : State) (b : Bool), s.pwr.hold = .running → s.served Reg.GAF_CTRL = true →
    (let kept (t : State) : Prop := t.flag Fld.GAF_CTRL_RUN = true ∧ t.flag Fld.GAF_CTRL_BANK_INIT = b
     let good := s.bankValid b = true ∧ s.planParisonsOk (s.bank b) = true
     let canLock := s.flag Fld.GAF_STATUS_LOCKED = true ∨ (s.isSlave = true ∧ s.gaf.lost = false)
     (s.running = true → ∃ t, exec (.gafRun b) s = .next t ∧ kept t ∧
       Frame [] (bits [Fld.GAF_CTRL_RUN, Fld.GAF_CTRL_BANK_INIT]) s t) ∧
     (s.running = false → s.ready 0 = false → exec (.gafRun b) s = .next s) ∧
     (s.running = false → s.ready 0 = true →
       (good → canLock → ∃ t, exec (.gafRun b) s = .next t ∧ t.gaf = { s.gaf with starting := some b } ∧ kept t ∧
         Frame [.gaf] (bits [Fld.GAF_CTRL_RUN, Fld.GAF_CTRL_BANK_INIT]) s t) ∧
       (good → ¬ canLock → ∃ t, exec (.gafRun b) s = .next t ∧ kept t ∧
         Frame [] (bits [Fld.GAF_CTRL_RUN, Fld.GAF_CTRL_BANK_INIT]) s t) ∧
       (¬ good → exec (.gafRun b) s = .next (s.putB Fld.GAF_STATUS_RUN_ERR true)))) ∧
    (∃ t, exec (.gafStopRequest b) s = .next t ∧ t.gaf = { s.gaf with starting := none } ∧ t.flag Fld.GAF_CTRL_RUN = false ∧
      t.flag Fld.GAF_CTRL_BANK_INIT = b ∧ Frame [.gaf] (bits [Fld.GAF_CTRL_RUN, Fld.GAF_CTRL_BANK_INIT]) s t) ∧
    (let x := s.wide Reg.GAF_SWTICK_LO
     let code := if s.bankValid b = false then 1 else if x ≠ 0 ∧ x ≤ s.tickno then 2 else if s.switchDivBad b = true then 3
       else if s.bankInUse b = true then 5 else 0
     (code = 0 → ∃ t, exec (.gafSwitchArm b) s = .next t ∧ t.gaf = { s.gaf with swBank := some b } ∧
       t.flag Fld.GAF_STATUS_SW_PENDING = true ∧ t.get Fld.GAF_STATUS_SWITCH_ERR = 0 ∧
       Frame [.gaf] (bits [Fld.GAF_STATUS_SW_PENDING, Fld.GAF_STATUS_SWITCH_ERR]) s t) ∧
     (code ≠ 0 → ∃ t, exec (.gafSwitchArm b) s = .next t ∧ t.get Fld.GAF_STATUS_SWITCH_ERR = code ∧
       t.flag Fld.GAF_IRQ_STATUS_SWITCH_ERR = true ∧
       Frame [.msix] (orBits pba (bits [Fld.GAF_STATUS_SWITCH_ERR, Fld.GAF_IRQ_STATUS_SWITCH_ERR])) s t)) ∧
    (∃ t, exec .gafSwitchCancel s = .next t ∧ t.gaf = { s.gaf with swBank := none } ∧
      t.flag Fld.GAF_STATUS_SW_PENDING = false ∧ Frame [.gaf] (bits [Fld.GAF_STATUS_SW_PENDING]) s t) ∧
    (∀ k : Fin 64, ∃ t, exec (.actionClr k) s = .next t ∧ 
      t.get (Fld.GAF_ACT_CNT_OVRCNT k) = (Fld.GAF_ACT_CNT_OVRCNT k).get (sget 0 s.seen.sets (Reg.GAF_ACT_CNT k)) ∧
      t.get (Fld.GAF_ACT_TIME_MINSLACK k) = 0xFFFF ∧
      Frame [] (bits [Fld.GAF_ACT_CNT_OVRCNT k, Fld.GAF_ACT_TIME_MINSLACK k]) s t)

/-- TICK_EDGE, ACTION_OVERRUN, SIGNAL_ACTION (R17, R43, R46, R49, R51, R62, R63, R521). -/
def Obligations.TicksAndOverruns : Prop :=
  ∀ s : State, s.pwr.hold = .running →
    (s.edgePossible = false → exec .tickEdge s = .next s) ∧
    (s.edgePossible = true →
      let e := tickEnds (nextCycle s)
      (∀ b, e.gaf.starting = some b →
        (e.bankValid b = true → exec .tickEdge s = .next (tickBegins e (some b))) ∧
        (e.bankValid b = false → ∃ t, exec .tickEdge s = .next t ∧ t.flag Fld.GAF_STATUS_RUN_ERR = true ∧
          t.gaf = { e.gaf with starting := none } ∧ Frame [.gaf] (bits [Fld.GAF_STATUS_RUN_ERR]) e t)) ∧
      (e.gaf.starting = none → e.flag Fld.GAF_CTRL_RUN = false → ∃ u, exec .tickEdge s = .next (tmrTickEdge (batchesIdle u)) ∧
        u.running = false ∧ u.tickno = e.tickno ∧ u.wide Reg.GAF_EDGE_LO = e.dtime.toNat ∧
        ∀ n < 6, u.flag (Fld.PWM_STATUS_EN n) = false) ∧
      (e.gaf.starting = none → e.flag Fld.GAF_CTRL_RUN = true →
        (e.tel.haltReq = true → exec .tickEdge s = .next (haltEnter (edgeCycle (tmrSuspend e) none true))) ∧
        (e.tel.haltReq = false → exec .tickEdge s = .next (tickBegins e none)))) ∧
    (∀ b, let sw := switchEdge (startEdge (nextTick s) b)
      edgeCycle s (some b) false = cascEdge (edgeEffects sw.1 true sw.2) true ∧
      (startEdge s b).running = true ∧ (startEdge s b).flag Fld.GAF_STATUS_RUN_ERR = false ∧
      (startEdge s b).activeBank = b ∧ (startEdge s b).get Fld.GAF_TICKDIV_TICKDIV = planTickdiv (s.bank b)) ∧
    (let sw := switchEdge (nextTick s)
     edgeCycle s none false = cascEdge (edgeEffects sw.1 false sw.2) false ∧
     edgeCycle s none true = cascEdge (edgeEffects (nextTick s) false false) false) ∧
    (∀ first, tickBegins s first = (if (edgeCycle s first false).sleepDue = true then commitSleep (edgeCycle s first false)
      else edgeCycle s first false)) ∧
    ((nextTick s).tickno = (s.tickno + 1) % 2 ^ 48 ∧ (nextTick s).wide Reg.GAF_EDGE_LO = s.dtime.toNat ∧
      Frame [.gaf] (words [Reg.GAF_TICKNO_LO, Reg.GAF_TICKNO_HI, Reg.GAF_EDGE_LO, Reg.GAF_EDGE_HI]) s (nextTick s)) ∧
    (∀ i : Fin 64, s.running = true → s.halted = false → s.vxl.sleeping = false → s.gaf.starting = none →
      i.val < planCount s.plan → i.val ∉ s.gaf.ended → actDeadline s.plan i < s.edgeOfs →
      ∃ u, exec (.actionOverrun i) s = .next (fallback u i) ∧ u.gaf.ended = i.val :: s.gaf.ended ∧
        u.get (Fld.GAF_ACT_CNT_OVRCNT i) = min 0xFFFF (s.get (Fld.GAF_ACT_CNT_OVRCNT i) + 1) ∧
        u.get (Fld.GAF_ACT_CNT_CONSEC i) = min 15 (s.get (Fld.GAF_ACT_CNT_CONSEC i) + 1) ∧
        u.get (Fld.GAF_ACT_TIME_LASTDONE i) = 0xFFFF ∧ u.flag Fld.GAF_IRQ_STATUS_OVERRUN = true ∧
        (i.val < 32 → u.bitF Fld.GAF_OVR_LO_OVR i = true) ∧ (32 ≤ i.val → u.bitF Fld.GAF_OVR_HI_OVR (i.val - 32) = true) ∧
        Frame [.gaf, .tel, .msix] (orBits pba (bits [Fld.GAF_ACT_CNT_OVRCNT i, Fld.GAF_ACT_CNT_CONSEC i,
          Fld.GAF_ACT_TIME_LASTDONE i, Fld.GAF_OVR_LO_OVR, Fld.GAF_OVR_HI_OVR, Fld.GAF_IRQ_STATUS_OVERRUN,
          Fld.LOG_LOSS_QLOST, Fld.LOG_IRQ_STATUS_QLOST])) s u) ∧
    (∀ i : Fin 64, s.mayStart i 9 = true → s.edgeOfs ≤ actDeadline s.plan i →
      exec (.signalAction i) s = .next (actionDone ((s.startAction i).signal (actParam s.plan i % 1024) s.tickno) i))

/-- MOTION, START, STOP (R235 to R237, R250, R253, R254, R256). -/
def Obligations.MotionStartStop : Prop :=
  ∀ (s : State) (sq : Fin 64) (seq : BitVec 16) (d : Desc), s.pwr.hold = .running →
    (s.takeDispatched sq seq.toNat 0x01 = some d →
      let n := d.pay 32 1
      let x := s.slotOf n
      (∀ st detail, s.motionBad n d.point = some (st, detail) → exec (.motion sq seq) s = .next (s.complete d st detail 0)) ∧
      (s.motionBad n d.point = none → x.queue.length < 16 → ∃ t, exec (.motion sq seq) s = .next t ∧
        t.slotOf n = { x with cur := if x.queue = [] then some (s.synthPoint n) else x.cur, queue := x.queue ++ [d.point] } ∧
        (∀ m, m ≠ n → t.slotOf m = s.slotOf m) ∧ t.get (Fld.CTL_STATE_QDEPTH n) = x.queue.length + 1 ∧
        t.ring.flight = s.ring.flight.map (fun e => if e = d then { d with stage := .active } else e) ∧
        Frame [.ctl, .flight] (bits [Fld.CTL_STATE_QDEPTH n]) s t) ∧
      (s.motionBad n d.point = none → 16 ≤ x.queue.length → exec (.motion sq seq) s = .next s)) ∧
    (s.takeDispatched sq seq.toNat 0x0E = some d →
      let n := d.pay 32 1
      let x := s.slotOf n
      let code := if s.running = false then 7 else if 5 < n ∨ bitOf s.axesInPlan n = false then 1
        else if s.slotState n ≠ 0 ∨ x.start.isSome then 6 else if s.get (Fld.PWM_TRIP_LATCH n) ≠ 0 then 8 else 0
      (code ≠ 0 → exec (.start sq seq) s = .next (s.complete d stBadSequence code 0)) ∧
      (code = 0 → exec (.start sq seq) s = .next ((s.begin d).setCtl n { x with
        vdc := none
        start := some ⟨d.sq, d.seq, bitOf (d.pay 33 1) 0, d.pay 34 2, sgn 16 (d.pay 36 2), 0, 0, none⟩ }))) ∧
    (s.takeDispatched sq seq.toNat 0x0F = some d →
      let axes := d.pay 32 1
      let moving (n : Nat) : Bool := bitOf axes n && decide (s.slotState n ≠ 0)
      let mask := ((bitList 6 axes).filter moving).foldl orBit 0
      ((∀ n < 6, moving n = false) →
        exec (.stop sq seq) s = .next (s.complete d stOK 0 (((bitList 6 axes).foldl orBit 0) * 256))) ∧
      ((∃ n < 6, moving n = true) → ∃ t, exec (.stop sq seq) s = .next t ∧
        (∃ r ∈ t.stops, r.sq = d.sq ∧ r.seq = d.seq ∧ r.left = mask ∧ r.began = 0) ∧
        (∀ n < 6, t.slotOf n = (if moving n then { s.slotOf n with
          asks := (s.slotOf n).asks ++ [⟨decide (d.pay 33 1 = 1), 1, some (d.sq, d.seq), false⟩] } else s.slotOf n)) ∧
        t.ring.flight = s.ring.flight.map (fun e => if e = d then { d with stage := .active } else e) ∧
        Frame [.ctl, .flight, .stops] (bits []) s t)) ∧
    (∀ n < 6,
      let x := s.slotOf n
      let manual := s.slotState n = 1 ∨ (s.slotState n = 2 ∧ s.flag (Fld.CTL_STATE_MODE n) = false)
      let offs := x.asks.filter fun a => !a.ramp || decide manual
      let t := resolveAsks s n
      let first (l : List Ask) (c : Nat) : Prop := (∃ a ∈ l, a.cause = c) ∧ ((∃ a ∈ l, a.cause = 2) → c = 2)
      (offs ≠ [] → s.slotState n ≠ 0 → x.off = none → ∃ c, first offs c ∧
        t = s.setCtl n { x with asks := [], off := some ⟨s.cyc + 2, c, offs.map (·.owner)⟩ }) ∧
      (offs = [] → x.asks ≠ [] → s.slotState n = 2 → (∀ a ∈ x.asks, a.action = false) → ∃ c, first x.asks c ∧
        t = s.setCtl n { x with asks := [], ramp := if x.ramp.isSome then x.ramp else some c }) ∧
      (∀ o, x.off = some o → o.due ≤ s.cyc → s.slotState n ≠ 0 → o.cause < 16 →
        let u := torqueDue s n
        u.slotState n = 0 ∧ u.get (Fld.CTL_STATE_CAUSE n) = o.cause ∧ u.flag (Fld.PWM_STATUS_EN n) = false))

/-- CONTROL_START, CONTROL_DUTY_WRITE, CTL_DMAX_WRITE, CTL_CNT_CLR (R54, R233, R243, R250, R518). -/
def Obligations.ControlActions : Prop :=
  ∀ s : State, s.pwr.hold = .running →
    (∀ i : Fin 64, s.mayStart i 5 = true →
      exec (.controlStart i) s = .next ((s.actAxes i).foldl slotAct (s.startAction i))) ∧
    (∀ i : Fin 64, s.live i = true → actType s.plan i = 5 →
      exec (.controlDutyWrite i) s = .next ((s.actAxes i).foldl slotPost (actionDone ((s.actAxes i).foldl slotWrite s) i))) ∧
    (∀ n < 6, (slotPost s n).slotOf n = { s.slotOf n with
      post := [], asks := (s.slotOf n).asks ++ (s.slotOf n).post.map fun p => ⟨p.1, p.2, none, true⟩ }) ∧
    (∀ (n : Fin 6) (a b c : Nat), (s.slotOf n).duties = some [a, b, c] → (s.slotOf n).start = none → a < 2 ^ 16 → b < 2 ^ 16 →
      c < 2 ^ 16 →
      let t := slotWrite s n
      t.get (Fld.PWM_DUTY_AB_DA n) = a ∧ t.get (Fld.PWM_DUTY_AB_DB n) = b ∧ t.get (Fld.PWM_DUTY_C_DC n) = c ∧
      t.get (Fld.CTL_DUTY_AB_DA n) = a ∧ t.get (Fld.CTL_DUTY_AB_DB n) = b ∧ t.get (Fld.CTL_DUTY_C_DC n) = c ∧
      t.get (Fld.missOf n) = 0 ∧ (t.slotOf n).duties = none ∧
      Frame [.ctl] (bits [Fld.PWM_DUTY_AB_DA n, Fld.PWM_DUTY_AB_DB n, Fld.PWM_DUTY_C_DC n, Fld.CTL_DUTY_AB_DA n,
        Fld.CTL_DUTY_AB_DB n, Fld.CTL_DUTY_C_DC n, Fld.missOf n]) s t) ∧
    (∀ (n : Fin 6) (v : Word), s.served (Reg.CTL_DMAX n) = true →
      let x := v.toNat % 2 ^ 16
      let lim := s.get (Fld.FUS_FMAX_FMAX n)
      (x < 0x8000 → exec (.ctlDmaxWrite n v) s = .next s) ∧
      (0x8000 ≤ x → ∃ t, exec (.ctlDmaxWrite n v) s = .next t ∧ t.get (Fld.CTL_DMAX_DMAX n) = min x lim ∧
        t.flag (Fld.CTL_DMAX_CLAMPED n) = decide (lim < x) ∧
        Frame [] (bits [Fld.CTL_DMAX_DMAX n, Fld.CTL_DMAX_CLAMPED n]) s t)) ∧
    (∀ n : Fin 6, s.served (Reg.CTL_CNT_CLR n) = true → ∃ t, exec (.ctlCntClr n) s = .next t ∧ 
      (∀ o ∈ [Reg.CTL_CNT n, Reg.CTL_CNT2 n], t.reg o = sget 0 s.seen.sets o) ∧ Frame [] (words [Reg.CTL_CNT n, Reg.CTL_CNT2 n]) s t)

/-- SAMPLE_START, SAR_LATCH, OBS_TSLOW_WRITE, OBS_THLOAD, OBS_CTRL_CLR (R48, R198, R199, R206, R210, R221). -/
def Obligations.SetsAndCulls : Prop :=
  ∀ s : State, s.pwr.hold = .running →
    (∀ i : Fin 64, s.mayStart i 1 = true →
      ((∀ n ∈ s.actAxes i, s.setN n ≠ none) → exec (.sampleStart i) s = .next (actionDone (s.startAction i) i)) ∧
      ((∃ n ∈ s.actAxes i, s.setN n = none) → exec (.sampleStart i) s = .next (s.startAction i))) ∧
    (∀ (n : Fin 6) (volts : Vector Int 7),
      let l := volts.toList.map sarCode
      let waits := s.pairDue n = true ∧ (s.snsAt n).trigs ≠ []
      (waits → exec (.sarLatch n volts) s = .next (s.setSns n { s.snsAt n with hold := some l })) ∧
      (¬ waits → exec (.sarLatch n volts) s = .next (sarLatch s n l))) ∧
    (∀ (n : Fin 6) (l : List Int), (s.snsAt n).hold = some l →
      heldLatch s n = sarLatch (s.setSns n { s.snsAt n with hold := none }) n l) ∧
    (∀ (n : Fin 6) (l : List Int) (g : Trig) (rest : List Trig), (s.snsAt n).trigs = g :: rest →
      let x := (formSet s n g l).1
      let u := latchSet s n l
      let v := obsLatch u n
      sarLatch s n l = (match v.axisAction 1 n with
        | some i => sampleCheck v i
        | none => v) ∧
      (u.snsAt n).trigs = rest ∧
      (g.late = true → Frame [.sns] (bits []) s u) ∧
      (g.late = false → (u.snsAt n).sets = x :: (s.snsAt n).sets.take 2 ∧
        u.reg (Reg.SNS_QPOS n) = x.qpos ∧ u.get (Fld.SNS_SEQ_SEQ n) = g.tick % 2 ^ 16 ∧
        Frame [.sns, .mods, .msix] (orBits pba (orBits (bits [Fld.SNS_IRQ_STATUS_SCAMP]) (words [Reg.SNS_SEQ n, Reg.SNS_IAB n,
          Reg.SNS_ICV n, Reg.SNS_VAB n, Reg.SNS_VC n, Reg.SNS_SC n, Reg.SNS_QPOS n, Reg.SNS_FLAGS n, Reg.SNS_AGE n,
          Reg.SNS_QIDX n]))) s u)) ∧
    (∀ (n : Fin 6) (x : SampleSet) (sp : Spec), s.setN n = some x → s.running = true → bitOf s.axesInPlan n = true →
      (s.obsAt n).setOk = none → (s.obsAt n).spec = some sp →
      let why := if sp.dropped then 0 else cullReasons s n sp x (s.setValid n x)
      let u := obsLatch s n
      (u.obsAt n).setOk = some (s.setValid n x) ∧
      (u.obsAt n).spec = some { sp with judged := true, culled := decide (why ≠ 0) } ∧
      (why = 0 → Frame [.obs] (bits []) s u) ∧
      (why ≠ 0 → u.get (Fld.OBS_CULLCNT_CULLCNT n) = (s.get (Fld.OBS_CULLCNT_CULLCNT n) + 1) % 2 ^ 32 ∧
        u.flag Fld.OBS_IRQ_STATUS_CULL = true ∧ ∀ o < 4, u.flag (Fld.OBS_PROV_CULLED n o) = true)) ∧
    (∀ (n : Fin 6) (v : Word), s.served (Reg.OBS_TSLOW n) = true → ∃ t, exec (.obsTslowWrite n v) s = .next t ∧
      t.get (Fld.OBS_TSLOW_T n) = v.toNat % 2 ^ 16 ∧ t.get (Fld.OBS_TSLOW_MAXAGE n) = v.toNat / 2 ^ 24 ∧
      t.get (Fld.OBS_TSLOW_AGE n) = 0 ∧ Frame [.obs] (words [Reg.OBS_TSLOW n]) s t) ∧
    (∀ n : Fin 6, s.served (Reg.OBS_CTRL n) = true →
      (∃ t, exec (.obsThload n) s = .next t ∧
        (s.running = true → t.obsAt n = { s.obsAt n with thload := true } ∧ Frame [.obs] (bits []) s t) ∧
        (s.running = false → (t.obsAt n).tw = sgn 16 (s.get (Fld.OBS_THINIT_TW n)) * 2 ^ 16 ∧
          (t.obsAt n).thh = sgn 16 (s.get (Fld.OBS_THINIT_TH n)) * 2 ^ 16 ∧
          t.get (Fld.OBS_THSTATE_TW n) = s.get (Fld.OBS_THINIT_TW n) ∧ Frame [.obs] (words [Reg.OBS_THSTATE n]) s t)) ∧
      ∃ t, exec (.obsCtrlClr n) s = .next t ∧ 
        (∀ o ∈ Reg.OBS_CULLCNT n :: Reg.OBS_RECOMP n :: (List.range 4).map (Reg.OBS_OCNT n), t.reg o = sget 0 s.seen.sets o) ∧
        Frame [] (words (Reg.OBS_CULLCNT n :: Reg.OBS_RECOMP n :: (List.range 4).map (Reg.OBS_OCNT n))) s t)

/-- OBS_SPEC_START, PINNED_RUN_DONE, OBS_FINAL_DECIDE, OBS_RECOMPUTE_DONE, REFERENCE_READY, COLLIDE_START, COLLISION_VERDICT
(R153, R168, R208 to R212, R220, R223 to R226). -/
def Obligations.ObserverRuns : Prop :=
  ∀ s : State, s.pwr.hold = .running →
    (∀ (i : Fin 64) (slot place m : Nat) (p : Par), s.mayStart i 2 = true →
      s.pinnedPlace (actParam s.plan i) 1 (actTarget s.plan i) = some (slot, p, place, m) → ∃ t, exec (.obsSpecStart i) s = .next t ∧
        t.gaf = (s.startAction i).gaf ∧ (∃ r ∈ t.runs, r.action = i ∧ r.slot = slot ∧ r.place = place ∧ r.marver = m ∧
          r.second = false ∧ r.out = none) ∧
        (∀ n ∈ s.actAxes i, ∀ o < 4, t.flag (Fld.OBS_PROV_PVALID n o) = false)) ∧
    (∀ (i : Fin 64) (k : Nat) (r : Run), s.live i = true → s.runOf i = some r → r.out = none →
      (actType s.plan i = 2 → exec (.pinnedRunDone i k) s = .next (specDone (s.eccCorr r.marver k) i)) ∧
      (∀ p, actType s.plan i ≠ 2 → s.slotAt r.slot = some p → (s.mrvAt r.marver).dirty = false →
        let y := runParison p.image (s.mrvAt r.marver).tableBytes r.input
        let ncyc := placeNcyc (parPlace p.image r.place) r.second
        ∃ t, exec (.pinnedRunDone i k) s = .next t ∧
          t.runs = s.runs.map (fun x => if x.action = r.action then { r with out := some y.1 } else x) ∧
          t.get (Fld.MRV_ECC_CORR_ECC_CORR r.marver) = min 0xFFFF (s.get (Fld.MRV_ECC_CORR_ECC_CORR r.marver) + k) ∧
          t.get (Fld.MRV_ACC_SAT_ACC_SAT r.marver) = min 0xFFFF (s.get (Fld.MRV_ACC_SAT_ACC_SAT r.marver) + y.2) ∧
          ((s.mrvAt r.marver).busy = [] →
            t.get (Fld.MRV_BUSYCYC_BUSYCYC r.marver) = (s.get (Fld.MRV_BUSYCYC_BUSYCYC r.marver) + ncyc) % 2 ^ 32) ∧
          (k = 0 → y.2 = 0 → Frame [.runs, .mrv] (bits [Fld.MRV_BUSYCYC_BUSYCYC r.marver]) s t))) ∧
    (∀ (i : Fin 64) (slot place m : Nat) (p : Par), s.mayStart i 3 = true → i.val ∉ s.gaf.ended →
      s.edgeOfs ≤ actDeadline s.plan i →
      s.pinnedPlace (actParam s.plan i) 1 (actTarget s.plan i) = some (slot, p, place, m) →
      ((∃ n ∈ s.actAxes i, (s.obsAt n).setOk = none) → exec (.obsFinalDecide i) s = .next (s.startAction i)) ∧
      ((∀ n ∈ s.actAxes i, (s.obsAt n).setOk ≠ none) → s.runOf i = none →
        let need := ((s.actAxes i).filter fun n => !(s.obsAt n).decided && (s.obsAt n).needsRun).foldl orBit 0
        ∃ t, exec (.obsFinalDecide i) s = .next t ∧ (∀ n ∈ s.actAxes i, (t.obsAt n).decided = true) ∧
          (need = 0 → t.runs = s.runs) ∧
          (need ≠ 0 → s.edgeOfs + 25 + s.tclkFor m (placeNcyc (parPlace p.image place) true) ≤ actDeadline s.plan i →
            ∃ r ∈ t.runs, r.action = i ∧ r.axes = need ∧ r.second = true ∧ r.out = none) ∧
          (actDeadline s.plan i < s.edgeOfs + 25 + s.tclkFor m (placeNcyc (parPlace p.image place) true) → t.runs = s.runs))) ∧
    (∀ (i : Fin 64) (r : Run) (out : List Byte) (u : State), s.live i = true → actType s.plan i = 3 →
      takeRun s i = some (r, out, u) → ∃ v, exec (.obsRecomputeDone i) s = .next ((bitList 6 r.axes).foldl obsCommit v) ∧
        v.runs = u.runs ∧ ∀ n ∈ bitList 6 r.axes, (v.obsAt n).recomp ≠ none ∧
          v.get (Fld.OBS_RECOMP_RECOMP n) = min 0xFFFF (u.get (Fld.OBS_RECOMP_RECOMP n) + 1)) ∧
    (∀ (n : Fin 6) (x : SampleSet), s.setN n = some x → s.running = true → bitOf s.axesInPlan n = true → s.halted = false →
      (s.obsAt n).setOk ≠ none → (s.obsAt n).ready = false → ∃ v, exec (.referenceReady n) s = .next (obsCommit v n) ∧
        v.obsAt n = estimate s n x ∧ (∀ o < 4, v.get (Fld.OBS_VAL_REF n o) = lowBits 16 ((estimate s n x).refs.getD o 0)) ∧
        Frame [.obs] (orBits (words [Reg.OBS_THSTATE n]) (bits ((List.range 4).map (Fld.OBS_VAL_REF n)))) s v) ∧
    (∀ i : Fin 64, s.mayStart i 4 = true →
      (s.geta Fld.OBS_COL_CFG_EN = 0 → exec (.collideStart i) s = .next (s.startAction i)) ∧
      (s.geta Fld.OBS_COL_CFG_EN ≠ 0 → ∀ (slot place m : Nat) (p : Par),
        s.pinnedPlace (actParam s.plan i) 2 0 = some (slot, p, place, m) → ∃ t, exec (.collideStart i) s = .next t ∧
          t.gaf = (s.startAction i).gaf ∧
          t.runs = s.runs.filter (·.action ≠ i.val) ++ [⟨i, m, slot, place, false, collideInput s, 0, s.dtime, none⟩] ∧
          Frame [.gaf, .runs, .mrv] (bits []) s t)) ∧
    (∀ i : Fin 64, s.live i = true → actType s.plan i = 4 → takeRun s i = none → s.geta Fld.OBS_COL_CFG_EN = 0 →
      exec (.collisionVerdict i) s = .next (actionDone s i)) ∧
    (∀ (i : Fin 64) (r : Run) (out : List Byte) (u : State) (p : Par), s.live i = true → actType s.plan i = 4 →
      takeRun s i = some (r, out, u) → u.slotAt r.slot = some p → parIn p.image = r.input.length → parOut p.image = 8 →
      exec (.collisionVerdict i) s = .next (actionDone (verdict u (slice out 0 6)) i)) ∧
    (∀ scores : List Byte, (∀ a ∈ bitList 6 (s.geta Fld.OBS_COL_CFG_AXES),
        sgn 8 (fieldAt scores a 1) < sgn 8 (s.geta Fld.OBS_COL_CFG_TH)) →
      (verdict s scores).get Fld.OBS_COL_STATUS_LASTREQ = 0 ∧
      (verdict s scores).wide Reg.OBS_COL_SCORE_LO = leNat scores % 2 ^ 48 ∧
      Frame [] (orBits (words [Reg.OBS_COL_SCORE_LO, Reg.OBS_COL_SCORE_HI]) (bits [Fld.OBS_COL_STATUS_LASTREQ])) s (verdict s scores))

/-- WIDE_LOW_WORD_READ, REGISTER_WRITE, BAR4_ACCESS, CFG (R8, R23, R24, R66, R67, R77, R148, R449, R458, R528 to R533). -/
def Obligations.HostAccess : Prop :=
  ∀ s : State, s.pwr.hold = .running →
    (∀ off : BitVec 24,
      let o := off.toNat
      let lo := hostRead s o
      let hi := hostRead lo.2 (o + 4)
      (o % 4 = 0 → exec (.wideLowWordRead (.bar0 off) false) s = .next { lo.2 with rdata := leBytes 4 lo.1.toNat }) ∧
      (o % 8 = 0 → exec (.wideLowWordRead (.bar0 off) true) s =
        .next { hi.2 with rdata := leBytes 4 lo.1.toNat ++ leBytes 4 hi.1.toNat }) ∧
      (∀ two : Bool, o % (if two then 8 else 4) ≠ 0 → exec (.wideLowWordRead (.bar0 off) two) s = .next { s with rdata := [] }) ∧
      (s.served o = false → lo = (0, s)) ∧
      (s.served o = true → o ≠ Reg.MRV_IRQ_SRC → capLow o = none →
        (wideLow o = true → lo.1 = s.readWord o ∧ sget none lo.2.latch (o + 4) = some (s.readWord (o + 4)) ∧
          Frame [.latch] (bits []) s lo.2) ∧
        (∀ v, wideLow o = false → sget none s.latch o = some v → lo.1 = v ∧ sget none lo.2.latch o = none ∧
          Frame [.latch] (bits []) s lo.2) ∧
        (wideLow o = false → sget none s.latch o = none → lo = (s.readWord o, s))) ∧
      (∀ v : Word, o % 4 = 0 → exec (.registerWrite (.bar0 off) [(15, v)]) s = .next (batchesIdle (hostWrite s o v).1)) ∧
      (∀ v w : Word, o % 8 = 0 → exec (.registerWrite (.bar0 off) [(15, v), (15, w)]) s =
        .next (batchesIdle (hostWrite (hostWrite s o v).1 (o + 4) w).1)) ∧
      (∀ (e : BitVec 4) (v : Word), e ≠ 15 ∨ o % 4 ≠ 0 → exec (.registerWrite (.bar0 off) [(e, v)]) s = .next (batchesIdle s)) ∧
      (∀ v : Word, s.served o = false → hostWrite s o v = (s, false)) ∧
      (∀ (v : Word) (d : RegDesc) (i : Nat), regAt o = some (d, i) → d.accepts v = true → d.rw ≠ 0 ∨ d.w1c ≠ 0 →
        o ∉ enableRegs → ∃ t, storeWord s o v = some t ∧
          t.reg o = d.stored (s.reg o) (v &&& ~~~(sget 0 s.seen.sets o &&& BitVec.ofNat 32 d.w1c)) ∧ Frame [] (words [o]) s t)) ∧
    (∀ (d : RegDesc) (old v : Word), ∀ b < 32, (d.stored old v).getLsbD b =
      (if (BitVec.ofNat 32 d.rw).getLsbD b then v.getLsbD b
       else old.getLsbD b && !(v.getLsbD b && (BitVec.ofNat 32 d.w1c).getLsbD b))) ∧
    (∀ (off : BitVec 16) (e : BitVec 4 × Word) (l : List (BitVec 4 × Word)),
      exec (.wideLowWordRead (.bar2 off) false) s = .next { s with rdata := leBytes 4 (s.bar2Word off.toNat).toNat } ∧
      exec (.wideLowWordRead (.bar2 off) true) s =
        .next { s with rdata := leBytes 4 (s.bar2Word off.toNat).toNat ++ leBytes 4 (s.bar2Word (off.toNat + 4)).toNat } ∧
      exec (.registerWrite (.bar2 off) (e :: l)) s = .next (bar2Write s off.toNat e.2)) ∧
    (∀ n : Fin 64, s.bar2Word (0x1000 + 8 * n) = BitVec.ofNat 32 (s.get (Fld.SQ_TAIL_TAIL n)) ∧
      s.bar2Word (0x2000 + 8 * n) = BitVec.ofNat 32 (s.get (Fld.CQ_HEAD_HEAD n)) ∧
      ∀ v, bar2Write s (0x1000 + 8 * n) v = sqDoorbell s n v ∧ bar2Write s (0x2000 + 8 * n) v = cqDoorbell s n v) ∧
    (∀ (r : PciReg) (two : Bool), ∃ t, exec (.wideLowWordRead (.config r) two) s = .next t ∧
      (∃ v : Word, t.rdata = leBytes 4 v.toNat ∧
        v = ((s.configWord r).2 ||| (v &&& ~~~(s.configWord r).1))) ∧ Frame [.rdata, .freeCtr] (bits []) s t) ∧
    (∀ (r : PciReg) (e : BitVec 4 × Word) (l : List (BitVec 4 × Word)),
      exec (.registerWrite (.config r) (e :: l)) s = .next (configWrite s r e.2)) ∧
    (∀ v : Word, s.served Reg.MRV_SCRUB = true → (hostWrite s Reg.MRV_SCRUB v).1.flag Fld.MRV_SCRUB_EN = v.getLsbD 0 ∧
      Frame [] (bits [Fld.MRV_SCRUB_EN]) s (hostWrite s Reg.MRV_SCRUB v).1) ∧
    (∀ off : BitVec 26, 3 ≤ s.pstate →
      let m := off.toNat / 0x200000
      let a := off.toNat % 0x200000
      let taken : Bool := (s.pinned m && s.running) || (s.mrvAt m).slice.isSome
      (off.toNat < 0x2000000 → taken = true → ∀ (n : Nat) (l : List Byte) (ecc : Ecc),
        (∃ t, exec (.bar4Access off (.read n) ecc) s = .next t ∧
          t.rdata = List.replicate n 0 ∧ t.flag Fld.RING_IRQ_STATUS_BAR4_BLOCKED = true ∧
          Frame [.rdata, .msix] (orBits pba (bits [Fld.RING_IRQ_STATUS_BAR4_BLOCKED])) s t) ∧
        ∃ t, exec (.bar4Access off (.write l) ecc) s = .next t ∧ t.flag Fld.RING_IRQ_STATUS_BAR4_BLOCKED = true ∧
          Frame [.msix] (orBits pba (bits [Fld.RING_IRQ_STATUS_BAR4_BLOCKED])) s t) ∧
      (off.toNat < 0x2000000 → taken = false → ∀ (n : Nat) (l : List Byte) (ecc : Ecc),
        (∃ t, exec (.bar4Access off (.write l) ecc) s = .next t ∧
          t.mrvAt m = { (s.mrvAt m).write a l with dirty := true } ∧ (t.mrvAt m).sram = writeBytes (s.mrvAt m).sram a l ∧
          (∀ k < 16, k ≠ m → t.mrvAt k = s.mrvAt k) ∧ Frame [.mrv] (bits []) s t) ∧
        (let u := sramCheck s m a n ecc
         exec (.bar4Access off (.read n) ecc) s = .next { u with rdata := (u.mrvAt m).readBytes a n }) ∧
        ((s.mrvAt m).bad a n = [] →
          exec (.bar4Access off (.read n) .clean) s = .next { s with rdata := bytesAt (s.mrvAt m).sram a n })) ∧
      (0x2000000 ≤ off.toNat → let x := s.wide Reg.MEM_WINBASE_LO / 2 ^ 25 * 2 ^ 25 + (off.toNat - 0x2000000)
        (s.ready 16 = false → ∀ (n : Nat) (l : List Byte) (ecc : Ecc),
          (∃ t, exec (.bar4Access off (.read n) ecc) s = .next t ∧ t.rdata = List.replicate n 0 ∧
            t.flag Fld.MEM_IRQ_STATUS_WIN_NR = true ∧
            Frame [.rdata, .msix] (orBits pba (bits [Fld.MEM_IRQ_STATUS_WIN_NR])) s t) ∧
          ∃ t, exec (.bar4Access off (.write l) ecc) s = .next t ∧ t.flag Fld.MEM_IRQ_STATUS_WIN_NR = true ∧
            Frame [.msix] (orBits pba (bits [Fld.MEM_IRQ_STATUS_WIN_NR])) s t) ∧
        (s.ready 16 = true → ∀ (n : Nat) (l : List Byte), exec (.bar4Access off (.write l) .clean) s = .next (memWrite s x l) ∧
          (s.memIn x n = true → s.memFlawed x n = false → ∀ ecc : Ecc, ecc = .clean ∨ ecc = .link ∨ ecc = .corrected →
            exec (.bar4Access off (.read n) ecc) s = .next { s.memCorrected ecc with rdata := bytesAt s.mem.ram x n }) ∧
          (s.memIn x n = true → s.memFlawed x n = true → exec (.bar4Access off (.read n) .clean) s = .next (s.memPoisoned x n)) ∧
          (s.memIn x n = true → 0 < n → s.flag Fld.MEM_STATUS_IECC_ON = true →
            exec (.bar4Access off (.read n) (.uncorrectable 0)) s = .next ((s.memFlaw (x / 8)).memPoisoned x n)) ∧
          (s.memIn x n = false → ∃ t, exec (.bar4Access off (.read n) .clean) s = .next t ∧ t.rdata = List.replicate n 0 ∧
            t.flag Fld.MEM_IRQ_STATUS_RANGE = true)))) ∧
    (∀ (sq : Fin 64) (seq : BitVec 16) (d : Desc), s.takeDispatched sq seq.toNat 0x09 = some d →
      let n := d.pay 38 2
      let at_ := d.pay 40 8
      (s.batchFits n = false → ∀ r : HostRead, exec (.cfg sq seq r) s = .next s) ∧
      (s.batchFits n = true → d.pay 48 1 = 0 → s.canDma = true → d.episode = false → ∀ l : List Byte,
        exec (.cfg sq seq (.bytes l)) s = .next (cfgListed s d l)) ∧
      (s.batchFits n = true → d.pay 48 1 ≠ 0 → s.memAnswers at_ (8 * n) = true → s.memIn at_ (8 * n) = true → ∀ r : HostRead,
        exec (.cfg sq seq r) s = .next (cfgListed s d (bytesAt s.mem.ram at_ (8 * n)))) ∧
      ∀ l : List Byte,
        let e := cfgEntries n l
        let tick := d.pay 32 6
        let late := tick ≠ 0 ∧ tick ≤ s.tickno
        (∀ i, e.findIdx? cfgEntryBad = some i → cfgListed s d l = s.complete d stBadDescriptor i 0) ∧
        (e.findIdx? cfgEntryBad = none → late → cfgListed s d l = s.complete d stOverrun 0 0) ∧
        (e.findIdx? cfgEntryBad = none → ¬ late → ∃ t, cfgListed s d l = batchesIdle t ∧
          t.batches = insertBy (fun b => s.orderOf b.sq b.seq) ⟨d.sq, d.seq, tick, e⟩ s.batches ∧
          t.ring.flight = s.ring.flight.map (fun x => if x = d then { d with stage := .active } else x) ∧
          Frame [.batches, .flight] (bits []) s t))

/-- MRV_DVFS_WRITE, DVFS_RAMP_DONE, MRV_FENCE_CMD, SRAM_UNCORRECTABLE, SRAM_SCRUB, MRV_COUNTER_CLR, MRV_IRQ_SRC_READ (R150, R151,
R156, R157, R159, R175, R176, R180, R530). -/
def Obligations.MarverCommands : Prop :=
  ∀ (s : State) (m : Fin 16), s.pwr.hold = .running →
    (∀ v : Word, s.served (Reg.MRV_DVFS m) = true →
      let p := v.toNat % 4
      let cur := s.get (Fld.MRV_STATE_DVFS_CUR m)
      (s.pinned m = true → s.fenced m = false → ∃ t, exec (.mrvDvfsWrite m v) s = .next t ∧
        t.flag Fld.MRV_IRQ_STATUS_DVFS_ERR = true ∧ t.bitF Fld.MRV_IRQ_SRC_SRC m = true ∧
        Frame [.msix] (orBits pba (bits [Fld.MRV_IRQ_SRC_SRC, Fld.MRV_IRQ_STATUS_DVFS_ERR])) s t) ∧
      (s.pinned m = false ∨ s.fenced m = true → ∃ t, exec (.mrvDvfsWrite m v) s = .next t ∧ t.get (Fld.MRV_DVFS_POINT m) = p ∧
        (p < cur → (s.mrvAt m).ramp = none → (s.mrvAt m).due ≠ some p →
          t.mrvAt m = { s.mrvAt m with due := none, ramp := some p } ∧ t.flag (Fld.MRV_STATE_RAMP m) = true) ∧
        (p < cur → (s.mrvAt m).ramp = none → (s.mrvAt m).due = some p → t.mrvAt m = s.mrvAt m) ∧
        (p < cur → (s.mrvAt m).ramp ≠ none → t.mrvAt m = { s.mrvAt m with ramp := some p }) ∧
        (cur ≤ p → t.flag (Fld.MRV_STATE_RAMP m) = false ∧
          (s.running = true → t.mrvAt m = { s.mrvAt m with ramp := none, due := some p }) ∧
          (s.running = false → t.mrvAt m = { s.mrvAt m with ramp := none, due := none } ∧
            t.get (Fld.MRV_STATE_DVFS_CUR m) = p)))) ∧
    ((s.mrvAt m).ramp = none → exec (.dvfsRampDone m) s = .next s) ∧
    (∀ p : Fin 4, (s.mrvAt m).ramp = some p.val → ∃ t, exec (.dvfsRampDone m) s = .next t ∧ t.flag (Fld.MRV_STATE_RAMP m) = false ∧
      (s.running = true → t.mrvAt m = { s.mrvAt m with ramp := none, due := some p.val }) ∧
      (s.running = false → t.get (Fld.MRV_STATE_DVFS_CUR m) = p)) ∧
    (s.served (Reg.MRV_FENCE m) = true → (s.mrvAt m).reheat ≠ none → exec (.mrvFenceCmd m) s = .next s) ∧
    (s.served (Reg.MRV_FENCE m) = true → (s.mrvAt m).reheat = none →
      (s.running = false → s.fenced m = true → exec (.mrvFenceCmd m) s = .next s) ∧
      (s.running = true → exec (.mrvFenceCmd m) s = .next (s.setMrv m { s.mrvAt m with fenceDue := true })) ∧
      (s.running = false → s.fenced m = false → ∃ t, exec (.mrvFenceCmd m) s = .next t ∧ t.fenced m = true ∧
        t.bitF Fld.MRV_FENCED_FENCED m = true ∧ t.get (Fld.MRV_FENCE_CAUSE m) = 2 ∧ (t.mrvAt m).chunk = none ∧
        t.runs = s.runs.filter (fun r => r.marver ≠ m.val) ∧
        t.jobs = s.jobs.map (fun j => if s.jobUses j m then { j with restart := true } else j) ∧
        t.flag Fld.MRV_PIRQ_STATUS_FENCED = true)) ∧
    (∀ w : BitVec 18, ∃ t, exec (.sramUncorrectable m w) s = .next t ∧ t.get (Fld.MRV_ECC_ADDR_ECC_ADDR m) = w.toNat ∧
      t.get (Fld.MRV_ECC_UNCORR_ECC_UNCORR m) = min 0xFFFF (s.get (Fld.MRV_ECC_UNCORR_ECC_UNCORR m) + 1) ∧
      t.fenced m = true ∧ t.flag Fld.MRV_IRQ_STATUS_ECC_UNCORR = true ∧ (s.fenced m = false → t.get (Fld.MRV_FENCE_CAUSE m) = 1) ∧
      (2 ≤ s.rhPhase m → (t.mrvAt m).reheat = none) ∧
      ∃ h < 2, (t.mrvAt m).flaws = ((s.mrvAt m).flaw (2 * w.toNat + h)).flaws) ∧
    (∀ found : Ecc,
      let line := (s.mrvAt m).scrubAt
      let known := (s.mrvAt m).bad (64 * line) 64
      let stops := s.fenced m = true ∨ s.flag Fld.MRV_SCRUB_EN = false ∨ s.halted = true
      (stops → exec (.sramScrub m found) s = .next s) ∧
      (¬ stops → ∃ t, exec (.sramScrub m found) s = .next t ∧ (t.mrvAt m).scrubAt = (line + 1) % 32768 ∧
        (found = .clean → known = [] → Frame [.mrv] (bits []) s t) ∧
        (found = .corrected → t.flag Fld.MRV_IRQ_STATUS_ECC_CORR = true ∧
          t.get (Fld.MRV_ECC_CORR_ECC_CORR m) = min 0xFFFF (s.get (Fld.MRV_ECC_CORR_ECC_CORR m) + 1)) ∧
        (known ≠ [] ∨ (∃ h < 16, found = .uncorrectable h) → t.fenced m = true ∧ t.flag Fld.MRV_IRQ_STATUS_ECC_UNCORR = true))) ∧
    (s.served (Reg.MRV_CNT_CLR m) = true → ∃ t, exec (.mrvCounterClr m) s = .next t ∧
      (∀ r ∈ [Reg.MRV_ECC_CORR m, Reg.MRV_ECC_UNCORR m, Reg.MRV_ACC_SAT m, Reg.MRV_BUSYCYC m],
        t.reg r = sget 0 s.seen.sets r) ∧ t.reg (Reg.MRV_ECC_ADDR m) = 0 ∧
      Frame [] (words [Reg.MRV_ECC_CORR m, Reg.MRV_ECC_UNCORR m, Reg.MRV_ECC_ADDR m, Reg.MRV_ACC_SAT m, Reg.MRV_BUSYCYC m]) s t) ∧
    (s.served Reg.MRV_IRQ_SRC = true → ∃ t, exec .mrvIrqSrcRead s = .next t ∧ t.rdata = leBytes 4 (s.reg Reg.MRV_IRQ_SRC).toNat ∧
      t.reg Reg.MRV_IRQ_SRC = 0 ∧ Frame [.rdata] (words [Reg.MRV_IRQ_SRC]) s t)

/-- QUAD_EDGE, QZ_INDEX, SINCOS_LATCH, TRIP_THRESHOLD_WRITE, SNS_CNT_CLR (R185, R186, R188 to R191, R197, R201). A counter that has counted
in the cycle of the CLR (`seen.sets`) reads 1 after it, any other 0. -/
def Obligations.PositionSensing : Prop :=
  ∀ (s : State) (n : Fin 6), s.pwr.hold = .running →
    (∀ (a b : Bool) (na nb nz : Nat), let x := s.snsAt n
      let filt := s.get (Fld.SNS_QCFG_FILT n)
      let u := quadStep s n (if filt < na then a else x.qa) (if filt < nb then b else x.qb)
      exec (.quadEdge n a b na nb) s = .next u ∧
      exec (.qzIndex n a b na nb nz) s = .next (if filt < nz then quadIndex u n else u)) ∧
    (∀ a b : Bool, let x := s.snsAt n
      let t := quadStep s n a b
      let now : Bool := x.trigs.any fun g => g.at_ = s.cyc
      (a = x.qa → b = x.qb → t = s) ∧
      (a ≠ x.qa → b ≠ x.qb → t.bitF Fld.SNS_IRQ_STATUS_QERR n = true ∧
        t.get (Fld.SNS_CNT_QERR n) = min 0xFFFF (s.get (Fld.SNS_CNT_QERR n) + 1) ∧
        t.snsAt n = ({ x with qa := a, qb := b, qerr := !now }.amend s.cyc fun g => { g with qerr := true }) ∧
        Frame [.sns, .msix] (orBits pba (bits [Fld.SNS_CNT_QERR n, Fld.SNS_IRQ_STATUS_QERR])) s t) ∧
      ((a ≠ x.qa ∧ b = x.qb) ∨ (a = x.qa ∧ b ≠ x.qb) →
        let q := if (a != x.qb) != s.flag (Fld.SNS_QCFG_DIR n) then x.qpos + 1 else x.qpos - 1
        t.snsAt n = ({ x with qa := a, qb := b, qpos := q }.amend s.cyc fun g => { g with qpos := q }) ∧
        Frame [.sns] (bits []) s t) ∧
      ∀ m < 6, m ≠ n → t.snsAt m = s.snsAt m) ∧
    (let x := s.snsAt n
      let t := quadIndex s n
      let now : Bool := x.trigs.any fun g => g.at_ = s.cyc
      let q := if s.flag (Fld.SNS_QCFG_ZRST n) then 0 else x.qpos
      (s.flag (Fld.SNS_QCFG_ZEN n) = false → t = s) ∧
      (s.flag (Fld.SNS_QCFG_ZEN n) = true →
        t.snsAt n = ({ x with idx := if now then none else some x.qpos, qpos := q }.amend s.cyc fun g =>
          { g with idx := some x.qpos, qpos := q }) ∧ Frame [.sns] (bits []) s t)) ∧
    (∀ sin cos : Int, exec (.sincosLatch n sin cos) s = .next (heldLatch (latchPair s n (sarCode sin) (sarCode cos)) n)) ∧
    (∀ (a b : Int) (g : ScTrig) (rest : List ScTrig),
      ((s.snsAt n).scTrigs = [] → latchPair s n a b = s) ∧
      ((s.snsAt n).scTrigs = g :: rest →
        let p := scale g.calSin a
        let q := scale g.calCos b
        let t := latchPair s n a b
        t.snsAt n = { s.snsAt n with scTrigs := rest, pair := some ⟨g.at_, p.1, q.1, a, b, p.2 || q.2⟩ } ∧
        Frame [.sns] (bits []) s t)) ∧
    (∀ v : Word, let th := v.toNat % 1024
      (s.served (Reg.SNS_TRIPOC n) = true → ∃ u, exec (.tripThresholdWrite n false v) s = .next (compare u n) ∧
        u.get (Fld.SNS_TRIPOC_TH n) = min th (s.get (Fld.FUS_AXIS_OC_CEIL n)) ∧
        u.flag (Fld.SNS_TRIPOC_CLAMPED n) = decide (s.get (Fld.FUS_AXIS_OC_CEIL n) < th) ∧
        Frame [] (bits [Fld.SNS_TRIPOC_TH n, Fld.SNS_TRIPOC_CLAMPED n]) s u) ∧
      (s.served (Reg.SNS_TRIPOV n) = true → ∃ u, exec (.tripThresholdWrite n true v) s = .next (compare u n) ∧
        u.get (Fld.SNS_TRIPOV_TH n) = min th (s.get (Fld.FUS_AXIS_OV_CEIL n)) ∧
        u.flag (Fld.SNS_TRIPOV_CLAMPED n) = decide (s.get (Fld.FUS_AXIS_OV_CEIL n) < th) ∧
        Frame [] (bits [Fld.SNS_TRIPOV_TH n, Fld.SNS_TRIPOV_CLAMPED n]) s u)) ∧
    (s.served (Reg.SNS_CNT_CLR n) = true → ∃ t, exec (.snsCntClr (.axis n)) s = .next t ∧
      t.reg (Reg.SNS_CNT n) = sget 0 s.seen.sets (Reg.SNS_CNT n) ∧ Frame [] (words [Reg.SNS_CNT n]) s t) ∧
    (∀ k : Fin 4, s.served (Reg.MOD_CNT_CLR k) = true → ∃ t, exec (.snsCntClr (.modulator k)) s = .next t ∧
      t.reg (Reg.MOD_CNT k) = sget 0 s.seen.sets (Reg.MOD_CNT k) ∧ Frame [] (words [Reg.MOD_CNT k]) s t)

/-- MOD_CFG_WRITE, MOD_CLOCK_LOST, MOD_GLITCH, MOD_RATE_CHANGE, MOD_CLOCK_RECOVERY, MOD_DECIMATION (R192 to R195). That an edge which
restarts the filter clocks no bit, and that a change of the divider restarts it, are the model's choices (log entry 43). -/
def Obligations.ModulatorInputs : Prop :=
  ∀ (s : State) (k : Fin 4), s.pwr.hold = .running →
    (∀ v : Word, s.served (Reg.MOD_CFG k) = true →
      let axis := v.toNat / 2 ^ 16 % 8
      let en := v.getLsbD 0
      let clkout := v.getLsbD 1
      let period := v.toNat / 2 ^ 8 % 2 ^ 8
      let taken : Bool := (List.range 4).any fun j => decide (j ≠ k.val) && s.modRouted j axis &&
        decide (s.get (Fld.MOD_CFG_CHAN j) = v.toNat / 2 ^ 20 % 4)
      let same : Bool := s.flag (Fld.MOD_CFG_EN k) && s.flag (Fld.MOD_CFG_CLKOUT k) && decide (s.get (Fld.MOD_CFG_PERIOD k) = period)
      (5 < axis ∨ modPeriodOk clkout period = false ∨ (en = true ∧ taken = true) → exec (.modCfgWrite k v) s = .next s) ∧
      (axis ≤ 5 → modPeriodOk clkout period = true → (en = true → taken = false) →
        ∃ t, exec (.modCfgWrite k v) s = .next t ∧ t.reg (Reg.MOD_CFG k) = v &&& 0x0037FF37 ∧
          (en = false → t.get (Fld.MOD_STATUS_STATE k) = 0 ∧ (t.modAt k).qValid = false ∧ (t.modAt k).startDue = false) ∧
          (en = true → s.reg (Reg.MOD_CFG k) = v &&& 0x0037FF37 → Frame [] (bits []) s t) ∧
          (en = true → s.reg (Reg.MOD_CFG k) ≠ v &&& 0x0037FF37 → t.get (Fld.MOD_STATUS_STATE k) = 1 ∧
            t.get (Fld.MOD_OUT_COUNT k) = 0 ∧ (t.modAt k).outs = 0 ∧ (t.modAt k).edges = 0 ∧
            (clkout = true → same = false → s.running = true → (t.modAt k).startDue = true) ∧
            (clkout = true → same = false → s.running = false → (t.modAt k).startDue = false ∧ (t.modAt k).divAt = s.cyc + 1) ∧
            (clkout = false → (t.modAt k).startDue = false ∧ (t.modAt k).last = s.cyc)) ∧
          Frame [.mods] (words [Reg.MOD_CFG k, Reg.MOD_STATUS k, Reg.MOD_OUT k]) s t)) ∧
    (let m := s.modAt k
      let lost : Bool := s.modInput k && !m.lost && decide (m.last + 4 * s.get (Fld.MOD_CFG_PERIOD k) < s.cyc)
      (lost = false → exec (.modClockLost k) s = .next s) ∧
      (lost = true → ∃ t, exec (.modClockLost k) s = .next t ∧ t.get (Fld.MOD_STATUS_STATE k) = 3 ∧ (t.modAt k).lost = true ∧
        t.bitF Fld.SNS_IRQ_STATUS_MLOST k = true ∧ t.get (Fld.MOD_CNT_LOST k) = min 0xFFFF (s.get (Fld.MOD_CNT_LOST k) + 1) ∧
        Frame [.mods, .msix] (orBits pba (bits [Fld.MOD_STATUS_STATE k, Fld.SNS_IRQ_STATUS_MLOST, Fld.MOD_CNT_LOST k])) s t)) ∧
    (∀ e : ModEdge, let m := s.modAt k
      let mexp := s.get (Fld.MOD_CFG_PERIOD k)
      let sampled : Bool := s.modInput k && (e.rising != s.flag (Fld.MOD_CFG_EDGE k))
      let short : Bool := decide (e.interval < mexp / 2)
      let near : Bool := decide (mexp - mexp / 8 ≤ e.interval) && decide (e.interval ≤ mexp + mexp / 8)
      let t := modInEdge s k e.mdat e.interval
      let restarts (t : State) : Prop := t.get (Fld.MOD_STATUS_STATE k) = 1 ∧ t.get (Fld.MOD_OUT_COUNT k) = 0 ∧
        (t.modAt k).outs = 0 ∧ (t.modAt k).lost = false ∧ (t.modAt k).off = false
      exec (.modGlitch k e) s = .next (if (sampled && !m.lost && short) = true then t else s) ∧
      exec (.modRateChange k e) s =
        .next (if (sampled && !m.lost && !m.off && decide (m.outside = 7) && !short && !near) = true then t else s) ∧
      exec (.modClockRecovery k e) s =
        .next (if (sampled && (m.lost || (m.off && decide (m.within = 7) && !short && near))) = true then t else s) ∧
      (t.modAt k).last = s.cyc ∧ t.get (Fld.MOD_STATUS_PERIOD k) = min 0xFF e.interval ∧
      (m.lost = true → restarts t) ∧
      (m.lost = false → short = true → (t.modAt k).bad = true ∧ t.bitF Fld.SNS_IRQ_STATUS_MGLITCH k = true ∧
        t.get (Fld.MOD_CNT_GLITCH k) = min 0xFFFF (s.get (Fld.MOD_CNT_GLITCH k) + 1) ∧ (t.modAt k).edges = m.edges) ∧
      (m.lost = false → short = false → near = true →
        (m.off = true → 7 ≤ m.within → restarts t) ∧
        (m.off = false ∨ m.within < 7 → (t.modAt k).within = m.within + 1 ∧ (t.modAt k).outside = 0 ∧
          (t.modAt k).i1 = m.i1 + (if e.mdat then 1 else -1))) ∧
      (m.lost = false → short = false → near = false →
        (t.modAt k).i1 = m.i1 + (if e.mdat then 1 else -1) ∧
        (m.off = false → 7 ≤ m.outside → t.get (Fld.MOD_STATUS_STATE k) = 3 ∧ (t.modAt k).off = true ∧
          t.bitF Fld.SNS_IRQ_STATUS_MRATE k = true) ∧
        (m.off = true ∨ m.outside < 7 → (t.modAt k).outside = m.outside + 1 ∧ (t.modAt k).within = 0)) ∧
      Frame [.mods, .sns, .msix] (orBits pba (orBits (words [Reg.MOD_STATUS k, Reg.MOD_OUT k])
        (bits [Fld.MOD_CNT_GLITCH k, Fld.SNS_IRQ_STATUS_MGLITCH, Fld.SNS_IRQ_STATUS_MRATE]))) s t) ∧
    (∀ es : List ModEdge, let m := s.modAt k
      let taken := es.filter fun e => e.rising != s.flag (Fld.MOD_CFG_EDGE k)
      let due : Bool := s.flag (Fld.MOD_CFG_EN k) && !m.startDue && !taken.isEmpty &&
        decide (s.edgesBy k (s.cyc - 1) < s.edgesBy k s.cyc) && decide (s.edgesBy k m.last + taken.length = s.edgesBy k s.cyc)
      (s.modInput k = true →
        exec (.modDecimation k es) s = .next (taken.foldl (fun s e => modInEdge s k e.mdat e.interval) s)) ∧
      (s.modInput k = false → due = false → exec (.modDecimation k es) s = .next s) ∧
      (s.modInput k = false → due = true → exec (.modDecimation k es) s =
        .next ((taken.foldl (fun s e => modEdge s k e.mdat) (s.setMod k { m with last := s.cyc })).modInterval k
          (s.get (Fld.MOD_CFG_PERIOD k))))) ∧
    (∀ b : Bool, let m := s.modAt k
      let i1 := m.i1 + (if b then 1 else -1)
      let i2 := m.i2 + i1
      let i3 := m.i3 + i2
      let osr := 32 * 2 ^ s.get (Fld.MOD_CFG_OSR k)
      let lost : Bool := decide (s.get (Fld.MOD_STATUS_STATE k) = 3)
      let u := modEdge s k b
      (u.modAt k).i1 = i1 ∧ (u.modAt k).i2 = i2 ∧ (u.modAt k).i3 = i3 ∧
      (m.edges + 1 < osr → (u.modAt k).edges = m.edges + 1 ∧ Frame [.mods] (bits []) s u) ∧
      (osr ≤ m.edges + 1 → (u.modAt k).edges = 0 ∧ (u.modAt k).outs = m.outs + 1 ∧ (u.modAt k).qAt = s.cyc ∧
        (u.modAt k).q = satS 16 (rsh (i3 - m.p3 - m.p1 - m.p2) (3 * (5 + s.get (Fld.MOD_CFG_OSR k)) - 15)) ∧
        (u.modAt k).qValid = (decide (3 ≤ m.outs + 1) && !m.bad && !lost) ∧
        u.get (Fld.MOD_OUT_Q k) = lowBits 16 (u.modAt k).q ∧ u.get (Fld.MOD_OUT_COUNT k) = (m.outs + 1) % 2 ^ 16 ∧
        u.get (Fld.MOD_STATUS_STATE k) = (if 3 ≤ m.outs + 1 ∧ lost = false then 2 else s.get (Fld.MOD_STATUS_STATE k)) ∧
        Frame [.mods, .sns] (orBits (words [Reg.MOD_OUT k]) (bits [Fld.MOD_STATUS_STATE k])) s u))

/-- PWM_PERIOD_WRITE, PWM_CFG_WRITE, PWM_DT_WRITE, PWM_EVC_WRITE, PWM_EVOUT_WRITE, PWM_CNT_CLR (R261, R262, R265, R267, R269, R275,
R279). -/
def Obligations.PwmRegisters : Prop :=
  ∀ (s : State) (m : Fin 7) (v : Word), s.pwr.hold = .running →
    (s.served (Reg.PWM_PERIOD m) = true →
      let p := v.toNat % 2 ^ 16
      let now : Bool := s.flag (Fld.PWM_CFG_PLOAD m) && !s.flag (Fld.PWM_CFG_TICKLOCK m) && s.flag (Fld.PWM_CFG_CEN m)
      (p < 16 → exec (.pwmPeriodWrite m v) s = .next s) ∧
      (16 ≤ p → now = false → ∃ t, exec (.pwmPeriodWrite m v) s = .next t ∧ t.get (Fld.PWM_PERIOD_PERIOD m) = p ∧
        Frame [] (bits [Fld.PWM_PERIOD_PERIOD m]) s t) ∧
      (16 ≤ p → now = true → ∃ u, u.get (Fld.PWM_PERIOD_PERIOD m) = p ∧ u.pwmPeriod m = p ∧
        Frame [] (words [Reg.PWM_PERIOD m]) s u ∧
        exec (.pwmPeriodWrite m v) s = .next (if p ≤ s.pwmCount m then periodShort u m else reLap u m))) ∧
    (s.served (Reg.PWM_CFG m) = true →
      let keep := planAxis s.axesInPlan m
      ∃ t, exec (.pwmCfgWrite m v) s = .next t ∧ t.flag (Fld.PWM_CFG_CEN m) = (keep || v.getLsbD 1) ∧
        t.flag (Fld.PWM_CFG_TICKLOCK m) = (keep || v.getLsbD 0) ∧ t.flag (Fld.PWM_CFG_CLOAD m) = v.getLsbD 3 ∧
        t.flag (Fld.PWM_CFG_PLOAD m) = v.getLsbD 2 ∧
        (s.flag (Fld.PWM_CFG_CEN m) = (keep || v.getLsbD 1) → Frame [] (words [Reg.PWM_CFG m]) s t)) ∧
    (s.served (Reg.PWM_DT m) = true →
      (m.val = 6 → exec (.pwmDtWrite m v) s = .next s) ∧
      (m.val ≠ 6 → let d := v.toNat % 1024
        let floor := s.get (Fld.FUS_AXIS_DTFLOOR m)
        ∃ t, exec (.pwmDtWrite m v) s = .next t ∧ t.get (Fld.PWM_DT_DT m) = max d floor ∧
          t.flag (Fld.PWM_DT_CLAMPED m) = decide (d < floor) ∧ Frame [] (bits [Fld.PWM_DT_DT m, Fld.PWM_DT_CLAMPED m]) s t)) ∧
    (∀ e : Fin 4, s.served (Reg.PWM_EVC m e) = true → let x := v.toNat % 2 ^ 16
      ∃ t, exec (.pwmEvcWrite m e v) s = .next t ∧ t.get (Fld.PWM_EVC_VALUE m e) = x ∧
        t.get (Fld.PWM_EVC_ACTIVE m e) = (if s.flag (Fld.PWM_CFG_CLOAD m) && s.flag (Fld.PWM_CFG_CEN m) && decide (s.pwmCount m < x)
          then x else s.get (Fld.PWM_EVC_ACTIVE m e)) ∧ Frame [] (words [Reg.PWM_EVC m e]) s t) ∧
    (∀ e : Fin 6, s.served (Reg.PWM_EVOUT m e) = true → ∃ t, exec (.pwmEvoutWrite m e v) s = .next t ∧
      t.reg (Reg.PWM_EVOUT m e) = v &&& 0x30F ∧ sget 0 (t.pwmAt m).occ e = 0 ∧ Frame [.pwm] (words [Reg.PWM_EVOUT m e]) s t) ∧
    (s.served (Reg.PWM_CNT_CLR m) = true → ∃ t, exec (.pwmCntClr m) s = .next t ∧ t.reg (Reg.PWM_CNT m) = sget 0 s.seen.sets (Reg.PWM_CNT m) ∧
      Frame [] (words [Reg.PWM_CNT m]) s t)

/-- PWM_COUNTER_ZERO, PWM_EVENT, PWM_DISABLE_CMD, TRIP, TRIP_LATCH_CLEAR (R196, R260, R261, R265 to R267, R269, R271 to R275). That an event
commanded in a cycle in which its condition does not hold has no effect is the model's choice (log entry 12). -/
def Obligations.PwmLapsAndTrips : Prop :=
  ∀ (s : State), s.pwr.hold = .running →
    (∀ m : Fin 7,
      (s.wraps m = none → exec (.pwmCounterZero m) s = .next s) ∧
      (∀ z, s.wraps m = some z → exec (.pwmCounterZero m) s = .next (lapZero s m z)) ∧
      (∀ z, s.flag (Fld.PWM_CFG_CEN m) = false → lapZero s m z = s) ∧
      (∀ z, s.flag (Fld.PWM_CFG_CEN m) = true →
        let p := if s.flag (Fld.PWM_CFG_TICKLOCK m) && s.running then s.pwmPeriod m else s.get (Fld.PWM_PERIOD_PERIOD m)
        let c (f : Field) := compareOf (s.get (Fld.FUS_FMAX_FMAX m)) p (s.get f)
        let t := lapZero s m z
        t.pwmPeriod m = p ∧ t.actReg (Reg.PWM_DT m) = s.reg (Reg.PWM_DT m) ∧
          (∀ e < 4, t.get (Fld.PWM_EVC_ACTIVE m e) = s.get (Fld.PWM_EVC_VALUE m e)) ∧ (t.pwmAt m).matched = [] ∧
          (t.pwmAt m).laps.head? = some ⟨z, false, p, if m.val = 6 then []
            else [c (Fld.PWM_DUTY_AB_DA m), c (Fld.PWM_DUTY_AB_DB m), c (Fld.PWM_DUTY_C_DC m)]⟩ ∧
          (m.val ≠ 6 → t.get (Fld.PWM_CMP_AB_CA m) = c (Fld.PWM_DUTY_AB_DA m) ∧
            t.get (Fld.PWM_CMP_AB_CB m) = c (Fld.PWM_DUTY_AB_DB m) ∧ t.get (Fld.PWM_CMP_C_CC m) = c (Fld.PWM_DUTY_C_DC m)))) ∧
    (∀ (m : Fin 7) (v : Fin 6),
      let k := if v.val = 1 then s.pwmPeriod m - 1 else s.get (Fld.PWM_EVC_ACTIVE m (v.val - 2))
      let due : Bool := decide (v.val ≠ 0) && s.countsTo m k &&
        (v.val = 1 || (decide (k < s.pwmPeriod m) && !(s.pwmAt m).matched.contains v.val))
      let u := if v.val = 1 then s else s.setPwm m { s.pwmAt m with matched := v.val :: (s.pwmAt m).matched }
      let n := sget 0 (s.pwmAt m).occ v + 1
      let t := eventOccurs s m v
      (due = false → exec (.pwmEvent m v) s = .next s) ∧
      (due = true → exec (.pwmEvent m v) s = .next (eventOccurs u m v)) ∧
      (n ≤ s.get (Fld.PWM_EVOUT_PRESC m v) → sget 0 (t.pwmAt m).occ v = n ∧ Frame [.pwm] (bits []) s t) ∧
      (s.get (Fld.PWM_EVOUT_PRESC m v) < n → sget 0 (t.pwmAt m).occ v = 0 ∧
        (s.flag (Fld.PWM_EVOUT_GAF m v) = true → t.wide (Reg.PWM_EVSTAMP_LO m) = s.dtime.toNat) ∧
        (s.flag (Fld.PWM_EVOUT_IRQ m v) = true → t.bitF Fld.PWM_IRQ_STATUS_EVT m = true))) ∧
    (∀ m : Fin 7, s.served (Reg.PWM_CTRL m) = true → exec (.pwmDisableCmd m) s = .next (pwmDisable s m 7)) ∧
    (∀ (m : Fin 7) (code : Nat), code < 16 →
      let t := pwmDisable s m code
      let low := min code ((s.askedNow m).getD code)
      t.askedNow m = some low ∧
      (m.val ≠ 6 → s.flag (Fld.PWM_STATUS_EN m) = true ∨ (s.pwmAt m).cut = some s.cyc →
        t.flag (Fld.PWM_STATUS_EN m) = false ∧ t.get (Fld.PWM_STATUS_DISCAUSE m) = low ∧
        Frame [.pwm] (bits [Fld.PWM_STATUS_EN m, Fld.PWM_STATUS_DISCAUSE m]) s t) ∧
      (m.val ≠ 6 → s.flag (Fld.PWM_STATUS_EN m) = false → (s.pwmAt m).cut ≠ some s.cyc → Frame [.pwm] (bits []) s t) ∧
      (m.val = 6 → t.get (Fld.PWM_STATUS_DISCAUSE 6) = low ∧ (∀ c < 8, t.vState c = 0 ∧ t.vlvgOn c = false) ∧
        ∀ p < 4, t.hswgOn p = false)) ∧
    (∀ (n : Fin 6) (volts : Vector Int 4),
      let u := s.setSns n { s.snsAt n with vin := volts.toList }
      let v (i : Nat) := volts.toList.getD i 0
      let was (i : Nat) := s.bitF (Fld.PWM_TRIP_LIVE n) i
      let oc := s.get (Fld.SNS_TRIPOC_TH n)
      exec (.trip n volts) s = .next (compare u n) ∧
      (s.ready 5 = false → compare u n = u) ∧
      (s.ready 5 = true → ∃ live < 16, compare u n = tripLevels u n live ∧
        (∀ i < 3, bitOf live i = (fires (was i) oc (v i) || fires (was i) oc (-v i))) ∧
        bitOf live 3 = fires (was 3) (s.get (Fld.SNS_TRIPOV_TH n)) (v 3))) ∧
    (∀ (th : Nat) (v : Int),
      fires false th v = decide ((th : Int) * (Config.vref : Int) < 1024 * v) ∧
      fires true th v = decide ((th : Int) * (Config.vref : Int) ≤ 1024 * (v + 10000000))) ∧
    (∀ (n : Fin 6) (live : Nat), live < 16 →
      let rose := (List.range 4).filter fun i => bitOf live i && !s.bitF (Fld.PWM_TRIP_LIVE n) i
      let t := tripLevels s n live
      t.get (Fld.PWM_TRIP_LIVE n) = live ∧ t.get (Fld.SNS_TRIPST_LIVE n) = live ∧
        (rose = [] → Frame [] (bits [Fld.PWM_TRIP_LIVE n, Fld.SNS_TRIPST_LIVE n]) s t) ∧
        (rose ≠ [] → t.flag (Fld.PWM_STATUS_EN n) = false ∧ t.flag (Fld.PWM_STATUS_TRIPPED n) = true ∧
          (s.flag (Fld.PWM_STATUS_EN n) = true → t.get (Fld.PWM_STATUS_DISCAUSE n) = min 2 ((s.askedNow n).getD 2)) ∧
          (∀ i ∈ rose, t.bitF (Fld.PWM_TRIP_LATCH n) i = true ∧ t.bitF (Fld.SNS_TRIPST_SEEN n) i = true) ∧
          t.bitF Fld.PWM_IRQ_STATUS_TRIP n = true ∧ t.bitF Fld.SNS_IRQ_STATUS_TRIP n = true ∧
          t.get (Fld.PWM_CNT_TRIPS n) = min 0xFFFF (s.get (Fld.PWM_CNT_TRIPS n) + rose.length))) ∧
    (∀ (m : Fin 7) (v : Word), s.served (Reg.PWM_TRIP m) = true → ∃ t, exec (.tripLatchClear m v) s = .next t ∧
      (∀ i < 4, t.bitF (Fld.PWM_TRIP_LATCH m) i = (s.bitF (Fld.PWM_TRIP_LATCH m) i && !(v.getLsbD i && !s.bitF (Fld.PWM_TRIP_LIVE m) i))) ∧
      t.flag (Fld.PWM_STATUS_TRIPPED m) = decide (t.get (Fld.PWM_TRIP_LATCH m) ≠ 0) ∧
      Frame [] (bits [Fld.PWM_TRIP_LATCH m, Fld.PWM_STATUS_TRIPPED m]) s t)

/-- VLV_SAMPLE_BOUNDARY, VLV_ON, VLV_OFF, VLV_LEVELS_WRITE, VLV_CNT_CLR (R281 to R289, R292). A counter that has counted in the cycle of
the CLR (`seen.sets`) reads 1 after it, any other 0. -/
def Obligations.ValveChannels : Prop :=
  ∀ s : State, s.pwr.hold = .running →
    (∀ volts : Vector Int 8,
      (s.dtime.toNat % 128 ≠ 0 → exec (.vlvSampleBoundary volts) s = .next s) ∧
      (s.dtime.toNat % 128 = 0 → ∃ u, exec (.vlvSampleBoundary volts) s = .next ((List.range 4).foldl pairStep u) ∧
        (∀ c : Fin 8, u.valveI c = valveCode (volts.get c) ∧ u.actReg (Reg.VLV_LEVELS c) = s.reg (Reg.VLV_LEVELS c)) ∧
        Frame [.act] (bits ((List.range 8).map Fld.VLV_STATUS_I)) s u)) ∧
    (∀ p < 4, let t := pairStep s p
      t.hswgOn p = ((decide (1 ≤ t.vState (2 * p)) && decide (t.vState (2 * p) ≤ 4)) ||
        (decide (1 ≤ t.vState (2 * p + 1)) && decide (t.vState (2 * p + 1) ≤ 4)))) ∧
    (∀ c : Fin 8, s.vState c = 3 →
      let t := peakEnd s c
      let i := s.valveI c
      let high : Bool := decide (s.get (Fld.VLV_FPEAK_FPEAK (c.val / 2)) ≤ s.pairSum (c.val / 2))
      (s.get (Fld.VLV_LEVELS_IPEAK c) ≤ i → t.vState c = 4 ∧ t.get (Fld.VLV_STATUS_LIMITED c) = s.get (Fld.VLV_STATUS_LIMITED c)) ∧
      (i < s.get (Fld.VLV_LEVELS_IPEAK c) → high = true → t.vState c = 4 ∧ t.get (Fld.VLV_STATUS_LIMITED c) = 1) ∧
      (high = true → t.bitF Fld.VLV_IRQ_STATUS_LIMITED c = true) ∧
      (i < s.get (Fld.VLV_LEVELS_IPEAK c) → high = false → s.get (Fld.VLV_TPEAK_TPEAK c) ≤ (s.vlvAt c).timer →
        (s.get (Fld.VLV_FAULTLIM_IOPEN c) ≤ i → t.vState c = 4 ∧ t.get (Fld.VLV_STATUS_PTIMEOUT c) = 1) ∧
        (i < s.get (Fld.VLV_FAULTLIM_IOPEN c) → t.vState c = 5 ∧ t.get (Fld.VLV_STATUS_FAULT c) = 1 ∧ t.vlvgOn c = false)) ∧
      (i < s.get (Fld.VLV_LEVELS_IPEAK c) → high = false → (s.vlvAt c).timer < s.get (Fld.VLV_TPEAK_TPEAK c) → t = s)) ∧
    (∀ c : Fin 8, let t := takeOff s c
      ((s.vlvAt c).off = false → t = s) ∧
      ((s.vlvAt c).off = true → (t.vlvAt c).on = false ∧ (t.vlvAt c).off = false ∧ t.vState c = 0 ∧ t.vlvgOn c = false ∧
        t.get (Fld.VLV_STATUS_FAULT c) = 0 ∧ (s.vState c = 2 → t.get (Fld.VLV_STATUS_RESULT c) = stAborted))) ∧
    (∀ c : Fin 8, let t := takeOn s c
      ((s.vlvAt c).on = false → t.vlvAt c = s.vlvAt c ∧ Frame [.vlv] (bits []) s t) ∧
      ((s.vlvAt c).on = true → (t.vlvAt c).on = false ∧
        (s.ready 8 = false ∨ s.flag (Fld.PWM_CFG_CEN 6) = false → t.get (Fld.VLV_STATUS_RESULT c) = stNotReady ∧ t.vState c = s.vState c) ∧
        (s.ready 8 = true → s.flag (Fld.PWM_CFG_CEN 6) = true →
          (s.vState c = 5 → t.get (Fld.VLV_STATUS_RESULT c) = stBadSequence ∧ t.vState c = 5) ∧
          (s.vState c ≠ 5 → s.vState c ≠ 0 → Frame [.vlv] (bits []) s t) ∧
          (s.vState c = 0 → s.inPeak (partner c) = true → t.vState c = 2 ∧ t.get (Fld.VLV_DEFER_DEFER c) = 0) ∧
          (s.vState c = 0 → s.inPeak (partner c) = false → s.hswgOn (c.val / 2) = true → t.vState c = 3 ∧ t.vlvgOn c = true) ∧
          (s.vState c = 0 → s.inPeak (partner c) = false → s.hswgOn (c.val / 2) = false → t.hswgOn (c.val / 2) = true ∧
            (s.get (Fld.VLV_PAIR_HSWDLY (c.val / 2)) = 0 → t.vState c = 3 ∧ t.vlvgOn c = true) ∧
            (0 < s.get (Fld.VLV_PAIR_HSWDLY (c.val / 2)) → t.vState c = 1))))) ∧
    (∀ (c : Fin 8) (v : Word),
      (s.served (Reg.VLV_CMD c) = true →
        (∃ t, exec (.vlvOn c) s = .next t ∧ t.vlvAt c = { s.vlvAt c with on := true } ∧ Frame [.vlv] (bits []) s t) ∧
        (∃ t, exec (.vlvOff c) s = .next t ∧ t.vlvAt c = { s.vlvAt c with off := true } ∧ Frame [.vlv] (bits []) s t)) ∧
      (s.served (Reg.VLV_LEVELS c) = true → let lim := s.get (Fld.VLV_FPEAK_FPEAK (c.val / 2))
        let i := v.toNat % 2 ^ 12
        ∃ t, exec (.vlvLevelsWrite c v) s = .next t ∧ t.get (Fld.VLV_LEVELS_IPEAK c) = min i lim ∧
          t.get (Fld.VLV_LEVELS_IHOLD c) = v.toNat / 2 ^ 16 % 2 ^ 12 ∧ t.flag (Fld.VLV_LEVELS_CLAMPED c) = decide (lim < i) ∧
          Frame [] (words [Reg.VLV_LEVELS c]) s t) ∧
      (s.served (Reg.VLV_CNT_CLR c) = true → ∃ t, exec (.vlvCntClr c) s = .next t ∧
        t.reg (Reg.VLV_CNT c) = sget 0 s.seen.sets (Reg.VLV_CNT c) ∧ Frame [] (words [Reg.VLV_CNT c]) s t))

/-- TIMER_COUNT_TICK, TMR_GSTART, TMR_GSTART_CANCEL, TIMER_RELEASE, TMR_STOP, TMR_CNT_CLR, TMR_LOW_WORD_WRITE, TMR_HIGH_WORD_COMMIT,
TIMER_CAPTURE, TMR_CAPTURE_READ, TIMER_SLOWRUN_STEP, TIMER_RESUME (R296 to R309). A counter that has counted in the cycle of the CLR
(`seen.sets`) reads 1 after it, any other 0. -/
def Obligations.TimerChannels : Prop :=
  ∀ s : State, s.pwr.hold = .running →
    (∀ (k : Fin 16) (n : Nat),
      let counts : Bool := s.ready 9 && decide (s.get (Fld.TMR_CFG_SRC k) < 4) && decide (s.tState k = 2) && !s.suspended
      (counts = false → exec (.timerCountTick k n) s = .next s) ∧
      (counts = true → let total := (s.tmrAt k).acc + 256 * n
        exec (.timerCountTick k n) s =
          .next (countTicks k (total / s.tDivr k) (s.setTmr k { s.tmrAt k with acc := total % s.tDivr k })))) ∧
    (∀ k : Fin 16, s.tState k = 2 → let t := countTick s k
      (s.oneshot k = false → s.tReload k ≤ s.tCount k → t.tCount k = 0 ∧ t.flag (Fld.TMR_STATUS_WRAP k) = true ∧
        t.get (Fld.TMR_LAPS_LAPS k) = (s.get (Fld.TMR_LAPS_LAPS k) + 1) % 2 ^ 32) ∧
      (s.oneshot k = false → s.tCount k < s.tReload k → t.tCount k = (s.tCount k + 1) % 2 ^ 48) ∧
      (s.tReload k < s.tCount k → t.flag (Fld.TMR_STATUS_SHORT k) = true ∧
        t.get (Fld.TMR_CNT_SHORTS k) = min 0xFFFF (s.get (Fld.TMR_CNT_SHORTS k) + 1)) ∧
      (s.oneshot k = true → s.tReload k ≤ s.tCount k + 1 → t.tState k = 3 ∧ t.flag (Fld.TMR_STATUS_DONE k) = true)) ∧
    (∀ v : Word, s.served Reg.TMR_GSTART = true →
      (∃ t, exec (.tmrGstart v) s = .next t ∧ t.flag Fld.TMR_GSTAT_PENDING = true ∧
        t.flag Fld.TMR_GSTAT_EDGE = v.getLsbD 30 ∧ t.get Fld.TMR_GSTAT_PMASK = v.toNat % 2 ^ 16 ∧
        (∀ k < 16, t.tState k =
          if v.getLsbD k = true then (if s.tState k = 0 ∨ s.tState k = 3 then 1 else s.tState k)
          else if s.bitF Fld.TMR_GSTAT_PMASK k = true ∧ s.tState k = 1 then (s.tmrAt k).before % 4 else s.tState k) ∧
        Frame [.tmr, .tmrDue] (orBits (words [Reg.TMR_GSTAT]) (bits ((List.range 16).map Fld.TMR_STATE_STATE))) s t) ∧
      (∃ t, exec (.tmrGstartCancel v) s = .next t ∧ t.reg Reg.TMR_GSTAT = 0 ∧ t.tmrDue = false ∧
        (∀ k < 16, t.tState k = if s.bitF Fld.TMR_GSTAT_PMASK k = true ∧ s.tState k = 1 then (s.tmrAt k).before % 4 else s.tState k) ∧
        Frame [.tmrDue] (orBits (words [Reg.TMR_GSTAT]) (bits ((List.range 16).map Fld.TMR_STATE_STATE))) s t)) ∧
    (let due : Bool := s.flag Fld.TMR_GSTAT_PENDING && (!s.flag Fld.TMR_GSTAT_EDGE || s.tmrDue) && !s.suspended
      let edge : Bool := s.flag Fld.TMR_GSTAT_PENDING && s.flag Fld.TMR_GSTAT_EDGE
      let t := tmrRelease s
      (due = false → exec .timerRelease s = .next s) ∧ (due = true → exec .timerRelease s = .next t) ∧
      (edge = false → tmrTickEdge s = s) ∧ (edge = true → s.suspended = false → tmrTickEdge s = t) ∧
      (edge = true → s.suspended = true → tmrTickEdge s = { s with tmrDue := true }) ∧
      t.reg Reg.TMR_GSTAT = 0 ∧ t.tmrDue = false ∧ t.wide Reg.TMR_GSTAMP_LO = s.dtime.toNat ∧
        ∀ k < 16, t.tState k = (if s.tState k = 1 then 2 else s.tState k) ∧
          (s.tState k = 1 → (s.oneshot k = true ∨ s.flag (Fld.TMR_CFG_ZERO k) = true) → t.tCount k = 0)) ∧
    (∀ k : Fin 16, s.served (Reg.TMR_CTRL k) = true → ∃ t, exec (.tmrStop k) s = .next t ∧
      (s.tState k = 1 ∨ s.tState k = 2 → t.tState k = 0) ∧
      (s.tState k = 1 → t.bitF Fld.TMR_GSTAT_PMASK k = false) ∧
      (s.tState k ≠ 1 → Frame [] (bits [Fld.TMR_STATE_STATE k]) s t) ∧ t.tCount k = s.tCount k ∧
      Frame [] (bits [Fld.TMR_STATE_STATE k, Fld.TMR_GSTAT_PMASK]) s t ∧
      ∃ u, exec (.tmrCntClr k) s = .next u ∧ u.reg (Reg.TMR_CNT k) = sget 0 s.seen.sets (Reg.TMR_CNT k) ∧
        Frame [] (words [Reg.TMR_CNT k]) s u) ∧
    (∀ (k : Fin 16) (r : TmrWide) (v : Word), s.served (Reg.TMR_CFG k) = true →
      let x := (sget 0 s.tmrStage (tmrOff r k)).toNat + 2 ^ 32 * (v.toNat % 2 ^ 16)
      let busy := s.tState k = 1 ∨ s.tState k = 2
      (∃ t, exec (.tmrLowWordWrite k r v) s = .next t ∧ sget 0 t.tmrStage (tmrOff r k) = v ∧ Frame [.tmrStage] (bits []) s t) ∧
      (r = .count → busy → exec (.tmrHighWordCommit k r v) s = .next s) ∧
      (r = .reload → busy → s.flag (Fld.TMR_CFG_RLOAD k) = true → ∃ t, exec (.tmrHighWordCommit k r v) s = .next t ∧
        (t.tmrAt k).reload = some x ∧ Frame [.tmr] (bits []) s t) ∧
      ((r = .count → ¬ busy) → (r = .reload → busy → s.flag (Fld.TMR_CFG_RLOAD k) = false) →
        ∃ t, exec (.tmrHighWordCommit k r v) s = .next t ∧ t.wide (tmrOff r k) = x ∧
          Frame [.tmr] (words [tmrOff r k, tmrOff r k + 4]) s t)) ∧
    (∀ (pin : Fin 8) (rising : Bool),
      let taken : Bool := s.ready 9 && !s.suspended && (s.bitF Fld.TMR_TINLVL_LEVEL pin != rising)
      let u := (List.range 16).foldl (fun s k =>
        if s.get (Fld.TMR_CFG_SRC k) = 4 + pin.val ∧ edgeSelected (s.get (Fld.TMR_CFG_TEDGE k)) rising = true then sourceEdges s k 1 else s)
        (s.putBit Fld.TMR_TINLVL_LEVEL pin rising)
      (taken = false → exec (.timerCapture pin rising) s = .next s) ∧
      (taken = true → ∃ t, exec (.timerCapture pin rising) s = .next t ∧ t.bitF Fld.TMR_TINLVL_LEVEL pin = rising ∧
        ∀ k < 16, s.flag (Fld.TMR_CFG_CAPEN k) = true → s.get (Fld.TMR_CFG_CAPIN k) = pin.val → u.tState k = 2 →
          t.wide (if rising then Reg.TMR_CAPR_LO k else Reg.TMR_CAPF_LO k) = u.tCount k % 2 ^ 48 ∧
          t.flag (if rising then Fld.TMR_CAPSTAT_RFRESH k else Fld.TMR_CAPSTAT_FFRESH k) = true ∧
          t.flag (if rising then Fld.TMR_STATUS_CAPR k else Fld.TMR_STATUS_CAPF k) = true)) ∧
    (∀ (k : Fin 16) (f : Bool), s.served (Reg.TMR_CFG k) = true → let lo := if f then Reg.TMR_CAPF_LO k else Reg.TMR_CAPR_LO k
      ∃ t, exec (.tmrCaptureRead k f) s = .next t ∧ t.rdata = leBytes 4 (s.reg lo).toNat ∧
        sget none t.latch (lo + 4) = some (s.reg (lo + 4)) ∧
        t.flag (if f then Fld.TMR_CAPSTAT_FFRESH k else Fld.TMR_CAPSTAT_RFRESH k) = false ∧
        Frame [.rdata, .latch] (bits [if f then Fld.TMR_CAPSTAT_FFRESH k else Fld.TMR_CAPSTAT_RFRESH k]) s t) ∧
    (s.suspended = false → exec .timerSlowrunStep s = .next s ∧ ∀ e : Nat, exec (.timerResume e) s = .next s) ∧
    (s.suspended = true → exec .timerSlowrunStep s = .next (slowrun s) ∧
      (∀ k < 16, s.flag (Fld.TMR_CFG_SUSP k) = false → (slowrun s).tCount k = s.tCount k) ∧
      (s.halted = false → 3 ≤ s.pstate → ∀ e : Nat, ∃ t, exec (.timerResume e) s = .next t ∧ t.suspended = false ∧
        ∀ k < 16, s.tState k = 2 → s.flag (Fld.TMR_CFG_SUSP k) = false → t.flag (Fld.TMR_STATUS_CATCHUP k) = true))

/-- AUD_OUTPUT_ENABLE, AUD_OUTPUT_DISABLE, AUD_GAIN_WRITE, AUD_STARTUP_DONE, AUD_RAMP_STEP, AUD_PROTECTION_FAULT, AUD_PROT_CLEAR,
JACK_SAMPLE (R319 to R327). That a start-up end or a ramp step commanded before its time has no effect is the model's choice (log
entry 12). -/
def Obligations.AudioConverters : Prop :=
  ∀ s : State, s.pwr.hold = .running →
    (∀ (o : AudOutput) (v : Word), s.served Reg.AUD_HP = true → let off := (audEn o).off
      (∀ u, storeWord s off (v ||| 0x80000000) = some u → ∃ t, exec (.audOutputEnable o v) s = .next t ∧
        (∀ b < 31, (t.reg off).getLsbD b = (u.reg off).getLsbD b) ∧ t.aud.was = s.aud.was ++ [⟨off, s.cyc, s.reg off⟩] ∧
        (s.audLatched o = true → t.flag (audEn o) = s.flag (audEn o)) ∧
        (s.audLatched o = false → t.flag (audEn o) = true ∧
          (s.get (audState o) = 0 → (t.audOut o).starting = true ∧ t.get (audState o) = 0 ∧
            ((s.audOut o).starting = false → (t.audOut o).at_ = s.cyc)) ∧
          (s.get (audState o) = 3 → t.get (audState o) = 1))) ∧
      (∀ u, storeWord s off (v &&& 0x7FFFFFFF) = some u → ∃ t, exec (.audOutputDisable o v) s = .next t ∧
        (∀ b < 31, (t.reg off).getLsbD b = (u.reg off).getLsbD b) ∧
        t.flag (audEn o) = false ∧ (s.get (audState o) = 0 → (t.audOut o).starting = false) ∧
        (s.get (audState o) = 1 ∨ s.get (audState o) = 2 → t.get (audState o) = 3))) ∧
    (∀ (r : AudReg) (v : Word), s.served (audRegOff r) = true →
      exec (.audGainWrite r v) s = .next ((audRegWrite s r v).getD s) ∧
      (r ≠ .hp → r ≠ .spk → ∀ d i, regAt (audRegOff r) = some (d, i) → d.accepts v = true → ∃ t,
        exec (.audGainWrite r v) s = .next t ∧ t.reg (audRegOff r) = d.stored (s.reg (audRegOff r)) v ∧
        t.aud.was = s.aud.was ++ [⟨audRegOff r, s.cyc, s.reg (audRegOff r)⟩] ∧ Frame [.aud] (words [audRegOff r]) s t)) ∧
    (∀ (off now : Nat) (w : Word), (∀ x ∈ s.aud.was, x.off = off → x.at_ + 4 ≤ now) → inForce s.aud.was off now w = w) ∧
    (∀ o : AudOutput, let x := s.audOut o
      let a := s.get (audAtt o)
      let started : Bool := s.up 10 && x.starting && decide (x.at_ + startupCycles ≤ s.cyc)
      let next := x.at_ + rampCycles x.ramp
      let steps : Bool := s.up 10 && decide (next ≤ s.cyc)
      (started = false → exec (.audStartupDone o) s = .next s) ∧
      (started = true → ∃ t, exec (.audStartupDone o) s = .next t ∧ t.get (audState o) = 1 ∧
        t.get (audAtt o) = 64 ∧ t.audOut o = ⟨false, s.get (audRamp o), s.cyc⟩ ∧ Frame [.aud] (bits [audState o, audAtt o]) s t) ∧
      (steps = false → exec (.audRampStep o) s = .next s) ∧
      (steps = true → ∃ t, exec (.audRampStep o) s = .next t ∧ t.audOut o = { x with at_ := next } ∧
        (s.get (audState o) = 1 → t.get (audAtt o) = a - 1 ∧
          (2 ≤ a → t.get (audState o) = 1 ∧ Frame [.aud] (bits [audAtt o]) s t) ∧
          (a ≤ 1 → t.get (audState o) = 2 ∧ t.flag Fld.AUD_IRQ_STATUS_RAMP_DONE = true)) ∧
        (s.get (audState o) = 3 → t.get (audAtt o) = min 64 (a + 1) ∧
          (a < 63 → t.get (audState o) = 3 ∧ Frame [.aud] (bits [audAtt o]) s t) ∧
          (63 ≤ a → t.get (audState o) = 0 ∧ t.flag Fld.AUD_IRQ_STATUS_RAMP_DONE = true)) ∧
        (s.get (audState o) ≠ 1 → s.get (audState o) ≠ 3 → Frame [.aud] (bits []) s t))) ∧
    (∀ f : AudFault, let o := (audFault f).2.2
      (s.up 10 = false → exec (.audProtectionFault f) s = .next s) ∧
      (s.up 10 = true → ∃ t, exec (.audProtectionFault f) s = .next t ∧ t.flag (audFault f).1 = true ∧ t.flag (audFault f).2.1 = true ∧
        t.flag (audEn o) = false ∧ t.get (audState o) = 0 ∧ t.get (audAtt o) = 64 ∧ t.audOut o = ⟨false, 0, 0⟩ ∧
        Frame [.aud, .msix] (orBits pba (bits [(audFault f).1, (audFault f).2.1, audEn o, audState o, audAtt o])) s t)) ∧
    (∀ (v : Word) (present : BitVec 4), s.served Reg.AUD_PROT = true → ∃ t, exec (.audProtClear v present) s = .next t ∧
      (∀ b < 32, (t.reg Reg.AUD_PROT).getLsbD b =
        ((s.reg Reg.AUD_PROT).getLsbD b && !(v.getLsbD b && !present.getLsbD b))) ∧ Frame [] (words [Reg.AUD_PROT]) s t) ∧
    (∀ (jdet : Bool) (volts : Int),
      let on : Bool := s.up 10 && s.flag Fld.AUD_JACK_CFG_EN
      let inserted := s.flag Fld.AUD_JACK_STAT_INSERTED
      let level : Bool := jdet == s.flag Fld.AUD_JACK_CFG_JPOL
      (on = false → exec (.jackSample jdet volts) s = .next s) ∧
      (on = true → level = true → inserted = false → s.aud.jack.deb + 1 < s.get Fld.AUD_JACK_CFG_JDEB → ∃ t,
        exec (.jackSample jdet volts) s = .next t ∧ t.aud.jack = { s.aud.jack with deb := s.aud.jack.deb + 1 } ∧
        Frame [.aud] (bits []) s t) ∧
      (on = true → level = false → inserted = true → s.aud.jack.deb + 1 < s.get Fld.AUD_JACK_CFG_JDEB → ∃ t,
        exec (.jackSample jdet volts) s = .next t ∧ t.flag Fld.AUD_JACK_STAT_INSERTED = true ∧ t.aud.jack.deb = s.aud.jack.deb + 1) ∧
      (on = true → level = true → inserted = false → s.get Fld.AUD_JACK_CFG_JDEB ≤ s.aud.jack.deb + 1 → ∃ t,
        exec (.jackSample jdet volts) s = .next t ∧ t.flag Fld.AUD_JACK_STAT_INSERTED = true ∧ t.get Fld.AUD_JACK_STAT_ACC = 1 ∧
        t.flag Fld.AUD_IRQ_STATUS_JACK_IN = true ∧
        t.get Fld.AUD_JACK_CNT_INSERTS = min 0xFFFF (s.get Fld.AUD_JACK_CNT_INSERTS + 1)) ∧
      (on = true → level = false → inserted = true → s.get Fld.AUD_JACK_CFG_JDEB ≤ s.aud.jack.deb + 1 → ∃ t,
        exec (.jackSample jdet volts) s = .next t ∧ t.flag Fld.AUD_JACK_STAT_INSERTED = false ∧ t.get Fld.AUD_JACK_STAT_ACC = 0 ∧
        t.get Fld.AUD_JACK_STAT_BTN = 0 ∧ t.flag Fld.AUD_IRQ_STATUS_JACK_OUT = true))

/-- INFER, SLICE_START, CHUNK_DONE (R153, R169 to R174, R176, R449, R451). -/
def Obligations.StreamJobs : Prop :=
  ∀ s : State, s.pwr.hold = .running →
    (∀ (sq : Fin 64) (seq : BitVec 16) (h : HostRead) (d : Desc), s.takeDispatched sq seq.toNat 0x02 = some d →
      let slot := d.pay 32 1
      (s.slotAt slot = none → exec (.infer sq seq h) s = .next (s.complete d stBadDescriptor 32 0)) ∧
      (∀ p : Par, s.slotAt slot = some p →
        let batch := d.pay 34 1
        let req := d.pay 38 1
        (parKind p.image ≠ 0 → exec (.infer sq seq h) s = .next (s.complete d stBadDescriptor 32 0)) ∧
        (parKind p.image = 0 → batch = 0 ∨ parMaxBatch p.image < batch →
          exec (.infer sq seq h) s = .next (s.complete d stBadDescriptor 34 0)) ∧
        (parKind p.image = 0 → 0 < batch → batch ≤ parMaxBatch p.image →
          (req ≠ 0xFF → parPlaces p.image ≤ req → exec (.infer sq seq h) s = .next (s.complete d stBadDescriptor 38 0)) ∧
          (req = 0xFF ∨ req < parPlaces p.image →
            (∀ m, s.selectPlace p.image req = .inr (some m) →
              exec (.infer sq seq h) s = .next (s.complete d stUnitFenced (m * 65536) 0)) ∧
            (s.selectPlace p.image req = .inr none → exec (.infer sq seq h) s = .next (s.complete d stBadSequence 0 0)) ∧
            (∀ place : Nat, s.selectPlace p.image req = .inl place →
              let job (input : List Byte) : Job :=
                ⟨d.sq, d.seq, slot, d.pay 33 1 % 4, batch, d.pay 36 2, input, place, s.dtime, none, false, false, false, [], [], none⟩
              let joins (t : State) (input : List Byte) : Prop :=
                t.jobs = insertBy (fun k : Job => s.orderOf k.sq k.seq) (job input) s.jobs ∧
                t.get (Fld.MRV_SLOT_FLAGS_JOBS slot) = min 0xFFFF (s.get (Fld.MRV_SLOT_FLAGS_JOBS slot) + 1) ∧
                Frame [.jobs, .flight] (bits [Fld.MRV_SLOT_FLAGS_JOBS slot]) s t
              (bitOf (d.pay 35 1) 0 = false →
                (s.inputAnswers p.image d = false → exec (.infer sq seq h) s = .next s) ∧
                (s.inputAnswers p.image d = true → s.jobInput p.image d = none →
                  exec (.infer sq seq h) s = .next ((s.memRefuse (d.pay 40 8)).rangeFail d)) ∧
                (∀ input, s.inputAnswers p.image d = true → s.jobInput p.image d = some input →
                  ∃ t, exec (.infer sq seq h) s = .next t ∧ joins t input)) ∧
              (bitOf (d.pay 35 1) 0 = true → s.canDma = true → d.episode = false → ∀ l : List Byte,
                ∃ t, exec (.infer sq seq (.bytes l)) s = .next t ∧ joins t (slice l 0 (batch * parIn p.image)))))))) ∧
    (∀ (sq : Fin 64) (seq : BitVec 16) (l : List Byte) (j : Job) (d : Desc), s.takeDispatched sq seq.toNat 0x02 = none →
      s.jobOf sq seq.toNat = some j → s.findDesc sq seq.toNat = some d →
      (j.reread = false → exec (.infer sq seq (.bytes l)) s = .next s) ∧
      (j.reread = true → s.canDma = true → d.episode = false →
        let new := { j with reread := false, input := slice l 0 (j.batch * parIn (s.jobImage j)) }
        exec (.infer sq seq (.bytes l)) s =
          .next { s with jobs := s.jobs.map fun k : Job => if k.sq = j.sq ∧ k.seq = j.seq then new else k })) ∧
    (∀ i : Fin 64, (s.mayStart i 8 = false → exec (.sliceStart i) s = .next s) ∧
      (s.mayStart i 8 = true → let u := copyRefused (jobRestarts (s.startAction i))
        ∃ v, exec (.sliceStart i) s = .next (slicesEnd (marversNext v)) ∧ i.val ∈ v.gaf.started ∧
          ∀ m < 16, bitOf (actTarget s.plan i) m = true → u.fenced m = false →
            (v.mrvAt m).slice = some (i.val, s.dtime) ∧ (v.mrvAt m).chunk = none)) ∧
    (∀ (m : Fin 16) (n : Nat),
      ((s.mrvAt m).chunk = none → exec (.chunkDone m n) s = .next s) ∧
      (∀ c, (s.mrvAt m).chunk = some c → ∃ u, (u.mrvAt m).chunk = none ∧
        u.get (Fld.MRV_ECC_CORR_ECC_CORR m) = min 0xFFFF (s.get (Fld.MRV_ECC_CORR_ECC_CORR m) + n) ∧
        (n = 0 → Frame [.mrv] (bits [Fld.MRV_BUSYCYC_BUSYCYC m]) s u) ∧
        (s.jobOf c.sq c.seq = none → u.reg (Reg.MRV_BUSYCYC m) = s.reg (Reg.MRV_BUSYCYC m) ∧
          exec (.chunkDone m n) s = .next (slicesEnd (marversNext u))) ∧
        (∀ j, s.jobOf c.sq c.seq = some j → let l := parLayer (s.jobImage j) c.layer
          let w := chunkResult u m j c
          u.get (Fld.MRV_BUSYCYC_BUSYCYC m) = (s.get (Fld.MRV_BUSYCYC_BUSYCYC m) +
            (if layOp l ≤ 2 then chunkCycles l j.batch c.ix else 0)) % 2 ^ 32 ∧
          (j.restart = true ∨ j.stop ≠ none → exec (.chunkDone m n) s = .next (slicesEnd (marversNext u))) ∧
          (j.restart = false → j.stop = none → exec (.chunkDone m n) s =
            .next (slicesEnd (marversNext (match w.jobOf c.sq c.seq with
              | some k => if w.jobAll k then finishJob w k else w
              | none => w)))))))

/-- LOAD_PLAN, LOAD_PARISON, UNLOAD_SLOT, SIGNATURE_VERIFY, REHEAT, REHEAT_SCRUB_DONE, REHEAT_RELOAD_DONE (R59, R165 to R167, R177
to R180, R500, R502, R503). -/
def Obligations.LoadsAndReheat : Prop :=
  ∀ s : State, s.pwr.hold = .running →
    (∀ (sq : Fin 64) (seq : BitVec 16) (l : List Byte) (d : Desc), s.takeDispatched sq seq.toNat 0x03 = some d →
      (d.pay 32 1 ≤ 1 → let b := decide (d.pay 32 1 = 1)
        let img := slice l 0 (min 1216 (d.pay 48 4))
        (∀ h r, s.bankBusy b = some r → exec (.loadPlan sq seq h) s = .next (s.complete d stBadSequence r 0)) ∧
        (s.bankBusy b = none → s.canDma = true → d.episode = false →
          (∀ o, planHeadBad img (d.pay 48 4) = some o →
            exec (.loadPlan sq seq (.bytes l)) s = .next ((s.setBank b [] false).complete d stBadDescriptor o 0)) ∧
          (planHeadBad img (d.pay 48 4) = none → ∃ t, exec (.loadPlan sq seq (.bytes l)) s = .next t ∧
            t.sig = s.sig ++ [⟨d.sq, d.seq, img, .waits⟩] ∧ Frame [.sig, .flight] (bits []) s t))) ∧
      (d.pay 32 1 = 2 → s.canDma = true → d.episode = false → let img := slice l 0 (d.pay 48 4)
        (∀ o, parHeadBad img (d.pay 48 4) = some o →
          exec (.loadParison sq seq (.bytes l)) s = .next (s.complete d stBadDescriptor o 0)) ∧
        (parHeadBad img (d.pay 48 4) = none → ∃ t, exec (.loadParison sq seq (.bytes l)) s = .next t ∧
          t.sig = s.sig ++ [⟨d.sq, d.seq, img, .waits⟩] ∧ Frame [.sig, .flight] (bits []) s t)) ∧
      (d.pay 32 1 = 3 → let slot := d.pay 33 1
        (∀ r, s.slotBusy slot none = some r → exec (.unloadSlot sq seq) s = .next (s.complete d stBadSequence r 0)) ∧
        (s.slotBusy slot none = none → ∃ t, exec (.unloadSlot sq seq) s = .next t ∧ t.slotAt slot = none ∧
          ∀ i, i ≠ slot → t.slotAt i = s.slotAt i))) ∧
    (∀ second : HostRead, s.sigNext = none → exec (.signatureVerify second) s = .next s) ∧
    (∀ (j : SigJob) (d : Desc) (second : HostRead), s.sigNext = some j → s.findDesc j.sq j.seq = some d →
      (s.ready 17 = false → exec (.signatureVerify second) s = .next s) ∧
      (s.ready 17 = true → d.opcode = 0x03 → d.pay 32 1 ≤ 1 →
        exec (.signatureVerify second) s = .next (planVerify (s.dropSig j) d j.image)) ∧
      (s.ready 17 = true → d.opcode = 0x03 → d.pay 32 1 = 2 →
        let u := if j.stage = .waits then parVerify s d j else s
        let k : SigJob := { j with stage := .second }
        (k ∉ u.sig → exec (.signatureVerify second) s = .next u) ∧
        (∀ e l, k ∈ u.sig → u.findDesc j.sq j.seq = some e → u.canDma = true → e.episode = false → second = .bytes l →
          exec (.signatureVerify second) s = .next (parSecond u e k l)) ∧
        (∀ e, k ∈ u.sig → u.findDesc j.sq j.seq = some e → u.canDma = true → second = .refused →
          exec (.signatureVerify second) s =
            .next ((freeWrites (u.dropSig k) e j.image).complete e stBadDescriptor 0x010000FF 0)) ∧
        (∀ e, k ∈ u.sig → u.findDesc j.sq j.seq = some e → u.canDma = false ∨ second = .timeout →
          exec (.signatureVerify second) s = .next (u.hostEpisode e)))) ∧
    (∀ (d : Desc) (img : List Byte), let b := decide (d.pay 32 1 = 1)
      let k := fieldAt img 36 1
      let t := planVerify s d img
      (∀ r, authFails s img (fieldAt img 40 4) k = some r → t.get Fld.FUS_LASTAUTH_REASON = r ∧
        t.get Fld.FUS_LASTAUTH_SLOT = k % 2 ∧ t.get Fld.FUS_SIGCNT_FAIL = min 0xFFFF (s.get Fld.FUS_SIGCNT_FAIL + 1) ∧
        (s.bankBusy b = none → t.bankValid b = false)) ∧
      (authFails s img (fieldAt img 40 4) k = none →
        t.get Fld.FUS_SIGCNT_OK = min 0xFFFF (s.get Fld.FUS_SIGCNT_OK + 1) ∧
        (s.bankBusy b = none → planBad img ≠ none → t.bankValid b = false) ∧
        (s.bankBusy b = none → planBad img = none → t.bankValid b = true ∧
          t.bank b = img.take (64 + 16 * planCount img + 128)))) ∧
    (∀ (d : Desc) (j : SigJob), let img := j.image
      let k := parKey img
      let slot := d.pay 33 1
      let dest := d.pay 56 8
      let t := parVerify s d j
      (∀ r, authFails s img (parBody img) k = some r →
        t = (authBad (s.dropSig j) r k).complete d stAuthFail (authDetail r k) 0) ∧
      (authFails s img (parBody img) k = none → let u := (authGood s k).dropSig j
        (∀ o, parContentBad img = some o → t = u.complete d stBadDescriptor o 0) ∧
        (parContentBad img = none →
          (parKind img = 0 → dest = 0 → t = u.complete d stBadDescriptor 56 0) ∧
          (dest ≠ 0 → s.ready 16 = false → t = u.complete d stNotReady 0 0) ∧
          ((parKind img = 0 → dest ≠ 0) → (dest ≠ 0 → s.ready 16 = true) →
            (∀ r, (authGood s k).residency slot dest img = some r → t = u.complete d stBadSequence r 0) ∧
            ((authGood s k).residency slot dest img = none → t.slotAt slot = none ∧ t.sig = s.sig.replace j { j with stage := .second } ∧
              t.get Fld.FUS_SIGCNT_OK = min 0xFFFF (s.get Fld.FUS_SIGCNT_OK + 1)))))) ∧
    (∀ (d : Desc) (j : SigJob) (second : List Byte), let n := parBody j.image
      let k := parKey j.image
      let t := parSecond s d j second
      (slice second 0 n ≠ slice j.image 0 n →
        t = (authBad (freeWrites (s.dropSig j) d j.image) 8 k).complete d stAuthFail (authDetail 8 k) 0) ∧
      (slice second 0 n = slice j.image 0 n →
        t.sig = s.sig.replace j ⟨j.sq, j.seq, slice second 0 j.image.length, .writes⟩ ∧ Frame [.sig] (bits []) s t)) ∧
    (∀ (j : SigJob) (d : Desc), s.sig.filter (fun k => k.stage = .writes) = [j] → s.findDesc j.sq j.seq = some d →
      let may : Prop := (d.pay 56 8 = 0 ∨ s.ready 16 = true) ∧ ∀ r ∈ regionsOf j.image, (s.mrvAt r.2).slice = none
      (¬ may → loadWrites s = s) ∧
      (may → loadWrites s = parWrite { s with sig := s.sig.filter (· ≠ j) } d j.image)) ∧
    (∀ (d : Desc) (img : List Byte), d.pay 56 8 = 0 ∨ s.memIn (d.pay 56 8) img.length = true →
      (parWrite s d img).slotAt (d.pay 33 1) = some ⟨img, d.pay 56 8⟩) ∧
    (∀ (sq : Fin 64) (seq : BitVec 16) (a b : HostRead) (d : Desc), s.takeDispatched sq seq.toNat 0x0D = some d →
      let m := d.pay 32 1 % 16
      (s.fenced m = false ∨ (s.mrvAt m).reheat ≠ none → exec (.reheat sq seq a b) s = .next (s.complete d stBadSequence 0 0)) ∧
      (s.fenced m = true → (s.mrvAt m).reheat = none →
        (s.canDma = true ∧ d.episode = false) ∨ (d.pay 40 8 = 0 ∧ d.pay 48 8 = 0) → ∀ l0 l1 : List Byte,
        let images := reheatImages d l0 l1
        ((∃ e ∈ s.residents m, e.2.dest = 0 ∧ ∀ i ∈ images, parId i ≠ parId e.2.image) →
          exec (.reheat sq seq (.bytes l0) (.bytes l1)) s = .next (s.complete d stBadSequence 0 0)) ∧
        ((∀ e ∈ s.residents m, e.2.dest = 0 → ∃ i ∈ images, parId i = parId e.2.image) →
          ∃ t, exec (.reheat sq seq (.bytes l0) (.bytes l1)) s = .next t ∧
            (t.mrvAt m).reheat = some ⟨d.sq, d.seq, images, 0⟩ ∧ t.rhPhase m = 1 ∧
            t.sig = s.sig ++ images.map (fun i => ⟨d.sq, d.seq, i, .waits⟩) ∧
            Frame [.mrv, .flight, .sig] (bits [Fld.MRV_RHST_PHASE m, Fld.MRV_RHST_RELOAD_KIB m]) s t))) ∧
    (∀ m : Fin 16,
      (s.rhPhase m ≠ 1 ∨ s.halted = true → ∀ f, exec (.reheatScrubDone m f) s = .next s) ∧
      (s.rhPhase m = 1 → s.halted = false →
        (∃ t, exec (.reheatScrubDone m none) s = .next t ∧
          t.mrvAt m = { s.mrvAt m with sram := [], flaws := [], tables := [], prev := none, dirty := false } ∧
          t.rhPhase m = 2 ∧ Frame [.mrv] (bits [Fld.MRV_RHST_PHASE m]) s t) ∧
        (∀ (w : BitVec 18) (r : Reheat), (s.mrvAt m).reheat = some r → ∃ t, exec (.reheatScrubDone m (some w)) s = .next t ∧
          (t.mrvAt m).reheat = none ∧ t.rhPhase m = 0 ∧ t.flag Fld.MRV_PIRQ_STATUS_RH_FAIL = true)) ∧
      (∀ r : Reheat, (s.mrvAt m).reheat = some r →
        let goes : Prop := s.halted = false ∧ s.rhPhase m = 2 ∧ (∀ j ∈ s.sig, ¬(j.sq = r.sq ∧ j.seq = r.seq)) ∧
          ∀ e ∈ s.residents m, e.2.dest ≠ 0 → s.memAnswers e.2.dest e.2.image.length = true
        (¬ goes → exec (.reheatReloadDone m) s = .next s) ∧
        (goes → ∃ t, exec (.reheatReloadDone m) s = .next t ∧ t.rhPhase m = 3)))

/-- MIX_NODE_WRITE, MIX_CTRL_WRITE, MIX_SAMPLE_INSTANT, FEAT_FRAME_COMPLETE, BRIDGE_LOCK, MIX_METCLR, MIX_CAPDROP_CLR (R331 to R335,
R338, R339, R343, R344). That an instant commanded in a cycle in which it does not fall has no effect is the model's choice (log entry
12). A counter that has counted in the cycle of a CLR (`seen.sets`) reads 1 after it, any other 0. -/
def Obligations.MixerCommands : Prop :=
  ∀ s : State, s.pwr.hold = .running →
    (∀ (k : Fin 20) (j : Fin 24) (v : Word), s.served Reg.MIX_CTRL = true → let c := v.toNat % 512
      let b := bridgeOf (s.srcDom j) (s.sinkDom k)
      let full : Prop := c ≠ 0 ∧ s.srcDom j ≠ s.sinkDom k ∧ s.brChan b j = none ∧ s.brChan b 0xFF = none
      (480 < c → exec (.mixNodeWrite k j v) s = .next s) ∧
      (c ≤ 480 → full → ∃ t, exec (.mixNodeWrite k j v) s = .next t ∧
        t.flag Fld.MIX_IRQ_STATUS_BR_FULL = true ∧ Frame [.msix] (orBits pba (bits [Fld.MIX_IRQ_STATUS_BR_FULL])) s t) ∧
      (c ≤ 480 → ¬ full → ∃ t, exec (.mixNodeWrite k j v) s = .next t ∧ t.get (Fld.MIX_NODE_CODE k j) = c ∧
        t.mix.was = s.mix.was ++ [⟨Reg.MIX_NODE k j, s.cyc, s.reg (Reg.MIX_NODE k j)⟩] ∧
        Frame [.mix, .msix] (orBits pba (orBits (bits [Fld.MIX_NODE_CODE k j, Fld.MIX_STATUS_BRLOCK, Fld.MIX_IRQ_STATUS_BR_FULL])
          (words ((List.range 12).map Reg.MIX_BRMAP)))) s t ∧
        (s.bridged = false → t.flag Fld.MIX_IRQ_STATUS_BR_FULL = s.flag Fld.MIX_IRQ_STATUS_BR_FULL ∧ t.ring.msix = s.ring.msix))) ∧
    (∀ v : Word, s.served Reg.MIX_CTRL = true → let fs := v.toNat / 16 % 4
      (fs = 3 → exec (.mixCtrlWrite v) s = .next s) ∧
      (fs ≠ 3 → ∃ t, exec (.mixCtrlWrite v) s = .next t ∧ t.flag Fld.MIX_CTRL_EN = v.getLsbD 31 ∧
        (s.flag Fld.MIX_CTRL_EN = true → Frame [] (bits [Fld.MIX_CTRL_EN]) s t) ∧
        (s.flag Fld.MIX_CTRL_EN = false → t.bridged = v.getLsbD 8 ∧ t.get Fld.MIX_CTRL_FS = fs ∧
          t.d2port = v.toNat % 2 ∧ (s.bridged ≠ v.getLsbD 8 ∨ s.get Fld.MIX_CTRL_FS ≠ fs → t.mix.conv = 0 ∧
            (v.getLsbD 8 = false → t.get (Fld.MIX_SCNT_SCNT 1) = 0 ∧ t.get (Fld.MIX_SCNT_SCNT 2) = 0))))) ∧
    (∀ (pins : Vector Int 12) (sdi : Vector (List Bool) 2),
      (s.mixUp = false → ∀ dom, exec (.mixSampleInstant dom pins sdi) s = .next s) ∧
      (s.mixUp = true →
        let d0 : Bool := decide (s.dtime.toNat % (4096 / 2 ^ s.get Fld.MIX_CTRL_FS) = 0) && decide (s.mix.d0Next ≤ s.cyc)
        let ll : Bool := decide (s.dtime.toNat % 512 = 0) && decide (s.mix.llNext ≤ s.cyc)
        exec (.mixSampleInstant .d0 pins sdi) s = .next (if d0 then d0Instant s pins.toList sdi.toList else s) ∧
        exec (.mixSampleInstant .d1 pins sdi) s = .next (if s.d1Due then d1Instant s else s) ∧
        exec (.mixSampleInstant .d2 pins sdi) s = .next (d2Instant s sdi.toList) ∧
        exec (.mixSampleInstant .ll pins sdi) s = .next (if ll then llInstant s pins.toList else s) ∧
        ∀ p, exec (.mixSampleInstant (.frame p) pins sdi) s = .next (portFrame s p))) ∧
    (∀ (srcs : List Int) (k : Fin 20), let t := sinkForms s srcs k
      let sum := sinkSum srcs (s.codesNow k)
      let y := if s.flag Fld.MIX_CTRL_EN then satS 24 sum else 0
      let lv := s.get (Fld.MIX_METER_LEVEL k)
      t.mix.y = s.mix.y.set k y ∧
      ((∀ w ∈ s.mix.was, w.at_ + 4 ≤ s.cyc) → s.codesNow k = s.codes k) ∧
      t.get (Fld.MIX_METER_PEAK k) = max (s.get (Fld.MIX_METER_PEAK k)) (min (y.natAbs / 256) 0x7FFF) ∧
      t.get (Fld.MIX_METER_LEVEL k) = max (min (y.natAbs / 256) 0x7FFF) (lv - lv / 2 ^ s.get Fld.MIX_METCFG_DECAY) ∧
      (s.flag Fld.MIX_CTRL_EN = true → y ≠ sum → t.bitF Fld.MIX_CLIP_CLIP k = true ∧ t.flag Fld.MIX_IRQ_STATUS_CLIP = true)) ∧
    (s.mix.featDue = none → exec .featFrameComplete s = .next s) ∧
    (∀ (tick due : Nat) (ws : List Nat), s.mix.featDue = some (tick, due, ws) →
      (s.mixUp = false ∨ s.cyc < due → exec .featFrameComplete s = .next s) ∧
      (s.mixUp = true → due ≤ s.cyc → ∃ t, exec .featFrameComplete s = .next t ∧ t.mix = { s.mix with featDue := none } ∧
        t.wide Reg.MIX_FEATSEQ_LO = tick % 2 ^ 48 ∧ t.flag Fld.MIX_IRQ_STATUS_FEAT = true ∧
        (∀ i < 64, i < ws.length → t.get (Fld.MIX_FEATBUF_WORD i) = ws.getD i 0 % 2 ^ 16) ∧
        (ws.length ≤ 64 → Frame [.mix, .msix] (orBits pba (orBits (bits [Fld.MIX_IRQ_STATUS_FEAT])
          (words (Reg.MIX_FEATSEQ_LO :: Reg.MIX_FEATSEQ_HI :: (List.range 64).map Reg.MIX_FEATBUF)))) s t))) ∧
    (∀ c : MixConv,
      let locks : Bool := s.mixUp && match c with
        | .bridge d i => decide (s.brSrc d i ≠ 0xFF) && (decide (d.val < 2) || (!s.flag Fld.MIX_STATUS_D2_FROZEN && s.spLive s.d2port))
        | .usbIn => !s.bridged && decide (s.get Fld.USB_STATUS_ALT_PLAY ≠ 0)
        | .usbOut => !s.bridged && decide (s.get Fld.USB_STATUS_ALT_REC ≠ 0)
        | .spi p => !s.bridged && !s.spCtl p && s.spLive p
        | .spo p => !s.bridged && !s.spCtl p && s.spLive p
      (locks = false → exec (.bridgeLock c) s = .next s) ∧
      (locks = true → ∃ t, exec (.bridgeLock c) s = .next t ∧ Frame [.mix] (bits [Fld.MIX_STATUS_BRLOCK]) s t ∧ match c with
        | .bridge d i => t.brLocked d i = true
        | .usbIn => bitOf t.mix.conv convUsbIn = true
        | .usbOut => bitOf t.mix.conv convUsbOut = true
        | .spi p => bitOf t.mix.conv (convSpi p) = true
        | .spo p => bitOf t.mix.conv (convSpo p) = true)) ∧
    (∀ v : Word, s.served Reg.MIX_METCLR = true → ∃ t, exec (.mixMetclr v) s = .next t ∧
      (∀ k < 20, t.get (Fld.MIX_METER_PEAK k) = if v.getLsbD k then 0 else s.get (Fld.MIX_METER_PEAK k)) ∧
      Frame [] (bits ((List.range 20).map Fld.MIX_METER_PEAK)) s t) ∧
    (s.served Reg.MIX_CAPDROP_CLR = true → ∃ t, exec .mixCapdropClr s = .next t ∧
      t.reg Reg.MIX_CAPDROP = sget 0 s.seen.sets Reg.MIX_CAPDROP ∧
      t.get Fld.MIX_HOCNT_DROPS = Fld.MIX_HOCNT_DROPS.get (sget 0 s.seen.sets Reg.MIX_HOCNT) ∧
      Frame [] (bits [⟨Reg.MIX_CAPDROP, 31, 0⟩, Fld.MIX_HOCNT_DROPS]) s t)

/-- AUDIO_HANDOFF, SELF_HANDOFF, AUDIO_CAPTURE, AUDIO_PLAYBACK, SP_CFG_WRITE, SP_LOCK, SP_CLK_LOST, SP_GLITCH, SP_RATE_CHANGE,
SP_CNT_CLR (R337, R345 to R351, R353). What `periodOff` takes for agreement is the model's reading (log entry 44). A counter that has
counted in the cycle of the CLR (`seen.sets`) reads 1 after it, any other 0. -/
def Obligations.AudioStreamsAndPorts : Prop :=
  ∀ s : State, s.pwr.hold = .running →
    (∀ i : Fin 64, s.mayStart i 7 = true → let u := s.startAction i
      let done := s.edgeOfs + 8
      let w := if s.flag Fld.MIX_CTRL_EN then (handOff u).event 0x10 else u
      (s.mixUp = false ∨ actDeadline s.plan i < done → exec (.audioHandoff i) s = .next u) ∧
      (s.mixUp = true → done ≤ actDeadline s.plan i →
        exec (.audioHandoff i) s = .next (actionDoneAt { w with gaf := { w.gaf with audioMiss := 0 } } i done))) ∧
    exec .selfHandoff s = .next (if s.mixUp = true ∧ s.flag Fld.MIX_CTRL_EN = true ∧ s.dtime.toNat % 6144 = 0 ∧
      (s.running = false ∨ s.actionsOf 7 = []) then handOff s else s) ∧
    ((handOff s).mix.frames = s.mix.frames.filter (fun f => decide (s.cyc < f.at_ + 16)) ∧ (handOff s).mix.old = 0 ∧
      (handOff s).gaf = s.gaf) ∧
    (∀ (sq : Fin 64) (seq : BitVec 16) (d : Desc), s.takeDispatched sq seq.toNat 0x04 = some d → s.mixUp = true →
      let chs := audioChs d
      (d.pay 32 1 = 0 →
        let bad := chs.findIdx? fun k => s.sinkDom k ≠ s.sinkDom (chs.headD 0)
        (∀ i, bad = some i → exec (.audioCapture sq seq) s = .next (s.complete d stBadDescriptor (36 + i) 0)) ∧
        (bad = none → s.startPassed d = true → exec (.audioCapture sq seq) s = .next (s.complete d stOverrun 0 0)) ∧
        (bad = none → s.startPassed d = false → ∃ u, exec (.audioCapture sq seq) s = .next (capServe u (d.pay 35 1)) ∧
          u.mix = { s.mix with caps := s.mix.caps ++ [⟨d.sq, d.seq, d.pay 35 1, chs, d.pay 33 1, d.pay 62 1, d.pay 48 8, d.pay 44 4,
            d.pay 56 6, false, 0, 0⟩] } ∧ Frame [.mix, .flight] (bits []) s u)) ∧
      (d.pay 32 1 = 1 → ∀ (h : HostRead) (late : List Nat),
        let start := d.pay 56 6
        let size := d.pay 44 4 * d.pay 34 1 * fmtBytes (d.pay 33 1)
        let passed : Prop := s.startPassed d = true ∨ (start ≠ 0 ∧ s.running = true ∧ s.edgeAt start < s.dtime.toNat + 3933)
        let at_ := d.pay 48 8
        (passed → exec (.audioPlayback sq seq h late) s = .next (s.complete d stOverrun 0 0)) ∧
        (¬ passed → d.pay 62 1 = 1 →
          (s.memAnswers at_ size = false → exec (.audioPlayback sq seq h late) s = .next s) ∧
          (s.memAnswers at_ size = true → s.memIn at_ size = false →
            exec (.audioPlayback sq seq h late) s = .next ((s.memRefuse at_).rangeFail d)) ∧
          (s.memAnswers at_ size = true → s.memIn at_ size = true →
            exec (.audioPlayback sq seq h late) s = .next (playBegin s d [] (bytesAt s.mem.ram at_ size)))) ∧
        (¬ passed → d.pay 62 1 ≠ 1 → s.canDma = true → d.episode = false → ∀ l,
          exec (.audioPlayback sq seq (.bytes l) late) s = .next (playBegin s d late (l.take size))))) ∧
    (∀ (d : Desc) (late : List Nat) (data : List Byte), let t := playBegin s d late data
      let follows : Bool := s.mix.plays.any fun p => p.chs.any (audioChs d).contains
      (d.pay 44 4 = 0 → t.mix = s.mix) ∧
      (0 < d.pay 44 4 → Frame [.mix, .flight] (bits []) s t ∧
        t.mix = { s.mix with plays := s.mix.plays ++ [⟨d.sq, d.seq, audioChs d, d.pay 33 1, d.pay 44 4, data, late, d.pay 56 6,
          if follows then 0 else s.cyc + 3933, none, 0, 0⟩] })) ∧
    (∀ (p : Fin 2) (v : Word), s.served (Reg.SP_CFG p) = true →
      (v.getLsbD 31 = true → spRefused s p v = true → ∃ t, exec (.spCfgWrite p v) s = .next t ∧
        t.flag (Fld.SP_STATUS_CFGERR p) = true ∧ Frame [] (bits [Fld.SP_STATUS_CFGERR p]) s t) ∧
      (v.getLsbD 31 = false ∨ spRefused s p v = false → ∀ u, storeWord s (Reg.SP_CFG p) v = some u → ∃ t,
        exec (.spCfgWrite p v) s = .next t ∧ t.reg (Reg.SP_CFG p) = u.reg (Reg.SP_CFG p) ∧
        t.flag (Fld.SP_STATUS_LOCKED p) = false ∧ t.flag (Fld.SP_STATUS_LOST p) = false ∧ t.get (Fld.SP_STATUS_FPER p) = 0 ∧
        Frame [.mix] (words [Reg.SP_CFG p, Reg.SP_STATUS p]) s t)) ∧
    (∀ (p : Fin 2) (periods : Vector (BitVec 16) 8) (n : Nat), let f := periods[7].toNat
      let fper := s.get (Fld.SP_STATUS_FPER p)
      let locks : Bool := s.mixUp && s.flag (Fld.SP_CFG_EN p) && !s.spCtl p && !s.spLive p && decide (1024 ≤ f) && decide (f ≤ 24576) &&
        decide (8 * s.spSlots p * s.spWidth p ≤ f) && periods.toList.all fun x => !periodOff x.toNat f
      let lost : Bool := s.spFaultable p && decide (s.mix.spAt.getD p 0 + 4 * fper + fper / 2 ≤ s.cyc)
      let cut : Bool := s.spFaultable p && decide (n ≠ s.spSlots p * s.spWidth p)
      let off : Bool := s.spFaultable p && periods.toList.all fun x => periodOff x.toNat fper
      (locks = false → exec (.spLock p periods) s = .next s) ∧
      (locks = true → ∃ t, exec (.spLock p periods) s = .next t ∧ t.flag (Fld.SP_STATUS_LOCKED p) = true ∧
        t.flag (Fld.SP_STATUS_LOST p) = false ∧ t.get (Fld.SP_STATUS_FPER p) = f ∧
        t.mix = { s.mix with spAt := s.mix.spAt.set p s.cyc } ∧
        (s.bridged = true → s.d2port = p.val → t.flag Fld.MIX_STATUS_D2_FROZEN = false) ∧
        Frame [.mix] (bits [Fld.SP_STATUS_LOCKED p, Fld.SP_STATUS_LOST p, Fld.SP_STATUS_FPER p, Fld.MIX_STATUS_D2_FROZEN]) s t) ∧
      (lost = false → exec (.spClkLost p) s = .next s) ∧
      (lost = true → ∃ t, exec (.spClkLost p) s = .next t ∧ t.flag (Fld.SP_STATUS_LOST p) = true ∧
        t.bitF Fld.MIX_IRQ_STATUS_SPLOST p = true ∧ t.get (Fld.SP_CNT_LOST p) = min 0xFFFF (s.get (Fld.SP_CNT_LOST p) + 1) ∧
        (s.bridged = true → s.d2port = p.val → t.flag Fld.MIX_STATUS_D2_FROZEN = true)) ∧
      (cut = false → exec (.spGlitch p n) s = .next s) ∧
      (cut = true → ∃ t, exec (.spGlitch p n) s = .next t ∧ t.bitF Fld.MIX_IRQ_STATUS_SPGLITCH p = true ∧
        t.get (Fld.SP_CNT_GLITCH p) = min 0xFFFF (s.get (Fld.SP_CNT_GLITCH p) + 1) ∧
        t.mix = { s.mix with
          spAt := s.mix.spAt.set p s.cyc, sdo := s.mix.sdo.set p [], spCut := s.mix.spCut.set p (some s.cyc) } ∧
        Frame [.mix, .msix] (orBits pba (bits [Fld.SP_CNT_GLITCH p, Fld.MIX_IRQ_STATUS_SPGLITCH])) s t) ∧
      (off = false → exec (.spRateChange p periods) s = .next s) ∧
      (off = true → ∃ t, exec (.spRateChange p periods) s = .next t ∧ t.bitF Fld.MIX_IRQ_STATUS_SPRATE p = true ∧
        t.get (Fld.SP_CNT2_RATE p) = min 0xFFFF (s.get (Fld.SP_CNT2_RATE p) + 1) ∧
        (s.bridged = true → t.get (Fld.SP_STATUS_FPER p) = f) ∧
        (s.bridged = false → t.flag (Fld.SP_STATUS_LOCKED p) = false)) ∧
      (s.served (Reg.SP_CNT p) = true → ∃ t, exec (.spCntClr p) s = .next t ∧ t.reg (Reg.SP_CNT p) = sget 0 s.seen.sets (Reg.SP_CNT p) ∧
        t.reg (Reg.SP_CNT2 p) = sget 0 s.seen.sets (Reg.SP_CNT2 p) ∧ Frame [] (words [Reg.SP_CNT p, Reg.SP_CNT2 p]) s t))

/-- FRAME_START, FRAME_END, CSI_LINE, FRAME_TIMEOUT, VIS_CAP_WRITE, VIS_CNT_CLR, VISION, VISION_ENGINE_DONE (R357 to R365, R372). A
FRAME_TIMEOUT before its time has no effect (log entry 12); a VISION and an engine wait while external memory does not answer (log
entry 16). -/
def Obligations.CameraAndVision : Prop :=
  ∀ s : State, s.pwr.hold = .running →
    (∀ vc : BitVec 2,
      (s.capturing = false ∨ vc.toNat ≠ s.get Fld.VIS_CSI_VC → exec (.frameStart vc) s = .next s ∧ exec (.frameEnd vc) s = .next s) ∧
      (s.capturing = true → vc.toNat = s.get Fld.VIS_CSI_VC →
        exec (.frameStart vc) s =
          .next (frameOpen (if s.vis.cur.isSome then frameEnd (s.incSat Fld.VIS_CNT2_PKTERR) else s)) ∧
        exec (.frameEnd vc) s = .next (if s.vis.cur.isSome then frameEnd s else s.incSat Fld.VIS_CNT2_PKTERR))) ∧
    (let i := s.slotOfFrame s.vis.next
      let t := frameOpen s
      t.vis = { s.vis with next := (s.vis.next + 1) % 2 ^ 32,
                           cur := some ⟨s.vis.next, s.flag (Fld.VIS_SLOT_FLAGS_LOCKED i), 0, 0, s.cyc⟩ } ∧
      t.flag Fld.VIS_CAP_STAT_IN_FRAME = true ∧ t.get Fld.VIS_CAP_STAT_LINES = 0 ∧
      (s.flag (Fld.VIS_SLOT_FLAGS_LOCKED i) = false → t.flag (Fld.VIS_SLOT_FLAGS_VALID i) = false) ∧
      (s.flag (Fld.VIS_SLOT_FLAGS_LOCKED i) = true → t.flag Fld.VIS_IRQ_STATUS_DROP = true ∧
        t.get Fld.VIS_CNT3_DROP = min 0xFFFF (s.get Fld.VIS_CNT3_DROP + 1))) ∧
    (∀ f : CapFrame, s.vis.cur = some f → let i := s.slotOfFrame f.num
      let t := frameEnd s
      let short := f.lines < s.visH
      t.vis = { s.vis with cur := none } ∧ t.get Fld.VIS_FCNT_FCNT = f.num % 2 ^ 32 ∧
      t.flag Fld.VIS_CAP_STAT_IN_FRAME = false ∧ t.flag Fld.VIS_IRQ_STATUS_FRAME_END = true ∧
      (f.dropped = false → t.flag (Fld.VIS_SLOT_FLAGS_VALID i) = true ∧ t.get (Fld.VIS_SLOT_FRAME_FRAME i) = f.num % 2 ^ 32 ∧
        t.get (Fld.VIS_SLOT_FLAGS_FLAGS i) = (if short then orBit f.flags 0 else f.flags) % 32) ∧
      (f.dropped = false → short → t.flag Fld.VIS_IRQ_STATUS_SHORT_FRAME = true ∧
        t.get Fld.VIS_CNT_SHORT = min 0xFFFF (s.get Fld.VIS_CNT_SHORT + 1))) ∧
    (s.capturing = true →
      (∃ t, exec (.csiLine .badHeader) s = .next t ∧ t.flag Fld.VIS_IRQ_STATUS_PKT_ERR = true ∧
        t.get Fld.VIS_CNT2_PKTERR = min 0xFFFF (s.get Fld.VIS_CNT2_PKTERR + 1) ∧
        Frame [.msix] (orBits pba (bits [Fld.VIS_CNT2_PKTERR, Fld.VIS_IRQ_STATUS_PKT_ERR])) s t) ∧
      (∀ (vc : BitVec 2) (dt : BitVec 6) (px : List (BitVec 12)) (ok part busy : Bool),
        let line := exec (.csiLine (.line vc dt px ok part busy)) s
        let ours : Bool := vc.toNat == s.get Fld.VIS_CSI_VC && dt.toNat == visCode (s.get Fld.VIS_CSI_DT)
        let row := px.map fun p => p.toNat % visRange (s.get Fld.VIS_CSI_DT)
        let blank := List.replicate s.visW invPx
        (ours = false ∨ s.vis.cur = none → line = .next (s.incSat Fld.VIS_CNT3_DISCARD)) ∧
        (∀ f : CapFrame, ours = true → s.vis.cur = some f →
          let row1 (u : State) (flags : Nat) (r : List Nat) : State :=
            setFrame (storeRow u f r) (some { f with flags := flags, lines := f.lines + 1 })
          let wrong (bit : Nat) (r : List Nat) : Prop := ∃ u, line = .next (row1 u (orBit f.flags bit) r) ∧
            u.get Fld.VIS_CNT2_LINEERR = min 0xFFFF (s.get Fld.VIS_CNT2_LINEERR + 1) ∧ u.flag Fld.VIS_IRQ_STATUS_LINE_ERR = true ∧
            Frame [.msix] (orBits pba (bits [Fld.VIS_CNT2_LINEERR, Fld.VIS_IRQ_STATUS_LINE_ERR])) s u
          (f.dropped = true → line = .next s) ∧
          (f.dropped = false → s.visH ≤ f.lines → bitOf f.flags 1 = true → line = .next s) ∧
          (f.dropped = false → s.visH ≤ f.lines → bitOf f.flags 1 = false → ∃ u, line =
              .next (setFrame u (some { f with flags := orBit f.flags 1 })) ∧
            u.get Fld.VIS_CNT_LONG = min 0xFFFF (s.get Fld.VIS_CNT_LONG + 1) ∧ u.flag Fld.VIS_IRQ_STATUS_LONG_FRAME = true ∧
            Frame [.msix] (orBits pba (bits [Fld.VIS_CNT_LONG, Fld.VIS_IRQ_STATUS_LONG_FRAME])) s u) ∧
          (f.dropped = false → f.lines < s.visH →
            (ok = false → line = .next (row1 (s.incSat Fld.VIS_CNT2_PKTERR) (orBit f.flags 4) blank)) ∧
            (ok = true → busy = true → wrong 2 blank) ∧
            (ok = true → busy = false → s.visW < px.length → wrong 3 (row.take s.visW)) ∧
            (ok = true → busy = false → px.length ≤ s.visW → px.length < s.visW ∨ part = true →
              wrong 2 (row ++ List.replicate (s.visW - px.length) invPx)) ∧
            (ok = true → busy = false → part = false → px.length = s.visW → line = .next (row1 s f.flags row)))))) ∧
    exec .frameTimeout s =
      .next (if s.capturing && s.frameOverdue then frameEnd (s.irqF Fld.VIS_IRQ_STATUS_TIMEOUT) else s) ∧
    (∀ v : Word, s.served Reg.VIS_CAP = true → let slots := v.toNat / 2 ^ 16 % 16
      (slots = 0 → exec (.visCapWrite v) s = .next s) ∧
      (slots ≠ 0 → ∃ t, exec (.visCapWrite v) s = .next t ∧ t.flag Fld.VIS_CAP_EN = v.getLsbD 31 ∧
        t.get Fld.VIS_CAP_FTMO = v.toNat % 2 ^ 16 ∧
        t.get Fld.VIS_CAP_SLOTS = (if s.flag Fld.VIS_CAP_EN then s.get Fld.VIS_CAP_SLOTS else slots) ∧
        t.vis = (if v.getLsbD 31 then (if s.flag Fld.VIS_CAP_EN then s.vis else { s.vis with next := 1 })
          else { s.vis with cur := none }) ∧
        Frame [.vis] (words [Reg.VIS_CAP, Reg.VIS_CAP_SIZE, Reg.VIS_CAP_STAT]) s t)) ∧
    (s.served Reg.VIS_CNT = true → ∃ t, exec .visCntClr s = .next t ∧ (∀ r ∈ [Reg.VIS_CNT, Reg.VIS_CNT2, Reg.VIS_CNT3],
      t.reg r = sget 0 s.seen.sets r) ∧ Frame [] (words [Reg.VIS_CNT, Reg.VIS_CNT2, Reg.VIS_CNT3]) s t) ∧
    (∀ (sq : Fin 64) (seq : BitVec 16) (d : Desc), s.takeDispatched sq seq.toNat 0x05 = some d → s.visUp = true →
      let at_ := d.pay 40 8
      (bitOf (d.pay 34 1) 1 = true → s.canDma = true → d.episode = false →
        ∀ l, exec (.vision sq seq (.bytes l)) s = .next (visBegin s d l)) ∧
      (bitOf (d.pay 34 1) 1 = false → ∀ h,
        (s.memAnswers at_ 256 = false → exec (.vision sq seq h) s = .next s) ∧
        (s.memAnswers at_ 256 = true → s.memIn at_ 256 = false →
          exec (.vision sq seq h) s = .next ((s.memRefuse at_).rangeFail d)) ∧
        (s.memAnswers at_ 256 = true → s.memIn at_ 256 = true →
          exec (.vision sq seq h) s = .next (visBegin s d (bytesAt s.mem.ram at_ 256))))) ∧
    (∀ (d : Desc) (l : List Byte), let blk := slice l 0 256
      let camera := d.pay 32 1 = 0
      let k := d.pay 36 4
      let i := s.slotOfFrame k
      let bad := visBlockBad blk (decide camera) (d.pay 33 1)
      let t := visBegin s d l
      let made (slot : Option Nat) : Prop := t.flag Fld.VIS_CHAIN_BUSY = true ∧ ∃ base pitch flags, t.vis = { s.vis with
          chains := s.vis.chains ++ [⟨d.sq, d.seq, blk, 0, slot, base, pitch, flags, 0, none⟩] } ∧
        (slot = none → base = fieldAt blk 0 8 ∧ pitch = fieldAt blk 12 4) ∧
        (slot ≠ none → base = s.slotAddr i ∧ pitch = rowPitch s.visW ∧ flags = s.get (Fld.VIS_SLOT_FLAGS_FLAGS i))
      (∀ o, bad = some o → t = s.complete d stBadDescriptor (0x100 + o) 0) ∧
      (bad = none → ¬ camera → made none) ∧
      (bad = none → camera →
        (s.get Fld.VIS_FCNT_FCNT < k → t = s.complete d stBadSequence 2 0) ∧
        (k ≤ s.get Fld.VIS_FCNT_FCNT →
          s.flag (Fld.VIS_SLOT_FLAGS_VALID i) = false ∨ s.get (Fld.VIS_SLOT_FRAME_FRAME i) ≠ k →
          t = s.complete d stBadSequence 1 0) ∧
        (k ≤ s.get Fld.VIS_FCNT_FCNT → s.flag (Fld.VIS_SLOT_FLAGS_VALID i) = true → s.get (Fld.VIS_SLOT_FRAME_FRAME i) = k →
          let wide := s.visW < fieldAt blk 16 2 + fieldAt blk 20 2
          let high := s.visH < fieldAt blk 18 2 + fieldAt blk 22 2
          (wide → t = s.complete d stBadDescriptor 0x110 0) ∧
          (¬ wide → high → t = s.complete d stBadDescriptor 0x112 0) ∧
          (¬ wide → ¬ high → made (some i))))) ∧
    (∀ h : HostRead, s.vis.chains = [] ∨ s.visUp = false ∨ s.ready 16 = false → exec (.visionEngineDone h) s = .next s) ∧
    (∀ (h : HostRead) (c : Chain) (rest : List Chain), s.vis.chains = c :: rest → s.visUp = true → s.ready 16 = true →
      (s.findDesc c.sq c.seq = none → exec (.visionEngineDone h) s = .next (visDrop s c)) ∧
      ∀ d, s.findDesc c.sq c.seq = some d →
      let flawed : Bool := (visMemReads d c).any fun e => s.memFlawed e.1 e.2
      let ends (l : List Byte) : Prop := exec (.visionEngineDone h) s = .next (visEngineEnd s d c l)
      (flawed = true → exec (.visionEngineDone h) s = .next s) ∧
      (flawed = false → d.episode = false → visHostRead d c = true → s.canDma = true → ∀ l, h = .bytes l → ends l) ∧
      (flawed = false → d.episode = false → visHostRead d c = false → bitOf (d.pay 34 1) 2 = false ∨ s.canDma = true → ends [])) ∧
    (∀ (c : Chain) (rest : List Chain) (d : Desc) (l : List Byte), s.vis.chains = c :: rest →
      let t := visEngineEnd s d c l
      let c' := (visEngine s d c l).2
      let next := (visEngines d).find? (c.eng < ·)
      (visInRange s d c = false → t = (visDrop s c).rangeFail d) ∧
      (visInRange s d c = true → ∀ st, c.stop = some st → ∃ u : State, t =
        u.complete d st (if st = stTimeout then 0x1000000 + satU 24 d.allow else 0) (visResult d c') ∧
        u.vis.chains = rest.filter (· ≠ c)) ∧
      (visInRange s d c = true → c.stop = none →
        (∀ e, next = some e → t.vis.chains.head? = some { c' with eng := e }) ∧
        (next = none → t.vis.chains = rest.filter (· ≠ c) ∧ t.flag Fld.VIS_IRQ_STATUS_CHAIN_DONE = true ∧
          ∃ u : State, t = ((u.complete d stOK 0 (visResult d c')).irqF Fld.VIS_IRQ_STATUS_CHAIN_DONE).event 0x03)))

/-- USB_CONNECT, USB_DISCONNECT, USB_RWAKE, USB_BUS_RESET, USB_SUSPEND, USB_RESUME, SETUP_PACKET, STATUS_STAGE, SETUP_WAIT,
SETUP_OUT_DATA, ANSWER, USB_CNT_CLR (R375, R378 to R383, R391). That a SETUP of the reserved type 3 stalls and is counted is the
model's choice (log entry 21). -/
def Obligations.UsbControl : Prop :=
  ∀ s : State, s.pwr.hold = .running →
    (∀ v : Word, s.served Reg.USB_CTRL = true →
      (s.flag Fld.USB_CTRL_CONNECT = false →
        (usbRefuse s = true → ∃ t, exec (.usbConnect v) s = .next t ∧ t.flag Fld.USB_STATUS_CFGERR = true ∧
          t.flag Fld.USB_CTRL_CONNECT = false) ∧
        (usbRefuse s = false → ∃ t, exec (.usbConnect v) s = .next t ∧ t.flag Fld.USB_CTRL_CONNECT = true ∧
          t.flag Fld.USB_STATUS_CONNECTED = true ∧ t.flag Fld.USB_STATUS_CFGERR = false)) ∧
      (s.flag Fld.USB_CTRL_CONNECT = true → s.flag Fld.USB_STATUS_CONNECTED = true → ∃ t, exec (.usbDisconnect v) s = .next t ∧
        t.flag Fld.USB_CTRL_CONNECT = false ∧ t.flag Fld.USB_STATUS_CONNECTED = false ∧ t.get Fld.USB_STATUS_ADDRESS = 0 ∧
        t.get Fld.USB_STATUS_CONFIG = 0 ∧ t.get Fld.USB_STATUS_ALT_PLAY = 0 ∧ t.get Fld.USB_STATUS_ALT_REC = 0 ∧
        t.flag Fld.USB_STATUS_SUSPENDED = false ∧ t.get Fld.USB_STATUS_TESTMODE = 0) ∧
      (s.flag Fld.USB_CTRL_CONNECT = true → v.getLsbD 31 = true → ∃ t, exec (.usbRwake v) s = .next t ∧
        t.usb = (if s.flag Fld.USB_STATUS_RWAKE_EN && s.flag Fld.USB_STATUS_SUSPENDED
          then { s.usb with rwake := s.cyc + 393216 } else s.usb) ∧ Frame [.usb] (bits [Fld.USB_CTRL_SELFPWR]) s t)) ∧
    (s.usbUp = true →
      (s.get Fld.USB_STATUS_TESTMODE = 0 → ∀ hs : Bool, ∃ t, exec (.usbBusReset hs) s = .next t ∧ t.usb.ep0 = none ∧
        t.get Fld.USB_STATUS_ADDRESS = 0 ∧ t.get Fld.USB_STATUS_CONFIG = 0 ∧ t.flag Fld.USB_STATUS_SUSPENDED = false ∧
        t.usbHs = (hs && !s.flag Fld.USB_CTRL_FSONLY) ∧ t.flag Fld.USB_IRQ_STATUS_RESET = true) ∧
      (s.flag Fld.USB_STATUS_SUSPENDED = false → ∃ t, exec .usbSuspend s = .next t ∧ t.flag Fld.USB_STATUS_SUSPENDED = true ∧
        t.flag Fld.USB_IRQ_STATUS_SUSPEND = true ∧ t.mix = { s.mix with recNow := [], recPrev := [], usbPlay := [] } ∧
        t.usb = { s.usb with lastSof := none } ∧
        Frame [.mix, .usb, .msix] (orBits pba (bits [Fld.USB_STATUS_SUSPENDED, Fld.USB_IRQ_STATUS_SUSPEND])) s t) ∧
      (s.flag Fld.USB_STATUS_SUSPENDED = true → ∃ t, exec .usbResume s = .next t ∧ t.flag Fld.USB_STATUS_SUSPENDED = false ∧
        t.flag Fld.USB_IRQ_STATUS_RESUME = true ∧
        Frame [.msix] (orBits pba (bits [Fld.USB_STATUS_SUSPENDED, Fld.USB_IRQ_STATUS_RESUME])) s t) ∧
      (∀ x : Vector Byte 8, s.flag Fld.USB_STATUS_SUSPENDED = false → s.get Fld.USB_STATUS_TESTMODE = 0 →
        let l := x.toList
        let type := fieldAt l 0 1 / 32 % 4
        let answered (e : Ep0) (b : Bits) : Prop := ∃ t, exec (.setupPacket x) s = .next t ∧
          t.usb = { s.usb with ep0 := some e } ∧ Frame [.usb] b s t
        (s.usb.req ≠ none → ∃ t, exec (.setupPacket x) s = .next t ∧ t.flag Fld.USB_IRQ_STATUS_CANCEL = true ∧
          t.get Fld.USB_CNT_CANCELS = min 0xFFFF (s.get Fld.USB_CNT_CANCELS + 1)) ∧
        (s.usb.req = none →
          (type = 1 ∨ type = 2 → s.usb.waits = [] → ∃ t, exec (.setupPacket x) s = .next t ∧
            t.usb = { s.usb with ep0 := none, req := some l, inbox := s.usb.inbox ++ [.request] } ∧
            t.get Fld.USB_TAG_TAG = (s.get Fld.USB_TAG_TAG + 1) % 2 ^ 16 ∧ t.flag Fld.USB_TAG_PENDING = true ∧
            Frame [.usb] (words [Reg.USB_TAG]) s t) ∧
          (type = 3 → answered ⟨[], true, none, none, false⟩ (bits [Fld.USB_CNT2_STALLS]) ∧
            ∃ t, exec (.setupPacket x) s = .next t ∧ t.get Fld.USB_CNT2_STALLS = min 0xFFFF (s.get Fld.USB_CNT2_STALLS + 1)) ∧
          (fieldAt l 0 1 = 0x80 → fieldAt l 1 1 = 6 → ∀ e,
            s.dtEntry (fieldAt l 2 2 / 256) (fieldAt l 2 2 % 256) (fieldAt l 4 2) = some e →
            let data := (s.dtBytes e).take (setupLen l)
            answered ⟨data, false, none, none, zlpAfter l data.length⟩ (bits [])) ∧
          (fieldAt l 0 1 = 0 → fieldAt l 1 1 = 5 → fieldAt l 2 2 ≤ 127 →
            answered ⟨[], false, some (fieldAt l 2 2), none, false⟩ (bits [])))) ∧
      (∀ e : Ep0, s.usb.ep0 = some e → ∃ t, exec .statusStage s = .next t ∧
        t.usb = { s.usb with ep0 := none, sent := e.packets } ∧ Frame [.usb] (bits [Fld.USB_STATUS_ADDRESS, Fld.USB_STATUS_TESTMODE]) s t ∧
        (∀ a, e.stall = false → e.addr = some a → t.get Fld.USB_STATUS_ADDRESS = a % 128) ∧
        (∀ k, e.stall = false → e.test = some k → t.get Fld.USB_STATUS_TESTMODE = k % 8) ∧
        (e.stall = true → Frame [.usb] (bits []) s t)) ∧
      (∀ (data : List Byte) (sq seq : Nat) (r : List Byte) (d : Desc), s.usb.taker = some (sq, seq) → s.usb.req = some r →
        s.findDesc sq seq = some d → let l := data.take (setupLen r)
        (d.pay 48 1 = 0 → s.canDma = true → ∃ t, exec (.setupOutData data) s = .next t ∧
          t.usb.taker = none ∧ t.hostMem = writeBytes s.hostMem (d.pay 40 8) l) ∧
        (d.pay 48 1 = 1 → s.ready 16 = false → exec (.setupOutData data) s = .next s) ∧
        (d.pay 48 1 = 1 → s.ready 16 = true → s.memIn (d.pay 40 8) l.length = true → ∃ t, exec (.setupOutData data) s = .next t ∧
          t.usb.taker = none ∧ t.mem = (memWrite s (d.pay 40 8) l).mem))) ∧
    (∀ (sq : Fin 64) (seq : BitVec 16) (h : HostRead) (d : Desc), s.takeDispatched sq seq.toNat 0x0B = some d → s.up 13 = true →
      (d.pay 32 1 = 0 →
        (s.usb.inbox = [] → ∃ t, exec (.setupWait sq seq) s = .next t ∧
          t.usb = { s.usb with waits := s.usb.waits ++ [(d.sq, d.seq)] } ∧ Frame [.usb, .flight] (bits []) s t) ∧
        (∀ n, s.usb.waits = [] → s.usb.inbox = [.notice n] → ∃ t, exec (.setupWait sq seq) s = .next t ∧
          t.usb = { s.usb with inbox := [] }) ∧
        (∀ r, s.usb.waits = [] → s.usb.inbox = [.request] → s.usb.req = some r → setupOutData r = false → ∃ t,
          exec (.setupWait sq seq) s = .next t ∧ t.usb = { s.usb with inbox := [] })) ∧
      (d.pay 32 1 = 1 → let tag := d.pay 34 2
        (s.usb.req = none ∨ tag ≠ s.usbTag → exec (.answer sq seq h) s = .next (s.complete d stControlCancelled tag 0)) ∧
        (∀ r, s.usb.req = some r → tag = s.usbTag → let kind := d.pay 33 1 % 4
          let len := d.pay 36 4
          let at_ := d.pay 40 8
          let takes (l : List Byte) : Prop := ∃ t, exec (.answer sq seq h) s = .next t ∧ t.usb.req = none ∧
            t.usb.ep0 = some ⟨l, decide (kind = 2), none, none, decide (kind = 0) && zlpAfter r l.length⟩ ∧
            t.flag Fld.USB_TAG_PENDING = false
          let data := kind = 0 ∧ setupInData r = true ∧ len ≤ setupLen r
          ((kind = 0 ∧ setupInData r = false) ∨ (kind = 1 ∧ setupInData r = true) →
            exec (.answer sq seq h) s = .next (s.complete d stBadDescriptor 33 0)) ∧
          (kind = 0 → setupInData r = true → setupLen r < len →
            exec (.answer sq seq h) s = .next (s.complete d stBadDescriptor 36 0)) ∧
          (kind = 2 ∨ (kind = 1 ∧ setupInData r = false) → takes []) ∧
          (data → d.pay 48 1 = 0 → s.canDma = true → d.episode = false → ∀ l, h = .bytes l → takes (slice l 0 len)) ∧
          (data → d.pay 48 1 = 1 →
            (s.memAnswers at_ len = false → exec (.answer sq seq h) s = .next s) ∧
            (s.memAnswers at_ len = true → s.memIn at_ len = false →
              exec (.answer sq seq h) s = .next ((s.memRefuse at_).rangeFail d)) ∧
            (s.memAnswers at_ len = true → s.memIn at_ len = true → takes (bytesAt s.mem.ram at_ len)))))) ∧
    (s.served Reg.USB_CNT = true → ∃ t, exec .usbCntClr s = .next t ∧ (∀ r ∈ [Reg.USB_CNT, Reg.USB_CNT2, Reg.USB_CNT3],
      t.reg r = sget 0 s.seen.sets r) ∧ Frame [] (words [Reg.USB_CNT, Reg.USB_CNT2, Reg.USB_CNT3]) s t)

/-- BULK_RX, BULK_TX, BULK_OUT_PACKET, BULK_IN_ACK, ISO_OUT_PACKET, ISO_IN_PACKET, FEEDBACK_POLL, SOF (R384 to R390). V before a port has
seen the starts of frame of 128 microframes is a free value (log entry 3). -/
def Obligations.UsbStreams : Prop :=
  ∀ s : State, s.pwr.hold = .running →
    (∀ (sq : Fin 64) (seq : BitVec 16) (d : Desc), s.takeDispatched sq seq.toNat 0x0B = some d → s.up 13 = true →
      (d.pay 32 1 = 2 → ∃ t, exec (.bulkRx sq seq) s = .next t ∧ t.usb = { s.usb with rx := s.usb.rx ++ [⟨d.sq, d.seq, 0, []⟩] } ∧
        Frame [.usb, .flight] (bits []) s t) ∧
      (d.pay 32 1 = 3 → ∀ h : HostRead, let len := d.pay 36 4
        let at_ := d.pay 40 8
        let joins (l : List Byte) : Prop := ∃ t, exec (.bulkTx sq seq h) s = .next t ∧
          t.usb = { s.usb with tx := s.usb.tx ++ [⟨d.sq, d.seq, 0, l⟩] } ∧ Frame [.usb, .flight] (bits []) s t
        (d.pay 48 1 = 0 → s.canDma = true → d.episode = false → ∀ l, h = .bytes l → joins (slice l 0 len)) ∧
        (d.pay 48 1 = 1 →
          (s.memAnswers at_ len = false → exec (.bulkTx sq seq h) s = .next s) ∧
          (s.memAnswers at_ len = true → s.memIn at_ len = false →
            exec (.bulkTx sq seq h) s = .next ((s.memRefuse at_).rangeFail d)) ∧
          (s.memAnswers at_ len = true → s.memIn at_ len = true → joins (bytesAt s.mem.ram at_ len))))) ∧
    (∀ data : List Byte,
      (s.usb.rx = [] → exec (.bulkOutPacket data) s = .next s) ∧
      (∀ b rest d, s.usb.rx = b :: rest → s.bulkUp = true → s.usb.haltOut = false → data.length ≤ s.ep3Max →
        s.findDesc b.sq b.seq = some d →
        let l := data.take (d.pay 36 4 - b.moved)
        let at_ := d.pay 40 8 + b.moved
        let n := b.moved + l.length
        let done := n = d.pay 36 4 ∨ data.length < s.ep3Max
        let moved (p : State → Prop) : Prop := ∃ t, exec (.bulkOutPacket data) s = .next t ∧ p t ∧
          t.usb = { s.usb with togOut := !s.usb.togOut, rx := if done then rest else { b with moved := n } :: rest } ∧
          (done → ∃ (u : State) (e : Desc), t = u.complete e stOK 0 n)
        (d.pay 48 1 = 0 → s.canDma = true → moved fun t => t.hostMem = writeBytes s.hostMem at_ l) ∧
        (d.pay 48 1 = 1 → s.ready 16 = false → exec (.bulkOutPacket data) s = .next s) ∧
        (d.pay 48 1 = 1 → s.ready 16 = true → s.memIn at_ l.length = true → moved fun t => t.mem = (memWrite s at_ l).mem))) ∧
    (∀ b rest d, s.usb.tx = b :: rest → s.bulkUp = true → s.usb.haltIn = false → s.findDesc b.sq b.seq = some d →
      let len := d.pay 36 4
      let n := min s.ep3Max (len - b.moved)
      let zlp : Bool := bitOf (d.pay 33 1) 0 && decide (len % s.ep3Max = 0)
      let done := b.moved + n = len ∧ (zlp = false ∨ n = 0)
      ∃ t, exec .bulkInAck s = .next t ∧ t.usb = { s.usb with
          togIn := !s.usb.togIn
          sent := [slice b.data b.moved n]
          tx := if done then rest else { b with moved := b.moved + n } :: rest } ∧
        (done → ∃ u : State, t = u.complete d stOK 0 len)) ∧
    (s.isoUp = true →
      (s.get Fld.USB_STATUS_ALT_PLAY ≠ 0 → let alt := s.get Fld.USB_STATUS_ALT_PLAY
        let nch := min 4 (s.get (Fld.USB_ALTFMT_NCH (alt - 1)))
        let sub := s.get (Fld.USB_ALTFMT_SUBSLOT (alt - 1))
        (∀ p : Option (List Byte), (∀ l, p = some l → nch = 0 ∨ l.length % (nch * (sub + 2)) ≠ 0) →
          ∃ t, exec (.isoOutPacket p) s = .next t ∧ t.get Fld.USB_CNT_ISOERR = min 0xFFFF (s.get Fld.USB_CNT_ISOERR + 1) ∧
          t.flag Fld.USB_IRQ_STATUS_ISOERR = true ∧
          Frame [.msix] (orBits pba (bits [Fld.USB_CNT_ISOERR, Fld.USB_IRQ_STATUS_ISOERR])) s t) ∧
        (∀ l : List Byte, 0 < nch → l.length % (nch * (sub + 2)) = 0 → ∃ t, exec (.isoOutPacket (some l)) s = .next t ∧
          t.mix = { s.mix with usbPlay := s.mix.usbPlay ++ isoFrames nch sub l } ∧ Frame [.mix] (bits []) s t)) ∧
      (s.get Fld.USB_STATUS_ALT_REC ≠ 0 → let alt := s.get Fld.USB_STATUS_ALT_REC
        let word (f : List Int) (c : Nat) : List Byte := subEncode (s.get (Fld.USB_ALTFMT_SUBSLOT (alt + 2))) (f.getD c 0)
        let frame (f : List Int) : List Byte := ((List.range (s.get (Fld.USB_ALTFMT_NCH (alt + 2)))).map (word f)).flatten
        ∃ t, exec .isoInPacket s = .next t ∧ t.mix = { s.mix with recPrev := [] } ∧
          t.usb = { s.usb with sent := [(s.mix.recPrev.map frame).flatten] } ∧ Frame [.usb, .mix] (bits []) s t) ∧
      (∃ t, exec .feedbackPoll s = .next t ∧ t.usb = { s.usb with sent := [leBytes 4 (s.get Fld.USB_FB_V)] } ∧
        Frame [.usb] (bits []) s t)) ∧
    (∀ (frame : BitVec 11) (uframe : BitVec 3), s.usbUp = true → s.flag Fld.USB_STATUS_SUSPENDED = false → ∃ t,
      exec (.sof frame uframe) s = .next t ∧ t.get Fld.USB_FRAME_FRNUM = frame.toNat ∧ t.get Fld.USB_FRAME_UFRAME = uframe.toNat ∧
      t.get Fld.USB_SOFCNT_SOFCNT = (s.get Fld.USB_SOFCNT_SOFCNT + 1) % 2 ^ 32 ∧ t.wide Reg.USB_SOFSTAMP_LO = s.dtime.toNat ∧
      t.usb.lastSof = some s.cyc ∧ t.usb.fs = s.get Fld.USB_UAC_FS ∧ t.mix.recPrev = s.mix.recNow ∧ t.mix.recNow = [] ∧
      (∀ last, s.usb.lastSof = some last → s.sofWindow ≤ s.usb.sofs.length →
        let l := ((s.cyc - last) * uacRate s.usb.fs :: s.usb.sofs).take 128
        t.usb.sofs = l ∧ t.get Fld.USB_FB_V = (512 * (l.take s.sofWindow).sum * 2 + 196608000) / (2 * 196608000) % 2 ^ 32))

/-- TWB_WRITE, TWB_READ, TWB_WRITE_READ, TWB_TRANSFER_START, TWB_TRANSFER_DONE, ARBITRATION_LOST, TWB_TARGET_ADDRESSED,
TWB_TARGET_WRITE, TWB_TARGET_READ, TWB_STRETCH_TIMEOUT, TWB_TREG_WRITE, TWB_TSTAT_CLEAR, TWB_ATT_REQUEST, TWB_ATT_PULSE_DONE,
TWB_ATTN_SEEN, BUS_START, BUS_STOP, TWB_BUS_FREE, BUS_STUCK, TWB_CFG_WRITE, TWB_SCL_WRITE, TWB_CNT_CLR (R396 to R417). The line
levels that a command shows at once are the model's choice (log entry 28), and so is that a command before its time has no effect (log
entry 12). -/
def Obligations.TwoWire : Prop :=
  ∀ (s : State) (p : Fin 2), s.pwr.hold = .running →
    let x := s.twbAt p
    let irq : Field := if p.val = 0 then Fld.TWB_IRQ_STATUS_P0 else Fld.TWB_IRQ_STATUS_P1
    let irqs (fs : List Field) : Bits := orBits pba (bits (irq :: fs))
    let status : Bits := words [Reg.TWB_STATUS p]
    let port (t : State) (y : Twb) : Prop := t.twbAt p = y ∧ ∀ q : Fin 2, q ≠ p → t.twbAt q = s.twbAt q
    let counts (t : State) (f : Field) (n : Nat) : Prop := t.get f = min 0xFFFF (s.get f + n)
    let stopped : Twb := { x with free := false, idleAt := s.cyc, deaf := false }
    (∀ (sq : Fin 64) (seq : BitVec 16) (h : HostRead) (d : Desc), s.takeDispatched sq seq.toNat 0x06 = some d → s.up 14 = true →
      d.pay 32 1 % 2 = p →
      let n := d.pay 36 2
      let at_ := d.pay 40 8
      let queues (r : Host.Outcome State Fault Refusal) : Prop :=
        let joins (l : List Byte) : Prop := ∃ t, r = .next t ∧
          port t { x with queue := x.queue ++ [⟨d.sq, d.seq, l, 0, none⟩] } ∧ Frame [.twb, .flight] (bits []) s t
        (n = 0 → joins []) ∧
        (0 < n → bitOf (d.pay 56 1) 0 = false → s.canDma = true → d.episode = false → ∀ l, h = .bytes l → joins (slice l 0 n)) ∧
        (0 < n → bitOf (d.pay 56 1) 0 = true → (s.memAnswers at_ n = false → r = .next s) ∧
          (s.memAnswers at_ n = true → s.memIn at_ n = false → r = .next ((s.memRefuse at_).rangeFail d)) ∧
          (s.memAnswers at_ n = true → s.memIn at_ n = true → joins (bytesAt s.mem.ram at_ n)))
      (d.pay 34 1 = 0 → queues (exec (.twbWrite sq seq h) s)) ∧
      (d.pay 34 1 = 1 → h = .bytes [] → queues (exec (.twbRead sq seq) s)) ∧
      (d.pay 34 1 = 2 → queues (exec (.twbWriteRead sq seq h) s))) ∧
    (s.twbUp p = true → x.free = true → x.active = false → x.queue ≠ [] → x.pulse = none →
      s.flag (Fld.TWB_TSTAT_ATT_PEND p) = false → s.flag (Fld.TWB_STATUS_STUCK p) = false → ∃ t,
      exec (.twbTransferStart p) s = .next t ∧ port t { x with free := false, active := true } ∧
      t.flag (Fld.TWB_STATUS_CTRL p) = true ∧ t.flag (Fld.TWB_STATUS_BUSY p) = true ∧ Frame [.twb] status s t) ∧
    (∀ q r d, s.twbUp p = true → x.active = true → x.queue = q :: r → s.findDesc q.sq q.seq = some d →
      let w := d.pay 36 2
      let rlen := d.pay 38 2
      let op := d.pay 34 1
      let sent (k : Nat) : List Byte := twbWire d q.data k
      let done (k : Nat) : Twb := { stopped with queue := r, active := false, sent := sent k }
      (q.stop = none →
        (∀ read : List Byte, let l := slice read 0 rlen
          let lp := bitOf (d.pay 56 1) 1
          let t := if bitOf (d.pay 35 1) 0 then lowBits 16 (twbTemp d l) else 0
          (rlen = 0 ∨ (lp = true ∧ s.ready 16 = true ∧ s.memIn (d.pay 48 8) rlen = true) ∨ (lp = false ∧ s.canDma = true) →
            ∃ (u : State) (e : Desc), exec (.twbTransferDone p (.ok read)) s =
                .next (u.complete e stOK 0 (twbResult (w, rlen) q.retries t)) ∧ e.sq = d.sq ∧ e.seq = d.seq ∧
              port u (done (twbBytes d)) ∧
              u.hostMem = (if 0 < rlen ∧ lp = false then writeBytes s.hostMem (d.pay 48 8) l else s.hostMem) ∧
              (rlen = 0 ∨ lp = false → u.mem = s.mem) ∧
              (0 < rlen → lp = true → u.mem = (memWrite s (d.pay 48 8) l).mem) ∧
              (bitOf (d.pay 35 1) 0 = true → d.pay 57 1 % 8 < 6 → u.get (Fld.OBS_TSLOW_T (d.pay 57 1 % 8)) = t ∧
                u.get (Fld.OBS_TSLOW_AGE (d.pay 57 1 % 8)) = 0 ∧
                u.get (Fld.OBS_TSLOW_MAXAGE (d.pay 57 1 % 8)) = s.get (Fld.OBS_TSLOW_MAXAGE (d.pay 57 1 % 8))))) ∧
        (∀ second : Bool, let k := if second then w + 1 else 0
          ∃ u : State, exec (.twbTransferDone p (.nackAddr second)) s = .next (u.complete d stBadSequence
              (if second then 0x101 else 1) (twbResult (if second then (w, 0) else (0, 0)) q.retries 0)) ∧
            port u (done (k + 1)) ∧ counts u (Fld.TWB_CNT_NACK p) 1 ∧
            Frame [.twb] (orBits status (bits [Fld.TWB_CNT_NACK p])) s u) ∧
        (∀ n : BitVec 16,
          (∃ u : State, exec (.twbTransferDone p (.nackData n)) s = .next (u.complete d stBadSequence
              (2 + n.toNat % 256 * 256) (twbResult (twbMoved op w n.toNat) q.retries 0)) ∧
            port u (done (n.toNat + 1)) ∧ counts u (Fld.TWB_CNT_NACK p) 1 ∧
            Frame [.twb] (orBits status (bits [Fld.TWB_CNT_NACK p])) s u) ∧
          ∃ t, exec (.twbTransferDone p (.stopped n)) s = .next t ∧ port t { x with sent := sent n.toNat } ∧
            Frame [.twb] (bits []) s t) ∧
        (∀ (n : BitVec 16) (b : Fin 9) (again : Bool) (a : BitVec 7) (rd : Bool), let own := twbMatch s p a
          let serves : Bool := own && !x.deaf && decide (a.toNat / 4 ≠ 1)
          let kinds : List (TwbLoss × Nat) := [(.data n b, 3 + n.toNat % 256 * 2 ^ 8 + b.val * 2 ^ 16),
            (.cond n again, 4 + n.toNat % 256 * 2 ^ 8 + (if again then 2 ^ 16 else 0)),
            (.addr n b a rd, 5 + n.toNat % 256 * 2 ^ 8 + b.val * 2 ^ 16 + (if own then 2 ^ 20 else 0))]
          ∀ e ∈ kinds,
            let after (t : State) (l : List Xfer) : Prop :=
              (t.twbAt p).queue = l ∧ (t.twbAt p).active = false ∧ counts t (Fld.TWB_CNT_ARBLOST p) 1 ∧ bitOf (t.get irq) 5 = true ∧
              ((t.twbAt p).target = if e.1 = .addr n b a rd ∧ serves = true then (t.twbAt p).target else x.target) ∧
              (e.1 = .addr n b a rd → serves = true → ∃ y, (t.twbAt p).target = some y ∧ y.read = rd) ∧
              Frame [.twb, .msix] (irqs [Fld.TWB_CNT_ARBLOST p, Fld.TWB_STATUS_CTRL p, Fld.TWB_STATUS_TGT p]) s t
            (q.retries < s.get (Fld.TWB_CFG_RETRY p) → ∃ t, exec (.arbitrationLost p e.1) s = .next t ∧
              after t ({ q with retries := q.retries + 1 } :: r)) ∧
            (s.get (Fld.TWB_CFG_RETRY p) ≤ q.retries → ∃ u : State, exec (.arbitrationLost p e.1) s =
              .next (u.complete d stBadSequence e.2 (twbResult (twbMoved op w n.toNat) q.retries 0)) ∧ after u r))) ∧
      (∀ st (n : BitVec 16), q.stop = some st → ∃ u : State, exec (.twbTransferDone p (.stopped n)) s =
        .next (u.complete d st (if st = stTimeout then 0x1000000 + satU 24 d.allow else 0)
          (twbResult (twbMoved op w n.toNat) q.retries 0)) ∧ port u (done n.toNat) ∧ Frame [.twb] status s u)) ∧
    (s.twbUp p = true → x.active = false → ∀ (a : BitVec 7) (rd : Bool),
      let stretch := if rd then s.flag (Fld.TWB_TCFG_RDSYNC p)
        else s.flag (Fld.TWB_TCFG_WRSYNC p) && s.flag (Fld.TWB_TSTAT_WRITTEN p)
      (x.deaf = true → exec (.twbTargetAddressed p a rd) s = .next s) ∧
      (x.deaf = false → a.toNat / 4 = 1 → ∃ t, exec (.twbTargetAddressed p a rd) s = .next t ∧ port t { x with deaf := true } ∧
        Frame [.twb] (bits []) s t) ∧
      (x.deaf = false → a.toNat / 4 ≠ 1 → twbMatch s p a = false → exec (.twbTargetAddressed p a rd) s = .next s) ∧
      (x.deaf = false → a.toNat / 4 ≠ 1 → twbMatch s p a = true → ∃ t, exec (.twbTargetAddressed p a rd) s = .next t ∧
        t.flag (Fld.TWB_STATUS_TGT p) = true ∧ Frame [.twb] (bits [Fld.TWB_STATUS_TGT p]) s t ∧
        port t { x with
          target := some ⟨rd, stretch, if rd && !stretch then some (s.reg (Reg.TWB_TREG p)) else none, s.cyc⟩ })) ∧
    (s.twbUp p = true → ∀ g : Target, x.target = some g →
      (∀ l : List Byte, g.read = false → g.stretch = false → let w := l.take 4
        (l = [] → ∃ t, exec (.twbTargetWrite p l) s = .next t ∧ port t { x with target := none } ∧
          Frame [.twb] (bits [Fld.TWB_STATUS_TGT p]) s t) ∧
        (l ≠ [] → ∃ t, exec (.twbTargetWrite p l) s = .next t ∧ port t { x with target := none, wrote := some (s.cyc, w) } ∧
          t.reg (Reg.TWB_TREG p) = BitVec.ofNat 32 (leNat (w ++ (leBytes 4 (s.reg (Reg.TWB_TREG p)).toNat).drop w.length)) ∧
          t.flag (Fld.TWB_TSTAT_WRITTEN p) = true ∧ t.get (Fld.TWB_TSTAT_WBYTES p) = w.length ∧ bitOf (t.get irq) 0 = true ∧
          counts t (Fld.TWB_CNT3_OVER p) (l.length - 4) ∧ (4 < l.length → bitOf (t.get irq) 6 = true) ∧
          Frame [.twb, .msix] (orBits (irqs [Fld.TWB_STATUS_TGT p, Fld.TWB_TSTAT_WRITTEN p, Fld.TWB_TSTAT_WBYTES p,
            Fld.TWB_CNT3_OVER p]) (words [Reg.TWB_TREG p])) s t)) ∧
      (∀ (n : BitVec 16) w, g.read = true → g.stretch = false → g.snap = some w → let k := n.toNat
        ∃ t, exec (.twbTargetRead p n) s = .next t ∧
          port t { x with target := none, sent := (leBytes 4 w.toNat).take k ++ List.replicate (k - 4) 0xFF } ∧
          t.flag (Fld.TWB_TSTAT_READ p) = true ∧ bitOf (t.get irq) 1 = true ∧ counts t (Fld.TWB_CNT3_OVER p) (k - 4) ∧
          (4 < k → bitOf (t.get irq) 6 = true) ∧
          Frame [.twb, .msix] (irqs [Fld.TWB_STATUS_TGT p, Fld.TWB_TSTAT_READ p, Fld.TWB_CNT3_OVER p]) s t) ∧
      (g.stretch = true → let due := 196608 * s.get (Fld.TWB_TCFG_TSTRETCH p) ≤ 1000 * (s.cyc - g.at_)
        (¬ due → exec (.twbStretchTimeout p) s = .next s) ∧
        (due → ∃ t, exec (.twbStretchTimeout p) s = .next t ∧
          port t { x with target := some ⟨g.read, false, if g.read then some (s.reg (Reg.TWB_TREG p)) else none, s.cyc⟩ } ∧
          counts t (Fld.TWB_CNT3_OVER p) 1 ∧ bitOf (t.get irq) 6 = true ∧
          Frame [.twb, .msix] (irqs [Fld.TWB_STATUS_TGT p, Fld.TWB_CNT3_OVER p]) s t))) ∧
    (∀ v : Word, s.served (Reg.TWB_TREG p) = true →
      let v' := match x.wrote with
        | some (t, l) => if t = s.cyc then twbOverlay l v else v
        | none => v
      ∃ t, exec (.twbTregWrite p v) s = .next t ∧ t.reg (Reg.TWB_TREG p) = v' ∧
        Frame [.twb] (orBits (words [Reg.TWB_TREG p]) (bits [Fld.TWB_STATUS_TGT p])) s t ∧
        (x.target = none → port t x) ∧
        ∀ g, x.target = some g →
          let g' : Target := if g.read && g.stretch then ⟨true, false, some v', s.cyc⟩
            else if g.read && decide (g.at_ = s.cyc) then { g with snap := some v' } else g
          port t { x with target := some g' }) ∧
    (∀ v : Word, s.served (Reg.TWB_TSTAT p) = true →
      let stays : Bool := s.flag (Fld.TWB_TSTAT_WRITTEN p) &&
        (!v.getLsbD 31 || (sget 0 s.seen.sets (Reg.TWB_TSTAT p)).getLsbD 31)
      ∃ t, exec (.twbTstatClear p v) s = .next t ∧ t.flag (Fld.TWB_TSTAT_WRITTEN p) = stays ∧
        Frame [.twb] (bits [Fld.TWB_TSTAT_WRITTEN p, Fld.TWB_TSTAT_READ p, Fld.TWB_STATUS_TGT p]) s t ∧
        (x.target = none → port t x) ∧
        ∀ g, x.target = some g →
          let g' : Target := if !g.read && !stays && g.stretch then ⟨false, false, none, s.cyc⟩ else g
          port t { x with target := some g' }) ∧
    (s.served (Reg.TWB_TCTL p) = true →
      (s.flag (Fld.TWB_TSTAT_ATT_PEND p) = true → exec (.twbAttRequest p) s = .next s) ∧
      (s.flag (Fld.TWB_TSTAT_ATT_PEND p) = false → ∃ t, exec (.twbAttRequest p) s = .next t ∧
        t.flag (Fld.TWB_TSTAT_ATT_PEND p) = true ∧
        (x.free && s.twbUp p → port t { x with free := false, pulse := some s.cyc } ∧
          Frame [.twb] (orBits (bits [Fld.TWB_TSTAT_ATT_PEND p]) status) s t) ∧
        (¬ (x.free && s.twbUp p) → Frame [] (bits [Fld.TWB_TSTAT_ATT_PEND p]) s t))) ∧
    (s.twbUp p = true →
      (∀ k, x.pulse = some k →
        (s.cyc < k + 8 * 197 → exec (.twbAttPulseDone p false) s = .next s) ∧
        (k + 8 * 197 ≤ s.cyc → ∃ t, exec (.twbAttPulseDone p false) s = .next t ∧
          t.flag (Fld.TWB_TSTAT_ATT_PEND p) = false ∧ bitOf (t.get irq) 3 = true ∧ port t { stopped with pulse := none } ∧
          Frame [.twb, .msix] (orBits (irqs [Fld.TWB_TSTAT_ATT_PEND p]) status) s t) ∧
        ∃ t, exec (.twbAttPulseDone p true) s = .next t ∧ port t { x with pulse := none, free := false } ∧
          counts t (Fld.TWB_CNT3_COLLIDE p) 1 ∧ Frame [.twb] (orBits (bits [Fld.TWB_CNT3_COLLIDE p]) status) s t) ∧
      (x.pulse = none → x.active = false → s.flag (Fld.TWB_STATUS_BUSY p) = false → ∀ ns, ∃ t,
        exec (.twbAttnSeen p ns) s = .next t ∧ port t stopped ∧
        (6000 ≤ ns → ns ≤ 10000 → bitOf (t.get irq) 2 = true ∧ counts t (Fld.TWB_CNT2_ATTN p) 1 ∧
          Frame [.twb, .msix] (orBits (irqs [Fld.TWB_CNT2_ATTN p]) status) s t) ∧
        (ns < 6000 ∨ 10000 < ns → Frame [.twb] status s t)) ∧
      (∃ t, exec (.busStart p) s = .next t ∧ t.flag (Fld.TWB_STATUS_BUSY p) = true ∧ port t { x with free := false } ∧
        Frame [.twb] status s t) ∧
      (∃ t, exec (.busStop p) s = .next t ∧ t.flag (Fld.TWB_STATUS_BUSY p) = false ∧ port t stopped ∧ Frame [.twb] status s t) ∧
      (x.active = false → x.pulse = none → let att := s.flag (Fld.TWB_TSTAT_ATT_PEND p)
        (s.mayFree p = false → exec (.twbBusFree p) s = .next s) ∧
        (s.mayFree p = true → ∃ t, exec (.twbBusFree p) s = .next t ∧ t.flag (Fld.TWB_STATUS_BUSY p) = att ∧
          t.flag (Fld.TWB_STATUS_STUCK p) = false ∧ port t { x with free := !att, pulse := if att then some s.cyc else none } ∧
          Frame [.twb] status s t)) ∧
      (∀ (scl : Bool) (n : BitVec 16) (ms : Nat) q r d, x.queue = q :: r → s.findDesc q.sq q.seq = some d →
        (scl = true ∧ x.active = false ∨ ms < s.get (Fld.TWB_CFG_STUCK p) → exec (.busStuck p scl n ms) s = .next s) ∧
        (scl = false ∨ x.active = true → s.get (Fld.TWB_CFG_STUCK p) ≤ ms → ∃ u : State, exec (.busStuck p scl n ms) s =
            .next (u.complete d stBadSequence (if scl then 0x106 else 6)
              (twbResult (if x.active then twbMoved (d.pay 34 1) (d.pay 36 2) n.toNat else (0, 0)) q.retries 0)) ∧
          u.flag (Fld.TWB_STATUS_STUCK p) = true ∧ bitOf (u.get irq) 4 = true ∧ counts u (Fld.TWB_CNT2_STUCK p) 1 ∧
          port u { x with queue := r, active := false, free := false, idleAt := s.cyc } ∧
          Frame [.twb, .msix] (orBits (irqs [Fld.TWB_CNT2_STUCK p]) status) s u))) ∧
    (∀ v : Word, s.served (Reg.TWB_SCL p) = true → let low := (Fld.TWB_SCL_LOW p).get v
      let high := (Fld.TWB_SCL_HIGH p).get v
      let m := twbMins (s.get (Fld.TWB_CFG_MODE p))
      ∃ t, exec (.twbSclWrite p v) s = .next t ∧ t.get (Fld.TWB_SCL_LOW p) = max low m.1 ∧
        t.get (Fld.TWB_SCL_HIGH p) = max high m.2 ∧
        t.flag (Fld.TWB_SCL_CLAMPED p) = (decide (low < m.1) || decide (high < m.2)) ∧ Frame [] (words [Reg.TWB_SCL p]) s t) ∧
    (∀ v : Word, s.served (Reg.TWB_CFG p) = true → v.extractLsb' 24 2 ≠ 3 → v.extractLsb' 8 8 ≠ 0 → ∃ t,
      exec (.twbCfgWrite p v) s = .next t ∧ t.flag (Fld.TWB_CFG_EN p) = v.getLsbD 31 ∧
      t.get (Fld.TWB_CFG_RETRY p) = (v.extractLsb' 16 4).toNat ∧ t.get (Fld.TWB_CFG_MODE p) = (v.extractLsb' 24 2).toNat ∧
      (v.getLsbD 31 = false → s.flag (Fld.TWB_CFG_EN p) = true → t.flag (Fld.TWB_STATUS_BUSY p) = false ∧
        t.flag (Fld.TWB_STATUS_TGT p) = false ∧ t.flag (Fld.TWB_STATUS_CTRL p) = false ∧
        port t { stopped with target := none, pulse := none, active := false,
                              queue := if x.active then x.queue.tail else x.queue }) ∧
      (v.getLsbD 31 = true → s.flag (Fld.TWB_CFG_EN p) = false → port t { x with free := false, idleAt := s.cyc }) ∧
      (v.getLsbD 31 = s.flag (Fld.TWB_CFG_EN p) → port t x ∧ Frame [] (words [Reg.TWB_CFG p, Reg.TWB_SCL p]) s t)) ∧
    (s.served (Reg.TWB_CNT p) = true → ∃ t, exec (.twbCntClr p) s = .next t ∧
      (∀ r ∈ [Reg.TWB_CNT p, Reg.TWB_CNT2 p, Reg.TWB_CNT3 p], t.reg r = sget 0 s.seen.sets r) ∧
      Frame [] (words [Reg.TWB_CNT p, Reg.TWB_CNT2 p, Reg.TWB_CNT3 p]) s t)

/-- EXCHANGE_START, FRAME_TRANSMIT, SLOT_RECEIVE, SLOT_RETURN, JOIN_RECEIVE, PEER_LINK_LOST, RX_LOSS, RX_LOCK, SLEEP_PROPOSE,
RELEASE, VXL_WAKE, WAKE_PIN_LOW, VXL_CNT_CLR (R420 to R438). The cycles that a request holds WAKE low, and from which a low WAKE
counts, are the model's rounding, and that a frame does not leave before its time is its choice (log entry 12). -/
def Obligations.VexiqFrames : Prop :=
  ∀ s : State, s.pwr.hold = .running →
    let x := s.vxl
    let counts (t : State) (f : Field) : Prop := t.get f = min 0xFFFF (s.get f + 1)
    let queued (k : Nat) (f : List Byte) : List (Nat × List Byte) :=
      x.tx.filter (fun e => decide (e.1 ≤ k)) ++ (k, f) :: x.tx.filter (fun e => decide (k < e.1))
    let crc : Bits := orBits pba (bits [Fld.VXL_CNT_CRCERR, Fld.VXL_IRQ_STATUS_CRC_ERR])
    let failed (t : State) : Prop := counts t Fld.VXL_CNT_CRCERR ∧ t.flag Fld.VXL_IRQ_STATUS_CRC_ERR = true
    let woken : Option Proposal := x.prop.map fun q => if q.tick.isSome then { q with wake := true } else q
    (∀ i : Fin 64, s.mayStart i 6 = true → let f := (s.startAction i).slotFrame 0
      ∃ t, exec (.exchangeStart i) s = .next t ∧
        t.vxl = { x with own := some f, ownSent := false, retx := 0, tx := queued s.cyc (withCrc f) } ∧
        t.gaf = { s.gaf with started := i :: s.gaf.started } ∧ t.mix = { s.mix with casc := [] } ∧
        fieldAt f 0 1 = 2 ∧ fieldAt f 1 1 = s.cascId ∧ fieldAt f 4 6 = s.tickno % 2 ^ 48 ∧
        Frame [.gaf, .vxl, .mix] (bits []) s t) ∧
    (∀ k f r, x.tx = (k, f) :: r → let ends := max k x.free + linkCycles f.length
      let on : Bool := s.up 15 && s.flag Fld.PWR_PLL_VXLTX
      (on = false ∨ s.cyc < ends → exec .frameTransmit s = .next s) ∧
      (on = true → ends ≤ s.cyc → exec .frameTransmit s = .next (exchangeCheck { s with vxl := { x with
        tx := r
        free := ends
        sent := f
        ownSent := x.ownSent || (decide (fieldAt f 0 1 = 2) && decide (fieldAt f 1 1 % 8 = s.cascId)) } }))) ∧
    (exchangeCheck s = match s.actionsOf 6 with
      | [] => s
      | i :: _ => if x.ownSent = true ∧ ∀ d ∈ s.partners, bitOf x.got d = true ∨ s.get (Fld.VXL_PEER_STATE d) = 2 then actionDone s i
        else s) ∧
    (∀ f : List Byte, s.up 15 = true → s.linkOn = true → let d := fieldAt f 1 1 % 8
      let q := queued (s.cyc - linkCycles f.length + 24) f
      let n := fieldAt f 4 6
      (d ≠ s.cascId →
        (frameOk f = false → x.prop = none → ∃ t, exec (.slotReceive f) s = .next t ∧ t.vxl = { x with tx := q } ∧ failed t ∧
          Frame [.vxl, .msix] crc s t) ∧
        (frameOk f = true → bitOf s.present d = false → exec (.slotReceive f) s = .next { s with vxl := { x with tx := q } }) ∧
        (frameOk f = true → bitOf s.present d = true → ∀ old, x.peers[d]? = some old →
          (old ≠ [] → fieldAt old 4 6 = n → exec (.slotReceive f) s = .next { s with vxl := { x with tx := q } }) ∧
          (old = [] ∨ fieldAt old 4 6 ≠ n → ∃ t, exec (.slotReceive f) s = .next t ∧ t.vxl.tx = q ∧ t.vxl.peers = x.peers.set d f ∧
            t.vxl.got = (if n = s.tickno then orBit x.got d else x.got) ∧
            t.get (Fld.VXL_PEER_RUNNING d) = fieldAt f 119 1 % 64 ∧ t.flag (Fld.VXL_PEER_STALE d) = decide (n ≠ s.tickno) ∧
            t.flag (Fld.VXL_PEER_LATE d) = (x.overran || decide (n ≠ s.tickno)))) ∧
        (frameOk f = false → ∃ t, exec (.joinReceive f) s = .next t ∧ t.vxl = { x with tx := q } ∧ failed t ∧
          Frame [.vxl, .msix] crc s t) ∧
        (frameOk f = true → exec (.joinReceive f) s = .next { s with vxl := { x with
          tx := q
          joins := if s.isMaster && !bitOf s.present d && x.joins.all fun j => decide (j.1 ≠ d) then x.joins ++ [(d, s.tickno)]
            else x.joins } })) ∧
      (frameOk f = true → exec (.slotReturn f) s = .next s) ∧
      (∀ own, frameOk f = false → x.own = some own →
        let again := x.retx < s.get Fld.VXL_CFG_MAXRETX ∧
          s.edgeOfs + linkCycles (own.length + 4) + s.get Fld.VXL_LOOP_LOOP + 17 ≤ s.get Fld.GAF_TICKDIV_TICKDIV
        ∃ t, exec (.slotReturn f) s = .next t ∧ failed t ∧
          (¬ again → Frame [.msix] crc s t) ∧
          (again → counts t Fld.VXL_CNT_RETX ∧ t.flag Fld.VXL_IRQ_STATUS_RETX = true ∧ t.vxl = { x with
            retx := x.retx + 1
            tx := queued s.cyc (withCrc (own.set 1 (BitVec.ofNat 8 (s.cascId + 16 * (x.retx + 1))))) }))) ∧
    (∀ d : Fin 8, s.linkOn = true → bitOf s.present d = true → d.val ≠ s.cascId → s.get (Fld.VXL_PEER_STATE d) ≠ 2 →
      (s.get (Fld.VXL_PEER_MISS d) < s.get Fld.VXL_CFG_MISSLIM → exec (.peerLinkLost d) s = .next s) ∧
      (s.get Fld.VXL_CFG_MISSLIM ≤ s.get (Fld.VXL_PEER_MISS d) → ∃ t, exec (.peerLinkLost d) s = .next t ∧
        t.get (Fld.VXL_PEER_STATE d) = 2 ∧ t.flag Fld.VXL_IRQ_STATUS_PEER_LOST = true ∧ counts t Fld.VXL_CNT2_LOST)) ∧
    (s.up 15 = true →
      (∃ t, exec .rxLoss s = .next t ∧ t.flag Fld.VXL_STATUS_RXLOCK = false ∧ t.flag Fld.VXL_IRQ_STATUS_RX_LOSS = true ∧
        Frame [.msix] (orBits pba (bits [Fld.VXL_STATUS_RXLOCK, Fld.VXL_IRQ_STATUS_RX_LOSS])) s t) ∧
      (∃ t, exec .rxLock s = .next t ∧ t.flag Fld.VXL_STATUS_RXLOCK = true ∧ Frame [] (bits [Fld.VXL_STATUS_RXLOCK]) s t)) ∧
    (∀ (sq : Fin 64) (seq : BitVec 16) (d : Desc), s.takeDispatched sq seq.toNat 0x0C = some d → let dev := d.pay 33 1 % 8
      let refused (e : Nat) := Host.Outcome.next (s.complete d stBadSequence e 0)
      let leads : Bool := s.isMaster && s.running
      (d.pay 32 1 = 0 →
        (leads = false → exec (.sleepPropose sq seq) s = refused 1) ∧
        (leads = true → x.prop ≠ none → exec (.sleepPropose sq seq) s = refused 5) ∧
        (leads = true → x.prop = none → s.allStopped = false → exec (.sleepPropose sq seq) s = refused 0x102) ∧
        (leads = true → x.prop = none → s.allStopped = true → ∃ t, exec (.sleepPropose sq seq) s = .next t ∧
          t.vxl = { x with prop := some ⟨d.sq, d.seq, none, 0, 0, 0, false, false⟩ } ∧ Frame [.vxl, .flight] (bits []) s t)) ∧
      (d.pay 32 1 = 1 →
        (leads = false → exec (.release sq seq) s = refused 1) ∧
        (leads = true → bitOf s.present dev = true → exec (.release sq seq) s = refused 4) ∧
        (leads = true → bitOf s.present dev = false → ∃ u : State, exec (.release sq seq) s = .next (u.complete d stOK 0 0) ∧
          bitOf (u.get Fld.VXL_ROSTER_RESERVED) dev = false ∧ u.get (Fld.VXL_PEER_STATE dev) = 0 ∧
          Frame [] (bits [Fld.VXL_ROSTER_RESERVED, Fld.VXL_PEER_STATE dev]) s u))) ∧
    (s.served Reg.VXL_WAKE = true → ∃ t, exec .vxlWake s = .next t ∧
      t.vxl = { x with wakeUntil := max x.wakeUntil (s.cyc + 3933), prop := woken } ∧ t.pwr = { s.pwr with wake := true } ∧
      Frame [.vxl, .pwr] (bits []) s t) ∧
    (∀ low more : BitVec 32, ∃ t, exec (.wakePinLow low more) s = .next t ∧
      t.vxl = { x with wakeUntil := max x.wakeUntil (s.cyc + more.toNat), prop := woken } ∧
      (197 ≤ low.toNat → t.flag Fld.VXL_STATUS_WAKE_LATCH = true ∧ t.pwr = { s.pwr with wake := true } ∧
        Frame [.vxl, .pwr] (bits [Fld.VXL_STATUS_WAKE_LATCH]) s t) ∧
      (low.toNat < 197 → Frame [.vxl] (bits []) s t)) ∧
    (s.served Reg.VXL_CNT_CLR = true → ∃ t, exec .vxlCntClr s = .next t ∧
      (∀ r ∈ [Reg.VXL_CNT, Reg.VXL_CNT2, Reg.VXL_CNT3], t.reg r = sget 0 s.seen.sets r) ∧
      Frame [] (words [Reg.VXL_CNT, Reg.VXL_CNT2, Reg.VXL_CNT3]) s t)

/-- BEACON_RECEIVE, BEACON_MISSED, ACQUIRE_TIMEOUT, SLEEP_WAKE, KEPT_TICK_EDGE (R422 to R424, R431, R437 to R441, R468). Times rounded to
TCLK cycles, and no effect before its time, are the model's choice (log entries 12 and 22). -/
def Obligations.BeaconsAndWake : Prop :=
  ∀ s : State, s.pwr.hold = .running →
    let x := s.vxl
    let tdiv := s.get Fld.GAF_TICKDIV_TICKDIV
    let counts (t : State) (f : Field) : Prop := t.get f = min 0xFFFF (s.get f + 1)
    let lost (t : State) : Prop := t.linkState = 1 ∧ t.vxl.acqAt = s.cyc ∧ t.running = false ∧ t.flag Fld.GAF_STATUS_LOCKED = false ∧
      t.flag Fld.VXL_IRQ_STATUS_BEACON_LOST = true ∧ counts t Fld.VXL_CNT3_BLOST
    (s.vxlUp = true → ∀ (f : List Byte) (age : BitVec 16),
      let ready := s.cyc - age.toNat + 24
      let passed := (forwardFrame s f age.toNat).vxl
      let crc : Bits := orBits pba (bits [Fld.VXL_CNT_CRCERR, Fld.VXL_IRQ_STATUS_CRC_ERR])
      let failed (t : State) : Prop := counts t Fld.VXL_CNT_CRCERR ∧ t.flag Fld.VXL_IRQ_STATUS_CRC_ERR = true
      (s.isSlave = false →
        (frameOk f = true → ∃ t, exec (.beaconReceive f age) s = .next t ∧
          t.get Fld.VXL_LOOP_LOOP = min 0xFFFF (s.edgeOfs - age.toNat) ∧ Frame [] (bits [Fld.VXL_LOOP_LOOP]) s t) ∧
        (frameOk f = false → ∃ t, exec (.beaconReceive f age) s = .next t ∧ failed t ∧ Frame [.msix] crc s t)) ∧
      (s.isSlave = true → s.halted = false →
        let next := s.cyc - age.toNat + fieldAt f 2 2
        let n := fieldAt f 4 6
        let flagged (b : Nat) : Bool := bitOf (fieldAt f 1 1) b
        let member := bitOf (fieldAt f 10 1) s.cascId
        let follows (t : State) : Prop := t.tickno = n ∧ t.present = fieldAt f 10 1 ∧
          t.get Fld.VXL_ROSTER_RESERVED = fieldAt f 11 1 ∧ t.get Fld.VXL_LOOP_LOOP = fieldAt f 18 2 ∧
          t.vxl.pred = next ∧ t.vxl.hold = false ∧
          (flagged 2 = false → t.linkState = (if member then 3 else 2) ∧
            t.vxl.tx = (if member then passed.tx else (queueFrame { s with vxl := passed } ready t.joinFrame).vxl.tx)) ∧
          (flagged 1 = true → flagged 2 = false → flagged 3 = false → t.vxl.commitAt = some (fieldAt f 12 6)) ∧
          (flagged 3 = true → t.flag Fld.VXL_IRQ_STATUS_SLEEP_CANCEL = true) ∧
          (flagged 2 = true → t.vxl.sleeping = true ∧ t.linkState = 4 ∧ t.flag Fld.VXL_IRQ_STATUS_SLEEP_COMMIT = true ∧
            t.pwr.target = some 2)
        (frameOk f = true →
          (s.beaconLocked = false → s.listens (s.cyc - age.toNat) = true → ∃ t, exec (.beaconReceive f age) s = .next t ∧ follows t ∧
            t.flag Fld.GAF_STATUS_LOCKED = true ∧ t.flag Fld.GAF_STATUS_TCLK_SRC = true ∧ t.dtimeOn = true ∧
            (x.sleeping = true → t.flag Fld.VXL_IRQ_STATUS_WAKE = true ∧ (flagged 2 = false → t.vxl.sleeping = false))) ∧
          (s.beaconLocked = false → s.listens (s.cyc - age.toNat) = false → ∃ t, exec (.beaconReceive f age) s = .next t ∧
            t.vxl = passed ∧ t.get Fld.VXL_LOOP_LOOP = fieldAt f 18 2 ∧ Frame [.vxl] (bits [Fld.VXL_LOOP_LOOP]) s t) ∧
          (s.beaconLocked = true → s.running = false ∨ fieldAt f 2 2 = planTickdiv s.plan → ∃ t,
            exec (.beaconReceive f age) s = .next t ∧ follows t ∧ t.vxl.missed = 0 ∧
            (s.running = true → s.tickno ≠ n → counts t Fld.VXL_CNT3_TICKSLIP ∧ t.flag Fld.VXL_IRQ_STATUS_TICKSLIP = true) ∧
            (s.running = false → t.get Fld.VXL_CNT3_TICKSLIP = s.get Fld.VXL_CNT3_TICKSLIP)) ∧
          (s.beaconLocked = true → s.running = true → fieldAt f 2 2 ≠ planTickdiv s.plan → s.batches = [] → ∃ t,
            exec (.beaconReceive f age) s = .next t ∧ lost t ∧ t.flag Fld.VXL_IRQ_STATUS_TDIV_MIS = true)) ∧
        (frameOk f = false →
          (s.beaconLocked = false → ∃ t, exec (.beaconReceive f age) s = .next t ∧ t.vxl = passed ∧ failed t ∧
            Frame [.vxl, .msix] crc s t) ∧
          (s.beaconLocked = true → x.missed < 3 → ∃ t, exec (.beaconReceive f age) s = .next t ∧ failed t ∧
            t.vxl = { x with
              tx := if s.linkState = 2 then (queueFrame { s with vxl := passed } ready s.joinFrame).vxl.tx else passed.tx
              pred := x.pred + tdiv
              missed := x.missed + 1 } ∧
            Frame [.vxl, .msix] crc s t) ∧
          (s.beaconLocked = true → 3 ≤ x.missed → s.batches = [] → ∃ t, exec (.beaconReceive f age) s = .next t ∧ lost t ∧
            failed t)))) ∧
    (s.vxlUp = true → s.beaconLocked = true →
      (s.cyc ≤ x.pred + 4 → exec .beaconMissed s = .next s) ∧
      (x.pred + 4 < s.cyc → x.missed < 3 →
        exec .beaconMissed s = .next { s with vxl := { x with pred := x.pred + tdiv, missed := x.missed + 1 } }) ∧
      (x.pred + 4 < s.cyc → 3 ≤ x.missed → s.batches = [] → ∃ t, exec .beaconMissed s = .next t ∧ lost t)) ∧
    (s.vxlUp = true → s.isSlave = true → s.linkState = 1 →
      (s.cyc < x.acqAt + 4096 * tdiv → exec .acquireTimeout s = .next s) ∧
      (x.acqAt + 4096 * tdiv ≤ s.cyc → ∃ t, exec .acquireTimeout s = .next t ∧ t.linkState = 6 ∧
        t.flag Fld.VXL_IRQ_STATUS_ACQ_FAIL = true ∧
        Frame [.msix] (orBits pba (bits [Fld.VXL_STATUS_STATE, Fld.VXL_IRQ_STATUS_ACQ_FAIL])) s t)) ∧
    (s.pstate = 2 → s.pwr.target = none →
      let may := s.pwr.wake = true ∧ (x.sleeping = true → x.keptFrom + 19661 ≤ s.cyc)
      (may → ∃ t, exec .sleepWake s = .next t ∧ t.flag Fld.PWR_STATUS_BUSY = true ∧
        t.pwr = { s.pwr with target := some (s.get Fld.PWR_STATUS_PREV), wake := false } ∧ t.vxl = { x with wakeAt := s.cyc } ∧
        (s.linkOn = true → t.flag Fld.VXL_STATUS_WAKE_LATCH = true ∧ (s.linkState = 4 → t.linkState = 5)) ∧
        Frame [.pwr, .vxl] (bits [Fld.PWR_STATUS_BUSY, Fld.VXL_STATUS_WAKE_LATCH, Fld.VXL_STATUS_STATE]) s t) ∧
      (¬ may → exec .sleepWake s = .next s)) ∧
    (let k := x.kept + 1
      let due : Bool := x.sleeping && s.running && decide (s.keptEdge k ≤ s.cyc)
      let n := (s.tickno + 1) % 2 ^ 48
      let awake : Bool := s.up 0 && s.pwr.target.isNone && decide (3 ≤ s.pstate)
      let gives : Bool := awake && s.isSlave && s.linkState == 5 && s.windowsOver s.cyc
      let resumes : Bool := awake && !s.isSlave && s.flag Fld.GAF_STATUS_LOCKED && decide (s.keptAfter 0 ≤ k)
      (due = false → exec .keptTickEdge s = .next s) ∧
      (due = true → gives = false → resumes = false → ∃ t, exec .keptTickEdge s = .next t ∧ t.tickno = n ∧
        t.wide Reg.GAF_EDGE_LO = s.dtime.toNat ∧ t.gaf = { s.gaf with started := [], ended := [] } ∧ t.vxl = { x with kept := k } ∧
        Frame [.gaf, .vxl] (words [Reg.GAF_TICKNO_LO, Reg.GAF_TICKNO_HI, Reg.GAF_EDGE_LO, Reg.GAF_EDGE_HI]) s t) ∧
      (due = true → gives = true → ∃ t, exec .keptTickEdge s = .next t ∧ t.tickno = n ∧ t.linkState = 1 ∧
        t.flag Fld.GAF_STATUS_LOCKED = false ∧ t.vxl = { x with kept := k, acqAt := s.cyc }) ∧
      (due = true → resumes = true → x.prop = none → s.batches = [] → ∃ t, exec .keptTickEdge s = .next t ∧
        t.vxl.sleeping = false ∧ t.flag Fld.VXL_IRQ_STATUS_WAKE = true))

/-- SQ_DOORBELL and CQ_DOORBELL of a disabled ring (R80). -/
def Obligations.DisabledRingIgnoresDoorbell : Prop :=
  ∀ (s : State) (n : Fin 64) (v : Word),
    (s.flag (Fld.SQ_CFG_EN n) = false → exec (.sqDoorbell n v) s = .next s) ∧
    (s.flag (Fld.CQ_CFG_EN n) = false → exec (.cqDoorbell n v) s = .next s)

/-- COLD_RESET, SUPPLY_INVALID and COLD_RESET_RELEASE, WARM_RESET and PWR_CTRL_WARM, and PLL_LOCK_ACQUIRED where a warm reset waits
for XTAL (R464). -/
def Obligations.ResetsLeaveRun : Prop :=
  ∀ s : State,
    let inRun (t : State) : Prop := t.pstate = 4 ∧ t.flag Fld.PWR_STATUS_BUSY = false ∧ t.pwr.target = none
    let released (t : State) : Prop := t.pwr.hold = .cold ∧ ∀ (strap : Fin 8) (vin vhold : BitVec 10), t.pwr.supplies = true →
      8300 + 50 * t.get Fld.PWR_VSAG_CODE ≤ 20 * vin.toNat → (t.flag Fld.PWR_STATUS_LEHR_EN = true → 550 ≤ vhold.toNat) →
      ∃ u, exec (.coldResetRelease strap vin vhold) t = .next u ∧ u.pwr.hold = .running ∧ inRun u
    (∀ (c : Instr) (v : Bool), (s.pwr.hold ∈ [Hold.running, .xtal, .off] ∧
          c ∈ [Instr.coldReset .supplies, .coldReset .perst, .supplyInvalid v]) ∨
        (s.pwr.hold = .sagHold ∧ c = .coldReset .sagHold) →
      ∃ t, exec c s = .next t ∧ released t ∧
        ∃ t', exec (.coldReset .supplies) t = .next t' ∧ t'.pwr.supplies = true ∧ released t') ∧
    (s.pwr.hold = .running →
      (∀ c, c ≠ .xtal → ∃ t, exec (.warmReset c) s = .next t ∧ t.pwr.hold = .running ∧ inRun t) ∧
      (∃ t, exec (.warmReset .xtal) s = .next t ∧ t.pwr.hold = .xtal ∧
        ∃ u, exec (.pllLockAcquired .xtal) t = .next u ∧ u.pwr.hold = .running ∧ inRun u) ∧
      (s.served Reg.PWR_CTRL = true → ∃ t, exec .pwrCtrlWarm s = .next t ∧ t.pwr.hold = .running ∧ inRun t))
end

