-- ==== Sys2Proof/Laws/Store.lean ====
section
/-!
SUPPORT. Sparse stores, bits and fields: what a read gives after a write, and the canonical form.
-/
set_option Elab.async false

namespace Sys2Proof.Laws
open Sys2Proof Sys2Proof.Machine

variable {α : Type}

/-- Dropping the pairs up to `k` hides none of a later index. -/
theorem sget_dropWhile (d : α) (k j : Nat) (h : k < j) :
    ∀ l : Store α, sget d (l.dropWhile fun e => decide (e.1 ≤ k)) j = sget d l j
  | [] => rfl
  | (i, v) :: r => by
    by_cases hi : i ≤ k
    · have h1 : ¬ i = j := by omega
      have h2 : ¬ j < i := by omega
      simp [List.dropWhile, hi, sget, h1, h2, sget_dropWhile d k j h r]
    · simp [List.dropWhile, hi]

/-- After dropping the pairs up to `k`, index `k` and those below read as unlisted. -/
theorem sget_dropWhile_le (d : α) (k j : Nat) (h : j ≤ k) :
    ∀ l : Store α, sget d (l.dropWhile fun e => decide (e.1 ≤ k)) j = d
  | [] => rfl
  | (i, v) :: r => by
    by_cases hi : i ≤ k
    · simp [List.dropWhile, hi, sget_dropWhile_le d k j h r]
    · have h1 : ¬ i = j := by omega
      have h2 : j < i := by omega
      simp [List.dropWhile, hi, sget, h1, h2]

/-- A read of the index just written gives what was written. -/
@[simp] theorem sget_sset_same [DecidableEq α] (d v : α) (k : Nat) :
    ∀ l : Store α, sget d (sset d l k v) k = v
  | [] => by by_cases h : v = d <;> simp [sset, sget, h]
  | (j, w) :: r => by
    by_cases hj : j = k
    · by_cases h : v = d
      · simp [sset, hj, h, sget_dropWhile_le]
      · simp [sset, hj, h, sget]
    · by_cases hk : k < j
      · by_cases h : v = d <;> simp [sset, hj, hk, h, sget]
      · simp [sset, hj, hk, sget, sget_sset_same d v k r]

/-- A write leaves every other index as it was. -/
theorem sget_sset_ne [DecidableEq α] (d d' v : α) (k j : Nat) (h : j ≠ k) :
    ∀ l : Store α, sget d' (sset d l k v) j = sget d' l j
  | [] => by by_cases hv : v = d <;> simp [sset, sget, hv, Ne.symm h]
  | (i, w) :: r => by
    have hkj : ¬ k = j := fun e => h e.symm
    by_cases hi : i = k
    · subst hi
      by_cases hv : v = d
      · by_cases hlt : j < i
        · simp [sset, hv, sget, hkj, hlt, sget_dropWhile_le d' i j (Nat.le_of_lt hlt)]
        · have : i < j := by omega
          simp [sset, hv, sget, hkj, hlt, sget_dropWhile d' i j this]
      · simp [sset, hv, sget, hkj]
    · by_cases hk : k < i
      · by_cases hv : v = d
        · simp [sset, hi, hk, hv]
        · by_cases hlt : j < k
          · have h1 : ¬ i = j := by omega
            have h2 : j < i := by omega
            simp [sset, hi, hk, hv, sget, hkj, hlt, h1, h2]
          · simp [sset, hi, hk, hv, sget, hkj, hlt]
      · simp [sset, hi, hk, sget, sget_sset_ne d d' v k j h r]

/-- What lies below the least index of a canonical store reads as unlisted. -/
theorem swf_mono [DecidableEq α] (d : Nat → α) (a b : Nat) (h : a ≤ b) : ∀ l : Store α, swf d b l = true → swf d a l = true
  | [], _ => rfl
  | (j, v) :: r, hl => by
    simp [swf] at hl ⊢
    exact ⟨⟨by omega, hl.1.2⟩, hl.2⟩

theorem swf_dropWhile [DecidableEq α] (d : Nat → α) (k : Nat) :
    ∀ l : Store α, swf d (k + 1) l = true → l.dropWhile (fun e => decide (e.1 ≤ k)) = l
  | [], _ => rfl
  | (j, v) :: r, h => by
    simp [swf] at h
    have : ¬ j ≤ k := by omega
    simp [List.dropWhile, this]

/-- A write keeps the canonical form. -/
theorem swf_sset [DecidableEq α] (d : Nat → α) (k : Nat) (v : α) :
    ∀ (lo : Nat) (l : Store α), lo ≤ k → swf d lo l = true → swf d lo (sset (d k) l k v) = true
  | lo, [], hk, _ => by by_cases hv : v = d k <;> simp [sset, swf, hv, hk]
  | lo, (j, w) :: r, hk, h => by
    simp [swf] at h
    obtain ⟨⟨h1, h2⟩, h3⟩ := h
    by_cases hj : j = k
    · subst hj
      by_cases hv : v = d j
      · simp only [sset, hv, if_true]
        rw [swf_dropWhile d j r h3]
        exact swf_mono d lo (j + 1) (by omega) r h3
      · simp [sset, hv, swf, h1, h3]
    · by_cases hlt : k < j
      · by_cases hv : v = d k
        · simp [sset, hj, hlt, hv, swf, h1, h2, h3]
        · simp [sset, hj, hlt, hv, swf, hk, h2, h3]
      · simp only [sset, hj, hlt, if_false, swf, h1, decide_true, Bool.true_and, Bool.and_eq_true, decide_eq_true_eq]
        refine ⟨by simpa using h2, swf_sset d k v (j + 1) r (by omega) h3⟩

/-- A place just written holds what was written. -/
@[simp] theorem getD_lput_same (d d' x : α) : ∀ (l : List α) (i : Nat), (lput d l i x).getD i d' = x
  | [], 0 => rfl
  | [], n + 1 => by simpa [lput] using getD_lput_same d d' x [] n
  | _ :: _, 0 => rfl
  | _ :: r, n + 1 => by simpa [lput] using getD_lput_same d d' x r n

/-- Every other place holds what it held. -/
theorem getD_lput_ne (d x : α) : ∀ (l : List α) (i j : Nat), j ≠ i → (lput d l i x).getD j d = l.getD j d
  | [], 0, 0, h => absurd rfl h
  | [], 0, j + 1, _ => by simp [lput]
  | [], n + 1, 0, _ => by simp [lput]
  | [], n + 1, j + 1, h => by simpa [lput] using getD_lput_ne d x [] n j (by omega)
  | _ :: _, 0, 0, h => absurd rfl h
  | _ :: _, 0, j + 1, _ => by simp [lput]
  | _ :: _, n + 1, 0, _ => by simp [lput]
  | _ :: r, n + 1, j + 1, h => by simpa [lput] using getD_lput_ne d x r n j (by omega)

end Sys2Proof.Laws
end

