-- ==== Sys2Proof/Laws/Fields.lean ====
section
/-!
SUPPORT. Register words and fields: what a read gives after hardware has set a word or a field.
-/
set_option Elab.async false

namespace Sys2Proof.Laws
open Sys2Proof Sys2Proof.Machine

/-- A number cut at bit `lo` and above a field of `n` bits. -/
theorem split3 (x lo n : Nat) :
    x = x / 2 ^ (lo + n) * 2 ^ (lo + n) + x / 2 ^ lo % 2 ^ n * 2 ^ lo + x % 2 ^ lo := by
  have h1 := Nat.div_add_mod x (2 ^ lo)
  have h2 := Nat.div_add_mod (x / 2 ^ lo) (2 ^ n)
  have h3 : x / 2 ^ lo / 2 ^ n = x / 2 ^ (lo + n) := by rw [Nat.div_div_eq_div_mul, ← pow_add]
  rw [h3] at h2
  calc x = 2 ^ lo * (x / 2 ^ lo) + x % 2 ^ lo := h1.symm
    _ = 2 ^ lo * (2 ^ n * (x / 2 ^ (lo + n)) + x / 2 ^ lo % 2 ^ n) + x % 2 ^ lo := by rw [h2]
    _ = _ := by rw [pow_add]; ring

/-- A word with its field replaced, cut in three. -/
theorem put_toNat (f : Field) (w : Word) (v : Nat) (h1 : f.lo ≤ f.hi) (h2 : f.hi < 32) :
    (f.put w v).toNat =
      w.toNat / 2 ^ (f.hi + 1) * 2 ^ (f.hi + 1) + v % 2 ^ (f.hi + 1 - f.lo) * 2 ^ f.lo + w.toNat % 2 ^ f.lo := by
  obtain ⟨n, hn⟩ : ∃ n, f.hi + 1 = f.lo + n := ⟨f.hi + 1 - f.lo, by omega⟩
  have hn' : f.hi + 1 - f.lo = n := by omega
  have hs := split3 w.toNat f.lo n
  have hv : v % 2 ^ n * 2 ^ f.lo + w.toNat % 2 ^ f.lo < 2 ^ (f.lo + n) := by
    have a : v % 2 ^ n ≤ 2 ^ n - 1 := by have := Nat.mod_lt v (show 0 < 2 ^ n by positivity); omega
    have b := Nat.mod_lt w.toNat (show 0 < 2 ^ f.lo by positivity)
    have c : v % 2 ^ n * 2 ^ f.lo ≤ (2 ^ n - 1) * 2 ^ f.lo := Nat.mul_le_mul_right _ a
    have e : (2 ^ n - 1) * 2 ^ f.lo = 2 ^ (f.lo + n) - 2 ^ f.lo := by
      rw [Nat.sub_mul, one_mul, ← pow_add, Nat.add_comm n]
    have g : 2 ^ f.lo ≤ 2 ^ (f.lo + n) := Nat.pow_le_pow_right (by decide) (by omega)
    omega
  have hw : w.toNat / 2 ^ (f.lo + n) * 2 ^ (f.lo + n) ≤ 2 ^ 32 - 2 ^ (f.lo + n) := by
    have hd : w.toNat / 2 ^ (f.lo + n) ≤ 2 ^ (32 - (f.lo + n)) - 1 := by
      have : w.toNat / 2 ^ (f.lo + n) < 2 ^ (32 - (f.lo + n)) := by
        rw [Nat.div_lt_iff_lt_mul (by positivity), ← pow_add]
        have := w.isLt
        have e : 32 - (f.lo + n) + (f.lo + n) = 32 := by omega
        rw [e]; exact this
      omega
    have := Nat.mul_le_mul_right (2 ^ (f.lo + n)) hd
    rw [Nat.sub_mul, one_mul, ← pow_add] at this
    have e : 32 - (f.lo + n) + (f.lo + n) = 32 := by omega
    rwa [e] at this
  have hp : 2 ^ (f.lo + n) ≤ 2 ^ 32 := Nat.pow_le_pow_right (by decide) (by omega)
  unfold Field.put Field.get bitsOf
  rw [hn', hn, Nat.shiftRight_eq_div_pow]
  simp only [BitVec.toNat_ofNat]
  have hsub : w.toNat - w.toNat / 2 ^ f.lo % 2 ^ n * 2 ^ f.lo
      = w.toNat / 2 ^ (f.lo + n) * 2 ^ (f.lo + n) + w.toNat % 2 ^ f.lo := by omega
  rw [hsub, Nat.mod_eq_of_lt (by omega)]
  omega

/-- A field just set holds the low bits of what it was set to. -/
theorem field_get_put (f : Field) (w : Word) (v : Nat) (h1 : f.lo ≤ f.hi) (h2 : f.hi < 32) :
    f.get (f.put w v) = v % 2 ^ (f.hi + 1 - f.lo) := by
  unfold Field.get bitsOf
  rw [Nat.shiftRight_eq_div_pow, put_toNat f w v h1 h2]
  obtain ⟨n, hn⟩ : ∃ n, f.hi + 1 = f.lo + n := ⟨f.hi + 1 - f.lo, by omega⟩
  have hn' : f.hi + 1 - f.lo = n := by omega
  rw [hn', hn]
  have e : w.toNat / 2 ^ (f.lo + n) * 2 ^ (f.lo + n) + v % 2 ^ n * 2 ^ f.lo + w.toNat % 2 ^ f.lo
      = w.toNat % 2 ^ f.lo + 2 ^ f.lo * (v % 2 ^ n + 2 ^ n * (w.toNat / 2 ^ (f.lo + n))) := by rw [pow_add]; ring
  rw [e, Nat.add_mul_div_left _ _ (by positivity), Nat.div_eq_of_lt (Nat.mod_lt _ (by positivity)), Nat.zero_add,
    Nat.add_mul_mod_self_left, Nat.mod_mod]

/-- Bits that a field does not hold keep their values when it is set. -/
theorem field_get_put_other (f g : Field) (w : Word) (v : Nat) (h1 : f.lo ≤ f.hi) (h2 : f.hi < 32)
    (hg : g.lo ≤ g.hi) (hd : g.hi < f.lo ∨ f.hi < g.lo) : g.get (f.put w v) = g.get w := by
  unfold Field.get bitsOf
  rw [Nat.shiftRight_eq_div_pow, Nat.shiftRight_eq_div_pow, put_toNat f w v h1 h2]
  obtain ⟨n, hn⟩ : ∃ n, f.hi + 1 = f.lo + n := ⟨f.hi + 1 - f.lo, by omega⟩
  have hn' : f.hi + 1 - f.lo = n := by omega
  rw [hn', hn]
  have hs := split3 w.toNat f.lo n
  rcases hd with hd | hd
  · obtain ⟨m, hm⟩ : ∃ m, f.lo = g.lo + (g.hi + 1 - g.lo) + m := ⟨f.lo - (g.hi + 1), by omega⟩
    generalize hq : g.hi + 1 - g.lo = q at *
    have key : ∀ a b : Nat, (a * 2 ^ f.lo + b) / 2 ^ g.lo % 2 ^ q = b / 2 ^ g.lo % 2 ^ q := by
      intro a b
      have : a * 2 ^ f.lo + b = b + 2 ^ g.lo * (2 ^ q * (2 ^ m * a)) := by rw [hm, pow_add, pow_add]; ring
      rw [this, Nat.add_mul_div_left _ _ (by positivity), Nat.add_mul_mod_self_left]
    have e1 : w.toNat / 2 ^ (f.lo + n) * 2 ^ (f.lo + n) + v % 2 ^ n * 2 ^ f.lo + w.toNat % 2 ^ f.lo
        = (w.toNat / 2 ^ (f.lo + n) * 2 ^ n + v % 2 ^ n) * 2 ^ f.lo + w.toNat % 2 ^ f.lo := by rw [pow_add]; ring
    have e2 : w.toNat = w.toNat / 2 ^ f.lo * 2 ^ f.lo + w.toNat % 2 ^ f.lo := by
      have := Nat.div_add_mod w.toNat (2 ^ f.lo); rw [Nat.mul_comm]; exact this.symm
    rw [e1, key]
    conv_rhs => rw [e2]
    rw [key]
  · obtain ⟨m, hm⟩ : ∃ m, g.lo = f.lo + n + m := ⟨g.lo - (f.lo + n), by omega⟩
    have key : ∀ b : Nat, b < 2 ^ (f.lo + n) →
        (w.toNat / 2 ^ (f.lo + n) * 2 ^ (f.lo + n) + b) / 2 ^ g.lo = w.toNat / 2 ^ (f.lo + n) / 2 ^ m := by
      intro b hb
      have e : (2 : Nat) ^ (f.lo + n + m) = 2 ^ (f.lo + n) * 2 ^ m := pow_add _ _ _
      rw [hm, e, ← Nat.div_div_eq_div_mul, Nat.mul_comm (w.toNat / _), Nat.mul_add_div (by positivity),
        Nat.div_eq_of_lt hb, Nat.add_zero]
    have lt : ∀ a : Nat, a < 2 ^ n → a * 2 ^ f.lo + w.toNat % 2 ^ f.lo < 2 ^ (f.lo + n) := by
      intro a ha
      have b := Nat.mod_lt w.toNat (show 0 < 2 ^ f.lo by positivity)
      calc a * 2 ^ f.lo + w.toNat % 2 ^ f.lo < a * 2 ^ f.lo + 2 ^ f.lo := by omega
        _ = (a + 1) * 2 ^ f.lo := by ring
        _ ≤ 2 ^ n * 2 ^ f.lo := Nat.mul_le_mul_right _ ha
        _ = 2 ^ (f.lo + n) := by rw [← pow_add, Nat.add_comm]
    rw [Nat.add_assoc, key _ (lt _ (Nat.mod_lt _ (by positivity)))]
    conv_rhs => rw [hs, Nat.add_assoc, key _ (lt _ (Nat.mod_lt _ (by positivity)))]

@[simp] theorem reg_setReg_same (s : State) (o : Nat) (v : Word) : (s.setReg o v).reg o = v := by
  simp [State.reg, State.setReg]

theorem reg_setReg_ne (s : State) (o p : Nat) (v : Word) (h : p ≠ o) : (s.setReg o v).reg p = s.reg p := by
  simp [State.reg, State.setReg, sget_sset_ne _ _ _ _ _ h]

/-- A field of the machine just set. -/
theorem get_put_same (s : State) (f : Field) (v : Nat) (h1 : f.lo ≤ f.hi) (h2 : f.hi < 32) :
    (s.put f v).get f = v % 2 ^ (f.hi + 1 - f.lo) := by
  simp [State.get, State.put, field_get_put f _ v h1 h2]

/-- A field of another word is left as it was. -/
theorem get_put_word (s : State) (f g : Field) (v : Nat) (h : g.off ≠ f.off) : (s.put f v).get g = s.get g := by
  simp [State.get, State.put, reg_setReg_ne _ _ _ _ h]

/-- Another field of the same word is left as it was. -/
theorem get_put_field (s : State) (f g : Field) (v : Nat) (h0 : g.off = f.off) (h1 : f.lo ≤ f.hi) (h2 : f.hi < 32)
    (hg : g.lo ≤ g.hi) (hd : g.hi < f.lo ∨ f.hi < g.lo) : (s.put f v).get g = s.get g := by
  simp [State.get, State.put, h0, field_get_put_other f g _ v h1 h2 hg hd]

theorem reg_put_ne (s : State) (f : Field) (p v : Nat) (h : p ≠ f.off) : (s.put f v).reg p = s.reg p := by
  simp [State.put, reg_setReg_ne _ _ _ _ h]

end Sys2Proof.Laws
end

