-- ==== Sys2Proof/Laws/State.lean ====
section
/-!
SUPPORT. What each update of the state leaves as it was, field by field.
-/
set_option Elab.async false

namespace Sys2Proof.Laws
open Sys2Proof Sys2Proof.Machine

/-! ### setReg -/

@[simp] theorem setReg_act (s : State) (o : Nat) (v : Word) : (s.setReg o v).act = s.act := rfl
@[simp] theorem setReg_latch (s : State) (o : Nat) (v : Word) : (s.setReg o v).latch = s.latch := rfl
@[simp] theorem setReg_cyc (s : State) (o : Nat) (v : Word) : (s.setReg o v).cyc = s.cyc := rfl
@[simp] theorem setReg_seen (s : State) (o : Nat) (v : Word) : (s.setReg o v).seen = s.seen := rfl
@[simp] theorem setReg_dtime (s : State) (o : Nat) (v : Word) : (s.setReg o v).dtime = s.dtime := rfl
@[simp] theorem setReg_dtimeOn (s : State) (o : Nat) (v : Word) : (s.setReg o v).dtimeOn = s.dtimeOn := rfl
@[simp] theorem setReg_freeCtr (s : State) (o : Nat) (v : Word) : (s.setReg o v).freeCtr = s.freeCtr := rfl
@[simp] theorem setReg_hostMem (s : State) (o : Nat) (v : Word) : (s.setReg o v).hostMem = s.hostMem := rfl
@[simp] theorem setReg_gaf (s : State) (o : Nat) (v : Word) : (s.setReg o v).gaf = s.gaf := rfl
@[simp] theorem setReg_ring (s : State) (o : Nat) (v : Word) : (s.setReg o v).ring = s.ring := rfl
@[simp] theorem setReg_pci (s : State) (o : Nat) (v : Word) : (s.setReg o v).pci = s.pci := rfl
@[simp] theorem setReg_batches (s : State) (o : Nat) (v : Word) : (s.setReg o v).batches = s.batches := rfl
@[simp] theorem setReg_evtCount (s : State) (o : Nat) (v : Word) : (s.setReg o v).evtCount = s.evtCount := rfl
@[simp] theorem setReg_tel (s : State) (o : Nat) (v : Word) : (s.setReg o v).tel = s.tel := rfl
@[simp] theorem setReg_pwr (s : State) (o : Nat) (v : Word) : (s.setReg o v).pwr = s.pwr := rfl
@[simp] theorem setReg_pwm (s : State) (o : Nat) (v : Word) : (s.setReg o v).pwm = s.pwm := rfl
@[simp] theorem setReg_vlv (s : State) (o : Nat) (v : Word) : (s.setReg o v).vlv = s.vlv := rfl
@[simp] theorem setReg_sns (s : State) (o : Nat) (v : Word) : (s.setReg o v).sns = s.sns := rfl
@[simp] theorem setReg_mods (s : State) (o : Nat) (v : Word) : (s.setReg o v).mods = s.mods := rfl
@[simp] theorem setReg_scan (s : State) (o : Nat) (v : Word) : (s.setReg o v).scan = s.scan := rfl
@[simp] theorem setReg_mem (s : State) (o : Nat) (v : Word) : (s.setReg o v).mem = s.mem := rfl
@[simp] theorem setReg_mrv (s : State) (o : Nat) (v : Word) : (s.setReg o v).mrv = s.mrv := rfl
@[simp] theorem setReg_slots (s : State) (o : Nat) (v : Word) : (s.setReg o v).slots = s.slots := rfl
@[simp] theorem setReg_jobs (s : State) (o : Nat) (v : Word) : (s.setReg o v).jobs = s.jobs := rfl
@[simp] theorem setReg_runs (s : State) (o : Nat) (v : Word) : (s.setReg o v).runs = s.runs := rfl
@[simp] theorem setReg_sig (s : State) (o : Nat) (v : Word) : (s.setReg o v).sig = s.sig := rfl
@[simp] theorem setReg_ctl (s : State) (o : Nat) (v : Word) : (s.setReg o v).ctl = s.ctl := rfl
@[simp] theorem setReg_stops (s : State) (o : Nat) (v : Word) : (s.setReg o v).stops = s.stops := rfl
@[simp] theorem setReg_obs (s : State) (o : Nat) (v : Word) : (s.setReg o v).obs = s.obs := rfl
@[simp] theorem setReg_tmr (s : State) (o : Nat) (v : Word) : (s.setReg o v).tmr = s.tmr := rfl
@[simp] theorem setReg_tmrStage (s : State) (o : Nat) (v : Word) : (s.setReg o v).tmrStage = s.tmrStage := rfl
@[simp] theorem setReg_tmrDue (s : State) (o : Nat) (v : Word) : (s.setReg o v).tmrDue = s.tmrDue := rfl
@[simp] theorem setReg_aud (s : State) (o : Nat) (v : Word) : (s.setReg o v).aud = s.aud := rfl
@[simp] theorem setReg_mix (s : State) (o : Nat) (v : Word) : (s.setReg o v).mix = s.mix := rfl
@[simp] theorem setReg_vis (s : State) (o : Nat) (v : Word) : (s.setReg o v).vis = s.vis := rfl
@[simp] theorem setReg_usb (s : State) (o : Nat) (v : Word) : (s.setReg o v).usb = s.usb := rfl
@[simp] theorem setReg_twb (s : State) (o : Nat) (v : Word) : (s.setReg o v).twb = s.twb := rfl
@[simp] theorem setReg_vxl (s : State) (o : Nat) (v : Word) : (s.setReg o v).vxl = s.vxl := rfl
@[simp] theorem setReg_fus (s : State) (o : Nat) (v : Word) : (s.setReg o v).fus = s.fus := rfl
@[simp] theorem setReg_rdata (s : State) (o : Nat) (v : Word) : (s.setReg o v).rdata = s.rdata := rfl
@[simp] theorem setReg_pending (s : State) (o : Nat) (v : Word) : (s.setReg o v).pending = s.pending := rfl
@[simp] theorem setReg_actReg (s : State) (o : Nat) (v : Word) (p : Nat) : (s.setReg o v).actReg p = s.actReg p := rfl

/-! ### setAct -/

@[simp] theorem setAct_regs (s : State) (o : Nat) (v : Word) : (s.setAct o v).regs = s.regs := rfl
@[simp] theorem setAct_latch (s : State) (o : Nat) (v : Word) : (s.setAct o v).latch = s.latch := rfl
@[simp] theorem setAct_cyc (s : State) (o : Nat) (v : Word) : (s.setAct o v).cyc = s.cyc := rfl
@[simp] theorem setAct_seen (s : State) (o : Nat) (v : Word) : (s.setAct o v).seen = s.seen := rfl
@[simp] theorem setAct_dtime (s : State) (o : Nat) (v : Word) : (s.setAct o v).dtime = s.dtime := rfl
@[simp] theorem setAct_dtimeOn (s : State) (o : Nat) (v : Word) : (s.setAct o v).dtimeOn = s.dtimeOn := rfl
@[simp] theorem setAct_freeCtr (s : State) (o : Nat) (v : Word) : (s.setAct o v).freeCtr = s.freeCtr := rfl
@[simp] theorem setAct_hostMem (s : State) (o : Nat) (v : Word) : (s.setAct o v).hostMem = s.hostMem := rfl
@[simp] theorem setAct_gaf (s : State) (o : Nat) (v : Word) : (s.setAct o v).gaf = s.gaf := rfl
@[simp] theorem setAct_ring (s : State) (o : Nat) (v : Word) : (s.setAct o v).ring = s.ring := rfl
@[simp] theorem setAct_pci (s : State) (o : Nat) (v : Word) : (s.setAct o v).pci = s.pci := rfl
@[simp] theorem setAct_batches (s : State) (o : Nat) (v : Word) : (s.setAct o v).batches = s.batches := rfl
@[simp] theorem setAct_evtCount (s : State) (o : Nat) (v : Word) : (s.setAct o v).evtCount = s.evtCount := rfl
@[simp] theorem setAct_tel (s : State) (o : Nat) (v : Word) : (s.setAct o v).tel = s.tel := rfl
@[simp] theorem setAct_pwr (s : State) (o : Nat) (v : Word) : (s.setAct o v).pwr = s.pwr := rfl
@[simp] theorem setAct_pwm (s : State) (o : Nat) (v : Word) : (s.setAct o v).pwm = s.pwm := rfl
@[simp] theorem setAct_vlv (s : State) (o : Nat) (v : Word) : (s.setAct o v).vlv = s.vlv := rfl
@[simp] theorem setAct_sns (s : State) (o : Nat) (v : Word) : (s.setAct o v).sns = s.sns := rfl
@[simp] theorem setAct_mods (s : State) (o : Nat) (v : Word) : (s.setAct o v).mods = s.mods := rfl
@[simp] theorem setAct_scan (s : State) (o : Nat) (v : Word) : (s.setAct o v).scan = s.scan := rfl
@[simp] theorem setAct_mem (s : State) (o : Nat) (v : Word) : (s.setAct o v).mem = s.mem := rfl
@[simp] theorem setAct_mrv (s : State) (o : Nat) (v : Word) : (s.setAct o v).mrv = s.mrv := rfl
@[simp] theorem setAct_slots (s : State) (o : Nat) (v : Word) : (s.setAct o v).slots = s.slots := rfl
@[simp] theorem setAct_jobs (s : State) (o : Nat) (v : Word) : (s.setAct o v).jobs = s.jobs := rfl
@[simp] theorem setAct_runs (s : State) (o : Nat) (v : Word) : (s.setAct o v).runs = s.runs := rfl
@[simp] theorem setAct_sig (s : State) (o : Nat) (v : Word) : (s.setAct o v).sig = s.sig := rfl
@[simp] theorem setAct_ctl (s : State) (o : Nat) (v : Word) : (s.setAct o v).ctl = s.ctl := rfl
@[simp] theorem setAct_stops (s : State) (o : Nat) (v : Word) : (s.setAct o v).stops = s.stops := rfl
@[simp] theorem setAct_obs (s : State) (o : Nat) (v : Word) : (s.setAct o v).obs = s.obs := rfl
@[simp] theorem setAct_tmr (s : State) (o : Nat) (v : Word) : (s.setAct o v).tmr = s.tmr := rfl
@[simp] theorem setAct_tmrStage (s : State) (o : Nat) (v : Word) : (s.setAct o v).tmrStage = s.tmrStage := rfl
@[simp] theorem setAct_tmrDue (s : State) (o : Nat) (v : Word) : (s.setAct o v).tmrDue = s.tmrDue := rfl
@[simp] theorem setAct_aud (s : State) (o : Nat) (v : Word) : (s.setAct o v).aud = s.aud := rfl
@[simp] theorem setAct_mix (s : State) (o : Nat) (v : Word) : (s.setAct o v).mix = s.mix := rfl
@[simp] theorem setAct_vis (s : State) (o : Nat) (v : Word) : (s.setAct o v).vis = s.vis := rfl
@[simp] theorem setAct_usb (s : State) (o : Nat) (v : Word) : (s.setAct o v).usb = s.usb := rfl
@[simp] theorem setAct_twb (s : State) (o : Nat) (v : Word) : (s.setAct o v).twb = s.twb := rfl
@[simp] theorem setAct_vxl (s : State) (o : Nat) (v : Word) : (s.setAct o v).vxl = s.vxl := rfl
@[simp] theorem setAct_fus (s : State) (o : Nat) (v : Word) : (s.setAct o v).fus = s.fus := rfl
@[simp] theorem setAct_rdata (s : State) (o : Nat) (v : Word) : (s.setAct o v).rdata = s.rdata := rfl
@[simp] theorem setAct_pending (s : State) (o : Nat) (v : Word) : (s.setAct o v).pending = s.pending := rfl
@[simp] theorem setAct_reg (s : State) (o : Nat) (v : Word) (p : Nat) : (s.setAct o v).reg p = s.reg p := rfl
@[simp] theorem setAct_get (s : State) (o : Nat) (v : Word) (g : Field) : (s.setAct o v).get g = s.get g := rfl
@[simp] theorem setAct_flag (s : State) (o : Nat) (v : Word) (g : Field) : (s.setAct o v).flag g = s.flag g := rfl

/-! ### loadReg -/

@[simp] theorem loadReg_regs (s : State) (o : Nat) : (s.loadReg o).regs = s.regs := rfl
@[simp] theorem loadReg_latch (s : State) (o : Nat) : (s.loadReg o).latch = s.latch := rfl
@[simp] theorem loadReg_cyc (s : State) (o : Nat) : (s.loadReg o).cyc = s.cyc := rfl
@[simp] theorem loadReg_seen (s : State) (o : Nat) : (s.loadReg o).seen = s.seen := rfl
@[simp] theorem loadReg_dtime (s : State) (o : Nat) : (s.loadReg o).dtime = s.dtime := rfl
@[simp] theorem loadReg_dtimeOn (s : State) (o : Nat) : (s.loadReg o).dtimeOn = s.dtimeOn := rfl
@[simp] theorem loadReg_freeCtr (s : State) (o : Nat) : (s.loadReg o).freeCtr = s.freeCtr := rfl
@[simp] theorem loadReg_hostMem (s : State) (o : Nat) : (s.loadReg o).hostMem = s.hostMem := rfl
@[simp] theorem loadReg_gaf (s : State) (o : Nat) : (s.loadReg o).gaf = s.gaf := rfl
@[simp] theorem loadReg_ring (s : State) (o : Nat) : (s.loadReg o).ring = s.ring := rfl
@[simp] theorem loadReg_pci (s : State) (o : Nat) : (s.loadReg o).pci = s.pci := rfl
@[simp] theorem loadReg_batches (s : State) (o : Nat) : (s.loadReg o).batches = s.batches := rfl
@[simp] theorem loadReg_evtCount (s : State) (o : Nat) : (s.loadReg o).evtCount = s.evtCount := rfl
@[simp] theorem loadReg_tel (s : State) (o : Nat) : (s.loadReg o).tel = s.tel := rfl
@[simp] theorem loadReg_pwr (s : State) (o : Nat) : (s.loadReg o).pwr = s.pwr := rfl
@[simp] theorem loadReg_pwm (s : State) (o : Nat) : (s.loadReg o).pwm = s.pwm := rfl
@[simp] theorem loadReg_vlv (s : State) (o : Nat) : (s.loadReg o).vlv = s.vlv := rfl
@[simp] theorem loadReg_sns (s : State) (o : Nat) : (s.loadReg o).sns = s.sns := rfl
@[simp] theorem loadReg_mods (s : State) (o : Nat) : (s.loadReg o).mods = s.mods := rfl
@[simp] theorem loadReg_scan (s : State) (o : Nat) : (s.loadReg o).scan = s.scan := rfl
@[simp] theorem loadReg_mem (s : State) (o : Nat) : (s.loadReg o).mem = s.mem := rfl
@[simp] theorem loadReg_mrv (s : State) (o : Nat) : (s.loadReg o).mrv = s.mrv := rfl
@[simp] theorem loadReg_slots (s : State) (o : Nat) : (s.loadReg o).slots = s.slots := rfl
@[simp] theorem loadReg_jobs (s : State) (o : Nat) : (s.loadReg o).jobs = s.jobs := rfl
@[simp] theorem loadReg_runs (s : State) (o : Nat) : (s.loadReg o).runs = s.runs := rfl
@[simp] theorem loadReg_sig (s : State) (o : Nat) : (s.loadReg o).sig = s.sig := rfl
@[simp] theorem loadReg_ctl (s : State) (o : Nat) : (s.loadReg o).ctl = s.ctl := rfl
@[simp] theorem loadReg_stops (s : State) (o : Nat) : (s.loadReg o).stops = s.stops := rfl
@[simp] theorem loadReg_obs (s : State) (o : Nat) : (s.loadReg o).obs = s.obs := rfl
@[simp] theorem loadReg_tmr (s : State) (o : Nat) : (s.loadReg o).tmr = s.tmr := rfl
@[simp] theorem loadReg_tmrStage (s : State) (o : Nat) : (s.loadReg o).tmrStage = s.tmrStage := rfl
@[simp] theorem loadReg_tmrDue (s : State) (o : Nat) : (s.loadReg o).tmrDue = s.tmrDue := rfl
@[simp] theorem loadReg_aud (s : State) (o : Nat) : (s.loadReg o).aud = s.aud := rfl
@[simp] theorem loadReg_mix (s : State) (o : Nat) : (s.loadReg o).mix = s.mix := rfl
@[simp] theorem loadReg_vis (s : State) (o : Nat) : (s.loadReg o).vis = s.vis := rfl
@[simp] theorem loadReg_usb (s : State) (o : Nat) : (s.loadReg o).usb = s.usb := rfl
@[simp] theorem loadReg_twb (s : State) (o : Nat) : (s.loadReg o).twb = s.twb := rfl
@[simp] theorem loadReg_vxl (s : State) (o : Nat) : (s.loadReg o).vxl = s.vxl := rfl
@[simp] theorem loadReg_fus (s : State) (o : Nat) : (s.loadReg o).fus = s.fus := rfl
@[simp] theorem loadReg_rdata (s : State) (o : Nat) : (s.loadReg o).rdata = s.rdata := rfl
@[simp] theorem loadReg_pending (s : State) (o : Nat) : (s.loadReg o).pending = s.pending := rfl
@[simp] theorem loadReg_reg (s : State) (o : Nat) (p : Nat) : (s.loadReg o).reg p = s.reg p := rfl
@[simp] theorem loadReg_get (s : State) (o : Nat) (g : Field) : (s.loadReg o).get g = s.get g := rfl
@[simp] theorem loadReg_flag (s : State) (o : Nat) (g : Field) : (s.loadReg o).flag g = s.flag g := rfl

/-! ### put -/

@[simp] theorem put_act (s : State) (f : Field) (v : Nat) : (s.put f v).act = s.act := rfl
@[simp] theorem put_latch (s : State) (f : Field) (v : Nat) : (s.put f v).latch = s.latch := rfl
@[simp] theorem put_cyc (s : State) (f : Field) (v : Nat) : (s.put f v).cyc = s.cyc := rfl
@[simp] theorem put_seen (s : State) (f : Field) (v : Nat) : (s.put f v).seen = s.seen := rfl
@[simp] theorem put_dtime (s : State) (f : Field) (v : Nat) : (s.put f v).dtime = s.dtime := rfl
@[simp] theorem put_dtimeOn (s : State) (f : Field) (v : Nat) : (s.put f v).dtimeOn = s.dtimeOn := rfl
@[simp] theorem put_freeCtr (s : State) (f : Field) (v : Nat) : (s.put f v).freeCtr = s.freeCtr := rfl
@[simp] theorem put_hostMem (s : State) (f : Field) (v : Nat) : (s.put f v).hostMem = s.hostMem := rfl
@[simp] theorem put_gaf (s : State) (f : Field) (v : Nat) : (s.put f v).gaf = s.gaf := rfl
@[simp] theorem put_ring (s : State) (f : Field) (v : Nat) : (s.put f v).ring = s.ring := rfl
@[simp] theorem put_pci (s : State) (f : Field) (v : Nat) : (s.put f v).pci = s.pci := rfl
@[simp] theorem put_batches (s : State) (f : Field) (v : Nat) : (s.put f v).batches = s.batches := rfl
@[simp] theorem put_evtCount (s : State) (f : Field) (v : Nat) : (s.put f v).evtCount = s.evtCount := rfl
@[simp] theorem put_tel (s : State) (f : Field) (v : Nat) : (s.put f v).tel = s.tel := rfl
@[simp] theorem put_pwr (s : State) (f : Field) (v : Nat) : (s.put f v).pwr = s.pwr := rfl
@[simp] theorem put_pwm (s : State) (f : Field) (v : Nat) : (s.put f v).pwm = s.pwm := rfl
@[simp] theorem put_vlv (s : State) (f : Field) (v : Nat) : (s.put f v).vlv = s.vlv := rfl
@[simp] theorem put_sns (s : State) (f : Field) (v : Nat) : (s.put f v).sns = s.sns := rfl
@[simp] theorem put_mods (s : State) (f : Field) (v : Nat) : (s.put f v).mods = s.mods := rfl
@[simp] theorem put_scan (s : State) (f : Field) (v : Nat) : (s.put f v).scan = s.scan := rfl
@[simp] theorem put_mem (s : State) (f : Field) (v : Nat) : (s.put f v).mem = s.mem := rfl
@[simp] theorem put_mrv (s : State) (f : Field) (v : Nat) : (s.put f v).mrv = s.mrv := rfl
@[simp] theorem put_slots (s : State) (f : Field) (v : Nat) : (s.put f v).slots = s.slots := rfl
@[simp] theorem put_jobs (s : State) (f : Field) (v : Nat) : (s.put f v).jobs = s.jobs := rfl
@[simp] theorem put_runs (s : State) (f : Field) (v : Nat) : (s.put f v).runs = s.runs := rfl
@[simp] theorem put_sig (s : State) (f : Field) (v : Nat) : (s.put f v).sig = s.sig := rfl
@[simp] theorem put_ctl (s : State) (f : Field) (v : Nat) : (s.put f v).ctl = s.ctl := rfl
@[simp] theorem put_stops (s : State) (f : Field) (v : Nat) : (s.put f v).stops = s.stops := rfl
@[simp] theorem put_obs (s : State) (f : Field) (v : Nat) : (s.put f v).obs = s.obs := rfl
@[simp] theorem put_tmr (s : State) (f : Field) (v : Nat) : (s.put f v).tmr = s.tmr := rfl
@[simp] theorem put_tmrStage (s : State) (f : Field) (v : Nat) : (s.put f v).tmrStage = s.tmrStage := rfl
@[simp] theorem put_tmrDue (s : State) (f : Field) (v : Nat) : (s.put f v).tmrDue = s.tmrDue := rfl
@[simp] theorem put_aud (s : State) (f : Field) (v : Nat) : (s.put f v).aud = s.aud := rfl
@[simp] theorem put_mix (s : State) (f : Field) (v : Nat) : (s.put f v).mix = s.mix := rfl
@[simp] theorem put_vis (s : State) (f : Field) (v : Nat) : (s.put f v).vis = s.vis := rfl
@[simp] theorem put_usb (s : State) (f : Field) (v : Nat) : (s.put f v).usb = s.usb := rfl
@[simp] theorem put_twb (s : State) (f : Field) (v : Nat) : (s.put f v).twb = s.twb := rfl
@[simp] theorem put_vxl (s : State) (f : Field) (v : Nat) : (s.put f v).vxl = s.vxl := rfl
@[simp] theorem put_fus (s : State) (f : Field) (v : Nat) : (s.put f v).fus = s.fus := rfl
@[simp] theorem put_rdata (s : State) (f : Field) (v : Nat) : (s.put f v).rdata = s.rdata := rfl
@[simp] theorem put_pending (s : State) (f : Field) (v : Nat) : (s.put f v).pending = s.pending := rfl
@[simp] theorem put_actReg (s : State) (f : Field) (v : Nat) (p : Nat) : (s.put f v).actReg p = s.actReg p := rfl

/-! ### putB -/

@[simp] theorem putB_act (s : State) (f : Field) (b : Bool) : (s.putB f b).act = s.act := rfl
@[simp] theorem putB_latch (s : State) (f : Field) (b : Bool) : (s.putB f b).latch = s.latch := rfl
@[simp] theorem putB_cyc (s : State) (f : Field) (b : Bool) : (s.putB f b).cyc = s.cyc := rfl
@[simp] theorem putB_seen (s : State) (f : Field) (b : Bool) : (s.putB f b).seen = s.seen := rfl
@[simp] theorem putB_dtime (s : State) (f : Field) (b : Bool) : (s.putB f b).dtime = s.dtime := rfl
@[simp] theorem putB_dtimeOn (s : State) (f : Field) (b : Bool) : (s.putB f b).dtimeOn = s.dtimeOn := rfl
@[simp] theorem putB_freeCtr (s : State) (f : Field) (b : Bool) : (s.putB f b).freeCtr = s.freeCtr := rfl
@[simp] theorem putB_hostMem (s : State) (f : Field) (b : Bool) : (s.putB f b).hostMem = s.hostMem := rfl
@[simp] theorem putB_gaf (s : State) (f : Field) (b : Bool) : (s.putB f b).gaf = s.gaf := rfl
@[simp] theorem putB_ring (s : State) (f : Field) (b : Bool) : (s.putB f b).ring = s.ring := rfl
@[simp] theorem putB_pci (s : State) (f : Field) (b : Bool) : (s.putB f b).pci = s.pci := rfl
@[simp] theorem putB_batches (s : State) (f : Field) (b : Bool) : (s.putB f b).batches = s.batches := rfl
@[simp] theorem putB_evtCount (s : State) (f : Field) (b : Bool) : (s.putB f b).evtCount = s.evtCount := rfl
@[simp] theorem putB_tel (s : State) (f : Field) (b : Bool) : (s.putB f b).tel = s.tel := rfl
@[simp] theorem putB_pwr (s : State) (f : Field) (b : Bool) : (s.putB f b).pwr = s.pwr := rfl
@[simp] theorem putB_pwm (s : State) (f : Field) (b : Bool) : (s.putB f b).pwm = s.pwm := rfl
@[simp] theorem putB_vlv (s : State) (f : Field) (b : Bool) : (s.putB f b).vlv = s.vlv := rfl
@[simp] theorem putB_sns (s : State) (f : Field) (b : Bool) : (s.putB f b).sns = s.sns := rfl
@[simp] theorem putB_mods (s : State) (f : Field) (b : Bool) : (s.putB f b).mods = s.mods := rfl
@[simp] theorem putB_scan (s : State) (f : Field) (b : Bool) : (s.putB f b).scan = s.scan := rfl
@[simp] theorem putB_mem (s : State) (f : Field) (b : Bool) : (s.putB f b).mem = s.mem := rfl
@[simp] theorem putB_mrv (s : State) (f : Field) (b : Bool) : (s.putB f b).mrv = s.mrv := rfl
@[simp] theorem putB_slots (s : State) (f : Field) (b : Bool) : (s.putB f b).slots = s.slots := rfl
@[simp] theorem putB_jobs (s : State) (f : Field) (b : Bool) : (s.putB f b).jobs = s.jobs := rfl
@[simp] theorem putB_runs (s : State) (f : Field) (b : Bool) : (s.putB f b).runs = s.runs := rfl
@[simp] theorem putB_sig (s : State) (f : Field) (b : Bool) : (s.putB f b).sig = s.sig := rfl
@[simp] theorem putB_ctl (s : State) (f : Field) (b : Bool) : (s.putB f b).ctl = s.ctl := rfl
@[simp] theorem putB_stops (s : State) (f : Field) (b : Bool) : (s.putB f b).stops = s.stops := rfl
@[simp] theorem putB_obs (s : State) (f : Field) (b : Bool) : (s.putB f b).obs = s.obs := rfl
@[simp] theorem putB_tmr (s : State) (f : Field) (b : Bool) : (s.putB f b).tmr = s.tmr := rfl
@[simp] theorem putB_tmrStage (s : State) (f : Field) (b : Bool) : (s.putB f b).tmrStage = s.tmrStage := rfl
@[simp] theorem putB_tmrDue (s : State) (f : Field) (b : Bool) : (s.putB f b).tmrDue = s.tmrDue := rfl
@[simp] theorem putB_aud (s : State) (f : Field) (b : Bool) : (s.putB f b).aud = s.aud := rfl
@[simp] theorem putB_mix (s : State) (f : Field) (b : Bool) : (s.putB f b).mix = s.mix := rfl
@[simp] theorem putB_vis (s : State) (f : Field) (b : Bool) : (s.putB f b).vis = s.vis := rfl
@[simp] theorem putB_usb (s : State) (f : Field) (b : Bool) : (s.putB f b).usb = s.usb := rfl
@[simp] theorem putB_twb (s : State) (f : Field) (b : Bool) : (s.putB f b).twb = s.twb := rfl
@[simp] theorem putB_vxl (s : State) (f : Field) (b : Bool) : (s.putB f b).vxl = s.vxl := rfl
@[simp] theorem putB_fus (s : State) (f : Field) (b : Bool) : (s.putB f b).fus = s.fus := rfl
@[simp] theorem putB_rdata (s : State) (f : Field) (b : Bool) : (s.putB f b).rdata = s.rdata := rfl
@[simp] theorem putB_pending (s : State) (f : Field) (b : Bool) : (s.putB f b).pending = s.pending := rfl
@[simp] theorem putB_actReg (s : State) (f : Field) (b : Bool) (p : Nat) : (s.putB f b).actReg p = s.actReg p := rfl

/-! ### putBit -/

@[simp] theorem putBit_act (s : State) (f : Field) (i : Nat) (b : Bool) : (s.putBit f i b).act = s.act := rfl
@[simp] theorem putBit_latch (s : State) (f : Field) (i : Nat) (b : Bool) : (s.putBit f i b).latch = s.latch := rfl
@[simp] theorem putBit_cyc (s : State) (f : Field) (i : Nat) (b : Bool) : (s.putBit f i b).cyc = s.cyc := rfl
@[simp] theorem putBit_seen (s : State) (f : Field) (i : Nat) (b : Bool) : (s.putBit f i b).seen = s.seen := rfl
@[simp] theorem putBit_dtime (s : State) (f : Field) (i : Nat) (b : Bool) : (s.putBit f i b).dtime = s.dtime := rfl
@[simp] theorem putBit_dtimeOn (s : State) (f : Field) (i : Nat) (b : Bool) : (s.putBit f i b).dtimeOn = s.dtimeOn := rfl
@[simp] theorem putBit_freeCtr (s : State) (f : Field) (i : Nat) (b : Bool) : (s.putBit f i b).freeCtr = s.freeCtr := rfl
@[simp] theorem putBit_hostMem (s : State) (f : Field) (i : Nat) (b : Bool) : (s.putBit f i b).hostMem = s.hostMem := rfl
@[simp] theorem putBit_gaf (s : State) (f : Field) (i : Nat) (b : Bool) : (s.putBit f i b).gaf = s.gaf := rfl
@[simp] theorem putBit_ring (s : State) (f : Field) (i : Nat) (b : Bool) : (s.putBit f i b).ring = s.ring := rfl
@[simp] theorem putBit_pci (s : State) (f : Field) (i : Nat) (b : Bool) : (s.putBit f i b).pci = s.pci := rfl
@[simp] theorem putBit_batches (s : State) (f : Field) (i : Nat) (b : Bool) : (s.putBit f i b).batches = s.batches := rfl
@[simp] theorem putBit_evtCount (s : State) (f : Field) (i : Nat) (b : Bool) : (s.putBit f i b).evtCount = s.evtCount := rfl
@[simp] theorem putBit_tel (s : State) (f : Field) (i : Nat) (b : Bool) : (s.putBit f i b).tel = s.tel := rfl
@[simp] theorem putBit_pwr (s : State) (f : Field) (i : Nat) (b : Bool) : (s.putBit f i b).pwr = s.pwr := rfl
@[simp] theorem putBit_pwm (s : State) (f : Field) (i : Nat) (b : Bool) : (s.putBit f i b).pwm = s.pwm := rfl
@[simp] theorem putBit_vlv (s : State) (f : Field) (i : Nat) (b : Bool) : (s.putBit f i b).vlv = s.vlv := rfl
@[simp] theorem putBit_sns (s : State) (f : Field) (i : Nat) (b : Bool) : (s.putBit f i b).sns = s.sns := rfl
@[simp] theorem putBit_mods (s : State) (f : Field) (i : Nat) (b : Bool) : (s.putBit f i b).mods = s.mods := rfl
@[simp] theorem putBit_scan (s : State) (f : Field) (i : Nat) (b : Bool) : (s.putBit f i b).scan = s.scan := rfl
@[simp] theorem putBit_mem (s : State) (f : Field) (i : Nat) (b : Bool) : (s.putBit f i b).mem = s.mem := rfl
@[simp] theorem putBit_mrv (s : State) (f : Field) (i : Nat) (b : Bool) : (s.putBit f i b).mrv = s.mrv := rfl
@[simp] theorem putBit_slots (s : State) (f : Field) (i : Nat) (b : Bool) : (s.putBit f i b).slots = s.slots := rfl
@[simp] theorem putBit_jobs (s : State) (f : Field) (i : Nat) (b : Bool) : (s.putBit f i b).jobs = s.jobs := rfl
@[simp] theorem putBit_runs (s : State) (f : Field) (i : Nat) (b : Bool) : (s.putBit f i b).runs = s.runs := rfl
@[simp] theorem putBit_sig (s : State) (f : Field) (i : Nat) (b : Bool) : (s.putBit f i b).sig = s.sig := rfl
@[simp] theorem putBit_ctl (s : State) (f : Field) (i : Nat) (b : Bool) : (s.putBit f i b).ctl = s.ctl := rfl
@[simp] theorem putBit_stops (s : State) (f : Field) (i : Nat) (b : Bool) : (s.putBit f i b).stops = s.stops := rfl
@[simp] theorem putBit_obs (s : State) (f : Field) (i : Nat) (b : Bool) : (s.putBit f i b).obs = s.obs := rfl
@[simp] theorem putBit_tmr (s : State) (f : Field) (i : Nat) (b : Bool) : (s.putBit f i b).tmr = s.tmr := rfl
@[simp] theorem putBit_tmrStage (s : State) (f : Field) (i : Nat) (b : Bool) : (s.putBit f i b).tmrStage = s.tmrStage := rfl
@[simp] theorem putBit_tmrDue (s : State) (f : Field) (i : Nat) (b : Bool) : (s.putBit f i b).tmrDue = s.tmrDue := rfl
@[simp] theorem putBit_aud (s : State) (f : Field) (i : Nat) (b : Bool) : (s.putBit f i b).aud = s.aud := rfl
@[simp] theorem putBit_mix (s : State) (f : Field) (i : Nat) (b : Bool) : (s.putBit f i b).mix = s.mix := rfl
@[simp] theorem putBit_vis (s : State) (f : Field) (i : Nat) (b : Bool) : (s.putBit f i b).vis = s.vis := rfl
@[simp] theorem putBit_usb (s : State) (f : Field) (i : Nat) (b : Bool) : (s.putBit f i b).usb = s.usb := rfl
@[simp] theorem putBit_twb (s : State) (f : Field) (i : Nat) (b : Bool) : (s.putBit f i b).twb = s.twb := rfl
@[simp] theorem putBit_vxl (s : State) (f : Field) (i : Nat) (b : Bool) : (s.putBit f i b).vxl = s.vxl := rfl
@[simp] theorem putBit_fus (s : State) (f : Field) (i : Nat) (b : Bool) : (s.putBit f i b).fus = s.fus := rfl
@[simp] theorem putBit_rdata (s : State) (f : Field) (i : Nat) (b : Bool) : (s.putBit f i b).rdata = s.rdata := rfl
@[simp] theorem putBit_pending (s : State) (f : Field) (i : Nat) (b : Bool) : (s.putBit f i b).pending = s.pending := rfl
@[simp] theorem putBit_actReg (s : State) (f : Field) (i : Nat) (b : Bool) (p : Nat) : (s.putBit f i b).actReg p = s.actReg p := rfl

/-! ### incSat -/

@[simp] theorem incSat_act (s : State) (f : Field) (n : Nat) : (s.incSat f n).act = s.act := rfl
@[simp] theorem incSat_latch (s : State) (f : Field) (n : Nat) : (s.incSat f n).latch = s.latch := rfl
@[simp] theorem incSat_cyc (s : State) (f : Field) (n : Nat) : (s.incSat f n).cyc = s.cyc := rfl
@[simp] theorem incSat_dtime (s : State) (f : Field) (n : Nat) : (s.incSat f n).dtime = s.dtime := rfl
@[simp] theorem incSat_dtimeOn (s : State) (f : Field) (n : Nat) : (s.incSat f n).dtimeOn = s.dtimeOn := rfl
@[simp] theorem incSat_freeCtr (s : State) (f : Field) (n : Nat) : (s.incSat f n).freeCtr = s.freeCtr := rfl
@[simp] theorem incSat_hostMem (s : State) (f : Field) (n : Nat) : (s.incSat f n).hostMem = s.hostMem := rfl
@[simp] theorem incSat_gaf (s : State) (f : Field) (n : Nat) : (s.incSat f n).gaf = s.gaf := rfl
@[simp] theorem incSat_ring (s : State) (f : Field) (n : Nat) : (s.incSat f n).ring = s.ring := rfl
@[simp] theorem incSat_pci (s : State) (f : Field) (n : Nat) : (s.incSat f n).pci = s.pci := rfl
@[simp] theorem incSat_batches (s : State) (f : Field) (n : Nat) : (s.incSat f n).batches = s.batches := rfl
@[simp] theorem incSat_evtCount (s : State) (f : Field) (n : Nat) : (s.incSat f n).evtCount = s.evtCount := rfl
@[simp] theorem incSat_tel (s : State) (f : Field) (n : Nat) : (s.incSat f n).tel = s.tel := rfl
@[simp] theorem incSat_pwr (s : State) (f : Field) (n : Nat) : (s.incSat f n).pwr = s.pwr := rfl
@[simp] theorem incSat_pwm (s : State) (f : Field) (n : Nat) : (s.incSat f n).pwm = s.pwm := rfl
@[simp] theorem incSat_vlv (s : State) (f : Field) (n : Nat) : (s.incSat f n).vlv = s.vlv := rfl
@[simp] theorem incSat_sns (s : State) (f : Field) (n : Nat) : (s.incSat f n).sns = s.sns := rfl
@[simp] theorem incSat_mods (s : State) (f : Field) (n : Nat) : (s.incSat f n).mods = s.mods := rfl
@[simp] theorem incSat_scan (s : State) (f : Field) (n : Nat) : (s.incSat f n).scan = s.scan := rfl
@[simp] theorem incSat_mem (s : State) (f : Field) (n : Nat) : (s.incSat f n).mem = s.mem := rfl
@[simp] theorem incSat_mrv (s : State) (f : Field) (n : Nat) : (s.incSat f n).mrv = s.mrv := rfl
@[simp] theorem incSat_slots (s : State) (f : Field) (n : Nat) : (s.incSat f n).slots = s.slots := rfl
@[simp] theorem incSat_jobs (s : State) (f : Field) (n : Nat) : (s.incSat f n).jobs = s.jobs := rfl
@[simp] theorem incSat_runs (s : State) (f : Field) (n : Nat) : (s.incSat f n).runs = s.runs := rfl
@[simp] theorem incSat_sig (s : State) (f : Field) (n : Nat) : (s.incSat f n).sig = s.sig := rfl
@[simp] theorem incSat_ctl (s : State) (f : Field) (n : Nat) : (s.incSat f n).ctl = s.ctl := rfl
@[simp] theorem incSat_stops (s : State) (f : Field) (n : Nat) : (s.incSat f n).stops = s.stops := rfl
@[simp] theorem incSat_obs (s : State) (f : Field) (n : Nat) : (s.incSat f n).obs = s.obs := rfl
@[simp] theorem incSat_tmr (s : State) (f : Field) (n : Nat) : (s.incSat f n).tmr = s.tmr := rfl
@[simp] theorem incSat_tmrStage (s : State) (f : Field) (n : Nat) : (s.incSat f n).tmrStage = s.tmrStage := rfl
@[simp] theorem incSat_tmrDue (s : State) (f : Field) (n : Nat) : (s.incSat f n).tmrDue = s.tmrDue := rfl
@[simp] theorem incSat_aud (s : State) (f : Field) (n : Nat) : (s.incSat f n).aud = s.aud := rfl
@[simp] theorem incSat_mix (s : State) (f : Field) (n : Nat) : (s.incSat f n).mix = s.mix := rfl
@[simp] theorem incSat_vis (s : State) (f : Field) (n : Nat) : (s.incSat f n).vis = s.vis := rfl
@[simp] theorem incSat_usb (s : State) (f : Field) (n : Nat) : (s.incSat f n).usb = s.usb := rfl
@[simp] theorem incSat_twb (s : State) (f : Field) (n : Nat) : (s.incSat f n).twb = s.twb := rfl
@[simp] theorem incSat_vxl (s : State) (f : Field) (n : Nat) : (s.incSat f n).vxl = s.vxl := rfl
@[simp] theorem incSat_fus (s : State) (f : Field) (n : Nat) : (s.incSat f n).fus = s.fus := rfl
@[simp] theorem incSat_rdata (s : State) (f : Field) (n : Nat) : (s.incSat f n).rdata = s.rdata := rfl
@[simp] theorem incSat_pending (s : State) (f : Field) (n : Nat) : (s.incSat f n).pending = s.pending := rfl
@[simp] theorem incSat_actReg (s : State) (f : Field) (n : Nat) (p : Nat) : (s.incSat f n).actReg p = s.actReg p := rfl

/-! ### incWrap -/

@[simp] theorem incWrap_act (s : State) (f : Field) (n : Nat) : (s.incWrap f n).act = s.act := rfl
@[simp] theorem incWrap_latch (s : State) (f : Field) (n : Nat) : (s.incWrap f n).latch = s.latch := rfl
@[simp] theorem incWrap_cyc (s : State) (f : Field) (n : Nat) : (s.incWrap f n).cyc = s.cyc := rfl
@[simp] theorem incWrap_dtime (s : State) (f : Field) (n : Nat) : (s.incWrap f n).dtime = s.dtime := rfl
@[simp] theorem incWrap_dtimeOn (s : State) (f : Field) (n : Nat) : (s.incWrap f n).dtimeOn = s.dtimeOn := rfl
@[simp] theorem incWrap_freeCtr (s : State) (f : Field) (n : Nat) : (s.incWrap f n).freeCtr = s.freeCtr := rfl
@[simp] theorem incWrap_hostMem (s : State) (f : Field) (n : Nat) : (s.incWrap f n).hostMem = s.hostMem := rfl
@[simp] theorem incWrap_gaf (s : State) (f : Field) (n : Nat) : (s.incWrap f n).gaf = s.gaf := rfl
@[simp] theorem incWrap_ring (s : State) (f : Field) (n : Nat) : (s.incWrap f n).ring = s.ring := rfl
@[simp] theorem incWrap_pci (s : State) (f : Field) (n : Nat) : (s.incWrap f n).pci = s.pci := rfl
@[simp] theorem incWrap_batches (s : State) (f : Field) (n : Nat) : (s.incWrap f n).batches = s.batches := rfl
@[simp] theorem incWrap_evtCount (s : State) (f : Field) (n : Nat) : (s.incWrap f n).evtCount = s.evtCount := rfl
@[simp] theorem incWrap_tel (s : State) (f : Field) (n : Nat) : (s.incWrap f n).tel = s.tel := rfl
@[simp] theorem incWrap_pwr (s : State) (f : Field) (n : Nat) : (s.incWrap f n).pwr = s.pwr := rfl
@[simp] theorem incWrap_pwm (s : State) (f : Field) (n : Nat) : (s.incWrap f n).pwm = s.pwm := rfl
@[simp] theorem incWrap_vlv (s : State) (f : Field) (n : Nat) : (s.incWrap f n).vlv = s.vlv := rfl
@[simp] theorem incWrap_sns (s : State) (f : Field) (n : Nat) : (s.incWrap f n).sns = s.sns := rfl
@[simp] theorem incWrap_mods (s : State) (f : Field) (n : Nat) : (s.incWrap f n).mods = s.mods := rfl
@[simp] theorem incWrap_scan (s : State) (f : Field) (n : Nat) : (s.incWrap f n).scan = s.scan := rfl
@[simp] theorem incWrap_mem (s : State) (f : Field) (n : Nat) : (s.incWrap f n).mem = s.mem := rfl
@[simp] theorem incWrap_mrv (s : State) (f : Field) (n : Nat) : (s.incWrap f n).mrv = s.mrv := rfl
@[simp] theorem incWrap_slots (s : State) (f : Field) (n : Nat) : (s.incWrap f n).slots = s.slots := rfl
@[simp] theorem incWrap_jobs (s : State) (f : Field) (n : Nat) : (s.incWrap f n).jobs = s.jobs := rfl
@[simp] theorem incWrap_runs (s : State) (f : Field) (n : Nat) : (s.incWrap f n).runs = s.runs := rfl
@[simp] theorem incWrap_sig (s : State) (f : Field) (n : Nat) : (s.incWrap f n).sig = s.sig := rfl
@[simp] theorem incWrap_ctl (s : State) (f : Field) (n : Nat) : (s.incWrap f n).ctl = s.ctl := rfl
@[simp] theorem incWrap_stops (s : State) (f : Field) (n : Nat) : (s.incWrap f n).stops = s.stops := rfl
@[simp] theorem incWrap_obs (s : State) (f : Field) (n : Nat) : (s.incWrap f n).obs = s.obs := rfl
@[simp] theorem incWrap_tmr (s : State) (f : Field) (n : Nat) : (s.incWrap f n).tmr = s.tmr := rfl
@[simp] theorem incWrap_tmrStage (s : State) (f : Field) (n : Nat) : (s.incWrap f n).tmrStage = s.tmrStage := rfl
@[simp] theorem incWrap_tmrDue (s : State) (f : Field) (n : Nat) : (s.incWrap f n).tmrDue = s.tmrDue := rfl
@[simp] theorem incWrap_aud (s : State) (f : Field) (n : Nat) : (s.incWrap f n).aud = s.aud := rfl
@[simp] theorem incWrap_mix (s : State) (f : Field) (n : Nat) : (s.incWrap f n).mix = s.mix := rfl
@[simp] theorem incWrap_vis (s : State) (f : Field) (n : Nat) : (s.incWrap f n).vis = s.vis := rfl
@[simp] theorem incWrap_usb (s : State) (f : Field) (n : Nat) : (s.incWrap f n).usb = s.usb := rfl
@[simp] theorem incWrap_twb (s : State) (f : Field) (n : Nat) : (s.incWrap f n).twb = s.twb := rfl
@[simp] theorem incWrap_vxl (s : State) (f : Field) (n : Nat) : (s.incWrap f n).vxl = s.vxl := rfl
@[simp] theorem incWrap_fus (s : State) (f : Field) (n : Nat) : (s.incWrap f n).fus = s.fus := rfl
@[simp] theorem incWrap_rdata (s : State) (f : Field) (n : Nat) : (s.incWrap f n).rdata = s.rdata := rfl
@[simp] theorem incWrap_pending (s : State) (f : Field) (n : Nat) : (s.incWrap f n).pending = s.pending := rfl
@[simp] theorem incWrap_actReg (s : State) (f : Field) (n : Nat) (p : Nat) : (s.incWrap f n).actReg p = s.actReg p := rfl

/-! ### setWide -/

@[simp] theorem setWide_act (s : State) (w lo v : Nat) : (s.setWide w lo v).act = s.act := rfl
@[simp] theorem setWide_latch (s : State) (w lo v : Nat) : (s.setWide w lo v).latch = s.latch := rfl
@[simp] theorem setWide_cyc (s : State) (w lo v : Nat) : (s.setWide w lo v).cyc = s.cyc := rfl
@[simp] theorem setWide_seen (s : State) (w lo v : Nat) : (s.setWide w lo v).seen = s.seen := rfl
@[simp] theorem setWide_dtime (s : State) (w lo v : Nat) : (s.setWide w lo v).dtime = s.dtime := rfl
@[simp] theorem setWide_dtimeOn (s : State) (w lo v : Nat) : (s.setWide w lo v).dtimeOn = s.dtimeOn := rfl
@[simp] theorem setWide_freeCtr (s : State) (w lo v : Nat) : (s.setWide w lo v).freeCtr = s.freeCtr := rfl
@[simp] theorem setWide_hostMem (s : State) (w lo v : Nat) : (s.setWide w lo v).hostMem = s.hostMem := rfl
@[simp] theorem setWide_gaf (s : State) (w lo v : Nat) : (s.setWide w lo v).gaf = s.gaf := rfl
@[simp] theorem setWide_ring (s : State) (w lo v : Nat) : (s.setWide w lo v).ring = s.ring := rfl
@[simp] theorem setWide_pci (s : State) (w lo v : Nat) : (s.setWide w lo v).pci = s.pci := rfl
@[simp] theorem setWide_batches (s : State) (w lo v : Nat) : (s.setWide w lo v).batches = s.batches := rfl
@[simp] theorem setWide_evtCount (s : State) (w lo v : Nat) : (s.setWide w lo v).evtCount = s.evtCount := rfl
@[simp] theorem setWide_tel (s : State) (w lo v : Nat) : (s.setWide w lo v).tel = s.tel := rfl
@[simp] theorem setWide_pwr (s : State) (w lo v : Nat) : (s.setWide w lo v).pwr = s.pwr := rfl
@[simp] theorem setWide_pwm (s : State) (w lo v : Nat) : (s.setWide w lo v).pwm = s.pwm := rfl
@[simp] theorem setWide_vlv (s : State) (w lo v : Nat) : (s.setWide w lo v).vlv = s.vlv := rfl
@[simp] theorem setWide_sns (s : State) (w lo v : Nat) : (s.setWide w lo v).sns = s.sns := rfl
@[simp] theorem setWide_mods (s : State) (w lo v : Nat) : (s.setWide w lo v).mods = s.mods := rfl
@[simp] theorem setWide_scan (s : State) (w lo v : Nat) : (s.setWide w lo v).scan = s.scan := rfl
@[simp] theorem setWide_mem (s : State) (w lo v : Nat) : (s.setWide w lo v).mem = s.mem := rfl
@[simp] theorem setWide_mrv (s : State) (w lo v : Nat) : (s.setWide w lo v).mrv = s.mrv := rfl
@[simp] theorem setWide_slots (s : State) (w lo v : Nat) : (s.setWide w lo v).slots = s.slots := rfl
@[simp] theorem setWide_jobs (s : State) (w lo v : Nat) : (s.setWide w lo v).jobs = s.jobs := rfl
@[simp] theorem setWide_runs (s : State) (w lo v : Nat) : (s.setWide w lo v).runs = s.runs := rfl
@[simp] theorem setWide_sig (s : State) (w lo v : Nat) : (s.setWide w lo v).sig = s.sig := rfl
@[simp] theorem setWide_ctl (s : State) (w lo v : Nat) : (s.setWide w lo v).ctl = s.ctl := rfl
@[simp] theorem setWide_stops (s : State) (w lo v : Nat) : (s.setWide w lo v).stops = s.stops := rfl
@[simp] theorem setWide_obs (s : State) (w lo v : Nat) : (s.setWide w lo v).obs = s.obs := rfl
@[simp] theorem setWide_tmr (s : State) (w lo v : Nat) : (s.setWide w lo v).tmr = s.tmr := rfl
@[simp] theorem setWide_tmrStage (s : State) (w lo v : Nat) : (s.setWide w lo v).tmrStage = s.tmrStage := rfl
@[simp] theorem setWide_tmrDue (s : State) (w lo v : Nat) : (s.setWide w lo v).tmrDue = s.tmrDue := rfl
@[simp] theorem setWide_aud (s : State) (w lo v : Nat) : (s.setWide w lo v).aud = s.aud := rfl
@[simp] theorem setWide_mix (s : State) (w lo v : Nat) : (s.setWide w lo v).mix = s.mix := rfl
@[simp] theorem setWide_vis (s : State) (w lo v : Nat) : (s.setWide w lo v).vis = s.vis := rfl
@[simp] theorem setWide_usb (s : State) (w lo v : Nat) : (s.setWide w lo v).usb = s.usb := rfl
@[simp] theorem setWide_twb (s : State) (w lo v : Nat) : (s.setWide w lo v).twb = s.twb := rfl
@[simp] theorem setWide_vxl (s : State) (w lo v : Nat) : (s.setWide w lo v).vxl = s.vxl := rfl
@[simp] theorem setWide_fus (s : State) (w lo v : Nat) : (s.setWide w lo v).fus = s.fus := rfl
@[simp] theorem setWide_rdata (s : State) (w lo v : Nat) : (s.setWide w lo v).rdata = s.rdata := rfl
@[simp] theorem setWide_pending (s : State) (w lo v : Nat) : (s.setWide w lo v).pending = s.pending := rfl
@[simp] theorem setWide_actReg (s : State) (w lo v : Nat) (p : Nat) : (s.setWide w lo v).actReg p = s.actReg p := rfl

/-! ### setDesc -/

@[simp] theorem setDesc_regs (s : State) (d e : Desc) : (s.setDesc d e).regs = s.regs := rfl
@[simp] theorem setDesc_act (s : State) (d e : Desc) : (s.setDesc d e).act = s.act := rfl
@[simp] theorem setDesc_latch (s : State) (d e : Desc) : (s.setDesc d e).latch = s.latch := rfl
@[simp] theorem setDesc_cyc (s : State) (d e : Desc) : (s.setDesc d e).cyc = s.cyc := rfl
@[simp] theorem setDesc_seen (s : State) (d e : Desc) : (s.setDesc d e).seen = s.seen := rfl
@[simp] theorem setDesc_dtime (s : State) (d e : Desc) : (s.setDesc d e).dtime = s.dtime := rfl
@[simp] theorem setDesc_dtimeOn (s : State) (d e : Desc) : (s.setDesc d e).dtimeOn = s.dtimeOn := rfl
@[simp] theorem setDesc_freeCtr (s : State) (d e : Desc) : (s.setDesc d e).freeCtr = s.freeCtr := rfl
@[simp] theorem setDesc_hostMem (s : State) (d e : Desc) : (s.setDesc d e).hostMem = s.hostMem := rfl
@[simp] theorem setDesc_gaf (s : State) (d e : Desc) : (s.setDesc d e).gaf = s.gaf := rfl
@[simp] theorem setDesc_batches (s : State) (d e : Desc) : (s.setDesc d e).batches = s.batches := rfl
@[simp] theorem setDesc_evtCount (s : State) (d e : Desc) : (s.setDesc d e).evtCount = s.evtCount := rfl
@[simp] theorem setDesc_tel (s : State) (d e : Desc) : (s.setDesc d e).tel = s.tel := rfl
@[simp] theorem setDesc_pwr (s : State) (d e : Desc) : (s.setDesc d e).pwr = s.pwr := rfl
@[simp] theorem setDesc_pwm (s : State) (d e : Desc) : (s.setDesc d e).pwm = s.pwm := rfl
@[simp] theorem setDesc_vlv (s : State) (d e : Desc) : (s.setDesc d e).vlv = s.vlv := rfl
@[simp] theorem setDesc_sns (s : State) (d e : Desc) : (s.setDesc d e).sns = s.sns := rfl
@[simp] theorem setDesc_mods (s : State) (d e : Desc) : (s.setDesc d e).mods = s.mods := rfl
@[simp] theorem setDesc_scan (s : State) (d e : Desc) : (s.setDesc d e).scan = s.scan := rfl
@[simp] theorem setDesc_mem (s : State) (d e : Desc) : (s.setDesc d e).mem = s.mem := rfl
@[simp] theorem setDesc_mrv (s : State) (d e : Desc) : (s.setDesc d e).mrv = s.mrv := rfl
@[simp] theorem setDesc_slots (s : State) (d e : Desc) : (s.setDesc d e).slots = s.slots := rfl
@[simp] theorem setDesc_jobs (s : State) (d e : Desc) : (s.setDesc d e).jobs = s.jobs := rfl
@[simp] theorem setDesc_runs (s : State) (d e : Desc) : (s.setDesc d e).runs = s.runs := rfl
@[simp] theorem setDesc_sig (s : State) (d e : Desc) : (s.setDesc d e).sig = s.sig := rfl
@[simp] theorem setDesc_ctl (s : State) (d e : Desc) : (s.setDesc d e).ctl = s.ctl := rfl
@[simp] theorem setDesc_stops (s : State) (d e : Desc) : (s.setDesc d e).stops = s.stops := rfl
@[simp] theorem setDesc_obs (s : State) (d e : Desc) : (s.setDesc d e).obs = s.obs := rfl
@[simp] theorem setDesc_tmr (s : State) (d e : Desc) : (s.setDesc d e).tmr = s.tmr := rfl
@[simp] theorem setDesc_tmrStage (s : State) (d e : Desc) : (s.setDesc d e).tmrStage = s.tmrStage := rfl
@[simp] theorem setDesc_tmrDue (s : State) (d e : Desc) : (s.setDesc d e).tmrDue = s.tmrDue := rfl
@[simp] theorem setDesc_aud (s : State) (d e : Desc) : (s.setDesc d e).aud = s.aud := rfl
@[simp] theorem setDesc_mix (s : State) (d e : Desc) : (s.setDesc d e).mix = s.mix := rfl
@[simp] theorem setDesc_vis (s : State) (d e : Desc) : (s.setDesc d e).vis = s.vis := rfl
@[simp] theorem setDesc_usb (s : State) (d e : Desc) : (s.setDesc d e).usb = s.usb := rfl
@[simp] theorem setDesc_twb (s : State) (d e : Desc) : (s.setDesc d e).twb = s.twb := rfl
@[simp] theorem setDesc_vxl (s : State) (d e : Desc) : (s.setDesc d e).vxl = s.vxl := rfl
@[simp] theorem setDesc_fus (s : State) (d e : Desc) : (s.setDesc d e).fus = s.fus := rfl
@[simp] theorem setDesc_rdata (s : State) (d e : Desc) : (s.setDesc d e).rdata = s.rdata := rfl
@[simp] theorem setDesc_pending (s : State) (d e : Desc) : (s.setDesc d e).pending = s.pending := rfl
@[simp] theorem setDesc_reg (s : State) (d e : Desc) (p : Nat) : (s.setDesc d e).reg p = s.reg p := rfl
@[simp] theorem setDesc_get (s : State) (d e : Desc) (g : Field) : (s.setDesc d e).get g = s.get g := rfl
@[simp] theorem setDesc_flag (s : State) (d e : Desc) (g : Field) : (s.setDesc d e).flag g = s.flag g := rfl

/-! ### setCtl -/

@[simp] theorem setCtl_regs (s : State) (n : Nat) (x : Slot) : (s.setCtl n x).regs = s.regs := rfl
@[simp] theorem setCtl_act (s : State) (n : Nat) (x : Slot) : (s.setCtl n x).act = s.act := rfl
@[simp] theorem setCtl_latch (s : State) (n : Nat) (x : Slot) : (s.setCtl n x).latch = s.latch := rfl
@[simp] theorem setCtl_cyc (s : State) (n : Nat) (x : Slot) : (s.setCtl n x).cyc = s.cyc := rfl
@[simp] theorem setCtl_seen (s : State) (n : Nat) (x : Slot) : (s.setCtl n x).seen = s.seen := rfl
@[simp] theorem setCtl_dtime (s : State) (n : Nat) (x : Slot) : (s.setCtl n x).dtime = s.dtime := rfl
@[simp] theorem setCtl_dtimeOn (s : State) (n : Nat) (x : Slot) : (s.setCtl n x).dtimeOn = s.dtimeOn := rfl
@[simp] theorem setCtl_freeCtr (s : State) (n : Nat) (x : Slot) : (s.setCtl n x).freeCtr = s.freeCtr := rfl
@[simp] theorem setCtl_hostMem (s : State) (n : Nat) (x : Slot) : (s.setCtl n x).hostMem = s.hostMem := rfl
@[simp] theorem setCtl_gaf (s : State) (n : Nat) (x : Slot) : (s.setCtl n x).gaf = s.gaf := rfl
@[simp] theorem setCtl_ring (s : State) (n : Nat) (x : Slot) : (s.setCtl n x).ring = s.ring := rfl
@[simp] theorem setCtl_pci (s : State) (n : Nat) (x : Slot) : (s.setCtl n x).pci = s.pci := rfl
@[simp] theorem setCtl_batches (s : State) (n : Nat) (x : Slot) : (s.setCtl n x).batches = s.batches := rfl
@[simp] theorem setCtl_evtCount (s : State) (n : Nat) (x : Slot) : (s.setCtl n x).evtCount = s.evtCount := rfl
@[simp] theorem setCtl_tel (s : State) (n : Nat) (x : Slot) : (s.setCtl n x).tel = s.tel := rfl
@[simp] theorem setCtl_pwr (s : State) (n : Nat) (x : Slot) : (s.setCtl n x).pwr = s.pwr := rfl
@[simp] theorem setCtl_pwm (s : State) (n : Nat) (x : Slot) : (s.setCtl n x).pwm = s.pwm := rfl
@[simp] theorem setCtl_vlv (s : State) (n : Nat) (x : Slot) : (s.setCtl n x).vlv = s.vlv := rfl
@[simp] theorem setCtl_sns (s : State) (n : Nat) (x : Slot) : (s.setCtl n x).sns = s.sns := rfl
@[simp] theorem setCtl_mods (s : State) (n : Nat) (x : Slot) : (s.setCtl n x).mods = s.mods := rfl
@[simp] theorem setCtl_scan (s : State) (n : Nat) (x : Slot) : (s.setCtl n x).scan = s.scan := rfl
@[simp] theorem setCtl_mem (s : State) (n : Nat) (x : Slot) : (s.setCtl n x).mem = s.mem := rfl
@[simp] theorem setCtl_mrv (s : State) (n : Nat) (x : Slot) : (s.setCtl n x).mrv = s.mrv := rfl
@[simp] theorem setCtl_slots (s : State) (n : Nat) (x : Slot) : (s.setCtl n x).slots = s.slots := rfl
@[simp] theorem setCtl_jobs (s : State) (n : Nat) (x : Slot) : (s.setCtl n x).jobs = s.jobs := rfl
@[simp] theorem setCtl_runs (s : State) (n : Nat) (x : Slot) : (s.setCtl n x).runs = s.runs := rfl
@[simp] theorem setCtl_sig (s : State) (n : Nat) (x : Slot) : (s.setCtl n x).sig = s.sig := rfl
@[simp] theorem setCtl_stops (s : State) (n : Nat) (x : Slot) : (s.setCtl n x).stops = s.stops := rfl
@[simp] theorem setCtl_obs (s : State) (n : Nat) (x : Slot) : (s.setCtl n x).obs = s.obs := rfl
@[simp] theorem setCtl_tmr (s : State) (n : Nat) (x : Slot) : (s.setCtl n x).tmr = s.tmr := rfl
@[simp] theorem setCtl_tmrStage (s : State) (n : Nat) (x : Slot) : (s.setCtl n x).tmrStage = s.tmrStage := rfl
@[simp] theorem setCtl_tmrDue (s : State) (n : Nat) (x : Slot) : (s.setCtl n x).tmrDue = s.tmrDue := rfl
@[simp] theorem setCtl_aud (s : State) (n : Nat) (x : Slot) : (s.setCtl n x).aud = s.aud := rfl
@[simp] theorem setCtl_mix (s : State) (n : Nat) (x : Slot) : (s.setCtl n x).mix = s.mix := rfl
@[simp] theorem setCtl_vis (s : State) (n : Nat) (x : Slot) : (s.setCtl n x).vis = s.vis := rfl
@[simp] theorem setCtl_usb (s : State) (n : Nat) (x : Slot) : (s.setCtl n x).usb = s.usb := rfl
@[simp] theorem setCtl_twb (s : State) (n : Nat) (x : Slot) : (s.setCtl n x).twb = s.twb := rfl
@[simp] theorem setCtl_vxl (s : State) (n : Nat) (x : Slot) : (s.setCtl n x).vxl = s.vxl := rfl
@[simp] theorem setCtl_fus (s : State) (n : Nat) (x : Slot) : (s.setCtl n x).fus = s.fus := rfl
@[simp] theorem setCtl_rdata (s : State) (n : Nat) (x : Slot) : (s.setCtl n x).rdata = s.rdata := rfl
@[simp] theorem setCtl_pending (s : State) (n : Nat) (x : Slot) : (s.setCtl n x).pending = s.pending := rfl
@[simp] theorem setCtl_reg (s : State) (n : Nat) (x : Slot) (p : Nat) : (s.setCtl n x).reg p = s.reg p := rfl
@[simp] theorem setCtl_get (s : State) (n : Nat) (x : Slot) (g : Field) : (s.setCtl n x).get g = s.get g := rfl
@[simp] theorem setCtl_flag (s : State) (n : Nat) (x : Slot) (g : Field) : (s.setCtl n x).flag g = s.flag g := rfl

/-! ### setObs -/

@[simp] theorem setObs_regs (s : State) (n : Nat) (x : Obs) : (s.setObs n x).regs = s.regs := rfl
@[simp] theorem setObs_act (s : State) (n : Nat) (x : Obs) : (s.setObs n x).act = s.act := rfl
@[simp] theorem setObs_latch (s : State) (n : Nat) (x : Obs) : (s.setObs n x).latch = s.latch := rfl
@[simp] theorem setObs_cyc (s : State) (n : Nat) (x : Obs) : (s.setObs n x).cyc = s.cyc := rfl
@[simp] theorem setObs_seen (s : State) (n : Nat) (x : Obs) : (s.setObs n x).seen = s.seen := rfl
@[simp] theorem setObs_dtime (s : State) (n : Nat) (x : Obs) : (s.setObs n x).dtime = s.dtime := rfl
@[simp] theorem setObs_dtimeOn (s : State) (n : Nat) (x : Obs) : (s.setObs n x).dtimeOn = s.dtimeOn := rfl
@[simp] theorem setObs_freeCtr (s : State) (n : Nat) (x : Obs) : (s.setObs n x).freeCtr = s.freeCtr := rfl
@[simp] theorem setObs_hostMem (s : State) (n : Nat) (x : Obs) : (s.setObs n x).hostMem = s.hostMem := rfl
@[simp] theorem setObs_gaf (s : State) (n : Nat) (x : Obs) : (s.setObs n x).gaf = s.gaf := rfl
@[simp] theorem setObs_ring (s : State) (n : Nat) (x : Obs) : (s.setObs n x).ring = s.ring := rfl
@[simp] theorem setObs_pci (s : State) (n : Nat) (x : Obs) : (s.setObs n x).pci = s.pci := rfl
@[simp] theorem setObs_batches (s : State) (n : Nat) (x : Obs) : (s.setObs n x).batches = s.batches := rfl
@[simp] theorem setObs_evtCount (s : State) (n : Nat) (x : Obs) : (s.setObs n x).evtCount = s.evtCount := rfl
@[simp] theorem setObs_tel (s : State) (n : Nat) (x : Obs) : (s.setObs n x).tel = s.tel := rfl
@[simp] theorem setObs_pwr (s : State) (n : Nat) (x : Obs) : (s.setObs n x).pwr = s.pwr := rfl
@[simp] theorem setObs_pwm (s : State) (n : Nat) (x : Obs) : (s.setObs n x).pwm = s.pwm := rfl
@[simp] theorem setObs_vlv (s : State) (n : Nat) (x : Obs) : (s.setObs n x).vlv = s.vlv := rfl
@[simp] theorem setObs_sns (s : State) (n : Nat) (x : Obs) : (s.setObs n x).sns = s.sns := rfl
@[simp] theorem setObs_mods (s : State) (n : Nat) (x : Obs) : (s.setObs n x).mods = s.mods := rfl
@[simp] theorem setObs_scan (s : State) (n : Nat) (x : Obs) : (s.setObs n x).scan = s.scan := rfl
@[simp] theorem setObs_mem (s : State) (n : Nat) (x : Obs) : (s.setObs n x).mem = s.mem := rfl
@[simp] theorem setObs_mrv (s : State) (n : Nat) (x : Obs) : (s.setObs n x).mrv = s.mrv := rfl
@[simp] theorem setObs_slots (s : State) (n : Nat) (x : Obs) : (s.setObs n x).slots = s.slots := rfl
@[simp] theorem setObs_jobs (s : State) (n : Nat) (x : Obs) : (s.setObs n x).jobs = s.jobs := rfl
@[simp] theorem setObs_runs (s : State) (n : Nat) (x : Obs) : (s.setObs n x).runs = s.runs := rfl
@[simp] theorem setObs_sig (s : State) (n : Nat) (x : Obs) : (s.setObs n x).sig = s.sig := rfl
@[simp] theorem setObs_ctl (s : State) (n : Nat) (x : Obs) : (s.setObs n x).ctl = s.ctl := rfl
@[simp] theorem setObs_stops (s : State) (n : Nat) (x : Obs) : (s.setObs n x).stops = s.stops := rfl
@[simp] theorem setObs_tmr (s : State) (n : Nat) (x : Obs) : (s.setObs n x).tmr = s.tmr := rfl
@[simp] theorem setObs_tmrStage (s : State) (n : Nat) (x : Obs) : (s.setObs n x).tmrStage = s.tmrStage := rfl
@[simp] theorem setObs_tmrDue (s : State) (n : Nat) (x : Obs) : (s.setObs n x).tmrDue = s.tmrDue := rfl
@[simp] theorem setObs_aud (s : State) (n : Nat) (x : Obs) : (s.setObs n x).aud = s.aud := rfl
@[simp] theorem setObs_mix (s : State) (n : Nat) (x : Obs) : (s.setObs n x).mix = s.mix := rfl
@[simp] theorem setObs_vis (s : State) (n : Nat) (x : Obs) : (s.setObs n x).vis = s.vis := rfl
@[simp] theorem setObs_usb (s : State) (n : Nat) (x : Obs) : (s.setObs n x).usb = s.usb := rfl
@[simp] theorem setObs_twb (s : State) (n : Nat) (x : Obs) : (s.setObs n x).twb = s.twb := rfl
@[simp] theorem setObs_vxl (s : State) (n : Nat) (x : Obs) : (s.setObs n x).vxl = s.vxl := rfl
@[simp] theorem setObs_fus (s : State) (n : Nat) (x : Obs) : (s.setObs n x).fus = s.fus := rfl
@[simp] theorem setObs_rdata (s : State) (n : Nat) (x : Obs) : (s.setObs n x).rdata = s.rdata := rfl
@[simp] theorem setObs_pending (s : State) (n : Nat) (x : Obs) : (s.setObs n x).pending = s.pending := rfl
@[simp] theorem setObs_reg (s : State) (n : Nat) (x : Obs) (p : Nat) : (s.setObs n x).reg p = s.reg p := rfl
@[simp] theorem setObs_get (s : State) (n : Nat) (x : Obs) (g : Field) : (s.setObs n x).get g = s.get g := rfl
@[simp] theorem setObs_flag (s : State) (n : Nat) (x : Obs) (g : Field) : (s.setObs n x).flag g = s.flag g := rfl

/-! ### setMrv -/

@[simp] theorem setMrv_regs (s : State) (n : Nat) (x : Mrv) : (s.setMrv n x).regs = s.regs := rfl
@[simp] theorem setMrv_act (s : State) (n : Nat) (x : Mrv) : (s.setMrv n x).act = s.act := rfl
@[simp] theorem setMrv_latch (s : State) (n : Nat) (x : Mrv) : (s.setMrv n x).latch = s.latch := rfl
@[simp] theorem setMrv_cyc (s : State) (n : Nat) (x : Mrv) : (s.setMrv n x).cyc = s.cyc := rfl
@[simp] theorem setMrv_seen (s : State) (n : Nat) (x : Mrv) : (s.setMrv n x).seen = s.seen := rfl
@[simp] theorem setMrv_dtime (s : State) (n : Nat) (x : Mrv) : (s.setMrv n x).dtime = s.dtime := rfl
@[simp] theorem setMrv_dtimeOn (s : State) (n : Nat) (x : Mrv) : (s.setMrv n x).dtimeOn = s.dtimeOn := rfl
@[simp] theorem setMrv_freeCtr (s : State) (n : Nat) (x : Mrv) : (s.setMrv n x).freeCtr = s.freeCtr := rfl
@[simp] theorem setMrv_hostMem (s : State) (n : Nat) (x : Mrv) : (s.setMrv n x).hostMem = s.hostMem := rfl
@[simp] theorem setMrv_gaf (s : State) (n : Nat) (x : Mrv) : (s.setMrv n x).gaf = s.gaf := rfl
@[simp] theorem setMrv_ring (s : State) (n : Nat) (x : Mrv) : (s.setMrv n x).ring = s.ring := rfl
@[simp] theorem setMrv_pci (s : State) (n : Nat) (x : Mrv) : (s.setMrv n x).pci = s.pci := rfl
@[simp] theorem setMrv_batches (s : State) (n : Nat) (x : Mrv) : (s.setMrv n x).batches = s.batches := rfl
@[simp] theorem setMrv_evtCount (s : State) (n : Nat) (x : Mrv) : (s.setMrv n x).evtCount = s.evtCount := rfl
@[simp] theorem setMrv_tel (s : State) (n : Nat) (x : Mrv) : (s.setMrv n x).tel = s.tel := rfl
@[simp] theorem setMrv_pwr (s : State) (n : Nat) (x : Mrv) : (s.setMrv n x).pwr = s.pwr := rfl
@[simp] theorem setMrv_pwm (s : State) (n : Nat) (x : Mrv) : (s.setMrv n x).pwm = s.pwm := rfl
@[simp] theorem setMrv_vlv (s : State) (n : Nat) (x : Mrv) : (s.setMrv n x).vlv = s.vlv := rfl
@[simp] theorem setMrv_sns (s : State) (n : Nat) (x : Mrv) : (s.setMrv n x).sns = s.sns := rfl
@[simp] theorem setMrv_mods (s : State) (n : Nat) (x : Mrv) : (s.setMrv n x).mods = s.mods := rfl
@[simp] theorem setMrv_scan (s : State) (n : Nat) (x : Mrv) : (s.setMrv n x).scan = s.scan := rfl
@[simp] theorem setMrv_mem (s : State) (n : Nat) (x : Mrv) : (s.setMrv n x).mem = s.mem := rfl
@[simp] theorem setMrv_slots (s : State) (n : Nat) (x : Mrv) : (s.setMrv n x).slots = s.slots := rfl
@[simp] theorem setMrv_jobs (s : State) (n : Nat) (x : Mrv) : (s.setMrv n x).jobs = s.jobs := rfl
@[simp] theorem setMrv_runs (s : State) (n : Nat) (x : Mrv) : (s.setMrv n x).runs = s.runs := rfl
@[simp] theorem setMrv_sig (s : State) (n : Nat) (x : Mrv) : (s.setMrv n x).sig = s.sig := rfl
@[simp] theorem setMrv_ctl (s : State) (n : Nat) (x : Mrv) : (s.setMrv n x).ctl = s.ctl := rfl
@[simp] theorem setMrv_stops (s : State) (n : Nat) (x : Mrv) : (s.setMrv n x).stops = s.stops := rfl
@[simp] theorem setMrv_obs (s : State) (n : Nat) (x : Mrv) : (s.setMrv n x).obs = s.obs := rfl
@[simp] theorem setMrv_tmr (s : State) (n : Nat) (x : Mrv) : (s.setMrv n x).tmr = s.tmr := rfl
@[simp] theorem setMrv_tmrStage (s : State) (n : Nat) (x : Mrv) : (s.setMrv n x).tmrStage = s.tmrStage := rfl
@[simp] theorem setMrv_tmrDue (s : State) (n : Nat) (x : Mrv) : (s.setMrv n x).tmrDue = s.tmrDue := rfl
@[simp] theorem setMrv_aud (s : State) (n : Nat) (x : Mrv) : (s.setMrv n x).aud = s.aud := rfl
@[simp] theorem setMrv_mix (s : State) (n : Nat) (x : Mrv) : (s.setMrv n x).mix = s.mix := rfl
@[simp] theorem setMrv_vis (s : State) (n : Nat) (x : Mrv) : (s.setMrv n x).vis = s.vis := rfl
@[simp] theorem setMrv_usb (s : State) (n : Nat) (x : Mrv) : (s.setMrv n x).usb = s.usb := rfl
@[simp] theorem setMrv_twb (s : State) (n : Nat) (x : Mrv) : (s.setMrv n x).twb = s.twb := rfl
@[simp] theorem setMrv_vxl (s : State) (n : Nat) (x : Mrv) : (s.setMrv n x).vxl = s.vxl := rfl
@[simp] theorem setMrv_fus (s : State) (n : Nat) (x : Mrv) : (s.setMrv n x).fus = s.fus := rfl
@[simp] theorem setMrv_rdata (s : State) (n : Nat) (x : Mrv) : (s.setMrv n x).rdata = s.rdata := rfl
@[simp] theorem setMrv_pending (s : State) (n : Nat) (x : Mrv) : (s.setMrv n x).pending = s.pending := rfl
@[simp] theorem setMrv_reg (s : State) (n : Nat) (x : Mrv) (p : Nat) : (s.setMrv n x).reg p = s.reg p := rfl
@[simp] theorem setMrv_get (s : State) (n : Nat) (x : Mrv) (g : Field) : (s.setMrv n x).get g = s.get g := rfl
@[simp] theorem setMrv_flag (s : State) (n : Nat) (x : Mrv) (g : Field) : (s.setMrv n x).flag g = s.flag g := rfl

/-! ### setSns -/

@[simp] theorem setSns_regs (s : State) (n : Nat) (x : Sns) : (s.setSns n x).regs = s.regs := rfl
@[simp] theorem setSns_act (s : State) (n : Nat) (x : Sns) : (s.setSns n x).act = s.act := rfl
@[simp] theorem setSns_latch (s : State) (n : Nat) (x : Sns) : (s.setSns n x).latch = s.latch := rfl
@[simp] theorem setSns_cyc (s : State) (n : Nat) (x : Sns) : (s.setSns n x).cyc = s.cyc := rfl
@[simp] theorem setSns_seen (s : State) (n : Nat) (x : Sns) : (s.setSns n x).seen = s.seen := rfl
@[simp] theorem setSns_dtime (s : State) (n : Nat) (x : Sns) : (s.setSns n x).dtime = s.dtime := rfl
@[simp] theorem setSns_dtimeOn (s : State) (n : Nat) (x : Sns) : (s.setSns n x).dtimeOn = s.dtimeOn := rfl
@[simp] theorem setSns_freeCtr (s : State) (n : Nat) (x : Sns) : (s.setSns n x).freeCtr = s.freeCtr := rfl
@[simp] theorem setSns_hostMem (s : State) (n : Nat) (x : Sns) : (s.setSns n x).hostMem = s.hostMem := rfl
@[simp] theorem setSns_gaf (s : State) (n : Nat) (x : Sns) : (s.setSns n x).gaf = s.gaf := rfl
@[simp] theorem setSns_ring (s : State) (n : Nat) (x : Sns) : (s.setSns n x).ring = s.ring := rfl
@[simp] theorem setSns_pci (s : State) (n : Nat) (x : Sns) : (s.setSns n x).pci = s.pci := rfl
@[simp] theorem setSns_batches (s : State) (n : Nat) (x : Sns) : (s.setSns n x).batches = s.batches := rfl
@[simp] theorem setSns_evtCount (s : State) (n : Nat) (x : Sns) : (s.setSns n x).evtCount = s.evtCount := rfl
@[simp] theorem setSns_tel (s : State) (n : Nat) (x : Sns) : (s.setSns n x).tel = s.tel := rfl
@[simp] theorem setSns_pwr (s : State) (n : Nat) (x : Sns) : (s.setSns n x).pwr = s.pwr := rfl
@[simp] theorem setSns_pwm (s : State) (n : Nat) (x : Sns) : (s.setSns n x).pwm = s.pwm := rfl
@[simp] theorem setSns_vlv (s : State) (n : Nat) (x : Sns) : (s.setSns n x).vlv = s.vlv := rfl
@[simp] theorem setSns_mods (s : State) (n : Nat) (x : Sns) : (s.setSns n x).mods = s.mods := rfl
@[simp] theorem setSns_scan (s : State) (n : Nat) (x : Sns) : (s.setSns n x).scan = s.scan := rfl
@[simp] theorem setSns_mem (s : State) (n : Nat) (x : Sns) : (s.setSns n x).mem = s.mem := rfl
@[simp] theorem setSns_mrv (s : State) (n : Nat) (x : Sns) : (s.setSns n x).mrv = s.mrv := rfl
@[simp] theorem setSns_slots (s : State) (n : Nat) (x : Sns) : (s.setSns n x).slots = s.slots := rfl
@[simp] theorem setSns_jobs (s : State) (n : Nat) (x : Sns) : (s.setSns n x).jobs = s.jobs := rfl
@[simp] theorem setSns_runs (s : State) (n : Nat) (x : Sns) : (s.setSns n x).runs = s.runs := rfl
@[simp] theorem setSns_sig (s : State) (n : Nat) (x : Sns) : (s.setSns n x).sig = s.sig := rfl
@[simp] theorem setSns_ctl (s : State) (n : Nat) (x : Sns) : (s.setSns n x).ctl = s.ctl := rfl
@[simp] theorem setSns_stops (s : State) (n : Nat) (x : Sns) : (s.setSns n x).stops = s.stops := rfl
@[simp] theorem setSns_obs (s : State) (n : Nat) (x : Sns) : (s.setSns n x).obs = s.obs := rfl
@[simp] theorem setSns_tmr (s : State) (n : Nat) (x : Sns) : (s.setSns n x).tmr = s.tmr := rfl
@[simp] theorem setSns_tmrStage (s : State) (n : Nat) (x : Sns) : (s.setSns n x).tmrStage = s.tmrStage := rfl
@[simp] theorem setSns_tmrDue (s : State) (n : Nat) (x : Sns) : (s.setSns n x).tmrDue = s.tmrDue := rfl
@[simp] theorem setSns_aud (s : State) (n : Nat) (x : Sns) : (s.setSns n x).aud = s.aud := rfl
@[simp] theorem setSns_mix (s : State) (n : Nat) (x : Sns) : (s.setSns n x).mix = s.mix := rfl
@[simp] theorem setSns_vis (s : State) (n : Nat) (x : Sns) : (s.setSns n x).vis = s.vis := rfl
@[simp] theorem setSns_usb (s : State) (n : Nat) (x : Sns) : (s.setSns n x).usb = s.usb := rfl
@[simp] theorem setSns_twb (s : State) (n : Nat) (x : Sns) : (s.setSns n x).twb = s.twb := rfl
@[simp] theorem setSns_vxl (s : State) (n : Nat) (x : Sns) : (s.setSns n x).vxl = s.vxl := rfl
@[simp] theorem setSns_fus (s : State) (n : Nat) (x : Sns) : (s.setSns n x).fus = s.fus := rfl
@[simp] theorem setSns_rdata (s : State) (n : Nat) (x : Sns) : (s.setSns n x).rdata = s.rdata := rfl
@[simp] theorem setSns_pending (s : State) (n : Nat) (x : Sns) : (s.setSns n x).pending = s.pending := rfl
@[simp] theorem setSns_reg (s : State) (n : Nat) (x : Sns) (p : Nat) : (s.setSns n x).reg p = s.reg p := rfl
@[simp] theorem setSns_get (s : State) (n : Nat) (x : Sns) (g : Field) : (s.setSns n x).get g = s.get g := rfl
@[simp] theorem setSns_flag (s : State) (n : Nat) (x : Sns) (g : Field) : (s.setSns n x).flag g = s.flag g := rfl

/-! ### setMod -/

@[simp] theorem setMod_regs (s : State) (n : Nat) (x : Mod) : (s.setMod n x).regs = s.regs := rfl
@[simp] theorem setMod_act (s : State) (n : Nat) (x : Mod) : (s.setMod n x).act = s.act := rfl
@[simp] theorem setMod_latch (s : State) (n : Nat) (x : Mod) : (s.setMod n x).latch = s.latch := rfl
@[simp] theorem setMod_cyc (s : State) (n : Nat) (x : Mod) : (s.setMod n x).cyc = s.cyc := rfl
@[simp] theorem setMod_seen (s : State) (n : Nat) (x : Mod) : (s.setMod n x).seen = s.seen := rfl
@[simp] theorem setMod_dtime (s : State) (n : Nat) (x : Mod) : (s.setMod n x).dtime = s.dtime := rfl
@[simp] theorem setMod_dtimeOn (s : State) (n : Nat) (x : Mod) : (s.setMod n x).dtimeOn = s.dtimeOn := rfl
@[simp] theorem setMod_freeCtr (s : State) (n : Nat) (x : Mod) : (s.setMod n x).freeCtr = s.freeCtr := rfl
@[simp] theorem setMod_hostMem (s : State) (n : Nat) (x : Mod) : (s.setMod n x).hostMem = s.hostMem := rfl
@[simp] theorem setMod_gaf (s : State) (n : Nat) (x : Mod) : (s.setMod n x).gaf = s.gaf := rfl
@[simp] theorem setMod_ring (s : State) (n : Nat) (x : Mod) : (s.setMod n x).ring = s.ring := rfl
@[simp] theorem setMod_pci (s : State) (n : Nat) (x : Mod) : (s.setMod n x).pci = s.pci := rfl
@[simp] theorem setMod_batches (s : State) (n : Nat) (x : Mod) : (s.setMod n x).batches = s.batches := rfl
@[simp] theorem setMod_evtCount (s : State) (n : Nat) (x : Mod) : (s.setMod n x).evtCount = s.evtCount := rfl
@[simp] theorem setMod_tel (s : State) (n : Nat) (x : Mod) : (s.setMod n x).tel = s.tel := rfl
@[simp] theorem setMod_pwr (s : State) (n : Nat) (x : Mod) : (s.setMod n x).pwr = s.pwr := rfl
@[simp] theorem setMod_pwm (s : State) (n : Nat) (x : Mod) : (s.setMod n x).pwm = s.pwm := rfl
@[simp] theorem setMod_vlv (s : State) (n : Nat) (x : Mod) : (s.setMod n x).vlv = s.vlv := rfl
@[simp] theorem setMod_sns (s : State) (n : Nat) (x : Mod) : (s.setMod n x).sns = s.sns := rfl
@[simp] theorem setMod_scan (s : State) (n : Nat) (x : Mod) : (s.setMod n x).scan = s.scan := rfl
@[simp] theorem setMod_mem (s : State) (n : Nat) (x : Mod) : (s.setMod n x).mem = s.mem := rfl
@[simp] theorem setMod_mrv (s : State) (n : Nat) (x : Mod) : (s.setMod n x).mrv = s.mrv := rfl
@[simp] theorem setMod_slots (s : State) (n : Nat) (x : Mod) : (s.setMod n x).slots = s.slots := rfl
@[simp] theorem setMod_jobs (s : State) (n : Nat) (x : Mod) : (s.setMod n x).jobs = s.jobs := rfl
@[simp] theorem setMod_runs (s : State) (n : Nat) (x : Mod) : (s.setMod n x).runs = s.runs := rfl
@[simp] theorem setMod_sig (s : State) (n : Nat) (x : Mod) : (s.setMod n x).sig = s.sig := rfl
@[simp] theorem setMod_ctl (s : State) (n : Nat) (x : Mod) : (s.setMod n x).ctl = s.ctl := rfl
@[simp] theorem setMod_stops (s : State) (n : Nat) (x : Mod) : (s.setMod n x).stops = s.stops := rfl
@[simp] theorem setMod_obs (s : State) (n : Nat) (x : Mod) : (s.setMod n x).obs = s.obs := rfl
@[simp] theorem setMod_tmr (s : State) (n : Nat) (x : Mod) : (s.setMod n x).tmr = s.tmr := rfl
@[simp] theorem setMod_tmrStage (s : State) (n : Nat) (x : Mod) : (s.setMod n x).tmrStage = s.tmrStage := rfl
@[simp] theorem setMod_tmrDue (s : State) (n : Nat) (x : Mod) : (s.setMod n x).tmrDue = s.tmrDue := rfl
@[simp] theorem setMod_aud (s : State) (n : Nat) (x : Mod) : (s.setMod n x).aud = s.aud := rfl
@[simp] theorem setMod_mix (s : State) (n : Nat) (x : Mod) : (s.setMod n x).mix = s.mix := rfl
@[simp] theorem setMod_vis (s : State) (n : Nat) (x : Mod) : (s.setMod n x).vis = s.vis := rfl
@[simp] theorem setMod_usb (s : State) (n : Nat) (x : Mod) : (s.setMod n x).usb = s.usb := rfl
@[simp] theorem setMod_twb (s : State) (n : Nat) (x : Mod) : (s.setMod n x).twb = s.twb := rfl
@[simp] theorem setMod_vxl (s : State) (n : Nat) (x : Mod) : (s.setMod n x).vxl = s.vxl := rfl
@[simp] theorem setMod_fus (s : State) (n : Nat) (x : Mod) : (s.setMod n x).fus = s.fus := rfl
@[simp] theorem setMod_rdata (s : State) (n : Nat) (x : Mod) : (s.setMod n x).rdata = s.rdata := rfl
@[simp] theorem setMod_pending (s : State) (n : Nat) (x : Mod) : (s.setMod n x).pending = s.pending := rfl
@[simp] theorem setMod_reg (s : State) (n : Nat) (x : Mod) (p : Nat) : (s.setMod n x).reg p = s.reg p := rfl
@[simp] theorem setMod_get (s : State) (n : Nat) (x : Mod) (g : Field) : (s.setMod n x).get g = s.get g := rfl
@[simp] theorem setMod_flag (s : State) (n : Nat) (x : Mod) (g : Field) : (s.setMod n x).flag g = s.flag g := rfl

/-! ### setPwm -/

@[simp] theorem setPwm_regs (s : State) (n : Nat) (x : Pwm) : (s.setPwm n x).regs = s.regs := rfl
@[simp] theorem setPwm_act (s : State) (n : Nat) (x : Pwm) : (s.setPwm n x).act = s.act := rfl
@[simp] theorem setPwm_latch (s : State) (n : Nat) (x : Pwm) : (s.setPwm n x).latch = s.latch := rfl
@[simp] theorem setPwm_cyc (s : State) (n : Nat) (x : Pwm) : (s.setPwm n x).cyc = s.cyc := rfl
@[simp] theorem setPwm_seen (s : State) (n : Nat) (x : Pwm) : (s.setPwm n x).seen = s.seen := rfl
@[simp] theorem setPwm_dtime (s : State) (n : Nat) (x : Pwm) : (s.setPwm n x).dtime = s.dtime := rfl
@[simp] theorem setPwm_dtimeOn (s : State) (n : Nat) (x : Pwm) : (s.setPwm n x).dtimeOn = s.dtimeOn := rfl
@[simp] theorem setPwm_freeCtr (s : State) (n : Nat) (x : Pwm) : (s.setPwm n x).freeCtr = s.freeCtr := rfl
@[simp] theorem setPwm_hostMem (s : State) (n : Nat) (x : Pwm) : (s.setPwm n x).hostMem = s.hostMem := rfl
@[simp] theorem setPwm_gaf (s : State) (n : Nat) (x : Pwm) : (s.setPwm n x).gaf = s.gaf := rfl
@[simp] theorem setPwm_ring (s : State) (n : Nat) (x : Pwm) : (s.setPwm n x).ring = s.ring := rfl
@[simp] theorem setPwm_pci (s : State) (n : Nat) (x : Pwm) : (s.setPwm n x).pci = s.pci := rfl
@[simp] theorem setPwm_batches (s : State) (n : Nat) (x : Pwm) : (s.setPwm n x).batches = s.batches := rfl
@[simp] theorem setPwm_evtCount (s : State) (n : Nat) (x : Pwm) : (s.setPwm n x).evtCount = s.evtCount := rfl
@[simp] theorem setPwm_tel (s : State) (n : Nat) (x : Pwm) : (s.setPwm n x).tel = s.tel := rfl
@[simp] theorem setPwm_pwr (s : State) (n : Nat) (x : Pwm) : (s.setPwm n x).pwr = s.pwr := rfl
@[simp] theorem setPwm_vlv (s : State) (n : Nat) (x : Pwm) : (s.setPwm n x).vlv = s.vlv := rfl
@[simp] theorem setPwm_sns (s : State) (n : Nat) (x : Pwm) : (s.setPwm n x).sns = s.sns := rfl
@[simp] theorem setPwm_mods (s : State) (n : Nat) (x : Pwm) : (s.setPwm n x).mods = s.mods := rfl
@[simp] theorem setPwm_scan (s : State) (n : Nat) (x : Pwm) : (s.setPwm n x).scan = s.scan := rfl
@[simp] theorem setPwm_mem (s : State) (n : Nat) (x : Pwm) : (s.setPwm n x).mem = s.mem := rfl
@[simp] theorem setPwm_mrv (s : State) (n : Nat) (x : Pwm) : (s.setPwm n x).mrv = s.mrv := rfl
@[simp] theorem setPwm_slots (s : State) (n : Nat) (x : Pwm) : (s.setPwm n x).slots = s.slots := rfl
@[simp] theorem setPwm_jobs (s : State) (n : Nat) (x : Pwm) : (s.setPwm n x).jobs = s.jobs := rfl
@[simp] theorem setPwm_runs (s : State) (n : Nat) (x : Pwm) : (s.setPwm n x).runs = s.runs := rfl
@[simp] theorem setPwm_sig (s : State) (n : Nat) (x : Pwm) : (s.setPwm n x).sig = s.sig := rfl
@[simp] theorem setPwm_ctl (s : State) (n : Nat) (x : Pwm) : (s.setPwm n x).ctl = s.ctl := rfl
@[simp] theorem setPwm_stops (s : State) (n : Nat) (x : Pwm) : (s.setPwm n x).stops = s.stops := rfl
@[simp] theorem setPwm_obs (s : State) (n : Nat) (x : Pwm) : (s.setPwm n x).obs = s.obs := rfl
@[simp] theorem setPwm_tmr (s : State) (n : Nat) (x : Pwm) : (s.setPwm n x).tmr = s.tmr := rfl
@[simp] theorem setPwm_tmrStage (s : State) (n : Nat) (x : Pwm) : (s.setPwm n x).tmrStage = s.tmrStage := rfl
@[simp] theorem setPwm_tmrDue (s : State) (n : Nat) (x : Pwm) : (s.setPwm n x).tmrDue = s.tmrDue := rfl
@[simp] theorem setPwm_aud (s : State) (n : Nat) (x : Pwm) : (s.setPwm n x).aud = s.aud := rfl
@[simp] theorem setPwm_mix (s : State) (n : Nat) (x : Pwm) : (s.setPwm n x).mix = s.mix := rfl
@[simp] theorem setPwm_vis (s : State) (n : Nat) (x : Pwm) : (s.setPwm n x).vis = s.vis := rfl
@[simp] theorem setPwm_usb (s : State) (n : Nat) (x : Pwm) : (s.setPwm n x).usb = s.usb := rfl
@[simp] theorem setPwm_twb (s : State) (n : Nat) (x : Pwm) : (s.setPwm n x).twb = s.twb := rfl
@[simp] theorem setPwm_vxl (s : State) (n : Nat) (x : Pwm) : (s.setPwm n x).vxl = s.vxl := rfl
@[simp] theorem setPwm_fus (s : State) (n : Nat) (x : Pwm) : (s.setPwm n x).fus = s.fus := rfl
@[simp] theorem setPwm_rdata (s : State) (n : Nat) (x : Pwm) : (s.setPwm n x).rdata = s.rdata := rfl
@[simp] theorem setPwm_pending (s : State) (n : Nat) (x : Pwm) : (s.setPwm n x).pending = s.pending := rfl
@[simp] theorem setPwm_reg (s : State) (n : Nat) (x : Pwm) (p : Nat) : (s.setPwm n x).reg p = s.reg p := rfl
@[simp] theorem setPwm_get (s : State) (n : Nat) (x : Pwm) (g : Field) : (s.setPwm n x).get g = s.get g := rfl
@[simp] theorem setPwm_flag (s : State) (n : Nat) (x : Pwm) (g : Field) : (s.setPwm n x).flag g = s.flag g := rfl

/-! ### setVlv -/

@[simp] theorem setVlv_regs (s : State) (n : Nat) (x : Valve) : (s.setVlv n x).regs = s.regs := rfl
@[simp] theorem setVlv_act (s : State) (n : Nat) (x : Valve) : (s.setVlv n x).act = s.act := rfl
@[simp] theorem setVlv_latch (s : State) (n : Nat) (x : Valve) : (s.setVlv n x).latch = s.latch := rfl
@[simp] theorem setVlv_cyc (s : State) (n : Nat) (x : Valve) : (s.setVlv n x).cyc = s.cyc := rfl
@[simp] theorem setVlv_seen (s : State) (n : Nat) (x : Valve) : (s.setVlv n x).seen = s.seen := rfl
@[simp] theorem setVlv_dtime (s : State) (n : Nat) (x : Valve) : (s.setVlv n x).dtime = s.dtime := rfl
@[simp] theorem setVlv_dtimeOn (s : State) (n : Nat) (x : Valve) : (s.setVlv n x).dtimeOn = s.dtimeOn := rfl
@[simp] theorem setVlv_freeCtr (s : State) (n : Nat) (x : Valve) : (s.setVlv n x).freeCtr = s.freeCtr := rfl
@[simp] theorem setVlv_hostMem (s : State) (n : Nat) (x : Valve) : (s.setVlv n x).hostMem = s.hostMem := rfl
@[simp] theorem setVlv_gaf (s : State) (n : Nat) (x : Valve) : (s.setVlv n x).gaf = s.gaf := rfl
@[simp] theorem setVlv_ring (s : State) (n : Nat) (x : Valve) : (s.setVlv n x).ring = s.ring := rfl
@[simp] theorem setVlv_pci (s : State) (n : Nat) (x : Valve) : (s.setVlv n x).pci = s.pci := rfl
@[simp] theorem setVlv_batches (s : State) (n : Nat) (x : Valve) : (s.setVlv n x).batches = s.batches := rfl
@[simp] theorem setVlv_evtCount (s : State) (n : Nat) (x : Valve) : (s.setVlv n x).evtCount = s.evtCount := rfl
@[simp] theorem setVlv_tel (s : State) (n : Nat) (x : Valve) : (s.setVlv n x).tel = s.tel := rfl
@[simp] theorem setVlv_pwr (s : State) (n : Nat) (x : Valve) : (s.setVlv n x).pwr = s.pwr := rfl
@[simp] theorem setVlv_pwm (s : State) (n : Nat) (x : Valve) : (s.setVlv n x).pwm = s.pwm := rfl
@[simp] theorem setVlv_sns (s : State) (n : Nat) (x : Valve) : (s.setVlv n x).sns = s.sns := rfl
@[simp] theorem setVlv_mods (s : State) (n : Nat) (x : Valve) : (s.setVlv n x).mods = s.mods := rfl
@[simp] theorem setVlv_scan (s : State) (n : Nat) (x : Valve) : (s.setVlv n x).scan = s.scan := rfl
@[simp] theorem setVlv_mem (s : State) (n : Nat) (x : Valve) : (s.setVlv n x).mem = s.mem := rfl
@[simp] theorem setVlv_mrv (s : State) (n : Nat) (x : Valve) : (s.setVlv n x).mrv = s.mrv := rfl
@[simp] theorem setVlv_slots (s : State) (n : Nat) (x : Valve) : (s.setVlv n x).slots = s.slots := rfl
@[simp] theorem setVlv_jobs (s : State) (n : Nat) (x : Valve) : (s.setVlv n x).jobs = s.jobs := rfl
@[simp] theorem setVlv_runs (s : State) (n : Nat) (x : Valve) : (s.setVlv n x).runs = s.runs := rfl
@[simp] theorem setVlv_sig (s : State) (n : Nat) (x : Valve) : (s.setVlv n x).sig = s.sig := rfl
@[simp] theorem setVlv_ctl (s : State) (n : Nat) (x : Valve) : (s.setVlv n x).ctl = s.ctl := rfl
@[simp] theorem setVlv_stops (s : State) (n : Nat) (x : Valve) : (s.setVlv n x).stops = s.stops := rfl
@[simp] theorem setVlv_obs (s : State) (n : Nat) (x : Valve) : (s.setVlv n x).obs = s.obs := rfl
@[simp] theorem setVlv_tmr (s : State) (n : Nat) (x : Valve) : (s.setVlv n x).tmr = s.tmr := rfl
@[simp] theorem setVlv_tmrStage (s : State) (n : Nat) (x : Valve) : (s.setVlv n x).tmrStage = s.tmrStage := rfl
@[simp] theorem setVlv_tmrDue (s : State) (n : Nat) (x : Valve) : (s.setVlv n x).tmrDue = s.tmrDue := rfl
@[simp] theorem setVlv_aud (s : State) (n : Nat) (x : Valve) : (s.setVlv n x).aud = s.aud := rfl
@[simp] theorem setVlv_mix (s : State) (n : Nat) (x : Valve) : (s.setVlv n x).mix = s.mix := rfl
@[simp] theorem setVlv_vis (s : State) (n : Nat) (x : Valve) : (s.setVlv n x).vis = s.vis := rfl
@[simp] theorem setVlv_usb (s : State) (n : Nat) (x : Valve) : (s.setVlv n x).usb = s.usb := rfl
@[simp] theorem setVlv_twb (s : State) (n : Nat) (x : Valve) : (s.setVlv n x).twb = s.twb := rfl
@[simp] theorem setVlv_vxl (s : State) (n : Nat) (x : Valve) : (s.setVlv n x).vxl = s.vxl := rfl
@[simp] theorem setVlv_fus (s : State) (n : Nat) (x : Valve) : (s.setVlv n x).fus = s.fus := rfl
@[simp] theorem setVlv_rdata (s : State) (n : Nat) (x : Valve) : (s.setVlv n x).rdata = s.rdata := rfl
@[simp] theorem setVlv_pending (s : State) (n : Nat) (x : Valve) : (s.setVlv n x).pending = s.pending := rfl
@[simp] theorem setVlv_reg (s : State) (n : Nat) (x : Valve) (p : Nat) : (s.setVlv n x).reg p = s.reg p := rfl
@[simp] theorem setVlv_get (s : State) (n : Nat) (x : Valve) (g : Field) : (s.setVlv n x).get g = s.get g := rfl
@[simp] theorem setVlv_flag (s : State) (n : Nat) (x : Valve) (g : Field) : (s.setVlv n x).flag g = s.flag g := rfl

/-! ### setTmr -/

@[simp] theorem setTmr_regs (s : State) (n : Nat) (x : Tmr) : (s.setTmr n x).regs = s.regs := rfl
@[simp] theorem setTmr_act (s : State) (n : Nat) (x : Tmr) : (s.setTmr n x).act = s.act := rfl
@[simp] theorem setTmr_latch (s : State) (n : Nat) (x : Tmr) : (s.setTmr n x).latch = s.latch := rfl
@[simp] theorem setTmr_cyc (s : State) (n : Nat) (x : Tmr) : (s.setTmr n x).cyc = s.cyc := rfl
@[simp] theorem setTmr_seen (s : State) (n : Nat) (x : Tmr) : (s.setTmr n x).seen = s.seen := rfl
@[simp] theorem setTmr_dtime (s : State) (n : Nat) (x : Tmr) : (s.setTmr n x).dtime = s.dtime := rfl
@[simp] theorem setTmr_dtimeOn (s : State) (n : Nat) (x : Tmr) : (s.setTmr n x).dtimeOn = s.dtimeOn := rfl
@[simp] theorem setTmr_freeCtr (s : State) (n : Nat) (x : Tmr) : (s.setTmr n x).freeCtr = s.freeCtr := rfl
@[simp] theorem setTmr_hostMem (s : State) (n : Nat) (x : Tmr) : (s.setTmr n x).hostMem = s.hostMem := rfl
@[simp] theorem setTmr_gaf (s : State) (n : Nat) (x : Tmr) : (s.setTmr n x).gaf = s.gaf := rfl
@[simp] theorem setTmr_ring (s : State) (n : Nat) (x : Tmr) : (s.setTmr n x).ring = s.ring := rfl
@[simp] theorem setTmr_pci (s : State) (n : Nat) (x : Tmr) : (s.setTmr n x).pci = s.pci := rfl
@[simp] theorem setTmr_batches (s : State) (n : Nat) (x : Tmr) : (s.setTmr n x).batches = s.batches := rfl
@[simp] theorem setTmr_evtCount (s : State) (n : Nat) (x : Tmr) : (s.setTmr n x).evtCount = s.evtCount := rfl
@[simp] theorem setTmr_tel (s : State) (n : Nat) (x : Tmr) : (s.setTmr n x).tel = s.tel := rfl
@[simp] theorem setTmr_pwr (s : State) (n : Nat) (x : Tmr) : (s.setTmr n x).pwr = s.pwr := rfl
@[simp] theorem setTmr_pwm (s : State) (n : Nat) (x : Tmr) : (s.setTmr n x).pwm = s.pwm := rfl
@[simp] theorem setTmr_vlv (s : State) (n : Nat) (x : Tmr) : (s.setTmr n x).vlv = s.vlv := rfl
@[simp] theorem setTmr_sns (s : State) (n : Nat) (x : Tmr) : (s.setTmr n x).sns = s.sns := rfl
@[simp] theorem setTmr_mods (s : State) (n : Nat) (x : Tmr) : (s.setTmr n x).mods = s.mods := rfl
@[simp] theorem setTmr_scan (s : State) (n : Nat) (x : Tmr) : (s.setTmr n x).scan = s.scan := rfl
@[simp] theorem setTmr_mem (s : State) (n : Nat) (x : Tmr) : (s.setTmr n x).mem = s.mem := rfl
@[simp] theorem setTmr_mrv (s : State) (n : Nat) (x : Tmr) : (s.setTmr n x).mrv = s.mrv := rfl
@[simp] theorem setTmr_slots (s : State) (n : Nat) (x : Tmr) : (s.setTmr n x).slots = s.slots := rfl
@[simp] theorem setTmr_jobs (s : State) (n : Nat) (x : Tmr) : (s.setTmr n x).jobs = s.jobs := rfl
@[simp] theorem setTmr_runs (s : State) (n : Nat) (x : Tmr) : (s.setTmr n x).runs = s.runs := rfl
@[simp] theorem setTmr_sig (s : State) (n : Nat) (x : Tmr) : (s.setTmr n x).sig = s.sig := rfl
@[simp] theorem setTmr_ctl (s : State) (n : Nat) (x : Tmr) : (s.setTmr n x).ctl = s.ctl := rfl
@[simp] theorem setTmr_stops (s : State) (n : Nat) (x : Tmr) : (s.setTmr n x).stops = s.stops := rfl
@[simp] theorem setTmr_obs (s : State) (n : Nat) (x : Tmr) : (s.setTmr n x).obs = s.obs := rfl
@[simp] theorem setTmr_tmrStage (s : State) (n : Nat) (x : Tmr) : (s.setTmr n x).tmrStage = s.tmrStage := rfl
@[simp] theorem setTmr_tmrDue (s : State) (n : Nat) (x : Tmr) : (s.setTmr n x).tmrDue = s.tmrDue := rfl
@[simp] theorem setTmr_aud (s : State) (n : Nat) (x : Tmr) : (s.setTmr n x).aud = s.aud := rfl
@[simp] theorem setTmr_mix (s : State) (n : Nat) (x : Tmr) : (s.setTmr n x).mix = s.mix := rfl
@[simp] theorem setTmr_vis (s : State) (n : Nat) (x : Tmr) : (s.setTmr n x).vis = s.vis := rfl
@[simp] theorem setTmr_usb (s : State) (n : Nat) (x : Tmr) : (s.setTmr n x).usb = s.usb := rfl
@[simp] theorem setTmr_twb (s : State) (n : Nat) (x : Tmr) : (s.setTmr n x).twb = s.twb := rfl
@[simp] theorem setTmr_vxl (s : State) (n : Nat) (x : Tmr) : (s.setTmr n x).vxl = s.vxl := rfl
@[simp] theorem setTmr_fus (s : State) (n : Nat) (x : Tmr) : (s.setTmr n x).fus = s.fus := rfl
@[simp] theorem setTmr_rdata (s : State) (n : Nat) (x : Tmr) : (s.setTmr n x).rdata = s.rdata := rfl
@[simp] theorem setTmr_pending (s : State) (n : Nat) (x : Tmr) : (s.setTmr n x).pending = s.pending := rfl
@[simp] theorem setTmr_reg (s : State) (n : Nat) (x : Tmr) (p : Nat) : (s.setTmr n x).reg p = s.reg p := rfl
@[simp] theorem setTmr_get (s : State) (n : Nat) (x : Tmr) (g : Field) : (s.setTmr n x).get g = s.get g := rfl
@[simp] theorem setTmr_flag (s : State) (n : Nat) (x : Tmr) (g : Field) : (s.setTmr n x).flag g = s.flag g := rfl

/-! ### setTwb -/

@[simp] theorem setTwb_regs (s : State) (n : Nat) (x : Twb) : (s.setTwb n x).regs = s.regs := rfl
@[simp] theorem setTwb_act (s : State) (n : Nat) (x : Twb) : (s.setTwb n x).act = s.act := rfl
@[simp] theorem setTwb_latch (s : State) (n : Nat) (x : Twb) : (s.setTwb n x).latch = s.latch := rfl
@[simp] theorem setTwb_cyc (s : State) (n : Nat) (x : Twb) : (s.setTwb n x).cyc = s.cyc := rfl
@[simp] theorem setTwb_seen (s : State) (n : Nat) (x : Twb) : (s.setTwb n x).seen = s.seen := rfl
@[simp] theorem setTwb_dtime (s : State) (n : Nat) (x : Twb) : (s.setTwb n x).dtime = s.dtime := rfl
@[simp] theorem setTwb_dtimeOn (s : State) (n : Nat) (x : Twb) : (s.setTwb n x).dtimeOn = s.dtimeOn := rfl
@[simp] theorem setTwb_freeCtr (s : State) (n : Nat) (x : Twb) : (s.setTwb n x).freeCtr = s.freeCtr := rfl
@[simp] theorem setTwb_hostMem (s : State) (n : Nat) (x : Twb) : (s.setTwb n x).hostMem = s.hostMem := rfl
@[simp] theorem setTwb_gaf (s : State) (n : Nat) (x : Twb) : (s.setTwb n x).gaf = s.gaf := rfl
@[simp] theorem setTwb_ring (s : State) (n : Nat) (x : Twb) : (s.setTwb n x).ring = s.ring := rfl
@[simp] theorem setTwb_pci (s : State) (n : Nat) (x : Twb) : (s.setTwb n x).pci = s.pci := rfl
@[simp] theorem setTwb_batches (s : State) (n : Nat) (x : Twb) : (s.setTwb n x).batches = s.batches := rfl
@[simp] theorem setTwb_evtCount (s : State) (n : Nat) (x : Twb) : (s.setTwb n x).evtCount = s.evtCount := rfl
@[simp] theorem setTwb_tel (s : State) (n : Nat) (x : Twb) : (s.setTwb n x).tel = s.tel := rfl
@[simp] theorem setTwb_pwr (s : State) (n : Nat) (x : Twb) : (s.setTwb n x).pwr = s.pwr := rfl
@[simp] theorem setTwb_pwm (s : State) (n : Nat) (x : Twb) : (s.setTwb n x).pwm = s.pwm := rfl
@[simp] theorem setTwb_vlv (s : State) (n : Nat) (x : Twb) : (s.setTwb n x).vlv = s.vlv := rfl
@[simp] theorem setTwb_sns (s : State) (n : Nat) (x : Twb) : (s.setTwb n x).sns = s.sns := rfl
@[simp] theorem setTwb_mods (s : State) (n : Nat) (x : Twb) : (s.setTwb n x).mods = s.mods := rfl
@[simp] theorem setTwb_scan (s : State) (n : Nat) (x : Twb) : (s.setTwb n x).scan = s.scan := rfl
@[simp] theorem setTwb_mem (s : State) (n : Nat) (x : Twb) : (s.setTwb n x).mem = s.mem := rfl
@[simp] theorem setTwb_mrv (s : State) (n : Nat) (x : Twb) : (s.setTwb n x).mrv = s.mrv := rfl
@[simp] theorem setTwb_slots (s : State) (n : Nat) (x : Twb) : (s.setTwb n x).slots = s.slots := rfl
@[simp] theorem setTwb_jobs (s : State) (n : Nat) (x : Twb) : (s.setTwb n x).jobs = s.jobs := rfl
@[simp] theorem setTwb_runs (s : State) (n : Nat) (x : Twb) : (s.setTwb n x).runs = s.runs := rfl
@[simp] theorem setTwb_sig (s : State) (n : Nat) (x : Twb) : (s.setTwb n x).sig = s.sig := rfl
@[simp] theorem setTwb_ctl (s : State) (n : Nat) (x : Twb) : (s.setTwb n x).ctl = s.ctl := rfl
@[simp] theorem setTwb_stops (s : State) (n : Nat) (x : Twb) : (s.setTwb n x).stops = s.stops := rfl
@[simp] theorem setTwb_obs (s : State) (n : Nat) (x : Twb) : (s.setTwb n x).obs = s.obs := rfl
@[simp] theorem setTwb_tmr (s : State) (n : Nat) (x : Twb) : (s.setTwb n x).tmr = s.tmr := rfl
@[simp] theorem setTwb_tmrStage (s : State) (n : Nat) (x : Twb) : (s.setTwb n x).tmrStage = s.tmrStage := rfl
@[simp] theorem setTwb_tmrDue (s : State) (n : Nat) (x : Twb) : (s.setTwb n x).tmrDue = s.tmrDue := rfl
@[simp] theorem setTwb_aud (s : State) (n : Nat) (x : Twb) : (s.setTwb n x).aud = s.aud := rfl
@[simp] theorem setTwb_mix (s : State) (n : Nat) (x : Twb) : (s.setTwb n x).mix = s.mix := rfl
@[simp] theorem setTwb_vis (s : State) (n : Nat) (x : Twb) : (s.setTwb n x).vis = s.vis := rfl
@[simp] theorem setTwb_usb (s : State) (n : Nat) (x : Twb) : (s.setTwb n x).usb = s.usb := rfl
@[simp] theorem setTwb_vxl (s : State) (n : Nat) (x : Twb) : (s.setTwb n x).vxl = s.vxl := rfl
@[simp] theorem setTwb_fus (s : State) (n : Nat) (x : Twb) : (s.setTwb n x).fus = s.fus := rfl
@[simp] theorem setTwb_rdata (s : State) (n : Nat) (x : Twb) : (s.setTwb n x).rdata = s.rdata := rfl
@[simp] theorem setTwb_pending (s : State) (n : Nat) (x : Twb) : (s.setTwb n x).pending = s.pending := rfl
@[simp] theorem setTwb_reg (s : State) (n : Nat) (x : Twb) (p : Nat) : (s.setTwb n x).reg p = s.reg p := rfl
@[simp] theorem setTwb_get (s : State) (n : Nat) (x : Twb) (g : Field) : (s.setTwb n x).get g = s.get g := rfl
@[simp] theorem setTwb_flag (s : State) (n : Nat) (x : Twb) (g : Field) : (s.setTwb n x).flag g = s.flag g := rfl

/-! ### setUsb -/

@[simp] theorem setUsb_regs (s : State) (x : Usb) : (s.setUsb x).regs = s.regs := rfl
@[simp] theorem setUsb_act (s : State) (x : Usb) : (s.setUsb x).act = s.act := rfl
@[simp] theorem setUsb_latch (s : State) (x : Usb) : (s.setUsb x).latch = s.latch := rfl
@[simp] theorem setUsb_cyc (s : State) (x : Usb) : (s.setUsb x).cyc = s.cyc := rfl
@[simp] theorem setUsb_seen (s : State) (x : Usb) : (s.setUsb x).seen = s.seen := rfl
@[simp] theorem setUsb_dtime (s : State) (x : Usb) : (s.setUsb x).dtime = s.dtime := rfl
@[simp] theorem setUsb_dtimeOn (s : State) (x : Usb) : (s.setUsb x).dtimeOn = s.dtimeOn := rfl
@[simp] theorem setUsb_freeCtr (s : State) (x : Usb) : (s.setUsb x).freeCtr = s.freeCtr := rfl
@[simp] theorem setUsb_hostMem (s : State) (x : Usb) : (s.setUsb x).hostMem = s.hostMem := rfl
@[simp] theorem setUsb_gaf (s : State) (x : Usb) : (s.setUsb x).gaf = s.gaf := rfl
@[simp] theorem setUsb_ring (s : State) (x : Usb) : (s.setUsb x).ring = s.ring := rfl
@[simp] theorem setUsb_pci (s : State) (x : Usb) : (s.setUsb x).pci = s.pci := rfl
@[simp] theorem setUsb_batches (s : State) (x : Usb) : (s.setUsb x).batches = s.batches := rfl
@[simp] theorem setUsb_evtCount (s : State) (x : Usb) : (s.setUsb x).evtCount = s.evtCount := rfl
@[simp] theorem setUsb_tel (s : State) (x : Usb) : (s.setUsb x).tel = s.tel := rfl
@[simp] theorem setUsb_pwr (s : State) (x : Usb) : (s.setUsb x).pwr = s.pwr := rfl
@[simp] theorem setUsb_pwm (s : State) (x : Usb) : (s.setUsb x).pwm = s.pwm := rfl
@[simp] theorem setUsb_vlv (s : State) (x : Usb) : (s.setUsb x).vlv = s.vlv := rfl
@[simp] theorem setUsb_sns (s : State) (x : Usb) : (s.setUsb x).sns = s.sns := rfl
@[simp] theorem setUsb_mods (s : State) (x : Usb) : (s.setUsb x).mods = s.mods := rfl
@[simp] theorem setUsb_scan (s : State) (x : Usb) : (s.setUsb x).scan = s.scan := rfl
@[simp] theorem setUsb_mem (s : State) (x : Usb) : (s.setUsb x).mem = s.mem := rfl
@[simp] theorem setUsb_mrv (s : State) (x : Usb) : (s.setUsb x).mrv = s.mrv := rfl
@[simp] theorem setUsb_slots (s : State) (x : Usb) : (s.setUsb x).slots = s.slots := rfl
@[simp] theorem setUsb_jobs (s : State) (x : Usb) : (s.setUsb x).jobs = s.jobs := rfl
@[simp] theorem setUsb_runs (s : State) (x : Usb) : (s.setUsb x).runs = s.runs := rfl
@[simp] theorem setUsb_sig (s : State) (x : Usb) : (s.setUsb x).sig = s.sig := rfl
@[simp] theorem setUsb_ctl (s : State) (x : Usb) : (s.setUsb x).ctl = s.ctl := rfl
@[simp] theorem setUsb_stops (s : State) (x : Usb) : (s.setUsb x).stops = s.stops := rfl
@[simp] theorem setUsb_obs (s : State) (x : Usb) : (s.setUsb x).obs = s.obs := rfl
@[simp] theorem setUsb_tmr (s : State) (x : Usb) : (s.setUsb x).tmr = s.tmr := rfl
@[simp] theorem setUsb_tmrStage (s : State) (x : Usb) : (s.setUsb x).tmrStage = s.tmrStage := rfl
@[simp] theorem setUsb_tmrDue (s : State) (x : Usb) : (s.setUsb x).tmrDue = s.tmrDue := rfl
@[simp] theorem setUsb_aud (s : State) (x : Usb) : (s.setUsb x).aud = s.aud := rfl
@[simp] theorem setUsb_mix (s : State) (x : Usb) : (s.setUsb x).mix = s.mix := rfl
@[simp] theorem setUsb_vis (s : State) (x : Usb) : (s.setUsb x).vis = s.vis := rfl
@[simp] theorem setUsb_twb (s : State) (x : Usb) : (s.setUsb x).twb = s.twb := rfl
@[simp] theorem setUsb_vxl (s : State) (x : Usb) : (s.setUsb x).vxl = s.vxl := rfl
@[simp] theorem setUsb_fus (s : State) (x : Usb) : (s.setUsb x).fus = s.fus := rfl
@[simp] theorem setUsb_rdata (s : State) (x : Usb) : (s.setUsb x).rdata = s.rdata := rfl
@[simp] theorem setUsb_pending (s : State) (x : Usb) : (s.setUsb x).pending = s.pending := rfl
@[simp] theorem setUsb_reg (s : State) (x : Usb) (p : Nat) : (s.setUsb x).reg p = s.reg p := rfl
@[simp] theorem setUsb_get (s : State) (x : Usb) (g : Field) : (s.setUsb x).get g = s.get g := rfl
@[simp] theorem setUsb_flag (s : State) (x : Usb) (g : Field) : (s.setUsb x).flag g = s.flag g := rfl

/-! ### setVxl -/

@[simp] theorem setVxl_regs (s : State) (x : Vxl) : (s.setVxl x).regs = s.regs := rfl
@[simp] theorem setVxl_act (s : State) (x : Vxl) : (s.setVxl x).act = s.act := rfl
@[simp] theorem setVxl_latch (s : State) (x : Vxl) : (s.setVxl x).latch = s.latch := rfl
@[simp] theorem setVxl_cyc (s : State) (x : Vxl) : (s.setVxl x).cyc = s.cyc := rfl
@[simp] theorem setVxl_seen (s : State) (x : Vxl) : (s.setVxl x).seen = s.seen := rfl
@[simp] theorem setVxl_dtime (s : State) (x : Vxl) : (s.setVxl x).dtime = s.dtime := rfl
@[simp] theorem setVxl_dtimeOn (s : State) (x : Vxl) : (s.setVxl x).dtimeOn = s.dtimeOn := rfl
@[simp] theorem setVxl_freeCtr (s : State) (x : Vxl) : (s.setVxl x).freeCtr = s.freeCtr := rfl
@[simp] theorem setVxl_hostMem (s : State) (x : Vxl) : (s.setVxl x).hostMem = s.hostMem := rfl
@[simp] theorem setVxl_gaf (s : State) (x : Vxl) : (s.setVxl x).gaf = s.gaf := rfl
@[simp] theorem setVxl_ring (s : State) (x : Vxl) : (s.setVxl x).ring = s.ring := rfl
@[simp] theorem setVxl_pci (s : State) (x : Vxl) : (s.setVxl x).pci = s.pci := rfl
@[simp] theorem setVxl_batches (s : State) (x : Vxl) : (s.setVxl x).batches = s.batches := rfl
@[simp] theorem setVxl_evtCount (s : State) (x : Vxl) : (s.setVxl x).evtCount = s.evtCount := rfl
@[simp] theorem setVxl_tel (s : State) (x : Vxl) : (s.setVxl x).tel = s.tel := rfl
@[simp] theorem setVxl_pwr (s : State) (x : Vxl) : (s.setVxl x).pwr = s.pwr := rfl
@[simp] theorem setVxl_pwm (s : State) (x : Vxl) : (s.setVxl x).pwm = s.pwm := rfl
@[simp] theorem setVxl_vlv (s : State) (x : Vxl) : (s.setVxl x).vlv = s.vlv := rfl
@[simp] theorem setVxl_sns (s : State) (x : Vxl) : (s.setVxl x).sns = s.sns := rfl
@[simp] theorem setVxl_mods (s : State) (x : Vxl) : (s.setVxl x).mods = s.mods := rfl
@[simp] theorem setVxl_scan (s : State) (x : Vxl) : (s.setVxl x).scan = s.scan := rfl
@[simp] theorem setVxl_mem (s : State) (x : Vxl) : (s.setVxl x).mem = s.mem := rfl
@[simp] theorem setVxl_mrv (s : State) (x : Vxl) : (s.setVxl x).mrv = s.mrv := rfl
@[simp] theorem setVxl_slots (s : State) (x : Vxl) : (s.setVxl x).slots = s.slots := rfl
@[simp] theorem setVxl_jobs (s : State) (x : Vxl) : (s.setVxl x).jobs = s.jobs := rfl
@[simp] theorem setVxl_runs (s : State) (x : Vxl) : (s.setVxl x).runs = s.runs := rfl
@[simp] theorem setVxl_sig (s : State) (x : Vxl) : (s.setVxl x).sig = s.sig := rfl
@[simp] theorem setVxl_ctl (s : State) (x : Vxl) : (s.setVxl x).ctl = s.ctl := rfl
@[simp] theorem setVxl_stops (s : State) (x : Vxl) : (s.setVxl x).stops = s.stops := rfl
@[simp] theorem setVxl_obs (s : State) (x : Vxl) : (s.setVxl x).obs = s.obs := rfl
@[simp] theorem setVxl_tmr (s : State) (x : Vxl) : (s.setVxl x).tmr = s.tmr := rfl
@[simp] theorem setVxl_tmrStage (s : State) (x : Vxl) : (s.setVxl x).tmrStage = s.tmrStage := rfl
@[simp] theorem setVxl_tmrDue (s : State) (x : Vxl) : (s.setVxl x).tmrDue = s.tmrDue := rfl
@[simp] theorem setVxl_aud (s : State) (x : Vxl) : (s.setVxl x).aud = s.aud := rfl
@[simp] theorem setVxl_mix (s : State) (x : Vxl) : (s.setVxl x).mix = s.mix := rfl
@[simp] theorem setVxl_vis (s : State) (x : Vxl) : (s.setVxl x).vis = s.vis := rfl
@[simp] theorem setVxl_usb (s : State) (x : Vxl) : (s.setVxl x).usb = s.usb := rfl
@[simp] theorem setVxl_twb (s : State) (x : Vxl) : (s.setVxl x).twb = s.twb := rfl
@[simp] theorem setVxl_fus (s : State) (x : Vxl) : (s.setVxl x).fus = s.fus := rfl
@[simp] theorem setVxl_rdata (s : State) (x : Vxl) : (s.setVxl x).rdata = s.rdata := rfl
@[simp] theorem setVxl_pending (s : State) (x : Vxl) : (s.setVxl x).pending = s.pending := rfl
@[simp] theorem setVxl_reg (s : State) (x : Vxl) (p : Nat) : (s.setVxl x).reg p = s.reg p := rfl
@[simp] theorem setVxl_get (s : State) (x : Vxl) (g : Field) : (s.setVxl x).get g = s.get g := rfl
@[simp] theorem setVxl_flag (s : State) (x : Vxl) (g : Field) : (s.setVxl x).flag g = s.flag g := rfl

/-! ### setMix -/

@[simp] theorem setMix_regs (s : State) (x : Mix) : (s.setMix x).regs = s.regs := rfl
@[simp] theorem setMix_act (s : State) (x : Mix) : (s.setMix x).act = s.act := rfl
@[simp] theorem setMix_latch (s : State) (x : Mix) : (s.setMix x).latch = s.latch := rfl
@[simp] theorem setMix_cyc (s : State) (x : Mix) : (s.setMix x).cyc = s.cyc := rfl
@[simp] theorem setMix_seen (s : State) (x : Mix) : (s.setMix x).seen = s.seen := rfl
@[simp] theorem setMix_dtime (s : State) (x : Mix) : (s.setMix x).dtime = s.dtime := rfl
@[simp] theorem setMix_dtimeOn (s : State) (x : Mix) : (s.setMix x).dtimeOn = s.dtimeOn := rfl
@[simp] theorem setMix_freeCtr (s : State) (x : Mix) : (s.setMix x).freeCtr = s.freeCtr := rfl
@[simp] theorem setMix_hostMem (s : State) (x : Mix) : (s.setMix x).hostMem = s.hostMem := rfl
@[simp] theorem setMix_gaf (s : State) (x : Mix) : (s.setMix x).gaf = s.gaf := rfl
@[simp] theorem setMix_ring (s : State) (x : Mix) : (s.setMix x).ring = s.ring := rfl
@[simp] theorem setMix_pci (s : State) (x : Mix) : (s.setMix x).pci = s.pci := rfl
@[simp] theorem setMix_batches (s : State) (x : Mix) : (s.setMix x).batches = s.batches := rfl
@[simp] theorem setMix_evtCount (s : State) (x : Mix) : (s.setMix x).evtCount = s.evtCount := rfl
@[simp] theorem setMix_tel (s : State) (x : Mix) : (s.setMix x).tel = s.tel := rfl
@[simp] theorem setMix_pwr (s : State) (x : Mix) : (s.setMix x).pwr = s.pwr := rfl
@[simp] theorem setMix_pwm (s : State) (x : Mix) : (s.setMix x).pwm = s.pwm := rfl
@[simp] theorem setMix_vlv (s : State) (x : Mix) : (s.setMix x).vlv = s.vlv := rfl
@[simp] theorem setMix_sns (s : State) (x : Mix) : (s.setMix x).sns = s.sns := rfl
@[simp] theorem setMix_mods (s : State) (x : Mix) : (s.setMix x).mods = s.mods := rfl
@[simp] theorem setMix_scan (s : State) (x : Mix) : (s.setMix x).scan = s.scan := rfl
@[simp] theorem setMix_mem (s : State) (x : Mix) : (s.setMix x).mem = s.mem := rfl
@[simp] theorem setMix_mrv (s : State) (x : Mix) : (s.setMix x).mrv = s.mrv := rfl
@[simp] theorem setMix_slots (s : State) (x : Mix) : (s.setMix x).slots = s.slots := rfl
@[simp] theorem setMix_jobs (s : State) (x : Mix) : (s.setMix x).jobs = s.jobs := rfl
@[simp] theorem setMix_runs (s : State) (x : Mix) : (s.setMix x).runs = s.runs := rfl
@[simp] theorem setMix_sig (s : State) (x : Mix) : (s.setMix x).sig = s.sig := rfl
@[simp] theorem setMix_ctl (s : State) (x : Mix) : (s.setMix x).ctl = s.ctl := rfl
@[simp] theorem setMix_stops (s : State) (x : Mix) : (s.setMix x).stops = s.stops := rfl
@[simp] theorem setMix_obs (s : State) (x : Mix) : (s.setMix x).obs = s.obs := rfl
@[simp] theorem setMix_tmr (s : State) (x : Mix) : (s.setMix x).tmr = s.tmr := rfl
@[simp] theorem setMix_tmrStage (s : State) (x : Mix) : (s.setMix x).tmrStage = s.tmrStage := rfl
@[simp] theorem setMix_tmrDue (s : State) (x : Mix) : (s.setMix x).tmrDue = s.tmrDue := rfl
@[simp] theorem setMix_aud (s : State) (x : Mix) : (s.setMix x).aud = s.aud := rfl
@[simp] theorem setMix_vis (s : State) (x : Mix) : (s.setMix x).vis = s.vis := rfl
@[simp] theorem setMix_usb (s : State) (x : Mix) : (s.setMix x).usb = s.usb := rfl
@[simp] theorem setMix_twb (s : State) (x : Mix) : (s.setMix x).twb = s.twb := rfl
@[simp] theorem setMix_vxl (s : State) (x : Mix) : (s.setMix x).vxl = s.vxl := rfl
@[simp] theorem setMix_fus (s : State) (x : Mix) : (s.setMix x).fus = s.fus := rfl
@[simp] theorem setMix_rdata (s : State) (x : Mix) : (s.setMix x).rdata = s.rdata := rfl
@[simp] theorem setMix_pending (s : State) (x : Mix) : (s.setMix x).pending = s.pending := rfl
@[simp] theorem setMix_reg (s : State) (x : Mix) (p : Nat) : (s.setMix x).reg p = s.reg p := rfl
@[simp] theorem setMix_get (s : State) (x : Mix) (g : Field) : (s.setMix x).get g = s.get g := rfl
@[simp] theorem setMix_flag (s : State) (x : Mix) (g : Field) : (s.setMix x).flag g = s.flag g := rfl

/-! ### setVis -/

@[simp] theorem setVis_regs (s : State) (x : Vis) : (s.setVis x).regs = s.regs := rfl
@[simp] theorem setVis_act (s : State) (x : Vis) : (s.setVis x).act = s.act := rfl
@[simp] theorem setVis_latch (s : State) (x : Vis) : (s.setVis x).latch = s.latch := rfl
@[simp] theorem setVis_cyc (s : State) (x : Vis) : (s.setVis x).cyc = s.cyc := rfl
@[simp] theorem setVis_seen (s : State) (x : Vis) : (s.setVis x).seen = s.seen := rfl
@[simp] theorem setVis_dtime (s : State) (x : Vis) : (s.setVis x).dtime = s.dtime := rfl
@[simp] theorem setVis_dtimeOn (s : State) (x : Vis) : (s.setVis x).dtimeOn = s.dtimeOn := rfl
@[simp] theorem setVis_freeCtr (s : State) (x : Vis) : (s.setVis x).freeCtr = s.freeCtr := rfl
@[simp] theorem setVis_hostMem (s : State) (x : Vis) : (s.setVis x).hostMem = s.hostMem := rfl
@[simp] theorem setVis_gaf (s : State) (x : Vis) : (s.setVis x).gaf = s.gaf := rfl
@[simp] theorem setVis_ring (s : State) (x : Vis) : (s.setVis x).ring = s.ring := rfl
@[simp] theorem setVis_pci (s : State) (x : Vis) : (s.setVis x).pci = s.pci := rfl
@[simp] theorem setVis_batches (s : State) (x : Vis) : (s.setVis x).batches = s.batches := rfl
@[simp] theorem setVis_evtCount (s : State) (x : Vis) : (s.setVis x).evtCount = s.evtCount := rfl
@[simp] theorem setVis_tel (s : State) (x : Vis) : (s.setVis x).tel = s.tel := rfl
@[simp] theorem setVis_pwr (s : State) (x : Vis) : (s.setVis x).pwr = s.pwr := rfl
@[simp] theorem setVis_pwm (s : State) (x : Vis) : (s.setVis x).pwm = s.pwm := rfl
@[simp] theorem setVis_vlv (s : State) (x : Vis) : (s.setVis x).vlv = s.vlv := rfl
@[simp] theorem setVis_sns (s : State) (x : Vis) : (s.setVis x).sns = s.sns := rfl
@[simp] theorem setVis_mods (s : State) (x : Vis) : (s.setVis x).mods = s.mods := rfl
@[simp] theorem setVis_scan (s : State) (x : Vis) : (s.setVis x).scan = s.scan := rfl
@[simp] theorem setVis_mem (s : State) (x : Vis) : (s.setVis x).mem = s.mem := rfl
@[simp] theorem setVis_mrv (s : State) (x : Vis) : (s.setVis x).mrv = s.mrv := rfl
@[simp] theorem setVis_slots (s : State) (x : Vis) : (s.setVis x).slots = s.slots := rfl
@[simp] theorem setVis_jobs (s : State) (x : Vis) : (s.setVis x).jobs = s.jobs := rfl
@[simp] theorem setVis_runs (s : State) (x : Vis) : (s.setVis x).runs = s.runs := rfl
@[simp] theorem setVis_sig (s : State) (x : Vis) : (s.setVis x).sig = s.sig := rfl
@[simp] theorem setVis_ctl (s : State) (x : Vis) : (s.setVis x).ctl = s.ctl := rfl
@[simp] theorem setVis_stops (s : State) (x : Vis) : (s.setVis x).stops = s.stops := rfl
@[simp] theorem setVis_obs (s : State) (x : Vis) : (s.setVis x).obs = s.obs := rfl
@[simp] theorem setVis_tmr (s : State) (x : Vis) : (s.setVis x).tmr = s.tmr := rfl
@[simp] theorem setVis_tmrStage (s : State) (x : Vis) : (s.setVis x).tmrStage = s.tmrStage := rfl
@[simp] theorem setVis_tmrDue (s : State) (x : Vis) : (s.setVis x).tmrDue = s.tmrDue := rfl
@[simp] theorem setVis_aud (s : State) (x : Vis) : (s.setVis x).aud = s.aud := rfl
@[simp] theorem setVis_mix (s : State) (x : Vis) : (s.setVis x).mix = s.mix := rfl
@[simp] theorem setVis_usb (s : State) (x : Vis) : (s.setVis x).usb = s.usb := rfl
@[simp] theorem setVis_twb (s : State) (x : Vis) : (s.setVis x).twb = s.twb := rfl
@[simp] theorem setVis_vxl (s : State) (x : Vis) : (s.setVis x).vxl = s.vxl := rfl
@[simp] theorem setVis_fus (s : State) (x : Vis) : (s.setVis x).fus = s.fus := rfl
@[simp] theorem setVis_rdata (s : State) (x : Vis) : (s.setVis x).rdata = s.rdata := rfl
@[simp] theorem setVis_pending (s : State) (x : Vis) : (s.setVis x).pending = s.pending := rfl
@[simp] theorem setVis_reg (s : State) (x : Vis) (p : Nat) : (s.setVis x).reg p = s.reg p := rfl
@[simp] theorem setVis_get (s : State) (x : Vis) (g : Field) : (s.setVis x).get g = s.get g := rfl
@[simp] theorem setVis_flag (s : State) (x : Vis) (g : Field) : (s.setVis x).flag g = s.flag g := rfl

end Sys2Proof.Laws
end

