-- ==== Sys2Proof/Laws/Frame.lean ====
section
/-!
SUPPORT. Frames: how they compose, and what each shared operation can change.
-/
set_option Elab.async false

namespace Sys2Proof.Laws
open Sys2Proof Sys2Proof.Machine Sys2Proof.Safety

variable {ps : List Part} {p : Bits} {s t u : State}

/-- A part agrees with itself. -/
theorem same_refl (q : Part) (s : State) : q.same s s := by cases q <;> simp [Part.same]

theorem same_trans (q : Part) (h : q.same s t) (k : q.same t u) : q.same s u := by
  cases q <;> simp_all [Part.same]

theorem frame_refl (s : State) : Frame ps p s s := ⟨fun _ _ _ => rfl, fun q _ => same_refl q s⟩

theorem frame_trans (h : Frame ps p s t) (k : Frame ps p t u) : Frame ps p s u :=
  ⟨fun o b n => (k.1 o b n).trans (h.1 o b n), fun q n => same_trans q (h.2 q n) (k.2 q n)⟩

theorem frame_mono {qs : List Part} {r : Bits} (h : Frame ps p s t) (hp : ∀ q ∈ ps, q ∈ qs) (hr : ∀ o b, p o b → r o b) :
    Frame qs r s t :=
  ⟨fun o b n => h.1 o b fun k => n (hr o b k), fun q n => h.2 q fun k => n (hp q k)⟩

theorem frame_ite {c : Prop} [Decidable c] (h : c → Frame ps p s t) (k : ¬ c → Frame ps p s u) :
    Frame ps p s (if c then t else u) := by
  by_cases hc : c
  · rw [if_pos hc]; exact h hc
  · rw [if_neg hc]; exact k hc

/-- A change made on a condition. -/
theorem frame_ite_right {c : Prop} [Decidable c] (h : Frame ps p s t) (k : c → Frame ps p t u) :
    Frame ps p s (if c then u else t) := frame_ite (fun hc => frame_trans h (k hc)) fun _ => h

/-- A change made unless a condition holds. -/
theorem frame_ite_left {c : Prop} [Decidable c] (h : Frame ps p s t) (k : ¬ c → Frame ps p t u) :
    Frame ps p s (if c then t else u) := frame_ite (fun _ => h) fun hc => frame_trans h (k hc)

/-- Only register words changed. -/
theorem frame_regs (h : ∀ o b, ¬ p o b → (t.reg o).getLsbD b = (s.reg o).getLsbD b) (k : t = { s with regs := t.regs }) :
    Frame ps p s t := by
  refine ⟨h, fun q _ => ?_⟩
  rw [k]; cases q <;> simp [Part.same]

theorem frame_setReg (o : Nat) (v : Word) (h : ∀ b, p o b) : Frame ps p s (s.setReg o v) := by
  refine frame_regs (fun a b n => ?_) rfl
  by_cases e : a = o
  · exact absurd (e ▸ h b) n
  · rw [reg_setReg_ne _ _ _ _ e]

/-- A bit outside a field keeps its value when the field is set. -/
theorem getLsbD_put (f : Field) (w : Word) (v b : Nat) (h1 : f.lo ≤ f.hi) (h2 : f.hi < 32) (hb : b < f.lo ∨ f.hi < b) :
    (f.put w v).getLsbD b = w.getLsbD b := by
  have h := field_get_put_other f ⟨f.off, b, b⟩ w v h1 h2 (Nat.le_refl _) hb
  have e : ∀ x : Word, x.getLsbD b = decide (Field.get ⟨f.off, b, b⟩ x = 1) := by
    intro x
    simp only [Field.get, bitsOf, BitVec.getLsbD, Nat.testBit, Nat.add_sub_cancel_left, Nat.pow_one, Nat.one_and_eq_mod_two]
    cases h : (x.toNat >>> b) % 2 with
    | zero => rfl
    | succ n =>
      have : n = 0 := by have := Nat.mod_lt (x.toNat >>> b) (show 2 > 0 by decide); omega
      subst this; rfl
  rw [e, e, h]

/-- Every bit of a field may change. -/
def Covers (p : Bits) (f : Field) : Prop := f.lo ≤ f.hi ∧ f.hi < 32 ∧ ∀ b, f.lo ≤ b → b ≤ f.hi → p f.off b

theorem frame_put (f : Field) (v : Nat) (h : Covers p f) : Frame ps p s (s.put f v) := by
  refine frame_regs (fun o b n => ?_) rfl
  by_cases e : o = f.off
  · subst e
    rw [State.put, reg_setReg_same]
    refine getLsbD_put f _ v b h.1 h.2.1 ?_
    rcases Nat.lt_or_ge b f.lo with k | k
    · exact .inl k
    · rcases Nat.lt_or_ge f.hi b with m | m
      · exact .inr m
      · exact absurd (h.2.2 b k m) n
  · rw [reg_put_ne _ _ _ _ e]

theorem frame_putB (f : Field) (v : Bool) (h : Covers p f) : Frame ps p s (s.putB f v) := frame_put f _ h
theorem frame_putBit (f : Field) (i : Nat) (v : Bool) (h : Covers p f) : Frame ps p s (s.putBit f i v) := frame_put f _ h
theorem frame_incSat (f : Field) (n : Nat) (h : Covers p f) : Frame ps p s (s.incSat f n) := frame_put f _ h
theorem frame_incWrap (f : Field) (n : Nat) (h : Covers p f) : Frame ps p s (s.incWrap f n) := frame_put f _ h
theorem frame_setWide (w lo v : Nat) (h : ∀ b, p lo b) (k : ∀ b, p (lo + 4) b) : Frame ps p s (s.setWide w lo v) :=
  frame_trans (frame_setReg lo _ h) (frame_setReg (lo + 4) _ k)

/-- A message changes the messages sent or a pending bit (R104). -/
theorem frame_sendMsg (v : Nat) (h : ∀ o b, pba o b → p o b) (hm : .msix ∈ ps) : Frame ps p s (s.sendMsg v) := by
  unfold State.sendMsg
  refine frame_ite (fun _ => ?_) fun _ => ?_
  · refine ⟨fun _ _ _ => rfl, fun q n => ?_⟩
    cases q <;> first | exact absurd hm n | simp [Part.same]
  · refine frame_putBit _ _ _ ⟨by simp [Fld.MSIX_PBA_PENDING], by simp [Fld.MSIX_PBA_PENDING], fun b _ _ => h _ _ ?_⟩
    have : v % 128 / 32 < 4 := by omega
    simp only [pba, Safety.range, Fld.MSIX_PBA_PENDING, Reg.MSIX_PBA]
    omega

theorem frame_sendMsgs (v : Nat) (h : ∀ o b, pba o b → p o b) (hm : .msix ∈ ps) :
    ∀ (n : Nat) (s : State), Frame ps p s (s.sendMsgs v n)
  | 0, s => frame_refl s
  | n + 1, s => frame_trans (frame_sendMsg v h hm) (frame_sendMsgs v h hm n (s.sendMsg v))

/-- An interrupt changes the status register, the messages sent and the pending bits (R103). -/
theorem frame_setIrqRegs (blk so eo : Nat) (st en : Word) (hs : ∀ b, p so b) (he : ∀ b, p eo b) (h : ∀ o b, pba o b → p o b)
    (hm : .msix ∈ ps) : Frame ps p s (s.setIrqRegs blk so eo st en) :=
  frame_trans (frame_trans (frame_setReg so _ hs) (frame_setReg eo _ he)) (frame_sendMsgs _ h hm _ _)

/-- A word set to what it reads changes nothing. -/
theorem reg_setReg_self (s : State) (o a : Nat) : (s.setReg o (s.reg o)).reg a = s.reg a := by
  by_cases e : a = o
  · subst e; simp
  · rw [reg_setReg_ne _ _ _ _ e]

theorem frame_irq (blk so eo mask : Nat) (hs : ∀ b, b < 32 → mask.testBit b = true → p so b) (hne : so ≠ eo)
    (h : ∀ o b, pba o b → p o b) (hm : .msix ∈ ps) : Frame ps p s (s.irq blk so eo mask) := by
  unfold State.irq State.setIrqRegs
  refine frame_trans ?_ (frame_sendMsgs _ h hm _ _)
  refine frame_regs (fun o b n => ?_) rfl
  by_cases e : o = eo
  · subst e; rw [reg_setReg_same]
  · rw [reg_setReg_ne _ _ _ _ e]
    by_cases d : o = so
    · subst d
      rw [reg_setReg_same]
      by_cases hb : b < 32
      · have : mask.testBit b = false := by
          cases k : mask.testBit b with
          | false => rfl
          | true => exact absurd (hs b hb k) n
        rw [BitVec.getLsbD_or, BitVec.getLsbD_ofNat, this]; simp
      · rw [BitVec.getLsbD_of_ge _ _ (by omega), BitVec.getLsbD_of_ge _ _ (by omega)]
    · rw [reg_setReg_ne _ _ _ _ d]

theorem frame_irqF (f : Field) (h : p f.off f.lo) (hp : ∀ o b, pba o b → p o b) (hm : .msix ∈ ps) :
    Frame ps p s (s.irqF f) := by
  refine frame_irq _ _ _ _ (fun b _ k => ?_) (by omega) hp hm
  rw [Nat.testBit_two_pow] at k
  simp at k; exact k ▸ h

theorem frame_irqBit (f : Field) (i : Nat) (h : p f.off (f.lo + i)) (hp : ∀ o b, pba o b → p o b) (hm : .msix ∈ ps) :
    Frame ps p s (s.irqBit f i) := by
  refine frame_irq _ _ _ _ (fun b _ k => ?_) (by omega) hp hm
  rw [Nat.testBit_two_pow] at k
  simp at k; exact k ▸ h

/-- Only the part `q` changed. -/
theorem frame_part (q : Part) (hq : q ∈ ps) (hr : t.regs = s.regs) (h : ∀ r, r ≠ q → r.same s t) : Frame ps p s t :=
  ⟨fun o b _ => by simp [State.reg, hr], fun r n => h r fun e => n (e ▸ hq)⟩

/-- A free value advances its counter. -/
theorem frame_free (n : Nat) (h : .freeCtr ∈ ps) : Frame ps p s (s.free n).2 :=
  frame_part .freeCtr h rfl fun r hr => by cases r <;> first | exact absurd rfl hr | simp [Part.same, State.free]

/-- The bits that a record handed to telemetry can change (R509). -/
def tellBits : Bits :=
  orBits pba (bits [Fld.LOG_LOSS_QLOST, Fld.LOG_IRQ_STATUS_QLOST])

/-- A record handed to telemetry changes its queue, or the count of the records lost there with its interrupt (R509). -/
theorem frame_tell (typ src sub fl : Nat) (pl : List Byte) (h : ∀ o b, tellBits o b → p o b) (ht : .tel ∈ ps)
    (hm : .msix ∈ ps) : Frame ps p s (s.tell typ src sub pl fl) := by
  unfold State.tell
  refine frame_ite (fun _ => frame_refl s) fun _ => frame_ite (fun _ => ?_) fun _ => ?_
  · refine frame_trans (frame_trans (frame_incSat Fld.LOG_LOSS_QLOST 1
      ⟨by decide, by decide, fun b h1 h2 => h _ _ (.inr ⟨Fld.LOG_LOSS_QLOST, by simp, rfl, h1, h2⟩)⟩)
      (frame_irqF Fld.LOG_IRQ_STATUS_QLOST (h _ _ (.inr ⟨Fld.LOG_IRQ_STATUS_QLOST, by simp, rfl, by decide, by decide⟩))
        (fun o b k => h _ _ (.inl k)) hm)) ?_
    exact frame_part .tel ht rfl fun r hr => by cases r <;> first | exact absurd rfl hr | simp [Part.same]
  · exact frame_part .tel ht rfl fun r hr => by cases r <;> first | exact absurd rfl hr | simp [Part.same]

/-- A fold over a list changes only what each of its steps changes. -/
theorem frame_foldl {α : Type} (f : State → α → State) (h : ∀ s x, Frame ps p s (f s x)) :
    ∀ (l : List α) (s : State), Frame ps p s (l.foldl f s)
  | [], s => frame_refl s
  | x :: r, s => frame_trans (h s x) (frame_foldl f h r (f s x))

theorem fence_word {o b : Nat} (h1 : 0x30000 ≤ o) (h2 : o < 0x40000) : fenceReach o b := .inr ⟨h1, h2⟩

/-- What is noted of the present cycle is no part. -/
theorem frame_seen (x : Seen) : Frame ps p s { s with seen := x } :=
  ⟨fun _ _ _ => rfl, fun q _ => by cases q <;> simp [Part.same]⟩

/-- Hardware sets a W1C bit. -/
theorem frame_setBit (f : Machine.Field) (i : Nat) (h : Covers p f) : Frame ps p s (s.setBit f i) :=
  frame_trans (frame_putBit f i true h) (frame_seen _)

/-- The watches fire through the interrupt register of the fence block (R130). -/
theorem frame_watchesFire (n v : Nat) (po : Bool) (h : ∀ o b, fenceReach o b → p o b) (hm : .msix ∈ ps) :
    Frame ps p s (watchesFire s n v po) := by
  refine frame_foldl _ (fun s x => ?_) _ s
  refine frame_ite (fun _ => ?_) fun _ => frame_refl s
  exact frame_irqBit _ _ (h _ _ (fence_word (by decide) (by decide))) (fun o b k => h _ _ (.inl k)) hm

/-- The first fence poisoned is recorded in the fence block (R123). -/
theorem frame_notePoison (n : Nat) (h : ∀ o b, fenceReach o b → p o b) (hm : .msix ∈ ps) : Frame ps p s (notePoison s n) := by
  have hp : ∀ o b, pba o b → p o b := fun o b k => h _ _ (.inl k)
  have hw : ∀ f : Machine.Field, f.lo ≤ f.hi → f.hi < 32 → 0x30000 ≤ f.off → f.off < 0x40000 → Covers p f :=
    fun f a b c d => ⟨a, b, fun _ _ _ => h _ _ (fence_word c d)⟩
  have hi : Covers p Fld.FEN_POISON_FIRST_INDEX := hw _ (by decide) (by decide) (by decide) (by decide)
  unfold notePoison
  refine frame_trans (frame_irqF Fld.FEN_IRQ_STATUS_POISONED (h _ _ (fence_word (by decide) (by decide))) hp hm) ?_
  refine frame_ite (fun _ => ?_) fun _ => frame_ite (fun _ => frame_put _ _ hi) fun _ => frame_refl _
  exact frame_trans (frame_trans (frame_setBit _ _ (hw Fld.FEN_POISON_FIRST_VALID (by decide) (by decide) (by decide) (by decide)))
    (frame_put _ _ hi)) (frame_seen _)

/-- All requests to a fence change the fence block and its messages (R110, R113, R123, R130). -/
theorem frame_fenceApply (n : Nat) (hn : n < 1024) (sigs : List Nat) (po un : Bool) (h : ∀ o b, fenceReach o b → p o b)
    (hm : .msix ∈ ps) : Frame ps p s (fenceApply s n sigs po un) := by
  have hp : ∀ o b, pba o b → p o b := fun o b k => h _ _ (.inl k)
  have hw : ∀ f : Machine.Field, f.lo ≤ f.hi → f.hi < 32 → 0x30000 ≤ f.off → f.off < 0x40000 → Covers p f :=
    fun f a b c d => ⟨a, b, fun _ _ _ => h _ _ (fence_word c d)⟩
  unfold fenceApply
  refine frame_trans ?_ (frame_watchesFire _ _ _ h hm)
  refine frame_ite_right ?_ fun _ => frame_notePoison n h hm
  refine frame_trans ?_ (frame_putB _ _ (hw _ ?_ ?_ ?_ ?_))
  · refine frame_ite_left ?_ fun _ => ?_
    · refine frame_trans (frame_seen _) (frame_setWide _ _ _ (fun _ => h _ _ (fence_word ?_ ?_))
        (fun _ => h _ _ (fence_word ?_ ?_))) <;> (simp only [Reg.FEN_VALUE_LO]; omega)
    · exact frame_trans (frame_incSat Fld.FEN_STALE_COUNT _ (hw _ (by decide) (by decide) (by decide) (by decide)))
        (frame_irqF Fld.FEN_IRQ_STATUS_STALE (h _ _ (fence_word (by decide) (by decide))) hp hm)
  all_goals simp only [Fld.FEN_STATE_POISONED, Reg.FEN_STATE]; omega

/-- Only the descriptors in flight changed. -/
theorem frame_flight (l : List Desc) (h : .flight ∈ ps) : Frame ps p s { s with ring := { s.ring with flight := l } } :=
  frame_part .flight h rfl fun r hr => by cases r <;> first | exact absurd rfl hr | simp [Part.same]

theorem frame_setDesc (d e : Desc) (h : .flight ∈ ps) : Frame ps p s (s.setDesc d e) := frame_flight _ h

/-- A completion changes the records, the descriptors in flight, and what its fence does (R97, R112). -/
theorem frame_complete1 (d : Desc) (st de re : Nat) (wb : Option (Nat × List Byte)) (h : ∀ o b, fenceReach o b → p o b)
    (hm : .msix ∈ ps) (hr : .recs ∈ ps) (hf : .flight ∈ ps) : Frame ps p s (complete1 s d st de re wb) := by
  have a : ∀ r : Rec, Frame ps p s { s with ring := { s.ring with recs := insertRec r s.ring.recs, flight := s.ring.flight.erase d } } :=
    fun r => ⟨fun _ _ _ => rfl, fun q n => by
      cases q <;> first | exact absurd hr n | exact absurd hf n | simp [Part.same]⟩
  unfold complete1
  refine frame_ite (fun _ => a _) fun _ => frame_ite (fun _ => frame_ite (fun _ => a _) fun _ => ?_) fun _ =>
    frame_ite (fun _ => ?_) fun _ => a _
  · exact frame_trans (a _) (frame_fenceApply _ (Nat.mod_lt _ (by decide)) _ _ _ h hm)
  · exact frame_trans (a _) (frame_fenceApply _ (Nat.mod_lt _ (by decide)) _ _ _ h hm)

/-- Waits that fail change what completions change (R115, R120). -/
theorem frame_failWaits (h : ∀ o b, fenceReach o b → p o b) (hm : .msix ∈ ps) (hr : .recs ∈ ps) (hf : .flight ∈ ps) :
    ∀ (n : Nat) (s : State), Frame ps p s (failWaits n s)
  | 0, s => frame_refl s
  | n + 1, s => by
    unfold failWaits
    cases s.failing with
    | none => exact frame_refl s
    | some x => exact frame_trans (frame_complete1 _ _ _ _ _ h hm hr hf) (frame_failWaits h hm hr hf n _)

/-- Waits that are satisfied change what completions change (R114, R120). -/
theorem frame_satWaits (h : ∀ o b, fenceReach o b → p o b) (hm : .msix ∈ ps) (hr : .recs ∈ ps) (hf : .flight ∈ ps) :
    ∀ (n : Nat) (s : State), Frame ps p s (satWaits n s)
  | 0, s => frame_refl s
  | n + 1, s => by
    unfold satWaits
    cases s.satisfied with
    | none => exact frame_refl s
    | some x =>
      refine frame_ite (fun _ => ?_) fun _ => ?_
      · exact frame_trans (frame_complete1 _ _ _ _ _ h hm hr hf) (frame_satWaits h hm hr hf n _)
      · exact frame_trans (frame_setDesc _ _ hf) (frame_satWaits h hm hr hf n _)

/-- Evaluating the waits changes what completions change (R113 to R115, R120). -/
theorem frame_settle (h : ∀ o b, fenceReach o b → p o b) (hm : .msix ∈ ps) (hr : .recs ∈ ps) (hf : .flight ∈ ps) :
    Frame ps p s s.settle :=
  frame_trans (frame_trans (frame_failWaits h hm hr hf _ s) (frame_satWaits h hm hr hf _ _)) (frame_flight _ hf)

theorem frame_fence (n : Nat) (hn : n < 1024) (sigs : List Nat) (po un : Bool) (h : ∀ o b, fenceReach o b → p o b)
    (hm : .msix ∈ ps) : Frame ps p s (s.fence n sigs po un) := frame_fenceApply n hn sigs po un h hm

theorem frame_complete (d : Desc) (st de re : Nat) (h : ∀ o b, fenceReach o b → p o b) (hm : .msix ∈ ps) (hr : .recs ∈ ps)
    (hf : .flight ∈ ps) : Frame ps p s (s.complete d st de re) := frame_complete1 d st de re _ h hm hr hf

/-- A field's value lies below two to the power of its width. -/
theorem get_lt (s : State) (f : Field) : s.get f < 2 ^ (f.hi + 1 - f.lo) := Nat.mod_lt _ (by positivity)

/-- What a hardware event does at binding `k`. -/
theorem frame_eventAt (k : Nat) (hk : k < 32) (h : ∀ o b, fenceReach o b → p o b) (hm : .msix ∈ ps)
    (he : .evtCount ∈ ps) (st : Store Nat) (c : Nat) (n : State → Nat) (hn : ∀ s, n s < 1024)
    (w : State → Nat) : Frame ps p s
      ((({ s with evtCount := st } : State).put (Fld.FEN_EVT_COUNT_COUNT k) c).signal
        (n (({ s with evtCount := st } : State).put (Fld.FEN_EVT_COUNT_COUNT k) c))
        (w (({ s with evtCount := st } : State).put (Fld.FEN_EVT_COUNT_COUNT k) c))) := by
  have a : Frame ps p s { s with evtCount := st } := frame_part .evtCount he rfl fun r hr => by
    cases r <;> first | exact absurd rfl hr | simp [Part.same]
  have b : Covers p (Fld.FEN_EVT_COUNT_COUNT k) := by
    refine ⟨?_, ?_, fun b _ _ => h _ _ (fence_word ?_ ?_)⟩ <;> simp only [Fld.FEN_EVT_COUNT_COUNT, Reg.FEN_EVT_COUNT] <;> omega
  exact frame_trans (frame_trans a (frame_put _ _ b)) (frame_fence _ (hn _) _ _ _ h hm)

/-- A hardware event counts at its bindings and signals their fences (R125). -/
theorem frame_event (src : Nat) (h : ∀ o b, fenceReach o b → p o b) (hm : .msix ∈ ps)
    (he : .evtCount ∈ ps) : Frame ps p s (s.event src) := by
  unfold State.event
  generalize hl : List.range 32 = l
  have hx : ∀ x ∈ l, x < 32 := fun x k => List.mem_range.1 (hl ▸ k)
  clear hl
  induction l generalizing s with
  | nil => exact frame_refl s
  | cons x r ih =>
    rw [List.foldl_cons]
    refine frame_trans ?_ (ih fun y hy => hx y (by simp [hy]))
    refine frame_ite (fun _ => ?_) fun _ => frame_refl s
    exact frame_eventAt x (hx x (by simp)) h hm he _ _ (fun s => s.get (Fld.FEN_EVT_FENCE x)) (fun s => get_lt s _)
      (fun t => (t.wide (Reg.FEN_EVT_BASE_LO x) + (sget 0 s.evtCount x + 1)) % 2 ^ 64)

/-! ### The same, after a change already framed: what simp takes a chain of updates apart with -/

/-- A field of the list may change. -/
theorem covers_bits {fs : List Field} (f : Field) (h : f ∈ fs) (a : f.lo ≤ f.hi) (b : f.hi < 32) : Covers (bits fs) f :=
  ⟨a, b, fun _ h1 h2 => ⟨f, h, rfl, h1, h2⟩⟩

theorem covers_words {os : List Nat} (f : Field) (h : f.off ∈ os) (a : f.lo ≤ f.hi) (b : f.hi < 32) : Covers (words os) f :=
  ⟨a, b, fun _ _ _ => h⟩

theorem covers_left {r : Bits} (f : Field) (h : Covers p f) : Covers (orBits p r) f :=
  ⟨h.1, h.2.1, fun b h1 h2 => .inl (h.2.2 b h1 h2)⟩

theorem covers_right {r : Bits} (f : Field) (h : Covers r f) : Covers (orBits p r) f :=
  ⟨h.1, h.2.1, fun b h1 h2 => .inr (h.2.2 b h1 h2)⟩

theorem frame_then_put (h : Frame ps p s t) (f : Field) (v : Nat) (k : Covers p f) : Frame ps p s (t.put f v) :=
  frame_trans h (frame_put f v k)

theorem frame_then_putB (h : Frame ps p s t) (f : Field) (v : Bool) (k : Covers p f) : Frame ps p s (t.putB f v) :=
  frame_trans h (frame_putB f v k)

theorem frame_then_putBit (h : Frame ps p s t) (f : Field) (i : Nat) (v : Bool) (k : Covers p f) :
    Frame ps p s (t.putBit f i v) := frame_trans h (frame_putBit f i v k)

theorem frame_then_incSat (h : Frame ps p s t) (f : Field) (n : Nat) (k : Covers p f) : Frame ps p s (t.incSat f n) :=
  frame_trans h (frame_incSat f n k)

theorem frame_then_incWrap (h : Frame ps p s t) (f : Field) (n : Nat) (k : Covers p f) : Frame ps p s (t.incWrap f n) :=
  frame_trans h (frame_incWrap f n k)

theorem frame_then_setReg (h : Frame ps p s t) (o : Nat) (v : Word) (k : ∀ b, p o b) : Frame ps p s (t.setReg o v) :=
  frame_trans h (frame_setReg o v k)

theorem frame_then_irqF (h : Frame ps p s t) (f : Field) (k : p f.off f.lo) (hp : ∀ o b, pba o b → p o b) (hm : .msix ∈ ps) :
    Frame ps p s (t.irqF f) := frame_trans h (frame_irqF f k hp hm)

theorem frame_then_irqBit (h : Frame ps p s t) (f : Field) (i : Nat) (k : p f.off (f.lo + i)) (hp : ∀ o b, pba o b → p o b)
    (hm : .msix ∈ ps) : Frame ps p s (t.irqBit f i) := frame_trans h (frame_irqBit f i k hp hm)

theorem frame_then_complete (h : Frame ps p s t) (d : Desc) (st de re : Nat) (k : ∀ o b, fenceReach o b → p o b)
    (hm : .msix ∈ ps) (hr : .recs ∈ ps) (hf : .flight ∈ ps) : Frame ps p s (t.complete d st de re) :=
  frame_trans h (frame_complete d st de re k hm hr hf)

end Sys2Proof.Laws
end

