-- ==== Sys2Proof/Laws/Memory.lean ====
section
/-!
SUPPORT. The byte memories: a write is read back, leaves every other byte alone and keeps the canonical form; the machine at reset is
what a cold reset leaves; what a command does while the device is held in reset.
-/
set_option Elab.async false

namespace Sys2Proof.Laws
open Sys2Proof Sys2Proof.Machine Sys2Proof.Safety

/-- Below its address a write changes no byte. -/
theorem byteAt_writeBytes_lt (x : Nat) : ∀ (bs : List Byte) (m : Store Byte) (a : Nat), x < a →
    byteAt (writeBytes m a bs) x = byteAt m x
  | [], _, _, _ => rfl
  | b :: r, m, a, h => by
    rw [writeBytes, byteAt_writeBytes_lt x r _ (a + 1) (by omega)]
    exact sget_sset_ne 0 0 b a x (by omega) m

/-- From its end on a write changes no byte. -/
theorem byteAt_writeBytes_ge (x : Nat) : ∀ (bs : List Byte) (m : Store Byte) (a : Nat), a + bs.length ≤ x →
    byteAt (writeBytes m a bs) x = byteAt m x
  | [], _, _, _ => rfl
  | b :: r, m, a, h => by
    simp only [List.length_cons] at h
    rw [writeBytes, byteAt_writeBytes_ge x r _ (a + 1) (by omega)]
    exact sget_sset_ne 0 0 b a x (by omega) m

/-- A byte written is read back. -/
theorem byteAt_writeBytes_in : ∀ (bs : List Byte) (m : Store Byte) (a i : Nat) (h : i < bs.length),
    byteAt (writeBytes m a bs) (a + i) = bs[i]
  | b :: r, m, a, 0, _ => by
    rw [writeBytes, byteAt_writeBytes_lt (a + 0) r _ (a + 1) (by omega)]
    simp [byteAt]
  | b :: r, m, a, i + 1, h => by
    rw [writeBytes, show a + (i + 1) = a + 1 + i by omega, byteAt_writeBytes_in r _ (a + 1) i (by simpa using h)]
    simp

/-- What was written is read back whole. -/
theorem bytesAt_writeBytes (m : Store Byte) (a : Nat) (bs : List Byte) : bytesAt (writeBytes m a bs) a bs.length = bs := by
  apply List.ext_getElem
  · simp [bytesAt]
  · intro i h1 h2
    simp [bytesAt, byteAt_writeBytes_in bs m a i h2]

@[simp] theorem wf_nil : Memory.wf [] = true := rfl

/-- A write keeps the canonical form. -/
theorem wf_writeBytes : ∀ (bs : List Byte) (m : Store Byte) (a : Nat), Memory.wf m = true → Memory.wf (writeBytes m a bs) = true
  | [], _, _, h => h
  | b :: r, m, a, h => wf_writeBytes r _ (a + 1) (swf_sset (fun _ => 0) a b 0 m (Nat.zero_le a) h)

/-- What a frame that names none of them says of the memories. -/
theorem memoriesWf_frame {ps : List Part} {p : Bits} {s t : State} (f : Frame ps p s t) (h1 : .hostMem ∉ ps) (h2 : .mem ∉ ps)
    (h3 : .pwr ∉ ps) (h4 : .mrv ∉ ps) : t.memoriesWf = s.memoriesWf := by
  have a : t.hostMem = s.hostMem := f.2 .hostMem h1
  have b : t.mem = s.mem := f.2 .mem h2
  have c : t.pwr = s.pwr := f.2 .pwr h3
  have d : t.mrv = s.mrv := f.2 .mrv h4
  simp [State.memoriesWf, a, b, c, d]

/-- What the controller reports of a bad access (R451, R456). -/
theorem frame_memErr (s : State) (a n : Nat) : Frame [.msix] (fun _ _ => True) s (s.memErr a n) := by
  refine frame_trans (frame_then_put (frame_then_put (frame_put _ _ ?_) _ _ ?_) _ _ ?_) (frame_setBit _ _ ?_)
  all_goals exact ⟨by decide, by decide, fun _ _ _ => trivial⟩

/-- A refused access changes the registers that report it, and can send or hold back a message. -/
theorem frame_memRefuse (s : State) (a : Nat) : Frame [.msix] (fun _ _ => True) s (s.memRefuse a) :=
  frame_then_irqF (frame_memErr s a 4) _ trivial (fun _ _ _ => trivial) (by simp)

/-- A write to LPDDR5X keeps every memory canonical. -/
theorem memoriesWf_memWrite (s : State) (a : Nat) (l : List Byte) (h : s.memoriesWf = true) : (memWrite s a l).memoriesWf = true := by
  unfold memWrite
  split
  · exact h
  · split
    · rw [memoriesWf_frame (ps := [.msix]) (p := fun _ _ => True) (frame_foldl _ (fun s e => ?_) _ _) (by decide) (by decide)
        (by decide) (by decide)]
      · simp only [State.memoriesWf, Bool.and_eq_true] at h ⊢
        exact ⟨⟨⟨h.1.1.1, wf_writeBytes l _ a h.1.1.2⟩, h.1.2⟩, h.2⟩
      · exact frame_then_irqF (frame_trans (frame_incSat Fld.MEM_CNT2_UNCORR 1 ⟨by decide, by decide, fun _ _ _ => trivial⟩)
          (frame_memErr _ _ _)) _ trivial (fun _ _ _ => trivial) (by simp)
    · rw [memoriesWf_frame (frame_memRefuse s a) (by decide) (by decide) (by decide) (by decide), h]

/-- A DMA write to host memory keeps every memory canonical. -/
theorem memoriesWf_hostWrite (s : State) (a : Nat) (l : List Byte) (h : s.memoriesWf = true) :
    ({ s with hostMem := writeBytes s.hostMem a l } : State).memoriesWf = true := by
  simp only [State.memoriesWf, Bool.and_eq_true] at h ⊢
  exact ⟨⟨⟨wf_writeBytes l _ a h.1.1.1, h.1.1.2⟩, h.1.2⟩, h.2⟩

theorem reset_memoriesWf : State.reset.memoriesWf = true := by decide

/-- The state after reset is what a cold reset makes of a part with no fuse blown, once it is released (R25, R472). -/
theorem reset_is_cold :
    { coldState State.reset 1 with pwr := { (coldState State.reset 1).pwr with hold := .running } } = State.reset := by
  decide +kernel

/-- A command that arrives while the device is held in reset has no effect. -/
theorem act_held (s : State) (f : State → State) (h : s.pwr.hold ≠ .running) : act s f = .next s := by simp [act, h]

/-- A command that arrives while the device runs has its effect. -/
theorem act_running (s : State) (f : State → State) (h : s.pwr.hold = .running) : act s f = .next (f s) := by simp [act, h]

end Sys2Proof.Laws
end

