-- ==== Sys2Proof/Tests/Slice0.lean ====
section
/-!
SUPPORT. The model's own tests: commands that are not well formed are refused, the hypotheses of every statement can be met, small
steps.
-/
set_option Elab.async false

namespace Sys2Proof.Tests
open Sys2Proof Sys2Proof.Machine Sys2Proof.Safety

/-- The device in RUN with its link up, every function ready and the tick PLL locked. -/
def live : State :=
  let s := { State.reset with
    dtimeOn := true
    pwr := { State.reset.pwr with ever := 0xFFFFF }
    ring := { State.reset.ring with bme := true }
    mem := { State.reset.mem with training := false } }
  let s := ((s.put Fld.PWR_STATUS_STATE 4).put Fld.GLB_READY_READY 0xFFFFF).putB Fld.RING_LINK_UP true
  (s.putB Fld.GAF_STATUS_LOCKED true)

/-- The same in a cold reset. -/
def held : State := { live with pwr := { live.pwr with hold := .cold } }

/-- The first eight bytes of a descriptor: its opcode, its flags, its SEQ. -/
def header (op flags seq : Nat) : List Byte :=
  leBytes 1 op ++ leBytes 1 flags ++ leBytes 2 seq

/-- A descriptor of SQ 0 that its unit has been given. -/
def desc (raw : List Byte) : Desc := ⟨0, 0, slice raw 0 64, .dispatched, 0, 0, false, false, 0, 0, [], 0⟩

/-- The device with one descriptor in flight. -/
def withDesc (s : State) (d : Desc) : State := { s with ring := { s.ring with flight := [d] } }

/-- The device with SQ 0 and CQ 0 enabled, of 16 entries each. -/
def ringsOn : State :=
  let s := (live.put (Fld.CQ_CFG_EN 0) 1).put (Fld.CQ_CFG_LOG2SIZE 0) 4
  let s := (s.put (Fld.SQ_CFG_EN 0) 1).put (Fld.SQ_CFG_LOG2SIZE 0) 4
  (s.put (Fld.CQ_STATUS_FREE 0) 15).put (Fld.SQ_STATUS_INFLIGHT 0) 1

/-- The device with a running gaffer whose plan has one action, for axis 0 or marver 0. -/
def planned (typ deadline : Nat) (s : State) : State :=
  let img := List.replicate 6 0 ++ leBytes 2 1 ++ leBytes 2 0x1800 ++ [1, 0] ++ List.replicate 52 0 ++
    leBytes 2 typ ++ [0xFF, 0, 0, 0] ++ leBytes 2 deadline ++ [1, 0] ++ List.replicate 6 0
  { s.putB Fld.GAF_STATUS_RUNNING true with gaf := { s.gaf with bankA := img } }

/-- The same with the action started. -/
def started (typ : Nat) (s : State) : State :=
  let s := planned typ 6000 s
  { s with gaf := { s.gaf with started := [0] } }

/-- A running device whose axis 0 has this tick's set. -/
def sampled (s : State) : State :=
  s.setSns 0 { s.snsAt 0 with sets := [⟨s.tickno, List.replicate 7 5, 0, 0, 127, 0, false, 0, 0, none, 0, false⟩] }

/-- A small parison image of a kind whose primary placement is on marver 0: 16 bytes in, 8 out, no layer. -/
def pinnedImage (kind : Nat) : List Byte :=
  List.replicate 6 0 ++ leBytes 1 kind ++ [1] ++ List.replicate 12 0 ++ [1, 1, 0, 0] ++ leBytes 4 16 ++ leBytes 4 8 ++
    List.replicate 4 0 ++ leBytes 4 64 ++ List.replicate 24 0 ++ leBytes 2 1 ++ List.replicate 30 0

/-- The same in slot 0 of a device. -/
def loaded (kind : Nat) (s : State) : State := s.setSlot 0 (some ⟨pinnedImage kind, 0⟩)

/-- A stream parison of one placement, on marver 5, in slot 0. -/
def streaming (s : State) : State :=
  s.setSlot 0 (some ⟨List.replicate 7 0 ++ [1] ++ List.replicate 13 0 ++ [2] ++ List.replicate 14 0 ++ leBytes 4 64 ++
    List.replicate 24 0 ++ leBytes 2 32 ++ List.replicate 30 0, 0⟩)

/-- The device whose plan has a SLICE action for marver 5. -/
def sliced (s : State) : State :=
  let s := planned 8 6000 s
  { s with gaf := { s.gaf with bankA := (s.gaf.bankA.take 72) ++ [32] ++ s.gaf.bankA.drop 73 } }

/-- The device connected to a USB host. -/
def onUsb : State := (live.putB Fld.USB_CTRL_CONNECT true).putB Fld.USB_STATUS_CONNECTED true

/-! ### Commands that the outside cannot send -/

theorem test_wf_fetch : (Instr.descriptorFetch (.entries [])).wf = false ∧
    (Instr.descriptorFetch (.entries (List.replicate 9 (List.replicate 64 0)))).wf = false ∧
    (Instr.descriptorFetch (.entries [[1, 2, 3]])).wf = false := by decide
theorem test_wf_link : (Instr.linkUp (.link 3 1)).wf = false ∧ (Instr.linkUp (.link 4 5)).wf = false ∧
    (Instr.linkUp (.link 4 4)).wf = true := by decide
theorem test_wf_bar4 : (Instr.bar4Access 0x3FFFFFF (.read 2) .clean).wf = false ∧ (Instr.bar4Access 0 (.write []) .clean).wf = false ∧
    (Instr.bar4Access 0 (.read 0) .clean).wf = false := by decide
theorem test_wf_words : (Instr.wideLowWordRead (.bar0 6) true).wf = false ∧ (Instr.registerWrite (.bar0 2) [(15, 0)]).wf = false ∧
    (Instr.registerWrite (.bar2 6) [(15, 0)]).wf = false ∧ (Instr.registerWrite (.bar0 4) []).wf = false ∧
    (Instr.registerWrite (.bar0 4) [(15, 0)]).wf = true := by decide
theorem test_wf_usb : (Instr.setupOutData []).wf = false ∧ (Instr.setupOutData (List.replicate 4097 0)).wf = false ∧
    (Instr.bulkOutPacket (List.replicate 513 0)).wf = false := by decide +kernel
theorem test_wf_twb : (Instr.twbTransferDone 0 (.ok (List.replicate 4097 0))).wf = false ∧
    (Instr.twbTransferDone 0 (.nackData 4096)).wf = false ∧ (Instr.twbTransferDone 0 (.stopped 8193)).wf = false := by decide +kernel
theorem test_wf_target : (Instr.twbTargetWrite 0 (List.replicate 65536 0)).wf = false := by
  simp only [Instr.wf, List.length_replicate]; decide
theorem test_wf_training : (Instr.memTrainingDone (.timing 0)).wf = false ∧ (Instr.memTrainingDone (.zq 0)).wf = false ∧
    (Instr.lehrSaveDone (some 49152)).wf = false := by decide

/-! ### Values that the spec, or the standard it names, prints -/

/-- Device 0 of the mill reads 8 in GLB_STRAP (Table 25.2), and a device with CASC_ID 1 reads 1. -/
theorem test_strap : State.reset.reg Reg.GLB_STRAP = 8 ∧ (loadStrap State.reset 1).reg Reg.GLB_STRAP = 1 := by decide +kernel
/-- The first bytes of the mill's plan header (Chapter 25): COUNT 10, TICKDIV 0x1800. -/
theorem test_plan_header :
    let l : List Byte := [0x47, 0x54, 0x50, 0x4C, 1, 0, 10, 0, 0, 0x18, 0x3F, 7, 1, 0x0A, 0, 0]
    planCount l = 10 ∧ planTickdiv l = 6144 := by decide
/-- The check value of the CRC of IEEE 802.3 (R419). -/
theorem test_crc : crc32 [0x31, 0x32, 0x33, 0x34, 0x35, 0x36, 0x37, 0x38, 0x39] = 0xCBF43926 := by decide +kernel
/-- The SHA-256 hash of "abc", from its standard. -/
theorem test_sha : (sha256 [0x61, 0x62, 0x63]).take 2 = [0xba7816bf, 0x8f01cfea] := by decide +kernel
/-- Rounding is to the nearest with halves upward, for negative numbers too. -/
theorem test_rounding : rsh 3 1 = 2 ∧ rsh (-3) 1 = -1 ∧ satS 8 200 = 127 ∧ satS 8 (-200) = -128 := by decide

/-- The spindle loop of the worked tick of chapter 9 (Table 9.8). -/
def spindle : State :=
  let s := (live.put (Fld.CTL_KPI_KP 2) 0x0C00).put (Fld.CTL_KPI_KI 2) 0x0400
  let s := ((s.loadReg (Reg.CTL_KPI 2)).putB (Fld.CTL_CFG_DEC 2) true).put (Fld.CTL_DMAX_DMAX 2) 0xF333
  s.setReg (Reg.CTL_XQ 2) 0x03000000
theorem test_park : parkOf (satS 16 (-6554)) (clarkeB 3277 3277) 0x4000 = (0, 6554) := by decide +kernel
theorem test_loop : autoLoop spindle 2 6881 0 0 6554 0 = ⟨0, 1018, 0, 0x03051C00, 0, 327, 0, 245⟩ := by decide +kernel
theorem test_duties : dutiesOf spindle 2 0x4000 0 0 1018 22938 = [30585, 34948, 34948] := by decide +kernel

/-! ### Steps -/

theorem test_no_word : decodeTableWord 8 3 = none := rfl
/-- The queue gives its commands first in, first out. -/
theorem test_queue : step { live with pending := [.rxLoss, .rxLock] } = exec .rxLoss { live with pending := [.rxLock] } := rfl

theorem witness_StepRunsFront : { live with pending := [.tickEdge] }.pending = .tickEdge :: [] := rfl
theorem witness_IdleCycleCounts : live.pending = [] ∧ live.pwr.hold = .running ∧ live.dtimeOn = true ∧ 3 ≤ live.pstate ∧
    live.pwr.erasing = false ∧ Quiet live := by
  unfold Quiet; decide +kernel
theorem witness_IdleCycleCounts_held : held.pending = [] ∧ held.pwr.hold ≠ .running := by decide +kernel
theorem witness_ResetValues : ∀ e ∈ State.resetRegs, e.1 ≠ Reg.GAF_TICKDIV := by decide +kernel
theorem witness_HeldInResetIgnores : held.pwr.hold ≠ .running ∧ Instr.tickEdge ≠ .vinSag ∧
    (Instr.pllLockAcquired .xtal = .pllLockAcquired .xtal → held.pwr.hold ≠ .xtal) := by decide +kernel
theorem witness_BlownFusesStay : ∃ t, step live = .next t := ⟨_, rfl⟩
theorem witness_ReadFusesAreBlown : (∃ t, step live = .next t) ∧ ReadBlown live :=
  ⟨⟨_, rfl⟩, fun w i h => by simp [show live.fus.read = [] from rfl, sget] at h⟩
theorem witness_StatusBitSendsMessage :
    let s := (live.setReg Reg.GAF_IRQ_EN 1).putB (Fld.MSIX_CTRL_MASK 0x41) false
    Reg.GAF_IRQ_STATUS ∈ irqWords ∧ (s.reg (Reg.GAF_IRQ_STATUS + 4)).getLsbD 0 = true ∧
      (s.reg Reg.GAF_IRQ_STATUS).getLsbD 0 = false ∧ s.canDma = true ∧
      s.flag (Fld.MSIX_CTRL_MASK (s.get (Fld.RING_BVEC_VECTOR (Reg.GAF_IRQ_STATUS / 0x10000)))) = false := by decide +kernel
theorem witness_StatusBitSendsMessage_masked :
    let s := live.setReg Reg.GAF_IRQ_EN 1
    (s.reg (Reg.GAF_IRQ_STATUS + 4)).getLsbD 0 = true ∧ (s.reg Reg.GAF_IRQ_STATUS).getLsbD 0 = false ∧
      s.flag (Fld.MSIX_CTRL_MASK (s.get (Fld.RING_BVEC_VECTOR 1))) = true := by decide +kernel
theorem witness_FenceRequests : (3 : Nat) < 1024 ∧ (∀ v ∈ [5, 0, 2 ^ 64 - 1], v < 2 ^ 64) ∧ (∀ r ∈ live.seen.reqs, r.n ≠ 3) ∧
    ({ live with seen := { live.seen with reqs := [⟨3, 7, false, [9], true, false⟩] } } : State).fenReq 3 =
      ⟨3, 7, false, [9], true, false⟩ := by decide +kernel
theorem witness_CompletionRecord :
    let d := desc (header 0x08 4 1 ++ List.replicate 10 0 ++ [3, 0] ++ List.replicate 8 0 ++ [9])
    d.signal = true ∧ d.opcode ≠ 0x07 ∧ d.signalFence % 1024 = 3 ∧ d.signalValue = 9 := by decide
theorem witness_CompletionRecord_poison :
    stAborted ≠ stOK ∧ (live.setReg (Reg.FEN_STATE 3) 1).flag (Fld.FEN_STATE_POISON_ON_FAIL 3) = true := by decide +kernel
theorem witness_CompletionRecord_plain : (desc (header 0x08 0 1)).signal = false := by decide
theorem witness_NoResolvedWaitIsLeft :
    let d := { desc (header 0x01 2 1 ++ List.replicate 8 0 ++ [3, 0, 0, 0, 9]) with stage := .waiting }
    ({ live with ring := { live.ring with flight := [d] } } : State).settle.ring.flight.length = 1 := by decide +kernel
theorem witness_LogRegisterWrites :
    let s := (live.put Fld.LOG_STATUS_COUNT 5).put Fld.LOG_WIDX_WIDX 5
    s.pwr.hold = .running ∧ s.served Reg.LOG_RIDX = true ∧
      (3 ≠ s.get Fld.LOG_WIDX_WIDX ∧ (3 + 4096 - s.get Fld.LOG_RIDX_RIDX) % 4096 ≤ s.get Fld.LOG_STATUS_COUNT) ∧
      5 = s.get Fld.LOG_WIDX_WIDX ∧
      (6 ≠ s.get Fld.LOG_WIDX_WIDX ∧ s.get Fld.LOG_STATUS_COUNT < (6 + 4096 - s.get Fld.LOG_RIDX_RIDX) % 4096) := by decide +kernel
theorem witness_LogRegisterWrites_mirror :
    let s := (live.put Fld.LOG_MCFG_LOG2SIZE 6).put Fld.LOG_MTAIL_MTAIL 63
    (63 + 64 - s.get Fld.LOG_MHEAD_MHEAD % 64) % 64 ≤ (s.get Fld.LOG_MTAIL_MTAIL + 64 - s.get Fld.LOG_MHEAD_MHEAD % 64) % 64 ∧
      ¬ (64 < 2 ^ s.get Fld.LOG_MCFG_LOG2SIZE) ∧ Fld.LOG_MCFG_LOG2SIZE.get 0x60000 = 6 ∧ Fld.LOG_MCFG_LOG2SIZE.get 0x50000 = 5 ∧
      (live.putB Fld.LOG_MCFG_EN true).flag Fld.LOG_MCFG_EN = true ∧ decide (Fld.LOG_MCFG_EN.get 0x60000 = 1) = false := by
  decide +kernel
theorem witness_RecordsReachLogAndMirror :
    let s : State := { live.putB Fld.LOG_CFG_EN true with cyc := 1, tel := { live.tel with queue := [⟨1, 0, 0, 0, 20, 0, [], 0⟩] } }
    s.pwr.hold = .running ∧ s.telOn = true ∧ s.tel.queue = ⟨1, 0, 0, 0, 20, 0, [], 0⟩ :: [] ∧ (0 : Nat) < s.cyc ∧
      s.tel.qlost = 0 ∧ s.flag Fld.LOG_CFG_EN = true ∧ s.get Fld.LOG_STATUS_COUNT < 4096 := by decide +kernel
theorem witness_RecordsReachLogAndMirror_mirror :
    let s : State := { live.put Fld.LOG_MCFG_LOG2SIZE 6 with tel := { live.tel with mirror := [[7]] } }
    s.halted = false ∧ s.tel.mirror = [7] :: [] ∧ s.canDma = true ∧
      (s.get Fld.LOG_MTAIL_MTAIL % 64 + 1) % 64 ≠ s.get Fld.LOG_MHEAD_MHEAD ∧
      ({ s with ring := { s.ring with bme := false } } : State).canDma = false ∧
      ((s.put Fld.LOG_MHEAD_MHEAD 1).get Fld.LOG_MTAIL_MTAIL % 64 + 1) % 64 = (s.put Fld.LOG_MHEAD_MHEAD 1).get Fld.LOG_MHEAD_MHEAD := by
  decide +kernel
theorem witness_CopyAndMarkComplete :
    let d := desc (header 0x0A 0 1)
    let s := withDesc live d
    s.pwr.hold = .running ∧ s.halted = false ∧ s.takeDispatched 0 1 0x0A = some d ∧ d.pay 32 1 = 0 ∧ s.canDma = true ∧
      d.episode = false := by decide +kernel
theorem witness_CopyAndMarkComplete_mark :
    let d := desc (header 0x0A 0 1 ++ List.replicate 28 0 ++ [1])
    let s := (withDesc live d).putB Fld.LOG_CFG_EN true
    let full := (s.putB Fld.LOG_CFG_MODE true).put Fld.LOG_STATUS_COUNT 4096
    s.takeDispatched 0 1 0x0A = some d ∧ d.pay 32 1 = 1 ∧ s.telOn = true ∧ s.tel.queue.length < 256 ∧
      s.flag Fld.LOG_CFG_EN = true ∧ s.flag Fld.LOG_CFG_MODE = false ∧ (live.putB Fld.LOG_CFG_EN false).flag Fld.LOG_CFG_EN = false ∧
      full.flag Fld.LOG_CFG_MODE = true ∧ 4096 ≤ full.get Fld.LOG_STATUS_COUNT + full.tel.queue.length ∧
      ({ s with tel := { s.tel with queue := List.replicate 256 ⟨1, 0, 0, 0, 20, 0, [], 0⟩ } } : State).tel.queue.length = 256 := by
  decide +kernel
theorem witness_DebugHaltBeginsAndEnds :
    let h : State := live.putB Fld.LOG_DBG_HALTED true
    let r := { h.putB Fld.GAF_STATUS_RUNNING true with tel := { h.tel with haltRan := true } }
    live.pwr.hold = .running ∧ live.flag Fld.GLB_CAPS_DEBUG_LOCKED = false ∧ live.halted = false ∧ live.running = false ∧
      3 ≤ live.pstate ∧ (live.putB Fld.GAF_STATUS_RUNNING true).running = true ∧ (live.put Fld.PWR_STATUS_STATE 2).pstate < 3 ∧
      h.flag Fld.GLB_CAPS_DEBUG_LOCKED = false ∧ h.halted = true ∧ r.halted = true ∧ r.tel.haltRan = true ∧ r.running = true ∧
      (live.putB Fld.GLB_CAPS_DEBUG_LOCKED true).flag Fld.GLB_CAPS_DEBUG_LOCKED = true := by decide +kernel
theorem witness_HostFenceCommands : live.pwr.hold = .running ∧ live.served Reg.FEN_HSIG_CMD = true := by decide +kernel
theorem witness_WatchesAndEventBindings :
    live.pwr.hold = .running ∧ live.served Reg.FEN_HSIG_CMD = true ∧
      (0x110 : Word).toNat % 256 ∈ [0x00, 0x01, 0x02, 0x03, 0x10, 0x11, 0x20, 0x30] ∧
      (0x12 : Word).toNat % 256 ∉ [0x00, 0x01, 0x02, 0x03, 0x10, 0x11, 0x20, 0x30] := by decide +kernel
theorem witness_FenceDescriptors :
    let d0 := desc (header 0x07 4 1)
    let d1 := desc (header 0x07 4 1 ++ List.replicate 28 0 ++ [1])
    let d2 := desc (header 0x08 2 1)
    (withDesc live d0).takeDispatched 0 1 0x07 = some d0 ∧ d0.pay 32 1 = 0 ∧
      (withDesc live d1).takeDispatched 0 1 0x07 = some d1 ∧ d1.pay 32 1 = 1 ∧
      (withDesc live d2).takeDispatched 0 1 0x08 = some d2 := by decide +kernel
theorem witness_DoorbellsMoveRings :
    let s := ringsOn
    s.pwr.hold = .running ∧ live.flag (Fld.SQ_CFG_EN 5) = false ∧ live.flag (Fld.CQ_CFG_EN 5) = false ∧
      s.flag (Fld.SQ_CFG_EN 0) = true ∧ s.flag (Fld.CQ_CFG_EN 0) = true ∧ s.sqSize 0 = 16 ∧ s.cqSize 0 = 16 ∧
      (15 + 16 - s.get (Fld.SQ_TAIL_TAIL 0)) % 16 + s.sqCount 0 < 16 ∧ ¬ (16 < s.sqSize 0) ∧
      (0 + 16 - s.get (Fld.CQ_HEAD_HEAD 0)) % 16 ≤ (s.get (Fld.CQ_TAIL_TAIL 0) + 16 - s.get (Fld.CQ_HEAD_HEAD 0)) % 16 ∧
      ¬ (1 + 16 - s.get (Fld.CQ_HEAD_HEAD 0)) % 16 ≤ (s.get (Fld.CQ_TAIL_TAIL 0) + 16 - s.get (Fld.CQ_HEAD_HEAD 0)) % 16 ∧
      s.get (Fld.SQ_STATUS_ERR 0) = 0 ∧ s.get (Fld.CQ_STATUS_ERR 0) = 0 := by decide +kernel
theorem witness_RingConfigurationWrites :
    let s := ringsOn
    let off := s.putB (Fld.SQ_CFG_EN 0) false
    s.pwr.hold = .running ∧ s.served (Reg.SQ_CFG 0) = true ∧ s.served (Reg.CQ_CFG 0) = true ∧
      (Fld.SQ_CFG_LOG2SIZE 0).get 0x30001 = 3 ∧ (Fld.SQ_CFG_LOG2SIZE 0).get 0x40001 = 4 ∧ (Fld.SQ_CFG_LOG2SIZE 0).get 0x100001 = 16 ∧
      (Fld.SQ_CFG_LOG2SIZE 0).get 0x110001 = 17 ∧ (Fld.SQ_CFG_EN 0).get 0x40001 = 1 ∧
      s.flag (Fld.CQ_CFG_EN 0) = true ∧ live.flag (Fld.CQ_CFG_EN 0) = false ∧ (Fld.CQ_CFG_LOG2SIZE 0).get 0x40000 = 4 ∧
      (Fld.CQ_CFG_EN 0).get 0x40000 = 0 ∧ (s.flag (Fld.SQ_CFG_EN 0) = true ∧ s.get (Fld.SQ_CFG_CQ 0) = 0) ∧
      (∀ q < 64, off.flag (Fld.SQ_CFG_EN q) = false) ∧ off.cqUnwritten 1 = false ∧ live.flag (Fld.SQ_CFG_EN 0) = false := by
  decide +kernel
theorem witness_FetchAndDispatch :
    let s := ringsOn.put (Fld.SQ_TAIL_TAIL 0) 1
    let raw := header 0x07 4 0
    let d := { desc (header 0x01 0 1) with stage := .ready }
    let f : Desc := ⟨0, s.get (Fld.SQ_CFG_CQ 0), slice raw 0 64, .ready, s.cyc, 0, false, false, 0, 0, [], 0⟩
    s.pwr.hold = .running ∧ s.canDma = true ∧ s.ready 1 = true ∧ s.nextSq = some 0 ∧
      f ∉ s.ring.flight ∧ s.heldIs 0 (s.get (Fld.SQ_SEQ_NEXT 0)) = false ∧ f.seq = s.get (Fld.SQ_SEQ_NEXT 0) ∧
      headerBad f.raw = none ∧ payloadBad f.raw = none ∧ s.unitReady f.raw = true ∧
      (withDesc live d).findDesc 0 1 = some d ∧ d.stage = .ready ∧ (withDesc live d).halted = false ∧
      (withDesc live d).ring.flight.takeWhile (· ≠ d) = [] ∧ d.barrier = false ∧ ¬ (desc (header 0x01 0 1)).stage = .ready := by
  decide +kernel
theorem witness_RecordsAndMessages :
    let r : Rec := ⟨0, 0, 7, 1, 8, 0, false, false, false, 1, 0, 0, 0, 0, true, none, 0⟩
    let s : State := { ringsOn with cyc := 1, ring := { ringsOn.ring with recs := [r], counted := [(0, 1)] } }
    s.pwr.hold = .running ∧ s.canDma = true ∧ s.ring.recs = r :: [] ∧ r.at_ ≠ s.cyc ∧
      sget 0 s.ring.counted 0 ≠ 0 ∧ sget 0 live.ring.counted 0 = 0 ∧ s.served (Reg.MSIX_CTRL 3) = true ∧
      (s.putBit (Fld.MSIX_PBA_PENDING 0) 3 true).bitF (Fld.MSIX_PBA_PENDING 0) 3 = true ∧
      s.bitF (Fld.MSIX_PBA_PENDING 0) 3 = false ∧
      (s.putB (Fld.MSIX_CTRL_MASK (s.get (Fld.CQ_CFG_VECTOR 0))) false).flag (Fld.MSIX_CTRL_MASK (s.get (Fld.CQ_CFG_VECTOR 0))) = false := by
  decide +kernel
theorem witness_LinkGoesAndComes : live.pwr.hold = .running ∧ live.flag Fld.RING_LINK_UP = true ∧ (4 : Nat) < 16 ∧
    State.reset.flag Fld.RING_LINK_UP = false := by decide +kernel
theorem witness_AbortsAndTimeouts :
    let d := desc (header 0x01 0 1 ++ leBytes 4 0 ++ leBytes 4 9)
    let e := { desc (header 0x04 0 1) with episode := true }
    let mem := desc (header 0x03 0 1 ++ List.replicate 28 0 ++ [2, 0, 0, 0] ++ List.replicate 20 0 ++ leBytes 8 4096)
    let s := withDesc ringsOn d
    s.pwr.hold = .running ∧ s.findDesc 0 1 = some d ∧ s.served Reg.RING_ABORT = true ∧ s.get (Fld.SQ_STATUS_ERR 0) = 0 ∧
      d.timeout = 9 ∧ d.episode = false ∧ s.halted = false ∧ d.fetchedAt + ((2 * 9 + d.allow) * 98304 + 999) / 1000 = 1770 ∧
      ({ s with cyc := 1770 } : State).cyc = 1770 ∧ ¬ 1770 ≤ s.cyc ∧ (withDesc live e).findDesc 0 1 = some e ∧
      e.episode = true ∧ e.opcode ≠ 0x0C ∧ d.stage ≠ .active ∧
      ((withDesc live mem).put Fld.GLB_READY_READY 0).awaitsMemory mem = true ∧ s.awaitsMemory d = false ∧
      (desc (header 0x01 0 1)).timeout = 0 ∧ s.findDesc 0 2 = none := by decide +kernel
theorem witness_AbortsAndTimeouts_notInFlight :
    let r : Rec := ⟨0, 0, 7, 1, 8, 0, false, false, false, 1, 0, 0, 0, 0, true, none, 0⟩
    let s : State := { ringsOn with ring := { ringsOn.ring with recs := [r] } }
    let u := ringsOn.put (Fld.SQ_TAIL_TAIL 0) 2
    (∃ r ∈ s.ring.recs, r.sq = 0 ∧ r.seq = 1) ∧
      (u.ring.recs = [] ∧ (1 + 2 ^ 16 - u.get (Fld.SQ_SEQ_NEXT 0)) % 2 ^ 16 < u.sqCount 0) ∧
      ¬ (1 + 2 ^ 16 - live.get (Fld.SQ_SEQ_NEXT 0)) % 2 ^ 16 < live.sqCount 0 := by decide +kernel
theorem witness_MemoryTrainsAndInitialises :
    live.pwr.hold = .running ∧ State.reset.mem.training = true ∧ State.reset.pwr.supplies = true ∧
      (State.reset.putB Fld.PWR_PLL_XTAL_OK true).flag Fld.PWR_PLL_XTAL_OK = true ∧
      ((.replicate 4 512 : Vector (BitVec 16) 4)[0]).toNat * 4 ∉ [4096, 8192, 16384] ∧
      (#v[true, false, true, true] : Vector Bool 4) ≠ .replicate 4 true ∧
      live.served Reg.MEM_CTRL = true ∧ live.mem.training = false ∧
      live.mem.reinit = none ∧ (live.putB Fld.MEM_STATUS_TRAINED true).flag Fld.MEM_STATUS_TRAINED = true ∧
      ({ live with mem := { live.mem with reinit := some true } } : State).mem.reinit = some true := by decide +kernel
theorem witness_MemoryErrorsAndScrub :
    let s := (live.putB Fld.MEM_SCRUB_EN true).putB Fld.MEM_STATUS_IECC_ON true
    let d := desc (header 0x02 0 1)
    let u := s.put Fld.MEM_USABLE_USABLE_MIB 1
    s.pwr.hold = .running ∧ s.ready 16 = true ∧ State.reset.ready 16 = false ∧ s.memFlawed 8 1 = false ∧
      (∀ h, Ecc.link ≠ .uncorrectable h) ∧ (s.memFlaw 1).memFlawed 8 1 = true ∧ (withDesc s d).findDesc 0 1 = some d ∧
      s.findDesc 0 1 = none ∧ s.flag Fld.MEM_SCRUB_EN = true ∧ s.flag Fld.MEM_STATUS_IECC_ON = true ∧
      u.mem.scrubAt + 8 < u.usable ∧ ({ u with mem := { u.mem with scrubAt := 0xFFFF8 } } : State).usable ≤ 0xFFFF8 + 8 ∧
      s.served Reg.MEM_CNT_CLR = true ∧ s.get Fld.MEM_TEMP_TEMP < 4 ∧ 4 ≤ (4 : BitVec 3).toNat ∧ (3 : BitVec 3).toNat < 4 := by
  refine ⟨by decide +kernel, by decide +kernel, by decide +kernel, by decide +kernel, by intro h; simp, ?_⟩; decide +kernel
theorem witness_PowerTransitions :
    let idle := live.put Fld.PWR_STATUS_STATE 3
    let asleep := live.put Fld.PWR_STATUS_STATE 2
    let bound (x : Nat) : State := { live with pwr := { live.pwr with target := some x } }
    live.pwr.hold = .running ∧ live.served Reg.PWR_CMD = true ∧ live.cmdErr 3 = 0 ∧ live.cmdErr 2 = 0 ∧ idle.cmdErr 4 = 0 ∧
      idle.cmdErr 1 = 0 ∧ idle.cmdErr 0 = 0 ∧ live.cmdErr 1 ≠ 0 ∧ live.pstate ≠ 2 ∧ asleep.pstate = 2 ∧ asleep.cmdErr 4 = 0 ∧
      asleep.served Reg.PWR_CMD = true ∧ (bound 2).sleepReady = true ∧ (bound 4).pwr.target = some 4 ∧ (bound 0).pwr.image = [] := by
  decide +kernel
theorem witness_ResetsTakeTheirCourse :
    let c : State := { held with pwr := { held.pwr with supplies := true } }
    live.pwr.hold = .running ∧ live.served Reg.PWR_CTRL = true ∧ live.fus.prog = none ∧
      ({ live with pwr := { live.pwr with hold := .sagHold } } : State).pwr.hold = .sagHold ∧
      ({ live with pwr := { live.pwr with hold := .off } } : State).pwr.hold = .off ∧
      c.pwr.hold = .cold ∧ c.pwr.supplies = true ∧ 8300 + 50 * c.get Fld.PWR_VSAG_CODE ≤ 20 * (1000 : BitVec 10).toNat ∧
      c.flag Fld.PWR_STATUS_LEHR_EN = false ∧ 550 ≤ (550 : BitVec 10).toNat := by
  decide +kernel
theorem witness_FunctionsGetReady :
    let s := live.put Fld.GLB_READY_READY 0
    let r : State := { live with pwr := { live.pwr with frst := 0x100 } }
    live.pwr.hold = .running ∧ bitOf s.pwr.frst 3 = false ∧ s.powered 3 = true ∧ s.ready 3 = false ∧ (3 : Fin 20).val ≠ 16 ∧
      live.served Reg.PWR_FRST = true ∧ frstAllowed live 8 = true ∧ frstAllowed live 3 = false ∧
      bitOf r.pwr.frst 8 = true ∧ r.powered 8 = true ∧ s.ready 5 = false := by decide +kernel
theorem witness_PllsLockAndLose :
    let slave := (live.putB Fld.VXL_CFG_EN true).put Fld.GLB_STRAP_CASC_ID 1
    let dark := live.setReg Reg.PWR_PLL 0
    live.pwr.hold = .running ∧ ({ live with pwr := { live.pwr with hold := .xtal } } : State).pwr.hold = .xtal ∧
      live.isSlave = false ∧ slave.isSlave = true ∧ dark.flag Fld.PWR_PLL_TICK = false ∧
      (live.putB Fld.PWR_PLL_TICK true).flag Fld.PWR_PLL_TICK = true ∧ (live.putB Fld.GAF_STATUS_RUNNING true).running = true ∧
      dark.flag Fld.PWR_PLL_MEM = false ∧ dark.flag Fld.PWR_PLL_USB = false ∧ dark.flag Fld.PWR_PLL_PCIE = false ∧
      dark.flag Fld.PWR_PLL_VXLTX = false ∧ (live.putB Fld.PWR_PLL_MEM true).flag Fld.PWR_PLL_MEM = true ∧
      (live.putB Fld.PWR_PLL_PCIE true).flag Fld.PWR_PLL_PCIE = true ∧ (live.putB Fld.PWR_PLL_USB true).flag Fld.PWR_PLL_USB = true ∧
      (live.putB Fld.PWR_PLL_VXLTX true).flag Fld.PWR_PLL_VXLTX = true ∧ bitOf (dark.get Fld.PWR_PLL_NCLK) 3 = false ∧
      bitOf ((live.put Fld.PWR_PLL_NCLK 8).get Fld.PWR_PLL_NCLK) 3 = true := by decide +kernel
theorem witness_SagAndSave :
    let s : State := { live with pwr := { live.pwr with image := [1] } }
    live.pwr.hold = .running ∧ s.pwr.image ≠ [] ∧ live.pwr.image = [] ∧ live.served Reg.LEHR_CTRL = true ∧
      (live.put Fld.PWR_VWARN_TH 100).get Fld.PWR_VWARN_TH = 100 ∧ live.flag Fld.PWR_STATUS_VWARN = false ∧
      (live.putB Fld.PWR_STATUS_HOLD_OK true).flag Fld.PWR_STATUS_HOLD_OK = true ∧ ¬ 550 ≤ (549 : BitVec 10).toNat ∧
      (0x4C45 : BitVec 16) ≠ 0 := by decide +kernel
theorem witness_FuseShadowWrites :
    live.pwr.hold = .running ∧ live.served Reg.FUS_CFG = true ∧ live.flag Fld.FUS_STATUS_PROT_LOCKED = false ∧
      (live.putB Fld.FUS_STATUS_PROT_LOCKED true).flag Fld.FUS_STATUS_PROT_LOCKED = true ∧
      (storeWord live (shadowOff .cfg) 0x10).isSome = true ∧ (storeWord live (shadowOff (.axis 2)) 5).isSome = true ∧
      (storeWord live (shadowOff (.fmax 2)) 0x9000).isSome = true ∧ (storeWord live (shadowOff (.fpeak 1)) 7).isSome = true ∧
      (storeWord live (shadowOff (.fmax 2)) 0x100).isSome = false ∧
      live.outputsOff = true ∧ (live.putB Fld.GAF_STATUS_RUNNING true).outputsOff = false := by decide +kernel
theorem witness_FuseProgramming :
    let s := (live.put Fld.FUS_PADDR_WORD 16).setReg Reg.FUS_PDATA 3
    let p : State := { live with fus := { live.fus with prog := some (16, 3) } }
    let r : Programmed := ⟨1, 1, 9⟩
    live.pwr.hold = .running ∧ live.served Reg.FUS_PCMD = true ∧ live.served Reg.FUS_SIGCNT_CLR = true ∧
      (s.putB Fld.FUS_STATUS_VPROG_OK true).programErr 0x4655 = 0 ∧ (s.putB Fld.FUS_STATUS_VPROG_OK false).programErr 0x4655 ≠ 0 ∧
      p.fus.prog = some (16, 3) ∧ (16 : Nat) < 64 ∧
      3 &&& ~~~ ((sget 0 p.fus.a 16 ||| (3 &&& ~~~ r.failA)) ||| (sget 0 p.fus.b 16 ||| (3 &&& ~~~ r.failB))) ≠ 0 ∧
      live.flag Fld.GLB_CAPS_DEBUG_LOCKED = false ∧ ScanInstr.bypass ≠ .extest := by decide +kernel
theorem witness_GafferControlWrites :
    let s := live.putB Fld.GAF_STATUS_VALID_A true
    let both := s.putB Fld.GAF_STATUS_VALID_B true
    let run := both.putB Fld.GAF_STATUS_RUNNING true
    let past := (both.setWide 48 Reg.GAF_SWTICK_LO 1).setWide 48 Reg.GAF_TICKNO_LO 1
    s.pwr.hold = .running ∧ s.served Reg.GAF_CTRL = true ∧ s.running = false ∧ run.running = true ∧ s.ready 0 = true ∧
      (s.put Fld.GLB_READY_READY 0).ready 0 = false ∧ s.flag Fld.GAF_STATUS_LOCKED = true ∧ s.bankValid false = true ∧
      s.planParisonsOk (s.bank false) = true ∧ (s.putB Fld.GAF_STATUS_LOCKED false).flag Fld.GAF_STATUS_LOCKED = false ∧
      s.isSlave = false ∧ ((s.putB Fld.VXL_CFG_EN true).put Fld.GLB_STRAP_CASC_ID 1).isSlave = true ∧ s.gaf.lost = false ∧ s.bankValid true = false ∧
      s.wide Reg.GAF_SWTICK_LO = 0 ∧ past.wide Reg.GAF_SWTICK_LO = 1 ∧ past.tickno = 1 ∧ s.switchDivBad false = false ∧
      s.bankInUse false = false ∧ (run.bankValid false = true ∧ run.bankInUse false = true ∧ run.bankInUse true = false) := by
  decide +kernel
theorem witness_TicksAndOverruns :
    let s := (live.putB Fld.GAF_CTRL_RUN true).putB Fld.GAF_STATUS_RUNNING true
    let b := { (live.putB Fld.GAF_CTRL_RUN true).putB Fld.GAF_STATUS_VALID_A true with gaf := { live.gaf with starting := some false } }
    let e (x : State) : State := tickEnds (nextCycle x)
    let u := planned 9 0 { s with dtime := 100 }
    s.pwr.hold = .running ∧ live.edgePossible = false ∧ s.edgePossible = true ∧ b.edgePossible = true ∧
      (e b).gaf.starting = some false ∧ (e b).bankValid false = true ∧
      (e (b.putB Fld.GAF_STATUS_VALID_A false)).bankValid false = false ∧ (e s).gaf.starting = none ∧
      (e s).flag Fld.GAF_CTRL_RUN = true ∧ (e s).tel.haltReq = false ∧
      (e { s with tel := { s.tel with haltReq := true } }).tel.haltReq = true ∧
      ((live.putB Fld.GAF_STATUS_RUNNING true).putB Fld.GAF_CTRL_RUN false).edgePossible = true ∧
      (e ((live.putB Fld.GAF_STATUS_RUNNING true).putB Fld.GAF_CTRL_RUN false)).flag Fld.GAF_CTRL_RUN = false ∧
      u.running = true ∧ u.halted = false ∧ u.vxl.sleeping = false ∧ u.gaf.starting = none ∧ 0 < planCount u.plan ∧
      u.gaf.ended = [] ∧ actDeadline u.plan 0 < u.edgeOfs := by
  decide +kernel
theorem witness_TicksAndOverruns_signal :
    let u := planned 9 500 live
    u.mayStart 0 9 = true ∧ u.edgeOfs ≤ actDeadline u.plan 0 := by decide +kernel
theorem witness_MotionStartStop :
    let d := desc (header 0x01 0 1 ++ List.replicate 36 0 ++ [5])
    let s := withDesc ((planned 5 6000 live).put (Fld.CTL_STATE_STATE 0) 2) d
    let full := s.setCtl 0 { s.slotOf 0 with queue := List.replicate 16 { d.point with tick := 4 } }
    let bad := withDesc live d
    s.pwr.hold = .running ∧ s.takeDispatched 0 1 0x01 = some d ∧ s.motionBad (d.pay 32 1) d.point = none ∧
      (s.slotOf 0).queue.length < 16 ∧ full.motionBad 0 d.point = none ∧ 16 ≤ (full.slotOf 0).queue.length ∧
      bad.takeDispatched 0 1 0x01 = some d ∧ bad.motionBad 0 d.point = some (stBadSequence, 1) := by
  decide +kernel
theorem witness_MotionStartStop_startStop :
    let d := desc (header 0x0E 0 1)
    let e := desc (header 0x0F 0 1 ++ List.replicate 28 0 ++ [1])
    let p := withDesc (planned 5 6000 live) d
    let q := ((withDesc live e).put (Fld.CTL_STATE_STATE 0) 2).putB (Fld.CTL_STATE_MODE 0) true
    p.takeDispatched 0 1 0x0E = some d ∧ p.running = true ∧ bitOf p.axesInPlan 0 = true ∧ p.slotState 0 = 0 ∧
      (p.slotOf 0).start = none ∧ p.get (Fld.PWM_TRIP_LATCH 0) = 0 ∧ (withDesc live d).running = false ∧
      q.takeDispatched 0 1 0x0F = some e ∧ bitOf (e.pay 32 1) 0 = true ∧ q.slotState 0 ≠ 0 ∧
      (withDesc live e).takeDispatched 0 1 0x0F = some e ∧ (∀ n < 6, live.slotState n = 0) := by decide +kernel
theorem witness_ControlActions :
    let s := started 5 live
    let x : State := live.setCtl 2 { live.slotOf 2 with duties := some [1, 2, 2 ^ 16 - 1] }
    s.pwr.hold = .running ∧ s.live 0 = true ∧ actType s.plan 0 = 5 ∧ (planned 5 6000 live).mayStart 0 5 = true ∧
      (x.slotOf 2).duties = some [1, 2, 2 ^ 16 - 1] ∧ (x.slotOf 2).start = none ∧ live.served (Reg.CTL_DMAX 1) = true ∧
      live.served (Reg.CTL_CNT_CLR 1) = true ∧ (0x7FFF : Word).toNat % 2 ^ 16 < 0x8000 ∧
      0x8000 ≤ (0x8000 : Word).toNat % 2 ^ 16 := by decide +kernel
theorem witness_SetsAndCulls :
    let p := planned 1 6000 live
    let g (late : Bool) : Trig := ⟨0, 0, late, 0, [], 0, false, none, []⟩
    let w (late : Bool) : State := live.setSns 0 { live.snsAt 0 with trigs := [g late] }
    let due : State := { (w false).setSns 0 { (w false).snsAt 0 with scTrigs := [⟨0, 0, 0⟩] } with cyc := 99 }
    let h := live.setSns 0 { live.snsAt 0 with hold := some (List.replicate 7 0) }
    let u := (sampled p).setObs 0 { Obs.init with spec := some ⟨List.replicate 7 5, 0, none, false, false, false, false, none, []⟩ }
    p.pwr.hold = .running ∧ p.mayStart 0 1 = true ∧ p.actAxes 0 = [0] ∧ p.setN 0 = none ∧ (sampled p).mayStart 0 1 = true ∧
      (sampled p).setN 0 ≠ none ∧ due.pairDue 0 = true ∧ (due.snsAt 0).trigs ≠ [] ∧ (w false).pairDue 0 = false ∧
      (h.snsAt 0).hold = some (List.replicate 7 0) ∧ ((w true).snsAt 0).trigs = [g true] ∧ ((w false).snsAt 0).trigs = [g false] ∧
      u.running = true ∧ bitOf u.axesInPlan 0 = true ∧ (u.obsAt 0).setOk = none ∧ (u.obsAt 0).spec.isSome = true ∧
      live.served (Reg.OBS_TSLOW 0) = true ∧ live.served (Reg.OBS_CTRL 0) = true ∧ live.running = false := by decide +kernel
theorem witness_ObserverRuns :
    let p (typ kind : Nat) : State := loaded kind (planned typ 6000 live)
    let r (typ kind second : Nat) : State :=
      { loaded kind (started typ live) with runs := [⟨0, 0, 0, 0, second = 1, List.replicate 16 0, 1, 0, none⟩] }
    let z := sampled (loaded 1 (started 3 live))
    live.pwr.hold = .running ∧ (p 2 1).mayStart 0 2 = true ∧ (p 2 1).pinnedPlace 0 1 1 = some (0, ⟨pinnedImage 1, 0⟩, 0, 0) ∧
      (r 2 1 0).live 0 = true ∧ actType (r 2 1 0).plan 0 = 2 ∧ actType (r 3 1 1).plan 0 = 3 ∧
      ((r 3 1 1).runOf 0).map (·.out) = some none ∧ ((r 3 1 1).slotAt 0).isSome = true ∧ ((r 3 1 1).mrvAt 0).dirty = false ∧
      ((r 3 1 1).mrvAt 0).busy = [] ∧
      (p 3 1).mayStart 0 3 = true ∧ (p 3 1).gaf.ended = [] ∧ (p 3 1).edgeOfs ≤ actDeadline (p 3 1).plan 0 ∧
      (p 3 1).pinnedPlace 0 1 1 = some (0, ⟨pinnedImage 1, 0⟩, 0, 0) ∧ ((p 3 1).obsAt 0).setOk = none ∧ (p 3 1).runOf 0 = none ∧
      (takeRun (r 3 1 1) 0).isSome = true ∧ (z.setN 0).isSome = true ∧ z.running = true ∧ bitOf z.axesInPlan 0 = true ∧
      z.halted = false ∧ (z.obsAt 0).ready = false ∧ ((z.setObs 0 { Obs.init with setOk := some true }).obsAt 0).setOk ≠ none := by
  decide +kernel
theorem witness_ObserverRuns_collision :
    let p : State := loaded 2 (planned 4 6000 live)
    let q : State := { p with act := sset 0 p.act Reg.OBS_COL_CFG (0x80000000 : Word) }
    let r : State := { loaded 2 (started 4 live) with runs := [⟨0, 0, 0, 0, false, List.replicate 16 0, 1, 0, none⟩] }
    p.mayStart 0 4 = true ∧ p.geta Fld.OBS_COL_CFG_EN = 0 ∧ q.geta Fld.OBS_COL_CFG_EN ≠ 0 ∧ q.mayStart 0 4 = true ∧
      q.pinnedPlace 0 2 0 = some (0, ⟨pinnedImage 2, 0⟩, 0, 0) ∧ p.pinnedPlace 0 2 0 = some (0, ⟨pinnedImage 2, 0⟩, 0, 0) ∧
      r.live 0 = true ∧ actType r.plan 0 = 4 ∧ ((takeRun r 0).map (·.2.1)).isSome = true ∧
      (takeRun (started 4 live) 0).isNone = true ∧ (started 4 live).geta Fld.OBS_COL_CFG_EN = 0 ∧ parIn (pinnedImage 2) = 16 ∧
      parOut (pinnedImage 2) = 8 ∧ bitList 6 (live.geta Fld.OBS_COL_CFG_AXES) = [] := by decide +kernel
theorem witness_HostAccess :
    let d := desc (header 0x09 0 1)
    let s := withDesc live d
    let late := desc (header 0x09 0 1 ++ List.replicate 28 0 ++ [1])
    let bad := live.setMrv 0 { live.mrvAt 0 with flaws := [(0, 1)] }
    let mem := (live.put Fld.MEM_USABLE_USABLE_MIB 1).putB Fld.MEM_STATUS_IECC_ON true
    live.pwr.hold = .running ∧ (0 : BitVec 24).toNat % 8 = 0 ∧ (4 : BitVec 24).toNat % 8 ≠ 0 ∧ State.reset.served 0x50000 = false ∧
      live.served Reg.GAF_TICKNO_LO = true ∧ capLow Reg.GAF_TICKNO_LO = none ∧ wideLow Reg.GAF_TICKNO_LO = true ∧
      Reg.GAF_TICKNO_LO ≠ Reg.MRV_IRQ_SRC ∧ wideLow (Reg.GAF_TICKNO_LO + 4) = false ∧ wideLow Reg.GAF_STATUS = false ∧
      sget none live.latch Reg.GAF_STATUS = none ∧
      sget none (hostRead live Reg.GAF_TICKNO_LO).2.latch (Reg.GAF_TICKNO_LO + 4) = some 0 ∧ ((regAt Reg.MRV_SCRUB).map fun r => r.1.accepts 1 && r.1.rw != 0) = some true ∧
      Reg.MRV_SCRUB ∉ enableRegs ∧ live.served Reg.MRV_SCRUB = true ∧ (7 : BitVec 4) ≠ 15 ∧ 3 ≤ live.pstate ∧ live.running = false ∧
      (live.mrvAt 0).slice.isSome = false ∧ ((planned 5 6000 live).pinned 0 && (planned 5 6000 live).running) = false ∧
      ((live.setMrv 0 { live.mrvAt 0 with slice := some (0, 0) }).mrvAt 0).slice.isSome = true ∧ (live.mrvAt 0).bad 0 8 = [] ∧
      (bad.mrvAt 0).bad 0 8 ≠ [] ∧ live.ready 16 = true ∧ State.reset.ready 16 = false ∧ mem.memIn 0 8 = true ∧
      mem.memFlawed 0 8 = false ∧ (mem.memFlaw 0).memFlawed 0 8 = true ∧ mem.memIn 0xFFFFC 8 = false ∧
      mem.flag Fld.MEM_STATUS_IECC_ON = true ∧ s.takeDispatched 0 1 0x09 = some d ∧ s.batchFits (d.pay 38 2) = true ∧
      d.pay 48 1 = 0 ∧ s.canDma = true ∧ d.episode = false ∧ (cfgEntries 0 []).findIdx? cfgEntryBad = none ∧
      (cfgEntries 1 [1]).findIdx? cfgEntryBad = some 0 ∧ s.tickno = 0 ∧ late.pay 32 6 = 1 ∧
      (late.pay 32 6 ≠ 0 ∧ late.pay 32 6 ≤ (s.setWide 48 Reg.GAF_TICKNO_LO 1).tickno) ∧
      s.batchFits 4097 = false ∧ mem.memAnswers 0 0 = true := by decide +kernel
theorem witness_MarverCommands :
    let f := live.putB (Fld.MRV_STATE_FENCED 3) true
    let run := planned 5 6000 live
    let p : State := { run with gaf := { run.gaf with bankA := run.gaf.bankA.set 11 1 } }
    let bad := live.setMrv 3 { live.mrvAt 3 with flaws := [(0, 1)] }
    live.pwr.hold = .running ∧ live.served (Reg.MRV_DVFS 3) = true ∧ live.pinned 3 = false ∧ live.fenced 3 = false ∧
      p.pinned 0 = true ∧ p.fenced 0 = false ∧
      f.fenced 3 = true ∧ (live.mrvAt 3).ramp = none ∧ (live.mrvAt 3).due ≠ some 0 ∧ live.get (Fld.MRV_STATE_DVFS_CUR 3) = 0 ∧
      ((live.put (Fld.MRV_STATE_DVFS_CUR 3) 2).get (Fld.MRV_STATE_DVFS_CUR 3)) = 2 ∧ run.running = true ∧ live.running = false ∧
      ((live.setMrv 3 { live.mrvAt 3 with due := some 1 }).mrvAt 3).due = some 1 ∧
      ((live.setRamp 3 (some 1)).mrvAt 3).ramp = some 1 ∧ live.served (Reg.MRV_FENCE 3) = true ∧ (live.mrvAt 3).reheat = none ∧
      ((live.setMrv 3 { live.mrvAt 3 with reheat := some ⟨0, 1, [], 0⟩ }).mrvAt 3).reheat ≠ none ∧
      live.flag Fld.MRV_SCRUB_EN = true ∧ live.halted = false ∧ (live.mrvAt 3).bad (64 * (live.mrvAt 3).scrubAt) 64 = [] ∧
      (bad.mrvAt 3).bad (64 * (bad.mrvAt 3).scrubAt) 64 ≠ [] ∧ (15 : Nat) < 16 ∧
      live.served (Reg.MRV_CNT_CLR 3) = true ∧ live.served Reg.MRV_IRQ_SRC = true ∧
      2 ≤ (live.put (Fld.MRV_RHST_PHASE 3) 2).rhPhase 3 := by decide +kernel
theorem witness_PositionSensing :
    let g : ScTrig := ⟨0, 0, 0⟩
    let z := live.putB (Fld.SNS_QCFG_ZEN 2) true
    let now := live.setSns 2 { live.snsAt 2 with trigs := [⟨0, 0, false, 0, [], 0, false, none, []⟩] }
    live.pwr.hold = .running ∧ (live.snsAt 2).qa = false ∧ (live.snsAt 2).qb = false ∧ live.get (Fld.SNS_QCFG_FILT 2) < 64 ∧
      ¬ live.get (Fld.SNS_QCFG_FILT 2) < 0 ∧ z.flag (Fld.SNS_QCFG_ZEN 2) = true ∧
      live.flag (Fld.SNS_QCFG_ZEN 2) = false ∧ ((live.setSns 2 { live.snsAt 2 with scTrigs := [g] }).snsAt 2).scTrigs = [g] ∧
      (live.snsAt 2).scTrigs = [] ∧ ((now.snsAt 2).trigs.any fun g => g.at_ = now.cyc) = true ∧
      live.served (Reg.SNS_TRIPOC 2) = true ∧ live.served (Reg.SNS_TRIPOV 2) = true ∧ live.served (Reg.SNS_CNT_CLR 2) = true ∧
      live.served (Reg.MOD_CNT_CLR 3) = true := by decide +kernel
theorem witness_ModulatorInputs :
    let cfg : Word := 0x00000801
    let s := (live.setReg (Reg.MOD_CFG 1) cfg)
    let out : State := { (live.setReg (Reg.MOD_CFG 1) 0x00003203).setMod 1 { live.modAt 1 with startDue := false, divAt := 0, last := 0 } with cyc := 50 }
    let w (m : Mod) : State := { s.setMod 1 m with cyc := 33 }
    let m := live.modAt 1
    live.pwr.hold = .running ∧ live.served (Reg.MOD_CFG 1) = true ∧ (5 < (0x00060801 : Word).toNat / 2 ^ 16 % 8) ∧
      live.flag (Fld.MOD_CFG_EN 1) = false ∧ cfg.toNat / 2 ^ 16 % 8 ≤ 5 ∧ cfg.getLsbD 0 = true ∧
      modPeriodOk (cfg.getLsbD 1) (cfg.toNat / 2 ^ 8 % 2 ^ 8) = true ∧
      ((List.range 4).any fun j => decide (j ≠ 1) && live.modRouted j 0 && decide (live.get (Fld.MOD_CFG_CHAN j) = 0)) = false ∧
      ((List.range 4).any fun j => decide (j ≠ 2) && s.modRouted j 0 && decide (s.get (Fld.MOD_CFG_CHAN j) = 0)) = true ∧
      s.modInput 1 = true ∧ out.modInput 1 = false ∧ s.get (Fld.MOD_CFG_PERIOD 1) = 8 ∧
      ((w m).modInput 1 = true ∧ m.lost = false ∧ m.last + 4 * 8 < (w m).cyc ∧ ¬ m.last + 4 * 8 < 32) ∧
      (3 < 8 / 2 ∧ ¬ 4 < 8 / 2 ∧ 8 - 8 / 8 ≤ 7 ∧ 9 ≤ 8 + 8 / 8 ∧ ¬ 10 ≤ 8 + 8 / 8) ∧ m.off = false ∧ m.outside = 0 ∧ m.within = 0 ∧
      ({ m with lost := true } : Mod).lost = true ∧ ({ m with off := true, within := 7 } : Mod).within = 7 ∧
      ({ m with outside := 7 } : Mod).outside = 7 ∧ (true != s.flag (Fld.MOD_CFG_EDGE 1)) = true ∧
      (out.flag (Fld.MOD_CFG_EN 1) && !(out.modAt 1).startDue && decide (out.edgesBy 1 49 < out.edgesBy 1 50) &&
        decide (out.edgesBy 1 0 + 1 = out.edgesBy 1 50)) = true ∧
      m.edges + 1 < 32 * 2 ^ live.get (Fld.MOD_CFG_OSR 1) ∧
      32 * 2 ^ live.get (Fld.MOD_CFG_OSR 1) ≤ (({ m with edges := 32 * 2 ^ 7 } : Mod)).edges + 1 ∧
      modPeriodOk false 7 = false ∧ modPeriodOk false 8 = true ∧ modPeriodOk false 196 = true ∧ modPeriodOk false 197 = false ∧
      modPeriodOk true 64 = true ∧ modPeriodOk true 66 = false := by decide +kernel
theorem witness_PwmRegisters :
    let s := ((live.putB (Fld.PWM_CFG_PLOAD 2) true).putB (Fld.PWM_CFG_CEN 2) true).putB (Fld.PWM_CFG_TICKLOCK 2) false
    live.pwr.hold = .running ∧ live.served (Reg.PWM_PERIOD 2) = true ∧ live.served (Reg.PWM_CFG 2) = true ∧
      live.served (Reg.PWM_DT 2) = true ∧ live.served (Reg.PWM_EVC 2 1) = true ∧ live.served (Reg.PWM_EVOUT 2 1) = true ∧
      live.served (Reg.PWM_CNT_CLR 2) = true ∧ (15 : Word).toNat % 2 ^ 16 < 16 ∧ 16 ≤ (16 : Word).toNat % 2 ^ 16 ∧
      (s.flag (Fld.PWM_CFG_PLOAD 2) && !s.flag (Fld.PWM_CFG_TICKLOCK 2) && s.flag (Fld.PWM_CFG_CEN 2)) = true ∧
      (live.flag (Fld.PWM_CFG_PLOAD 2) && !live.flag (Fld.PWM_CFG_TICKLOCK 2) && live.flag (Fld.PWM_CFG_CEN 2)) = false ∧
      live.flag (Fld.PWM_CFG_CEN 2) = (planAxis live.axesInPlan 2 || (2 : Word).getLsbD 1) := by decide +kernel
theorem witness_PwmLapsAndTrips :
    let s := live.putB (Fld.PWM_CFG_CEN 2) true
    let lap : State := (s.put (Fld.PWM_PERIOD_ACTIVE 2) 100).setPwm 2 { s.pwmAt 2 with laps := [⟨0, false, 100, []⟩] }
    let z : State := { lap.put (Fld.PWM_EVC_ACTIVE 2 1) 6 with cyc := 3 }
    let m := z.setPwm 2 { z.pwmAt 2 with matched := [3] }
    live.pwr.hold = .running ∧ (live.putB (Fld.PWM_CFG_CEN 2) false).flag (Fld.PWM_CFG_CEN 2) = false ∧ s.flag (Fld.PWM_CFG_CEN 2) = true ∧
      { lap with cyc := 50 }.wraps 2 = some 100 ∧ { lap with cyc := 49 }.wraps 2 = none ∧
      { lap with cyc := 49 }.countsTo 2 ({ lap with cyc := 49 }.pwmPeriod 2 - 1) = true ∧
      (z.countsTo 2 6 && decide (6 < z.pwmPeriod 2)) = true ∧ (z.pwmAt 2).matched = [] ∧ (m.pwmAt 2).matched = [3] ∧
      s.get (Fld.PWM_EVOUT_PRESC 2 1) < sget 0 (s.pwmAt 2).occ 1 + 1 ∧
      sget 0 (s.pwmAt 2).occ 1 + 1 ≤ (s.put (Fld.PWM_EVOUT_PRESC 2 1) 3).get (Fld.PWM_EVOUT_PRESC 2 1) ∧
      live.served (Reg.PWM_CTRL 2) = true ∧ live.served (Reg.PWM_CTRL 6) = true ∧
      (live.putB (Fld.PWM_STATUS_EN 2) true).flag (Fld.PWM_STATUS_EN 2) = true ∧ live.flag (Fld.PWM_STATUS_EN 2) = false ∧
      (live.pwmAt 2).cut ≠ some live.cyc ∧ live.ready 5 = true ∧ State.reset.ready 5 = false ∧
      ((List.range 4).filter fun i => bitOf 4 i && !live.bitF (Fld.PWM_TRIP_LIVE 2) i) = [2] ∧
      live.served (Reg.PWM_TRIP 2) = true := by decide +kernel
theorem witness_ValveChannels :
    let s := (live.setVState 2 3).put (Fld.VLV_FPEAK_FPEAK 1) 100
    let hi := s.put (Fld.VLV_STATUS_I 2) 2000
    let lim := (hi.put (Fld.VLV_LEVELS_IPEAK 2) 3000)
    let long := (s.put (Fld.VLV_LEVELS_IPEAK 2) 3000).setVlv 2 { s.vlvAt 2 with timer := 2 ^ 16 }
    let on := ((live.setVlv 2 { live.vlvAt 2 with on := true }).putB (Fld.PWM_CFG_CEN 6) true)
    live.pwr.hold = .running ∧ live.dtime.toNat % 128 = 0 ∧ ({ live with dtime := 127 } : State).dtime.toNat % 128 ≠ 0 ∧
      s.vState 2 = 3 ∧ (hi.put (Fld.VLV_LEVELS_IPEAK 2) 2000).get (Fld.VLV_LEVELS_IPEAK 2) ≤ hi.valveI 2 ∧
      lim.valveI 2 < lim.get (Fld.VLV_LEVELS_IPEAK 2) ∧ lim.get (Fld.VLV_FPEAK_FPEAK 1) ≤ lim.pairSum 1 ∧
      ¬ long.get (Fld.VLV_FPEAK_FPEAK 1) ≤ long.pairSum 1 ∧ long.get (Fld.VLV_TPEAK_TPEAK 2) ≤ (long.vlvAt 2).timer ∧
      ((live.setVlv 2 { live.vlvAt 2 with off := true }).vlvAt 2).off = true ∧ (live.vlvAt 2).off = false ∧ (live.vlvAt 2).on = false ∧
      (on.vlvAt 2).on = true ∧ on.ready 8 = true ∧ on.flag (Fld.PWM_CFG_CEN 6) = true ∧ on.vState 2 = 0 ∧
      on.inPeak (partner 2) = false ∧ on.hswgOn 1 = false ∧ (on.setVState 3 3).inPeak (partner 2) = true ∧
      (on.put (Fld.VLV_PAIR_HSWDLY 1) 0).get (Fld.VLV_PAIR_HSWDLY 1) = 0 ∧ 0 < on.get (Fld.VLV_PAIR_HSWDLY 1) ∧
      live.served (Reg.VLV_CMD 2) = true ∧ live.served (Reg.VLV_LEVELS 2) = true ∧ live.served (Reg.VLV_CNT_CLR 2) = true := by
  decide +kernel
theorem witness_TimerChannels :
    let s := live.setTState 3 2
    let z := (s.setTReload 3 5)
    let one := z.putB (Fld.TMR_CFG_MODE 3) true
    let g := (live.putB Fld.TMR_GSTAT_PENDING true)
    let e := g.putB Fld.TMR_GSTAT_EDGE true
    let p := live.setSuspended true
    live.pwr.hold = .running ∧ live.ready 9 = true ∧ live.get (Fld.TMR_CFG_SRC 3) < 4 ∧ s.tState 3 = 2 ∧ live.tState 3 ≠ 2 ∧
      s.suspended = false ∧ z.oneshot 3 = false ∧ z.tCount 3 < z.tReload 3 ∧ (z.setTCount 3 5).tReload 3 ≤ (z.setTCount 3 5).tCount 3 ∧
      (z.setTCount 3 6).tReload 3 < (z.setTCount 3 6).tCount 3 ∧
      one.oneshot 3 = true ∧ (one.setTCount 3 4).tReload 3 ≤ (one.setTCount 3 4).tCount 3 + 1 ∧ live.served Reg.TMR_GSTART = true ∧
      live.get Fld.TMR_GSTAT_PMASK = 0 ∧ g.flag Fld.TMR_GSTAT_PENDING = true ∧ g.flag Fld.TMR_GSTAT_EDGE = false ∧
      g.suspended = false ∧ e.flag Fld.TMR_GSTAT_EDGE = true ∧ e.tmrDue = false ∧ ({ e with tmrDue := true } : State).tmrDue = true ∧
      (e.setSuspended true).suspended = true ∧ live.served (Reg.TMR_CTRL 3) = true ∧ live.served (Reg.TMR_CFG 3) = true ∧
      (live.setTState 3 1).tState 3 = 1 ∧ live.flag (Fld.TMR_CFG_RLOAD 3) = false ∧
      (live.putB (Fld.TMR_CFG_RLOAD 3) true).flag (Fld.TMR_CFG_RLOAD 3) = true ∧ live.bitF Fld.TMR_TINLVL_LEVEL 2 ≠ true ∧
      (∀ k < 16, live.get (Fld.TMR_CFG_SRC k) ≠ 4 + 2) ∧
      ((s.putB (Fld.TMR_CFG_CAPEN 3) true).put (Fld.TMR_CFG_CAPIN 3) 2).get (Fld.TMR_CFG_CAPIN 3) = 2 ∧ p.suspended = true ∧
      p.halted = false ∧ 3 ≤ p.pstate ∧ s.flag (Fld.TMR_CFG_SUSP 3) = false := by decide +kernel
theorem witness_AudioConverters :
    let s := live.setAudOut .hp { live.audOut .hp with starting := true }
    let late : State := { s with cyc := startupCycles }
    let ramp (st a : Nat) : State := { (live.put (audState .hp) st).put (audAtt .hp) a with cyc := (live.audOut .hp).at_ + rampCycles (live.audOut .hp).ramp }
    let j := live.putB Fld.AUD_JACK_CFG_EN true
    let jin := j.putB Fld.AUD_JACK_STAT_INSERTED true
    live.pwr.hold = .running ∧ live.served Reg.AUD_HP = true ∧ (storeWord live (audEn .hp).off (0 ||| 0x80000000)).isSome = true ∧
      (storeWord live (audEn .spk).off (0 &&& 0x7FFFFFFF)).isSome = true ∧ live.audLatched .hp = false ∧
      (live.setReg Reg.AUD_PROT 1).audLatched .hp = true ∧ live.get (audState .hp) = 0 ∧ (live.audOut .hp).starting = false ∧
      ((live.put (audState .spk) 2).get (audState .spk)) = 2 ∧ live.served (audRegOff (.mic 1)) = true ∧
      ((regAt (audRegOff (.mic 1))).map fun r => r.1.accepts 0) = some true ∧ live.aud.was = [] ∧
      ((late.up 10 && (late.audOut .hp).starting && decide ((late.audOut .hp).at_ + startupCycles ≤ late.cyc)) = true) ∧
      (∀ x ∈ ([(1, 2), (1, 1), (3, 62), (3, 63)] : List (Nat × Nat)), (ramp x.1 x.2).get (audState .hp) = x.1 ∧
        (ramp x.1 x.2).get (audAtt .hp) = x.2 ∧ (ramp x.1 x.2).up 10 = true) ∧
      held.up 10 = true ∧ State.reset.up 10 = false ∧
      live.served Reg.AUD_PROT = true ∧ j.flag Fld.AUD_JACK_CFG_EN = true ∧ live.flag Fld.AUD_JACK_CFG_EN = false ∧
      j.flag Fld.AUD_JACK_STAT_INSERTED = false ∧
      jin.flag Fld.AUD_JACK_STAT_INSERTED = true ∧ (true == (j.putB Fld.AUD_JACK_CFG_JPOL true).flag Fld.AUD_JACK_CFG_JPOL) = true ∧
      j.get Fld.AUD_JACK_CFG_JDEB ≤ ({ j.aud.jack with deb := 64 } : Jack).deb + 1 ∧
      j.aud.jack.deb + 1 < j.get Fld.AUD_JACK_CFG_JDEB := by decide +kernel
theorem witness_StreamJobs :
    let d (batch req : Byte) := desc (header 0x02 0 1 ++ List.replicate 28 0 ++ [0, 0, batch, 0, 0, 0, req])
    let h := desc (header 0x02 0 1 ++ List.replicate 28 0 ++ [0, 0, 1, 1])
    let s := sliced (streaming (live.putB Fld.MEM_STATUS_TRAINED true))
    let i (x : Desc) : State := withDesc s x
    let far := desc (header 0x02 0 1 ++ List.replicate 28 0 ++ [0, 0, 1, 0, 0, 0, 0] ++ List.replicate 8 0 ++ [1])
    let wide (x : State) : State := x.setSlot 0 (some ⟨List.replicate 7 0 ++ [1] ++ List.replicate 13 0 ++ [2, 0, 0] ++ leBytes 4 16 ++
      List.replicate 8 0 ++ leBytes 4 64 ++ List.replicate 24 0 ++ leBytes 2 32 ++ List.replicate 30 0, 0⟩)
    (i (d 1 0)).takeDispatched 0 1 0x02 = some (d 1 0) ∧ live.slotAt 0 = none ∧ (s.slotAt 0).isSome = true ∧
      (withDesc (loaded 1 live) (d 1 0)).slotAt 0 = some ⟨pinnedImage 1, 0⟩ ∧ parKind (pinnedImage 1) ≠ 0 ∧
      ((s.slotAt 0).map fun p => (parKind p.image, parMaxBatch p.image, parPlaces p.image)) = some (0, 2, 1) ∧
      (d 1 0).pay 34 1 = 1 ∧ (d 3 0).pay 34 1 = 3 ∧ (d 0 0).pay 34 1 = 0 ∧ (d 1 0).pay 38 1 = 0 ∧ (d 1 1).pay 38 1 = 1 ∧
      ((s.slotAt 0).map fun p => s.selectPlace p.image 0) = some (.inl 0) ∧
      ((s.slotAt 0).map fun p => (s.putB (Fld.MRV_STATE_FENCED 5) true).selectPlace p.image 0) = some (.inr (some 5)) ∧
      ((s.slotAt 0).map fun p => (streaming live).selectPlace p.image 0) = some (.inr none) ∧ bitOf ((d 1 0).pay 35 1) 0 = false ∧
      ((s.slotAt 0).map fun p => (s.inputAnswers p.image (d 1 0), (s.jobInput p.image (d 1 0)).isSome)) = some (true, true) ∧
      ((s.slotAt 0).map fun p => (s.put Fld.GLB_READY_READY 0).inputAnswers p.image (d 1 0)) = some false ∧
      (((wide s).slotAt 0).map fun p => ((wide s).inputAnswers p.image far, (wide s).jobInput p.image far)) = some (true, none) ∧
      bitOf (h.pay 35 1) 0 = true ∧ s.canDma = true ∧ h.episode = false ∧ s.pwr.hold = .running := by decide +kernel
theorem witness_StreamJobs_slices :
    let s := sliced live
    let c := live.setMrv 5 { live.mrvAt 5 with chunk := some ⟨0, 1, 0, 0⟩ }
    let j (r reread : Bool) : Job := ⟨0, 1, 0, 0, 1, 0, [], 0, 0, none, false, r, reread, [], [], none⟩
    let d := { desc (header 0x02 0 1) with stage := .active }
    let q (reread : Bool) : State := { withDesc live d with jobs := [j false reread] }
    s.mayStart 0 8 = true ∧ live.mayStart 0 8 = false ∧ bitOf (actTarget s.plan 0) 5 = true ∧ s.fenced 5 = false ∧
      (live.mrvAt 5).chunk = none ∧ (c.mrvAt 5).chunk = some ⟨0, 1, 0, 0⟩ ∧ c.jobOf 0 1 = none ∧
      (∀ r : Bool, (q r).takeDispatched 0 1 0x02 = none ∧ (q r).jobOf 0 1 = some (j false r) ∧ (q r).findDesc 0 1 = some d) ∧
      ({ c with jobs := [j false false] } : State).jobOf 0 1 = some (j false false) ∧
      ({ c with jobs := [j true false] } : State).jobOf 0 1 = some (j true false) := by decide +kernel
theorem witness_LoadsAndReheat :
    let d (t : Byte) (n : Nat) := desc (header 0x03 0 1 ++ List.replicate 28 0 ++ [t, 0, 0, 0] ++ List.replicate 12 0 ++ leBytes 4 n)
    let s (t : Byte) (n : Nat) : State := withDesc live (d t n)
    let plan := leBytes 4 0x4C505447 ++ leBytes 2 1 ++ List.replicate 34 0 ++ leBytes 4 64 ++ List.replicate 148 0
    let par := leBytes 4 0x4E535250 ++ leBytes 2 1 ++ List.replicate 50 0 ++ leBytes 4 64 ++ List.replicate 132 0
    live.pwr.hold = .running ∧ (s 0 192).takeDispatched 0 1 0x03 = some (d 0 192) ∧ (d 0 192).pay 32 1 ≤ 1 ∧ live.canDma = true ∧
      (d 0 192).episode = false ∧ live.bankBusy false = none ∧ (planned 5 6000 live).bankBusy false = some 7 ∧
      planHeadBad plan 192 = none ∧ planHeadBad [] 192 = some 0 ∧ (d 0 192).pay 48 4 = 192 ∧
      (s 2 192).takeDispatched 0 1 0x03 = some (d 2 192) ∧ parHeadBad par 192 = none ∧ parHeadBad [] 192 = some 56 ∧
      (s 3 0).takeDispatched 0 1 0x03 = some (d 3 0) ∧ (s 3 0).slotBusy 0 none = none ∧
      ((s 3 0).put (Fld.MRV_SLOT_FLAGS_JOBS 0) 1).slotBusy 0 none = some 1 := by decide +kernel
theorem witness_LoadsAndReheat_reheat :
    let d := desc (header 0x0D 0 1 ++ List.replicate 28 0 ++ [5])
    let s : State := withDesc live d
    let f := s.putB (Fld.MRV_STATE_FENCED 5) true
    let x := f.setMrv 5 { f.mrvAt 5 with reheat := some ⟨0, 1, [], 0⟩ }
    let home := f.setSlot 0 (some ⟨(pinnedImage 1).set 68 32, 0⟩)
    s.takeDispatched 0 1 0x0D = some d ∧ d.pay 32 1 % 16 = 5 ∧ s.fenced 5 = false ∧ f.fenced 5 = true ∧ f.residents 5 = [] ∧
      (f.mrvAt 5).reheat = none ∧ d.pay 40 8 = 0 ∧ d.pay 48 8 = 0 ∧ (x.mrvAt 5).reheat = some ⟨0, 1, [], 0⟩ ∧
      (x.put (Fld.MRV_RHST_PHASE 5) 1).rhPhase 5 = 1 ∧ (x.put (Fld.MRV_RHST_PHASE 5) 2).rhPhase 5 = 2 ∧ x.sig = [] ∧
      x.halted = false ∧ (home.residents 5).all (fun e => e.2.dest = 0) = true ∧ x.ready 16 = true := by decide +kernel
theorem witness_MixerCommands :
    let b := live.putB Fld.MIX_CTRL_MODE true
    let full := (List.range 8).foldl (fun s c => s.setBrSrc 1 c 16) b
    let f := live.setMix { live.mix with featDue := some (5, 7, [1, 2]) }
    let e := live.putB Fld.MIX_CTRL_EN true
    live.pwr.hold = .running ∧ live.served Reg.MIX_CTRL = true ∧ live.bridged = false ∧ live.mixUp = true ∧ State.reset.mixUp = false ∧
      b.srcDom 12 ≠ b.sinkDom 0 ∧ bridgeOf (full.srcDom 12) (full.sinkDom 0) = 1 ∧ full.brChan 1 12 = none ∧
      full.brChan 1 0xFF = none ∧ (480 : Word).toNat % 512 ≤ 480 ∧ e.flag Fld.MIX_CTRL_EN = true ∧ live.flag Fld.MIX_CTRL_EN = false ∧
      live.dtime.toNat % (4096 / 2 ^ live.get Fld.MIX_CTRL_FS) = 0 ∧ live.mix.d0Next ≤ live.cyc ∧ live.mix.llNext ≤ live.cyc ∧
      (live.d1Due = true) ∧ (∀ w ∈ live.mix.was, w.at_ + 4 ≤ live.cyc) ∧
      f.mix.featDue = some (5, 7, [1, 2]) ∧ f.cyc < 7 ∧ ({ f with cyc := 7 } : State).mixUp = true ∧ full.brSrc 1 3 ≠ 0xFF ∧
      (live.put Fld.USB_STATUS_ALT_PLAY 1).get Fld.USB_STATUS_ALT_PLAY ≠ 0 ∧ live.served Reg.MIX_METCLR = true ∧
      live.served Reg.MIX_CAPDROP_CLR = true ∧ satS 24 (sinkSum [2 ^ 23 - 1, 2 ^ 23 - 1] [384, 384]) ≠
        sinkSum [2 ^ 23 - 1, 2 ^ 23 - 1] [384, 384] := by decide +kernel
theorem witness_AudioStreamsAndPorts :
    let s := planned 7 6000 live
    let late := planned 7 7 live
    let cap := desc (header 0x04 0 1 ++ List.replicate 28 0 ++ [0, 0, 1, 0, 0])
    let two := desc (header 0x04 0 1 ++ List.replicate 28 0 ++ [0, 0, 2, 0, 0, 3])
    let passed := desc (header 0x04 0 1 ++ List.replicate 28 0 ++ [0, 0, 1, 0, 0] ++ List.replicate 19 0 ++ [1])
    let play := desc (header 0x04 0 1 ++ List.replicate 28 0 ++ [1, 0, 1, 0, 20] ++ List.replicate 7 0 ++ [1, 0, 0, 0] ++
      List.replicate 14 0 ++ [1])
    let host := desc (header 0x04 0 1 ++ List.replicate 28 0 ++ [1, 0, 1, 0, 20] ++ List.replicate 7 0 ++ [1, 0, 0, 0])
    let m := live.put Fld.MEM_USABLE_USABLE_MIB 512
    let tick := live.setWide 48 Reg.GAF_TICKNO_LO 9
    s.mayStart 0 7 = true ∧ s.mixUp = true ∧ s.edgeOfs + 8 ≤ actDeadline s.plan 0 ∧
      late.mayStart 0 7 = true ∧ actDeadline late.plan 0 < late.edgeOfs + 8 ∧ live.running = false ∧
      (live.putB Fld.MIX_CTRL_EN true).flag Fld.MIX_CTRL_EN = true ∧ live.dtime.toNat % 6144 = 0 ∧
      (withDesc live cap).takeDispatched 0 1 0x04 = some cap ∧
      cap.pay 32 1 = 0 ∧ live.startPassed cap = false ∧ tick.startPassed passed = true ∧
      ((audioChs cap).findIdx? fun k => live.sinkDom k ≠ live.sinkDom ((audioChs cap).headD 0)) = none ∧
      ((audioChs two).findIdx? fun k => (live.putB Fld.MIX_CTRL_MODE true).sinkDom k ≠ (live.putB Fld.MIX_CTRL_MODE true).sinkDom 0)
        = some 1 ∧ (withDesc m play).takeDispatched 0 1 0x04 = some play ∧ play.pay 32 1 = 1 ∧ play.pay 62 1 = 1 ∧
      play.pay 44 4 = 1 ∧ play.pay 56 6 = 0 ∧ m.startPassed play = false ∧ host.pay 62 1 ≠ 1 ∧ live.canDma = true ∧
      m.memAnswers (play.pay 48 8) (1 * 1 * fmtBytes 0) = true ∧ m.memIn (play.pay 48 8) (1 * 1 * fmtBytes 0) = true ∧
      (m.put Fld.GLB_READY_READY 0).memAnswers 0 2 = false ∧ (m.put Fld.MEM_USABLE_USABLE_MIB 0).memIn 0 2 = false := by decide +kernel
theorem witness_AudioStreamsAndPorts_ports :
    let c : Word := 0x81000000
    let e := live.putB (Fld.SP_CFG_EN 1) true
    let l := (e.putB (Fld.SP_STATUS_LOCKED 1) true).put (Fld.SP_STATUS_FPER 1) 2048
    let b := l.putB Fld.MIX_CTRL_MODE true
    let same : Vector (BitVec 16) 8 := .replicate 8 2048
    let other : Vector (BitVec 16) 8 := .replicate 8 4096
    live.served (Reg.SP_CFG 1) = true ∧ c.getLsbD 31 = true ∧ spRefused (b.put Fld.MIX_CTRL_D2PORT 1) 1 c = true ∧
      spRefused live 1 c = false ∧ (storeWord live (Reg.SP_CFG 1) c).isSome = true ∧
      (e.mixUp && e.flag (Fld.SP_CFG_EN 1) && !e.spCtl 1 && !e.spLive 1 && decide (1024 ≤ same[7].toNat) && decide (same[7].toNat ≤ 24576) &&
        decide (8 * e.spSlots 1 * e.spWidth 1 ≤ same[7].toNat) && same.toList.all fun x => !periodOff x.toNat same[7].toNat) = true ∧
      l.spFaultable 1 = true ∧ live.spFaultable 1 = false ∧ l.mix.spAt.getD 1 0 + 4 * 2048 + 2048 / 2 ≤ ({ l with cyc := 9216 } : State).cyc ∧
      1 ≠ l.spSlots 1 * l.spWidth 1 ∧ (other.toList.all fun x => periodOff x.toNat (l.get (Fld.SP_STATUS_FPER 1))) = true ∧
      (same.toList.all fun x => periodOff x.toNat (l.get (Fld.SP_STATUS_FPER 1))) = false ∧
      b.bridged = true ∧ (b.put Fld.MIX_CTRL_D2PORT 1).d2port = 1 ∧ l.bridged = false ∧ live.served (Reg.SP_CNT 1) = true := by
  decide +kernel
theorem witness_CameraAndVision :
    let s := ((((live.put Fld.VIS_CAP_SLOTS 3).putB Fld.VIS_CAP_EN true).put Fld.VIS_GEOM_WIDTH 2).put Fld.VIS_GEOM_HEIGHT 1).put
      Fld.VIS_CAP_FTMO 5
    let o (drop : Bool) (flags n : Nat) : State := s.setVis { s.vis with next := 2, cur := some ⟨1, drop, flags, n, 0⟩ }
    let dt : BitVec 6 := 0x2A
    s.capturing = true ∧ (1 : BitVec 2).toNat ≠ s.get Fld.VIS_CSI_VC ∧ (0 : BitVec 2).toNat = s.get Fld.VIS_CSI_VC ∧ s.vis.cur = none ∧
      (s.putB (Fld.VIS_SLOT_FLAGS_LOCKED (s.slotOfFrame s.vis.next)) true).flag (Fld.VIS_SLOT_FLAGS_LOCKED (s.slotOfFrame s.vis.next)) = true ∧
      s.flag (Fld.VIS_SLOT_FLAGS_LOCKED (s.slotOfFrame s.vis.next)) = false ∧ (o false 0 1).vis.cur = some ⟨1, false, 0, 1, 0⟩ ∧
      (o false 0 1).visH ≤ 1 ∧ (0 : Nat) < (o false 0 0).visH ∧ bitOf 2 1 = true ∧ (o true 0 0).vis.cur = some ⟨1, true, 0, 0, 0⟩ ∧
      (dt.toNat == visCode (s.get Fld.VIS_CSI_DT)) = true ∧ ((0x12 : BitVec 6).toNat == visCode (s.get Fld.VIS_CSI_DT)) = false ∧
      (o false 0 0).visW = ([1, 2] : List (BitVec 12)).length ∧ ([1] : List (BitVec 12)).length < (o false 0 0).visW ∧
      (o false 0 0).visW < ([1, 2, 3] : List (BitVec 12)).length ∧ s.get Fld.VIS_CAP_FTMO ≠ 0 ∧
      live.served Reg.VIS_CAP = true ∧ live.served Reg.VIS_CNT = true ∧ live.flag Fld.VIS_CAP_EN = false ∧
      s.pwr.hold = .running := by decide +kernel
theorem witness_CameraAndVision_chains :
    let d := desc (header 0x05 0 1 ++ List.replicate 28 0 ++ [1])
    let cam := desc (header 0x05 0 1 ++ List.replicate 28 0 ++ [0, 0, 0, 0, 1])
    let host := desc (header 0x05 0 1 ++ List.replicate 28 0 ++ [1, 0, 2])
    let blk := List.replicate 8 0 ++ leBytes 2 16 ++ leBytes 2 16 ++ leBytes 4 32 ++ List.replicate 4 0 ++ leBytes 2 16 ++ leBytes 2 16 ++
      [0, 0, 0, 1]
    let roi := List.replicate 20 0 ++ leBytes 2 16 ++ leBytes 2 16 ++ [0, 0, 0, 1]
    let m := live.put Fld.MEM_USABLE_USABLE_MIB 512
    let s := withDesc (memWrite m 0 blk) d
    let c : Chain := ⟨0, 1, blk, 0, none, 0, 32, 0, 0, none⟩
    let r := s.setVis { s.vis with chains := [c] }
    let g := (((m.put Fld.VIS_FCNT_FCNT 1).putB (Fld.VIS_SLOT_FLAGS_VALID (m.slotOfFrame 1)) true).put
      (Fld.VIS_SLOT_FRAME_FRAME (m.slotOfFrame 1)) 1).put Fld.VIS_GEOM_WIDTH 16
    s.takeDispatched 0 1 0x05 = some d ∧ s.visUp = true ∧ State.reset.visUp = false ∧ bitOf (d.pay 34 1) 1 = false ∧
      bitOf (host.pay 34 1) 1 = true ∧ s.canDma = true ∧ host.episode = false ∧ s.ready 16 = true ∧
      s.memAnswers (d.pay 40 8) 256 = true ∧ s.memIn (d.pay 40 8) 256 = true ∧
      (s.put Fld.GLB_READY_READY 0).memAnswers 0 256 = false ∧ (s.put Fld.MEM_USABLE_USABLE_MIB 0).memIn 0 256 = false ∧
      visBlockBad (bytesAt s.mem.ram 0 256) false 0 = none ∧ d.pay 32 1 ≠ 0 ∧
      visBlockBad (bytesAt live.mem.ram 0 256) false 0 = some 8 ∧ (withDesc m cam).takeDispatched 0 1 0x05 = some cam ∧
      visBlockBad (bytesAt (memWrite m 0 roi).mem.ram 0 256) true 0 = none ∧ m.get Fld.VIS_FCNT_FCNT < cam.pay 36 4 ∧
      (cam.pay 36 4 ≤ g.get Fld.VIS_FCNT_FCNT ∧ g.flag (Fld.VIS_SLOT_FLAGS_VALID (g.slotOfFrame 1)) = true ∧
        g.get (Fld.VIS_SLOT_FRAME_FRAME (g.slotOfFrame 1)) = cam.pay 36 4 ∧ ¬ g.visW < 0 + 16 ∧
        (g.put Fld.VIS_GEOM_HEIGHT 15).visH < 0 + 16 ∧ ¬ g.visH < 0 + 16 ∧ (g.put Fld.VIS_GEOM_WIDTH 15).visW < 0 + 16) ∧
      live.vis.chains = [] ∧ r.vis.chains = [c] ∧ r.findDesc c.sq c.seq = some d ∧ live.findDesc c.sq c.seq = none ∧
      (visMemReads d c).any (fun e => r.memFlawed e.1 e.2) = false ∧ visHostRead d c = false ∧ d.episode = false ∧
      bitOf (d.pay 34 1) 2 = false ∧ visInRange r d c = true ∧ c.stop = none ∧ ({ c with stop := some 7 } : Chain).stop = some 7 ∧
      (visEngines d).find? (c.eng < ·) = none ∧ visInRange (withDesc live d) d c = false := by decide +kernel
theorem witness_UsbControl :
    let ok := live.setReg (Reg.USB_DTDIR 0) 0x80010000
    let susp := (onUsb.putB Fld.USB_STATUS_SUSPENDED true).putB Fld.USB_STATUS_RWAKE_EN true
    let x (a b : Byte) : List Byte := [a, b, 5, 0, 0, 0, 0, 0]
    let e : Ep0 := ⟨[], false, some 5, some 1, false⟩
    live.served Reg.USB_CTRL = true ∧ live.flag Fld.USB_CTRL_CONNECT = false ∧ usbRefuse live = true ∧ usbRefuse ok = false ∧
      ok.flag Fld.USB_CTRL_CONNECT = false ∧ onUsb.flag Fld.USB_CTRL_CONNECT = true ∧ onUsb.flag Fld.USB_STATUS_CONNECTED = true ∧
      susp.flag Fld.USB_CTRL_CONNECT = true ∧ susp.flag Fld.USB_STATUS_RWAKE_EN = true ∧
      susp.flag Fld.USB_STATUS_SUSPENDED = true ∧ (0x80000000 : Word).getLsbD 31 = true ∧ onUsb.usbUp = true ∧
      onUsb.get Fld.USB_STATUS_TESTMODE = 0 ∧ onUsb.flag Fld.USB_STATUS_SUSPENDED = false ∧ susp.usbUp = true ∧
      onUsb.usb.req = none ∧ onUsb.usb.waits = [] ∧ (onUsb.setUsb { onUsb.usb with req := some (x 0x40 1) }).usb.req ≠ none ∧
      fieldAt (x 0x40 1) 0 1 / 32 % 4 = 2 ∧ fieldAt (x 0x60 1) 0 1 / 32 % 4 = 3 ∧
      fieldAt (x 0 5) 0 1 = 0 ∧ fieldAt (x 0 5) 1 1 = 5 ∧ fieldAt (x 0 5) 2 2 ≤ 127 ∧ onUsb.pwr.hold = .running ∧
      (fieldAt (x 0x80 6) 0 1 = 0x80 ∧ fieldAt (x 0x80 6) 1 1 = 6 ∧ (((onUsb.put (Fld.USB_DTDIR_TYPE 0) 1).putB (Fld.USB_DTDIR_VALID 0) true).dtEntry 1 0 0).isSome = true) ∧
      (onUsb.setUsb { onUsb.usb with ep0 := some e }).usb.ep0 = some e ∧ e.stall = false ∧
      live.served Reg.USB_CNT = true := by decide +kernel
theorem witness_UsbControl_requests :
    let d (t k : Byte) := desc (header 0x0B 0 1 ++ List.replicate 28 0 ++ [t, k])
    let dlen (n sp : Byte) := desc (header 0x0B 0 1 ++ List.replicate 28 0 ++ [1, 0, 0, 0, n] ++ List.replicate 11 0 ++ [sp])
    let buf := desc (header 0x0B 0 1 ++ List.replicate 28 0 ++ List.replicate 16 0 ++ [1])
    let r : List Byte := [0x40, 1, 0, 0, 0, 0, 0, 0]
    let rin : List Byte := [0xC0, 1, 0, 0, 0, 0, 8, 0]
    let u (q : List Byte) (x : Desc) : State := withDesc (onUsb.setUsb { onUsb.usb with req := some q, inbox := [.request] }) x
    let take (x : Desc) : State := (u r x).setUsb { (u r x).usb with taker := some (0, 1) }
    let note := onUsb.setUsb { onUsb.usb with inbox := [.notice 3] }
    let mem := onUsb.put Fld.MEM_USABLE_USABLE_MIB 1
    (withDesc onUsb (d 0 0)).takeDispatched 0 1 0x0B = some (d 0 0) ∧ onUsb.up 13 = true ∧ (d 0 0).pay 32 1 = 0 ∧
      onUsb.usb.inbox = [] ∧ note.usb.inbox = [.notice 3] ∧ (u r (d 0 0)).usb.inbox = [.request] ∧ (u r (d 0 0)).usb.req = some r ∧
      setupOutData r = false ∧ (u r (d 0 0)).usb.waits = [] ∧ (d 1 0).pay 32 1 = 1 ∧ (d 1 2).pay 33 1 % 4 = 2 ∧ (d 1 1).pay 33 1 % 4 = 1 ∧
      setupInData rin = true ∧ setupInData r = false ∧ setupLen rin = 8 ∧ (dlen 9 0).pay 36 4 = 9 ∧ (dlen 8 0).pay 36 4 = 8 ∧
      (dlen 8 1).pay 48 1 = 1 ∧ mem.memAnswers 0 8 = true ∧ mem.memIn 0 8 = true ∧ (mem.put Fld.GLB_READY_READY 0).memAnswers 0 8 = false ∧
      (mem.put Fld.MEM_USABLE_USABLE_MIB 0).memIn 0 8 = false ∧ (d 1 2).pay 34 2 = (u r (d 1 2)).usbTag ∧
      (take (d 0 0)).usb.taker = some (0, 1) ∧ (take (d 0 0)).findDesc 0 1 = some (d 0 0) ∧ (d 0 0).pay 48 1 = 0 ∧ buf.pay 48 1 = 1 ∧
      (take (d 0 0)).canDma = true ∧ (take buf).ready 16 = true ∧ (take buf).usbUp = true := by decide +kernel
theorem witness_UsbStreams :
    let d (t : Byte) := desc (header 0x0B 0 1 ++ List.replicate 28 0 ++ [t, 0, 0, 0, 8])
    let m (t : Byte) := desc (header 0x0B 0 1 ++ List.replicate 28 0 ++ [t, 0, 0, 0, 8] ++ List.replicate 11 0 ++ [1])
    let cfg := onUsb.put Fld.USB_STATUS_CONFIG 1
    let s := withDesc (cfg.setUsb { cfg.usb with rx := [⟨0, 1, 0, []⟩], tx := [⟨0, 1, 0, []⟩], sofs := List.replicate 127 0,
                                                 lastSof := some 0 }) (d 2)
    let hs := (cfg.putB Fld.USB_STATUS_HS true)
    let iso := ((hs.put Fld.USB_STATUS_ALT_PLAY 1).put Fld.USB_STATUS_ALT_REC 1).put (Fld.USB_ALTFMT_NCH 0) 2
    let mem := onUsb.put Fld.MEM_USABLE_USABLE_MIB 1
    (withDesc onUsb (d 2)).takeDispatched 0 1 0x0B = some (d 2) ∧ (withDesc onUsb (d 3)).takeDispatched 0 1 0x0B = some (d 3) ∧
      onUsb.up 13 = true ∧ (d 2).pay 32 1 = 2 ∧ (d 3).pay 32 1 = 3 ∧ (d 3).pay 48 1 = 0 ∧ (m 3).pay 48 1 = 1 ∧ onUsb.canDma = true ∧
      mem.memAnswers 0 8 = true ∧ mem.memIn 0 8 = true ∧ (mem.put Fld.GLB_READY_READY 0).memAnswers 0 8 = false ∧
      (mem.put Fld.MEM_USABLE_USABLE_MIB 0).memIn 0 8 = false ∧
      (d 3).episode = false ∧ onUsb.usb.rx = [] ∧ s.usb.rx = [⟨0, 1, 0, []⟩] ∧ s.bulkUp = true ∧ s.usb.haltOut = false ∧
      ([1, 2] : List Byte).length ≤ s.ep3Max ∧ s.findDesc 0 1 = some (d 2) ∧ (m 2).pay 48 1 = 1 ∧ s.usb.tx = [⟨0, 1, 0, []⟩] ∧
      s.usb.haltIn = false ∧
      iso.isoUp = true ∧ iso.get Fld.USB_STATUS_ALT_PLAY ≠ 0 ∧ 0 < min 4 (iso.get (Fld.USB_ALTFMT_NCH (1 - 1))) ∧
      ([1, 2, 3, 4] : List Byte).length % (2 * (iso.get (Fld.USB_ALTFMT_SUBSLOT (1 - 1)) + 2)) = 0 ∧
      ([1] : List Byte).length % (2 * (iso.get (Fld.USB_ALTFMT_SUBSLOT (1 - 1)) + 2)) ≠ 0 ∧
      iso.get Fld.USB_STATUS_ALT_REC ≠ 0 ∧ onUsb.usbUp = true ∧ onUsb.flag Fld.USB_STATUS_SUSPENDED = false ∧
      s.usb.lastSof = some 0 ∧ s.sofWindow ≤ s.usb.sofs.length ∧ s.usbUp = true := by decide +kernel
theorem witness_TwoWire_descriptors :
    let d (op n : Byte) := desc (header 0x06 0 1 ++ List.replicate 28 0 ++ [1, 0, op, 0, n])
    let m (op n : Byte) := desc (header 0x06 0 1 ++ List.replicate 28 0 ++ [1, 0, op, 0, n] ++ List.replicate 19 0 ++ [1])
    let s (x : Desc) := withDesc live x
    let mem := live.put Fld.MEM_USABLE_USABLE_MIB 1
    (s (d 0 2)).takeDispatched 0 1 0x06 = some (d 0 2) ∧ (s (d 1 0)).takeDispatched 0 1 0x06 = some (d 1 0) ∧
      (s (d 2 2)).takeDispatched 0 1 0x06 = some (d 2 2) ∧ live.up 14 = true ∧ (d 0 2).pay 32 1 % 2 = (1 : Fin 2) ∧
      (d 0 2).pay 34 1 = 0 ∧ 0 < (d 0 2).pay 36 2 ∧ bitOf ((d 0 2).pay 56 1) 0 = false ∧ bitOf ((m 0 2).pay 56 1) 0 = true ∧
      mem.memAnswers 0 2 = true ∧ mem.memIn 0 2 = true ∧ (mem.put Fld.GLB_READY_READY 0).memAnswers 0 2 = false ∧
      (mem.put Fld.MEM_USABLE_USABLE_MIB 0).memIn 0 2 = false ∧ live.canDma = true ∧
      (d 0 2).episode = false ∧ (d 1 0).pay 34 1 = 1 ∧ (d 1 0).pay 36 2 = 0 ∧ (d 2 2).pay 34 1 = 2 ∧ live.pwr.hold = .running :=
  by decide +kernel
theorem witness_TwoWire_bus :
    let d := desc (header 0x06 0 1 ++ List.replicate 28 0 ++ [1, 0, 0, 0, 2])
    let on := withDesc (live.putB (Fld.TWB_CFG_EN 1) true) d
    let q (stop : Option Nat) : List Xfer := [⟨0, 1, [1, 2], 0, stop⟩]
    let idle := on.setTwb 1 { on.twbAt 1 with queue := q none, free := true }
    let busy (stop : Option Nat) := on.setTwb 1 { on.twbAt 1 with queue := q stop, active := true }
    on.twbUp 1 = true ∧ (idle.twbAt 1).free = true ∧ (idle.twbAt 1).queue ≠ [] ∧ (idle.twbAt 1).active = false ∧
      (idle.twbAt 1).pulse = none ∧ idle.flag (Fld.TWB_TSTAT_ATT_PEND 1) = false ∧ idle.flag (Fld.TWB_STATUS_STUCK 1) = false ∧
      idle.twbUp 1 = true ∧ (busy none).twbUp 1 = true ∧ ((busy none).twbAt 1).active = true ∧ ((busy none).twbAt 1).queue = q none ∧
      ((busy (some 7)).twbAt 1).queue = q (some 7) ∧ (busy none).findDesc 0 1 = some d ∧ d.pay 38 2 = 0 ∧
      0 < (busy none).get (Fld.TWB_CFG_RETRY 1) ∧ ((busy none).put (Fld.TWB_CFG_RETRY 1) 0).get (Fld.TWB_CFG_RETRY 1) ≤ 0 ∧
      (idle.flag (Fld.TWB_STATUS_BUSY 1) = false) ∧ idle.findDesc 0 1 = some d ∧
      ¬ 0 < (idle.put (Fld.TWB_CFG_STUCK 1) 0).get (Fld.TWB_CFG_STUCK 1) ∧ 0 < idle.get (Fld.TWB_CFG_STUCK 1) ∧
      (on.put (Fld.TWB_CFG_MODE 1) 1).get (Fld.TWB_CFG_MODE 1) = 1 ∧ on.served (Reg.TWB_SCL 1) = true ∧ on.served (Reg.TWB_CFG 1) = true ∧
      (0x00031300 : Word).getLsbD 31 = false ∧ (0x00031300 : Word).extractLsb' 24 2 ≠ 3 ∧
      (0x00031300 : Word).extractLsb' 8 8 ≠ 0 ∧ on.flag (Fld.TWB_CFG_EN 1) = true ∧ on.served (Reg.TWB_CNT 1) = true := by decide +kernel
theorem witness_VexiqFrames :
    let on := (live.putB Fld.VXL_CFG_EN true).putB Fld.PWR_PLL_VXLTX true
    let x := { (planned 6 6000 on) with vxl := { on.vxl with tx := [(0, [2, 1])] } }
    let bad : List Byte := [2, 1, 0, 0]
    let good := withCrc ([2, 1, 128, 0] ++ leBytes 6 0 ++ List.replicate 118 0)
    let member := on.put Fld.VXL_ROSTER_PRESENT 2
    let held := { member with vxl := { member.vxl with peers := member.vxl.peers.set 1 good } }
    let own := (planned 6 6000 ((on.put Fld.VXL_LOOP_LOOP 100).put Fld.GAF_TICKDIV_TICKDIV 6144))
    let sent := { own with vxl := { own.vxl with own := some (own.slotFrame 0) } }
    let quiet := ((member.put (Fld.VXL_PEER_STATE 1) 1).put (Fld.VXL_PEER_MISS 1) 8)
    on.pwr.hold = .running ∧ x.mayStart 0 6 = true ∧ on.up 15 = true ∧ on.flag Fld.PWR_PLL_VXLTX = true ∧
      (live.put Fld.GLB_READY_READY 0).up 15 = false ∧ x.vxl.tx = [(0, [2, 1])] ∧ x.cyc < max 0 x.vxl.free + linkCycles 2 ∧
      max 0 x.vxl.free + linkCycles 2 ≤ ({ x with cyc := max 0 x.vxl.free + linkCycles 2 } : State).cyc ∧
      on.linkOn = true ∧ fieldAt bad 1 1 % 8 ≠ on.cascId ∧ frameOk bad = false ∧
      on.vxl.prop = none ∧ frameOk good = true ∧ fieldAt good 1 1 % 8 = 1 ∧ bitOf on.present 1 = false ∧
      bitOf member.present 1 = true ∧ member.vxl.peers[1]? = some [] ∧ held.vxl.peers[1]? = some good ∧ good ≠ [] ∧
      fieldAt good 4 6 = member.tickno ∧
      sent.vxl.own = some (own.slotFrame 0) ∧ sent.vxl.retx < sent.get Fld.VXL_CFG_MAXRETX ∧
      sent.edgeOfs + linkCycles ((sent.slotFrame 0).length + 4) + sent.get Fld.VXL_LOOP_LOOP + 17 ≤
        sent.get Fld.GAF_TICKDIV_TICKDIV ∧
      quiet.get (Fld.VXL_PEER_STATE 1) ≠ 2 ∧ quiet.get Fld.VXL_CFG_MISSLIM ≤ quiet.get (Fld.VXL_PEER_MISS 1) ∧
      member.get (Fld.VXL_PEER_STATE 1) ≠ 2 ∧ member.get (Fld.VXL_PEER_MISS 1) < member.get Fld.VXL_CFG_MISSLIM ∧
      bitOf quiet.present 1 = true ∧ (1 : Fin 8).val ≠ quiet.cascId ∧ on.served Reg.VXL_CNT_CLR = true := by decide +kernel
theorem witness_VexiqFrames_proposals :
    let d (op dev : Byte) := desc (header 0x0C 0 1 ++ List.replicate 28 0 ++ [op, dev])
    let s (x : Desc) := withDesc live x
    let m (x : Desc) := (s x |>.putB Fld.VXL_CFG_EN true).putB Fld.GAF_STATUS_RUNNING true
    let busy := (m (d 0 0)).setVxl { (m (d 0 0)).vxl with prop := some ⟨0, 0, none, 0, 0, 0, false, false⟩ }
    let asleep := live.put Fld.PWR_STATUS_STATE 2
    (s (d 0 0)).takeDispatched 0 1 0x0C = some (d 0 0) ∧ (d 0 0).pay 32 1 = 0 ∧ (d 1 1).pay 32 1 = 1 ∧
      ((s (d 0 0)).isMaster && (s (d 0 0)).running) = false ∧ ((m (d 0 0)).isMaster && (m (d 0 0)).running) = true ∧
      (m (d 0 0)).takeDispatched 0 1 0x0C = some (d 0 0) ∧ busy.vxl.prop ≠ none ∧ (m (d 0 0)).vxl.prop = none ∧
      (m (d 0 0)).allStopped = true ∧ ((m (d 0 0)).put (Fld.CTL_STATE_STATE 0) 2).allStopped = false ∧ (d 1 1).pay 33 1 % 8 = 1 ∧
      bitOf ((m (d 1 1)).put Fld.VXL_ROSTER_PRESENT 2).present 1 = true ∧
      bitOf (m (d 1 1)).present 1 = false ∧ asleep.served Reg.VXL_WAKE = true ∧
      197 ≤ (197 : BitVec 32).toNat ∧ (196 : BitVec 32).toNat < 197 := by decide +kernel
theorem witness_BeaconsAndWake :
    let on := live.putB Fld.VXL_CFG_EN true
    let slave := on.put Fld.GLB_STRAP_CASC_ID 1
    let acq := slave.setLinkState 1
    let mem := slave.setLinkState 3
    let run := planned 6 6000 mem
    let b (tdiv n : Nat) := withCrc ([1, 0] ++ leBytes 2 tdiv ++ leBytes 6 n ++ [3, 3] ++ List.replicate 6 0 ++ [9, 0] ++
      List.replicate 8 0)
    let lost := mem.setVxl { mem.vxl with missed := 3 }
    let wakes := slave.setLinkState 5
    on.pwr.hold = .running ∧ on.vxlUp = true ∧ on.isSlave = false ∧ frameOk (b 6144 7) = true ∧ slave.vxlUp = true ∧
      slave.isSlave = true ∧ slave.halted = false ∧ slave.batches = [] ∧ acq.beaconLocked = false ∧ acq.listens 0 = true ∧
      wakes.beaconLocked = false ∧ wakes.listens 0 = false ∧
      mem.beaconLocked = true ∧ mem.running = false ∧ run.beaconLocked = true ∧ run.running = true ∧
      fieldAt (b 6144 7) 2 2 = planTickdiv run.plan ∧ run.tickno ≠ fieldAt (b 6144 7) 4 6 ∧
      fieldAt (b 6000 7) 2 2 ≠ planTickdiv run.plan ∧ frameOk [1, 0, 0, 0, 0] = false ∧ mem.vxl.missed < 3 ∧
      lost.beaconLocked = true ∧ lost.vxlUp = true ∧ 3 ≤ lost.vxl.missed ∧ mem.cyc ≤ mem.vxl.pred + 4 ∧
      mem.vxl.pred + 4 < ({ mem with cyc := 5 } : State).cyc ∧ acq.linkState = 1 ∧
      acq.cyc < acq.vxl.acqAt + 4096 * acq.get Fld.GAF_TICKDIV_TICKDIV ∧
      acq.vxl.acqAt + 4096 * acq.get Fld.GAF_TICKDIV_TICKDIV ≤ ({ acq with cyc := 4096 * 6144 } : State).cyc := by decide +kernel
theorem witness_DisabledRingIgnoresDoorbell :
    live.flag (Fld.SQ_CFG_EN 5) = false ∧ live.flag (Fld.CQ_CFG_EN 63) = false := by decide +kernel
theorem witness_ResetsLeaveRun :
    let asleep := (live.put Fld.PWR_STATUS_STATE 2).putB Fld.PWR_STATUS_BUSY true
    asleep.pwr.hold = .running ∧ asleep.pstate = 2 ∧ asleep.served Reg.PWR_CTRL = true ∧
      ({ live with pwr := { live.pwr with hold := .sagHold } } : State).pwr.hold = .sagHold ∧
      ({ live with pwr := { live.pwr with hold := .off } } : State).pwr.hold ∈ [Hold.running, .xtal, .off] ∧
      (Instr.supplyInvalid true) ∈ [Instr.coldReset .supplies, .coldReset .perst, .supplyInvalid true] ∧
      (coldState live 1).pwr.supplies = live.pwr.supplies ∧ live.pwr.supplies = true ∧
      8300 + 50 * (coldState live 1).get Fld.PWR_VSAG_CODE ≤ 20 * (1000 : BitVec 10).toNat ∧
      (coldState live 1).flag Fld.PWR_STATUS_LEHR_EN = false ∧ WarmCause.flr ≠ .xtal := by decide +kernel
theorem witness_AbortsAndTimeouts_latched :
    let d := desc (header 0x01 0 1)
    let s (l : List Latch) : State := { live with ring := { live.ring with latched := l } }
    Latch.one d.sq d.seq ∈ (s [.one 0 1]).ring.latched ∧ Latch.all d.sq ∈ (s [.all 0]).ring.latched ∧
      (Latch.expiry d.sq d.seq ∈ (s [.expiry 0 1]).ring.latched ∧ Latch.one d.sq d.seq ∉ (s [.expiry 0 1]).ring.latched ∧
        Latch.all d.sq ∉ (s [.expiry 0 1]).ring.latched) ∧ (s []).ring.latched = [] ∧ (0, 1) ∈ [((0 : Nat), (1 : Nat))] := by
  decide +kernel
theorem witness_MotionStartStop_requests :
    let a : Ask := ⟨false, 1, none, false⟩
    let r : Ask := ⟨true, 2, none, false⟩
    let s := (live.put (Fld.CTL_STATE_STATE 0) 2).putB (Fld.CTL_STATE_MODE 0) true
    let w (l : List Ask) : State := s.setCtl 0 { s.slotOf 0 with asks := l }
    let o := s.setCtl 0 { s.slotOf 0 with off := some ⟨0, 2, [none]⟩ }
    let offs (x : State) : List Ask := (x.slotOf 0).asks.filter fun a => !a.ramp ||
      decide (x.slotState 0 = 1 ∨ (x.slotState 0 = 2 ∧ x.flag (Fld.CTL_STATE_MODE 0) = false))
    offs (w [a, r]) = [a] ∧ (w [a]).slotState 0 ≠ 0 ∧ ((w [a]).slotOf 0).off = none ∧ offs (w [r]) = [] ∧
      ((w [r]).slotOf 0).asks = [r] ∧ (w [r]).slotState 0 = 2 ∧ (o.slotOf 0).off = some ⟨0, 2, [none]⟩ ∧ 0 ≤ o.cyc ∧
      o.slotState 0 ≠ 0 := by decide +kernel
theorem witness_LoadsAndReheat_engine :
    let d (t : Byte) := { desc (header 0x03 0 1 ++ List.replicate 28 0 ++ [t]) with stage := .active }
    let j (g : SigStage) : SigJob := ⟨0, 1, pinnedImage 1, g⟩
    let s (t : Byte) (g : SigStage) : State := { withDesc live (d t) with sig := [j g] }
    live.sigNext = none ∧ (s 0 .waits).sigNext = some (j .waits) ∧ (s 2 .second).sigNext = some (j .second) ∧
      (s 0 .waits).findDesc 0 1 = some (d 0) ∧ (d 0).pay 32 1 ≤ 1 ∧ (d 2).pay 32 1 = 2 ∧ (d 2).opcode = 0x03 ∧
      State.reset.ready 17 = false ∧ live.ready 17 = true ∧ (j .second) ∈ (s 2 .second).sig ∧ (s 2 .second).canDma = true ∧
      (d 2).episode = false ∧ authFails live [] 0 2 = some 1 ∧
      (s 2 .writes).sig.filter (fun k => k.stage = .writes) = [j .writes] ∧ (d 2).pay 56 8 = 0 ∧
      (∀ r ∈ regionsOf (pinnedImage 1), ((s 2 .writes).mrvAt r.2).slice = none) ∧
      slice ([1] : List Byte) 0 1 ≠ slice ([2] : List Byte) 0 1 := by decide +kernel
theorem witness_TwoWire_target :
    let on := live.putB (Fld.TWB_CFG_EN 1) true
    let tgt (t : Target) := ((on.putB (Fld.TWB_TCFG_EN 1) true).put (Fld.TWB_TCFG_TADDR 1) 9).setTwb 1 { on.twbAt 1 with target := some t }
    let g : Target := ⟨false, false, none, 0⟩
    let pulse (c : Nat) : State := { on.setTwb 1 { on.twbAt 1 with pulse := some 0 } with cyc := c }
    (on.twbAt 1).active = false ∧ (on.twbAt 1).deaf = false ∧ ((on.setTwb 1 { on.twbAt 1 with deaf := true }).twbAt 1).deaf = true ∧
      (7 : BitVec 7).toNat / 4 = 1 ∧ (9 : BitVec 7).toNat / 4 ≠ 1 ∧ twbMatch (tgt g) 1 9 = true ∧ twbMatch (tgt g) 1 10 = false ∧
      (tgt g).twbUp 1 = true ∧ ((tgt g).twbAt 1).target = some g ∧
      ((tgt ⟨true, false, some 5, 0⟩).twbAt 1).target = some ⟨true, false, some 5, 0⟩ ∧
      ((tgt ⟨true, true, none, 0⟩).twbAt 1).target = some ⟨true, true, none, 0⟩ ∧
      196608 * (on.put (Fld.TWB_TCFG_TSTRETCH 1) 1).get (Fld.TWB_TCFG_TSTRETCH 1) ≤ 1000 * 197 ∧
      ¬ 196608 * (on.put (Fld.TWB_TCFG_TSTRETCH 1) 1).get (Fld.TWB_TCFG_TSTRETCH 1) ≤ 1000 * 196 ∧
      on.served (Reg.TWB_TREG 1) = true ∧ on.served (Reg.TWB_TSTAT 1) = true ∧ (0x80000000 : Word).getLsbD 31 = true ∧
      (on.twbAt 1).target = none ∧ on.served (Reg.TWB_TCTL 1) = true ∧ on.flag (Fld.TWB_TSTAT_ATT_PEND 1) = false ∧
      (on.putB (Fld.TWB_TSTAT_ATT_PEND 1) true).flag (Fld.TWB_TSTAT_ATT_PEND 1) = true ∧
      ((pulse 1576).twbAt 1).pulse = some 0 ∧ 0 + 8 * 197 ≤ (pulse 1576).cyc ∧ (pulse 1575).cyc < 0 + 8 * 197 ∧
      on.mayFree 1 = false ∧ ({ on with cyc := 100000 } : State).mayFree 1 = true := by decide +kernel
theorem witness_BeaconsAndWake_sleep :
    let on := live.putB Fld.VXL_CFG_EN true
    let slave := on.put Fld.GLB_STRAP_CASC_ID 1
    let asleep := (({ live with pwr := { live.pwr with wake := true } }).put Fld.PWR_STATUS_STATE 2)
    let kept (x : State) : State := { (x.putB Fld.GAF_STATUS_RUNNING true).setVxl { x.vxl with sleeping := true } with cyc := 6144 }
    let late (x : State) : State := { kept x with cyc := 6144 * 100, vxl := { (kept x).vxl with kept := 99 } }
    let gives := late (slave.setLinkState 5)
    let resumes := late on
    asleep.pstate = 2 ∧ asleep.pwr.target = none ∧ asleep.pwr.wake = true ∧ asleep.vxl.sleeping = false ∧
      (live.put Fld.PWR_STATUS_STATE 2).pwr.wake = false ∧ (live.vxl.sleeping && live.running) = false ∧
      ((kept on).vxl.sleeping && (kept on).running && decide ((kept on).keptEdge ((kept on).vxl.kept + 1) ≤ (kept on).cyc)) = true ∧
      gives.keptEdge (gives.vxl.kept + 1) ≤ gives.cyc ∧
      (gives.up 0 && gives.pwr.target.isNone && decide (3 ≤ gives.pstate) && gives.isSlave && gives.linkState == 5 &&
        gives.windowsOver gives.cyc) = true ∧
      resumes.keptEdge (resumes.vxl.kept + 1) ≤ resumes.cyc ∧
      (resumes.up 0 && resumes.pwr.target.isNone && decide (3 ≤ resumes.pstate) && !resumes.isSlave &&
        resumes.flag Fld.GAF_STATUS_LOCKED && decide (resumes.keptAfter 0 ≤ resumes.vxl.kept + 1)) = true ∧
      resumes.vxl.prop = none ∧ resumes.batches = [] ∧ (on.linkOn = true ∧ (on.setLinkState 4).linkState = 4) := by decide +kernel

end Sys2Proof.Tests
end

section
/-!
PROOF. What a frame says of a word and of a field; the status bits that interrupts set.
-/

namespace Sys2Proof.Proofs
open Sys2Proof Sys2Proof.Machine Sys2Proof.Safety Sys2Proof.Laws

section
variable {ps : List Part} {p : Bits} {s t : State}

/-- A word of which a frame names no bit is as it was. -/
theorem reg_of_frame (h : Frame ps p s t) {o : Nat} (ho : ∀ b < 32, ¬ p o b) : t.reg o = s.reg o :=
  BitVec.eq_of_getLsbD_eq fun b hb => h.1 o b (ho b hb)

/-- Bits that agree from `lo` to `hi` spell the same number. -/
theorem bitsOf_congr {x y hi lo : Nat} (h : ∀ b, lo ≤ b → b ≤ hi → x.testBit b = y.testBit b) :
    bitsOf x hi lo = bitsOf y hi lo := by
  unfold bitsOf
  refine Nat.eq_of_testBit_eq fun i => ?_
  simp only [Nat.testBit_mod_two_pow, Nat.testBit_shiftRight]
  by_cases hi' : i < hi + 1 - lo
  · rw [h (lo + i) (by omega) (by omega)]
  · simp [hi']

/-- A field of which a frame names no bit is as it was. -/
theorem get_of_frame (h : Frame ps p s t) {f : Field} (hf : ∀ b, f.lo ≤ b → b ≤ f.hi → ¬ p f.off b) : t.get f = s.get f :=
  bitsOf_congr fun b h1 h2 => h.1 f.off b (hf b h1 h2)

theorem flag_of_frame (h : Frame ps p s t) {f : Field} (hf : ∀ b, f.lo ≤ b → b ≤ f.hi → ¬ p f.off b) : t.flag f = s.flag f := by
  simp only [State.flag, get_of_frame h hf]

theorem wide_of_frame (h : Frame ps p s t) {lo : Nat} (hl : ∀ b < 32, ¬ p lo b) (hh : ∀ b < 32, ¬ p (lo + 4) b) :
    t.wide lo = s.wide lo := by
  simp only [State.wide, reg_of_frame h hl, reg_of_frame h hh]

end

/-- Messages change the messages sent and the pending bits, and nothing else (R104). -/
theorem frame_pba_sendMsgs (s : State) (v n : Nat) : Frame [.msix] pba s (s.sendMsgs v n) :=
  frame_sendMsgs v (fun _ _ h => h) (by simp) n s

/-- The status word of an interrupt takes the new bits (R103). -/
theorem reg_irq (s : State) (blk so eo mask : Nat) (hne : so ≠ eo) (hp : ∀ b < 32, ¬ pba so b) :
    (s.irq blk so eo mask).reg so = s.reg so ||| BitVec.ofNat 32 mask := by
  let u := (s.setReg so (s.reg so ||| BitVec.ofNat 32 mask)).setReg eo (s.reg eo)
  have hu : u.reg so = s.reg so ||| BitVec.ofNat 32 mask := by
    rw [show u.reg so = _ from reg_setReg_ne _ _ _ _ hne, reg_setReg_same]
  exact (reg_of_frame (frame_pba_sendMsgs u _ _) hp).trans hu

/-- Bit `b` of a number, as `bitOf` and the library spell it. -/
theorem bitOf_eq_testBit (v b : Nat) : bitOf v b = v.testBit b := by
  simp [bitOf, Nat.testBit_eq_decide_div_mod_eq, Nat.shiftRight_eq_div_pow]

/-- Bit `i` of a field is that bit of its word. -/
theorem bitF_eq_getLsbD (s : State) (f : Field) (i : Nat) (h : f.lo + i ≤ f.hi) :
    s.bitF f i = (s.reg f.off).getLsbD (f.lo + i) := by
  have hi : i < f.hi + 1 - f.lo := by omega
  simp [State.bitF, State.get, Field.get, bitsOf, bitOf_eq_testBit, Nat.testBit_mod_two_pow, hi, BitVec.getLsbD]

/-- A flag is the bit of its word. -/
theorem flag_eq_getLsbD (s : State) (f : Field) (h : f.hi = f.lo) : s.flag f = (s.reg f.off).getLsbD f.lo := by
  have hb := bitF_eq_getLsbD s f 0 (by omega)
  have hg : s.get f < 2 := by have := get_lt s f; rwa [h, Nat.add_sub_cancel_left, Nat.pow_one] at this
  have hm : s.bitF f 0 = s.flag f := by simp [State.bitF, State.flag, bitOf, Nat.mod_eq_of_lt hg]
  rw [← hm, hb, Nat.add_zero]

/-- A status bit reads 1 once its interrupt has come. -/
theorem bitF_irqBit (s : State) (f : Field) (i : Nat) (h : f.lo + i ≤ f.hi) (h32 : f.hi < 32) (hp : ∀ b < 32, ¬ pba f.off b) :
    (s.irqBit f i).bitF f i = true := by
  have hr : (s.irqBit f i).reg f.off = s.reg f.off ||| BitVec.ofNat 32 (2 ^ (f.lo + i)) := reg_irq s _ _ _ _ (by omega) hp
  have hlt : f.lo + i < 32 := by omega
  rw [bitF_eq_getLsbD _ _ _ h, hr, BitVec.getLsbD_or, BitVec.getLsbD_ofNat, Nat.testBit_two_pow_self]
  simp only [hlt, decide_true, Bool.true_and, Bool.or_true]

/-- A status flag reads 1 once its interrupt has come. -/
theorem flag_irqF (s : State) (f : Field) (h : f.hi = f.lo) (h32 : f.lo < 32) (hp : ∀ b < 32, ¬ pba f.off b) :
    (s.irqF f).flag f = true := by
  have hb := bitF_irqBit s f 0 (by omega) (by omega) hp
  rw [bitF_eq_getLsbD _ _ _ (by omega)] at hb
  rw [flag_eq_getLsbD _ _ h]; exact hb

/-- A word whose 32 bits a frame names may be set. -/
theorem frame_setReg_word {ps : List Part} {p : Bits} (s : State) (o : Nat) (v : Word) (h : ∀ b < 32, p o b) :
    Frame ps p s (s.setReg o v) := by
  refine frame_regs (fun a b n => ?_) rfl
  by_cases e : a = o
  · subst e
    have hb : 32 ≤ b := by by_contra hb; exact n (h b (by omega))
    rw [BitVec.getLsbD_of_ge _ _ hb, BitVec.getLsbD_of_ge _ _ hb]
  · rw [reg_setReg_ne _ _ _ _ e]

/-- The field lies within a register word. -/
def fits (f : Field) : Bool := decide (f.lo ≤ f.hi) && decide (f.hi < 32)

/-- Two fields have no bit in common. -/
def apart (f g : Field) : Bool := decide (f.hi < g.lo) || decide (g.hi < f.lo) || decide (f.off ≠ g.off)

theorem apart_of_off {f g : Field} (h : f.off ≠ g.off) : apart f g = true := by simp [apart, h]

theorem fits_iff {f : Field} : fits f = true ↔ f.lo ≤ f.hi ∧ f.hi < 32 := by simp [fits]

theorem covers_of_fits {fs : List Field} {f : Field} (h : f ∈ fs) (k : fits f = true) : Covers (bits fs) f :=
  covers_bits f h (fits_iff.1 k).1 (fits_iff.1 k).2

/-- A field whose word lies in a range of offsets. -/
theorem covers_range {a b : Nat} {f : Field} (h : fits f = true ∧ a ≤ f.off ∧ f.off < b) : Covers (Safety.range a b) f :=
  ⟨(fits_iff.1 h.1).1, (fits_iff.1 h.1).2, fun _ _ _ => h.2⟩

/-- A field apart from those that a frame names is as it was. -/
theorem get_of_frame_bits {ps : List Part} {s t : State} {fs : List Field} (h : Frame ps (bits fs) s t) {f : Field}
    (hf : ∀ g ∈ fs, apart f g = true) : t.get f = s.get f := by
  refine get_of_frame h fun b h1 h2 ⟨g, hg, e, h3, h4⟩ => ?_
  have := hf g hg
  simp only [apart, e, ne_eq, not_true_eq_false, decide_false, Bool.or_false, Bool.or_eq_true, decide_eq_true_eq] at this
  omega

theorem flag_of_frame_bits {ps : List Part} {s t : State} {fs : List Field} (h : Frame ps (bits fs) s t) {f : Field}
    (hf : ∀ g ∈ fs, apart f g = true) : t.flag f = s.flag f := by simp only [State.flag, get_of_frame_bits h hf]

/-- A field just set holds the low bits of what it was set to. -/
theorem get_put_self (s : State) {f : Field} (v : Nat) (k : fits f = true) : (s.put f v).get f = v % 2 ^ f.width :=
  get_put_same s f v (fits_iff.1 k).1 (fits_iff.1 k).2

/-- A field apart from the one that is set is as it was. -/
theorem get_put_apart (s : State) {f g : Field} (v : Nat) (k : fits f = true) (h : apart g f = true) :
    (s.put f v).get g = s.get g :=
  get_of_frame_bits (ps := []) (frame_put f v (covers_of_fits (fs := [f]) (by simp) k)) (by simpa using h)

theorem flag_put_apart (s : State) {f g : Field} (v : Nat) (k : fits f = true) (h : apart g f = true) :
    (s.put f v).flag g = s.flag g := by simp only [State.flag, get_put_apart s v k h]

/-- A flag just set holds what it was set to. -/
theorem flag_putB_self (s : State) {f : Field} (b : Bool) (k : fits f = true) (h : f.width = 1) : (s.putB f b).flag f = b := by
  simp only [State.flag, State.putB, get_put_self s _ k, h]
  cases b <;> rfl

/-- A field of a word is below two to its width. -/
theorem field_get_lt (f : Field) (w : Word) : f.get w < 2 ^ f.width := Nat.mod_lt _ (by positivity)

/-- More fields are more bits. -/
theorem bits_mono {fs gs : List Field} (h : fs ⊆ gs) : ∀ o b, bits fs o b → bits gs o b :=
  fun _ _ ⟨f, hf, e⟩ => ⟨f, h hf, e⟩

/-- A frame of fewer parts and fields. -/
theorem frame_bits_mono {ps qs : List Part} {fs gs : List Field} {s t : State} (h : Frame ps (bits fs) s t) (hp : ps ⊆ qs)
    (hf : fs ⊆ gs) : Frame qs (bits gs) s t := frame_mono h (fun _ h => hp h) (bits_mono hf)

/-- An interrupt with its status field among those that a frame names. -/
theorem frame_irqF_listed {ps : List Part} {fs : List Field} (s : State) {f : Field} (h : f ∈ fs) (k : fits f = true)
    (hm : .msix ∈ ps) : Frame ps (orBits pba (bits fs)) s (s.irqF f) :=
  frame_irqF f (.inr ⟨f, h, rfl, Nat.le_refl _, (fits_iff.1 k).1⟩) (fun _ _ h => .inl h) hm

/-- A field that an interrupt does not reach is as it was. -/
theorem get_irqF_apart (s : State) {f g : Field} (k : fits f = true) (h : apart g f = true)
    (hp : g.off < 0x29000 ∨ 0x29010 ≤ g.off) : (s.irqF f).get g = s.get g := by
  refine get_of_frame (frame_irqF_listed (ps := [.msix]) (fs := [f]) s (by simp) k (by simp)) fun b h1 h2 => ?_
  simp only [apart, ne_eq, Bool.or_eq_true, decide_eq_true_eq] at h
  simp only [orBits, pba, Safety.range, bits, List.mem_singleton, exists_eq_left]
  omega

/-- A word apart from the pending bits of MSI-X. -/
theorem not_pba_of_outside {o : Nat} (h : o < 0x29000 ∨ 0x29010 ≤ o) : ∀ b < 32, ¬ pba o b := by
  intro b _
  simp only [pba, Safety.range]
  omega

/-- A run over a list, each of whose steps keeps within a frame. -/
theorem frame_foldl_mem {α : Type} {ps : List Part} {p : Bits} {f : State → α → State} : ∀ {l : List α} {s : State},
    (∀ x ∈ l, ∀ s, Frame ps p s (f s x)) → Frame ps p s (l.foldl f s)
  | [], s, _ => frame_refl s
  | x :: r, s, h => frame_trans (h x (by simp) s) (frame_foldl_mem fun y hy => h y (by simp [hy]))

/-- The same for the numbers below `n`. -/
theorem frame_range {ps : List Part} {p : Bits} {f : State → Nat → State} {n : Nat} (h : ∀ k < n, ∀ s, Frame ps p s (f s k)) :
    Frame ps p s ((List.range n).foldl f s) := frame_foldl_mem fun k hk => h k (List.mem_range.1 hk)

/-- A change of the state of the gaffer beside its registers. -/
theorem frame_setGaf {ps : List Part} {p : Bits} (s : State) (x : Gaf) (h : .gaf ∈ ps) : Frame ps p s { s with gaf := x } :=
  frame_part .gaf h rfl fun r hr => by cases r <;> first | exact absurd rfl hr | simp [Part.same]

/-- A saturating counter counts one more (R518). -/
theorem get_incSat_self (s : State) {f : Field} (k : fits f = true) : (s.incSat f).get f = min (2 ^ f.width - 1) (s.get f + 1) := by
  have hp := Nat.two_pow_pos f.width
  have hg : (s.incSat f).get f = satU f.width (s.get f + 1) % 2 ^ f.width := get_put_self s _ k
  rw [hg, satU, Nat.mod_eq_of_lt (by omega), Nat.min_comm]

theorem get_incSat_apart (s : State) {f g : Field} (k : fits f = true) (h : apart g f = true) : (s.incSat f).get g = s.get g :=
  get_put_apart s _ k h

/-- A bit of a field reads 1 once hardware has set it. -/
theorem bitF_setBit_self (s : State) {f : Field} {i : Nat} (k : fits f = true) (h : f.lo + i ≤ f.hi) :
    (s.setBit f i).bitF f i = true := by
  have hg : (s.setBit f i).get f = orBit (s.get f) i % 2 ^ f.width := get_put_self s _ k
  have hw : i < f.width := by unfold Machine.Field.width; omega
  rw [State.bitF, hg, bitOf_eq_testBit, Nat.testBit_mod_two_pow, orBit, Nat.testBit_or, Nat.one_shiftLeft, Nat.testBit_two_pow_self]
  simp [hw]

/-- A number of two words reads back as it was set. -/
theorem wide_setWide (s : State) {w v lo : Nat} (hw : w ≤ 64) (hv : v < 2 ^ w) : (s.setWide w lo v).wide lo = v := by
  have hlow : (s.setWide w lo v).reg lo = BitVec.ofNat 32 v :=
    (reg_setReg_ne _ _ _ _ (by omega)).trans (reg_setReg_same _ _ _)
  have hhigh : (s.setWide w lo v).reg (lo + 4) = BitVec.ofNat 32 (v % 2 ^ w / 2 ^ 32) := reg_setReg_same _ _ _
  have h64 : v < 2 ^ 64 := hv.trans_le (Nat.pow_le_pow_right (by decide) hw)
  rw [State.wide, hlow, hhigh, BitVec.toNat_ofNat, BitVec.toNat_ofNat, Nat.mod_eq_of_lt hv]
  omega

theorem wide_setWide_ne (s : State) (w v : Nat) {lo o : Nat} (h : o + 4 < lo ∨ lo + 4 < o) : (s.setWide w lo v).wide o = s.wide o := by
  have hr (k : Nat) (h : k ≠ lo ∧ k ≠ lo + 4) : (s.setWide w lo v).reg k = s.reg k :=
    (reg_setReg_ne _ _ _ _ h.2).trans (reg_setReg_ne _ _ _ _ h.1)
  rw [State.wide, State.wide, hr o (by omega), hr (o + 4) (by omega)]

/-- The number that bytes spell is below 256 to their count. -/
theorem leNat_lt : ∀ l : List Byte, leNat l < 256 ^ l.length
  | [] => by simp [leNat]
  | b :: r => by
    have hb := b.isLt
    have hr := leNat_lt r
    simp only [leNat, List.length_cons, Nat.pow_succ]
    omega

end Sys2Proof.Proofs
end

section
/-!
PROOF. What a cold reset leaves (O3).
-/

namespace Sys2Proof.Proofs
open Sys2Proof Sys2Proof.Machine Sys2Proof.Safety Sys2Proof.Laws

/-- An index that a sparse store does not list reads as unlisted. -/
theorem sget_of_not_listed {α : Type} (d : α) (k : Nat) : ∀ l : Store α, (∀ e ∈ l, e.1 ≠ k) → sget d l k = d
  | [], _ => rfl
  | (j, v) :: r, h => by
    have hj : ¬ j = k := h (j, v) (by simp)
    have hr := sget_of_not_listed d k r fun e he => h e (by simp [he])
    simp [sget, hj, hr]

/-- A register that `State.resetRegs` does not list holds its Reset value (R25). -/
theorem reset_reg_of_not_listed (o : Nat) (h : ∀ e ∈ State.resetRegs, e.1 ≠ o) : State.reset.reg o = regReset o :=
  sget_of_not_listed _ o _ h

/-- Settles O3: what `State.resetRegs` does not list reads as its Reset value; the rest is read off the state. -/
theorem resetValues : Obligations.ResetValues := by
  unfold Obligations.ResetValues
  refine ⟨reset_reg_of_not_listed, ?_⟩
  decide +kernel

end Sys2Proof.Proofs
end

section
/-!
PROOF. Watches and event bindings (O17: R125, R130, R552).
-/

namespace Sys2Proof.Proofs
open Sys2Proof Sys2Proof.Machine Sys2Proof.Safety Sys2Proof.Laws

/-- The write of a watch word alone, before the watch is looked at (R130). -/
def watchStored (s : State) (w : Nat) (part : WatchWord) (v : Word) : State :=
  match part with
  | .control => s.setReg (Reg.FEN_WATCH w) (v &&& 0x800003FF)
  | .threshLo => s.setReg (Reg.FEN_WATCH_THRESH_LO w) v
  | .threshHi => s.setReg (Reg.FEN_WATCH_THRESH_HI w) v

/-- A write of a watch word stores it, and fires where the watch then holds (R130, R552). -/
theorem fenWatchWrite_eq (s : State) (w : Nat) (part : WatchWord) (v : Word) :
    fenWatchWrite s w part v =
      if (watchStored s w part v).watchHolds w then (watchStored s w part v).irqBit Fld.FEN_IRQ_STATUS_WATCH w
      else watchStored s w part v := by
  cases part <;> rfl

/-- The interrupt of watch `w` changes its status bit and the messages (R103, R130). -/
theorem frame_watchIrq (s : State) (w : Nat) :
    Frame [.msix] (orBits pba (bits [⟨Reg.FEN_IRQ_STATUS, w, w⟩])) s (s.irqBit Fld.FEN_IRQ_STATUS_WATCH w) := by
  refine frame_irqBit _ _ (.inr ⟨⟨Reg.FEN_IRQ_STATUS, w, w⟩, by simp, rfl, ?_⟩) (fun _ _ h => .inl h) (by simp)
  simp [Fld.FEN_IRQ_STATUS_WATCH]

/-- The words that a watch looks at are out of its interrupt's reach. -/
theorem watchIrq_apart {w o : Nat} (h : 0x30100 ≤ o) (b : Nat) : ¬ orBits pba (bits [⟨Reg.FEN_IRQ_STATUS, w, w⟩]) o b := by
  simp only [orBits, pba, Safety.range, bits, List.mem_singleton, exists_eq_left, Reg.FEN_IRQ_STATUS]
  omega

/-- The interrupt of a watch does not change whether a watch holds. -/
theorem watchHolds_watchIrq (s : State) (w k : Nat) : (s.irqBit Fld.FEN_IRQ_STATUS_WATCH w).watchHolds k = s.watchHolds k := by
  have hget (f : Field) (h : 0x30100 ≤ f.off) : (s.irqBit Fld.FEN_IRQ_STATUS_WATCH w).get f = s.get f :=
    get_of_frame (frame_watchIrq s w) fun b _ _ => watchIrq_apart h b
  have hflag (f : Field) (h : 0x30100 ≤ f.off) : (s.irqBit Fld.FEN_IRQ_STATUS_WATCH w).flag f = s.flag f :=
    flag_of_frame (frame_watchIrq s w) fun b _ _ => watchIrq_apart h b
  have hwide (o : Nat) (h : 0x30100 ≤ o) : (s.irqBit Fld.FEN_IRQ_STATUS_WATCH w).wide o = s.wide o :=
    wide_of_frame (frame_watchIrq s w) (fun b _ => watchIrq_apart h b) fun b _ => watchIrq_apart (by omega) b
  have hi : 0x30100 ≤ Reg.FEN_WATCH k := Nat.le_add_right ..
  have ht : 0x30100 ≤ Reg.FEN_WATCH_THRESH_LO k := by unfold Reg.FEN_WATCH_THRESH_LO; omega
  have hv (n : Nat) : (s.irqBit Fld.FEN_IRQ_STATUS_WATCH w).fenceValue n = s.fenceValue n :=
    hwide _ (by unfold Reg.FEN_VALUE_LO; omega)
  have hp (n : Nat) : (s.irqBit Fld.FEN_IRQ_STATUS_WATCH w).poisoned n = s.poisoned n :=
    hflag (Fld.FEN_STATE_POISONED n) (by simp only [Fld.FEN_STATE_POISONED, Reg.FEN_STATE]; omega)
  simp only [State.watchHolds, hget (Fld.FEN_WATCH_INDEX k) hi, hflag (Fld.FEN_WATCH_EN k) hi, hwide _ ht, hv, hp]

/-- What a write of a watch word can change. -/
theorem frame_watchStored (s : State) (w : Nat) (part : WatchWord) (v : Word) :
    Frame [] (words [Reg.FEN_WATCH w, Reg.FEN_WATCH_THRESH_LO w, Reg.FEN_WATCH_THRESH_HI w]) s (watchStored s w part v) := by
  cases part <;> exact frame_setReg _ _ fun _ => by simp [words]

/-- The bits that a write of a word of watch `w` can change. -/
def watchBits (w : Nat) : Bits :=
  orBits pba (bits [⟨Reg.FEN_IRQ_STATUS, w, w⟩, ⟨Reg.FEN_WATCH w, 31, 0⟩, ⟨Reg.FEN_WATCH_THRESH_LO w, 31, 0⟩,
    ⟨Reg.FEN_WATCH_THRESH_HI w, 31, 0⟩])

theorem frame_fenWatchWrite (s : State) (w : Nat) (part : WatchWord) (v : Word) :
    Frame [.msix] (watchBits w) s (fenWatchWrite s w part v) := by
  have hs : Frame [.msix] (watchBits w) s (watchStored s w part v) := by
    refine ⟨fun o b hn => ?_, fun q _ => (frame_watchStored s w part v).2 q (by simp)⟩
    by_cases hb : b < 32
    · refine (frame_watchStored s w part v).1 o b fun ho => hn (.inr ?_)
      simp only [words, List.mem_cons, List.not_mem_nil, or_false] at ho
      rcases ho with rfl | rfl | rfl <;> simp [bits] <;> omega
    · rw [BitVec.getLsbD_of_ge _ _ (by omega), BitVec.getLsbD_of_ge _ _ (by omega)]
  rw [fenWatchWrite_eq]
  refine frame_ite_right hs fun _ => frame_mono (frame_watchIrq _ w) (fun _ h => h) fun o b h => ?_
  rcases h with h | ⟨f, hf, e⟩
  · exact .inl h
  · exact .inr ⟨f, by simp_all, e⟩

/-- A watch word holds what was written into it. -/
theorem reg_watchStored (s : State) (w : Nat) (v : Word) :
    (watchStored s w .control v).reg (Reg.FEN_WATCH w) = v &&& 0x800003FF ∧
    (watchStored s w .threshLo v).reg (Reg.FEN_WATCH_THRESH_LO w) = v ∧
    (watchStored s w .threshHi v).reg (Reg.FEN_WATCH_THRESH_HI w) = v :=
  ⟨reg_setReg_same _ _ _, reg_setReg_same _ _ _, reg_setReg_same _ _ _⟩

/-- Every register of the fence block is served as FEN_HSIG_CMD is (R467, R476). -/
theorem served_fen (s : State) (o : Nat) (h1 : 0x30000 ≤ o) (h2 : o < 0x40000) : s.served o = s.served Reg.FEN_HSIG_CMD := by
  have hb : o / 0x10000 = 3 := by omega
  have hw : o ≠ 0x100024 ∧ o ≠ 0x100014 := by omega
  simp [State.served, hb, hw, Reg.FEN_HSIG_CMD, Reg.VXL_WAKE, Reg.VXL_STATUS]

/-- What the statement says of FEN_WATCH_WRITE (R130, R552). -/
theorem fenWatchWrite_meets (s : State) (w : Fin 16) (part : WatchWord) (v : Word) :
    let t := fenWatchWrite s w part v
    (part = .control → t.reg (Reg.FEN_WATCH w) = (v &&& 0x800003FF)) ∧
    (part = .threshLo → t.reg (Reg.FEN_WATCH_THRESH_LO w) = v) ∧
    (part = .threshHi → t.reg (Reg.FEN_WATCH_THRESH_HI w) = v) ∧
    (t.watchHolds w = true → t.bitF Fld.FEN_IRQ_STATUS_WATCH w = true) ∧
    (t.watchHolds w = false → t.ring.msix = s.ring.msix ∧ t.reg Reg.FEN_IRQ_STATUS = s.reg Reg.FEN_IRQ_STATUS) := by
  obtain ⟨hc, hl, hh⟩ := reg_watchStored s w v
  have hkeep (u : State) (o : Nat) (h : 0x30100 ≤ o) : (u.irqBit Fld.FEN_IRQ_STATUS_WATCH w).reg o = u.reg o :=
    reg_of_frame (frame_watchIrq u w) fun b _ => watchIrq_apart h b
  have hst : (watchStored s w part v).reg Reg.FEN_IRQ_STATUS = s.reg Reg.FEN_IRQ_STATUS := by
    refine reg_of_frame (frame_watchStored s w part v) fun b _ => ?_
    simp only [words, List.mem_cons, List.not_mem_nil, or_false, Reg.FEN_IRQ_STATUS, Reg.FEN_WATCH, Reg.FEN_WATCH_THRESH_LO,
      Reg.FEN_WATCH_THRESH_HI]
    omega
  have hms : (watchStored s w part v).ring.msix = s.ring.msix := (frame_watchStored s w part v).2 .msix (by simp)
  have hw := w.isLt
  rw [fenWatchWrite_eq]
  by_cases hf : (watchStored s w part v).watchHolds w = true
  · have hbit := bitF_irqBit (watchStored s w part v) Fld.FEN_IRQ_STATUS_WATCH w
      (by simp only [Fld.FEN_IRQ_STATUS_WATCH]; omega) (by decide) fun b _ => by
        simp only [pba, Safety.range, Fld.FEN_IRQ_STATUS_WATCH, Reg.FEN_IRQ_STATUS]; omega
    rw [if_pos hf]
    refine ⟨?_, ?_, ?_, fun _ => hbit, fun h => ?_⟩
    · rintro rfl; rw [hkeep _ _ (by simp only [Reg.FEN_WATCH]; omega), hc]
    · rintro rfl; rw [hkeep _ _ (by simp only [Reg.FEN_WATCH_THRESH_LO]; omega), hl]
    · rintro rfl; rw [hkeep _ _ (by simp only [Reg.FEN_WATCH_THRESH_HI]; omega), hh]
    · rw [watchHolds_watchIrq, hf] at h; cases h
  · rw [if_neg hf]
    refine ⟨?_, ?_, ?_, fun h => absurd h hf, fun _ => ⟨hms, hst⟩⟩
    · rintro rfl; exact hc
    · rintro rfl; exact hl
    · rintro rfl; exact hh

/-- SOURCE of a binding's control word, which EN does not touch. -/
theorem evtSource_get (k : Nat) (v : Word) : (Fld.FEN_EVT_SOURCE k).get (v ||| 0x80000000) = v.toNat % 256 := by
  simp [Field.get, bitsOf, Fld.FEN_EVT_SOURCE, BitVec.toNat_or, Nat.or_mod_two_pow (n := 8)]

/-- EN of a binding's control word is set. -/
theorem evtEn_get (k : Nat) (v : Word) : (Fld.FEN_EVT_EN k).get (v ||| 0x80000000) = 1 := by
  have h : (v ||| 0x80000000).getLsbD 31 = true := by simp
  have hm : (v ||| 0x80000000).toNat >>> 31 % 2 = 1 := by
    simpa [BitVec.getLsbD, Nat.testBit_eq_decide_div_mod_eq, Nat.shiftRight_eq_div_pow] using h
  simpa [Field.get, bitsOf, Fld.FEN_EVT_EN] using hm

/-- The binding `k` after a write of its control word with a listed SOURCE and EN = 1 (R125). -/
theorem fenEvtWrite_meets (s : State) (k : Fin 32) (v : Word) (hv : v.toNat % 256 ∈ evtSources) :
    let t := fenEvtWrite s k (v ||| 0x80000000)
    t.reg (Reg.FEN_EVT k) = ((v ||| 0x80000000) &&& 0x8003FFFF) ∧
    (s.flag (Fld.FEN_EVT_EN k) = false → sget 0 t.evtCount k = 0 ∧ t.get (Fld.FEN_EVT_COUNT_COUNT k) = 0) ∧
    (s.flag (Fld.FEN_EVT_EN k) = true → t.evtCount = s.evtCount) ∧
    (∀ j, j ≠ k.val → sget 0 t.evtCount j = sget 0 s.evtCount j) ∧
    Frame [.evtCount] (words [Reg.FEN_EVT k, Reg.FEN_EVT_COUNT k]) s t := by
  let u := s.setReg (Reg.FEN_EVT k) ((v ||| 0x80000000) &&& 0x8003FFFF)
  let c : State := { u with evtCount := sset 0 s.evtCount k 0 }
  have hu : Frame [.evtCount] (words [Reg.FEN_EVT k, Reg.FEN_EVT_COUNT k]) s u := frame_setReg _ _ fun _ => by simp [words]
  have hc : Frame [.evtCount] (words [Reg.FEN_EVT k, Reg.FEN_EVT_COUNT k]) u c :=
    frame_part .evtCount (by simp) rfl fun r hr => by
      cases r <;> first | exact absurd rfl hr | simp [Part.same, c]
  have hcount : Covers (words [Reg.FEN_EVT k, Reg.FEN_EVT_COUNT k]) (Fld.FEN_EVT_COUNT_COUNT k) :=
    covers_words _ (by simp [Fld.FEN_EVT_COUNT_COUNT]) (Nat.zero_le _) (by simp [Fld.FEN_EVT_COUNT_COUNT])
  have hne : Reg.FEN_EVT k ≠ (Fld.FEN_EVT_COUNT_COUNT k).off := by
    simp only [Reg.FEN_EVT, Fld.FEN_EVT_COUNT_COUNT, Reg.FEN_EVT_COUNT]; omega
  have hreg : u.reg (Reg.FEN_EVT k) = (v ||| 0x80000000) &&& 0x8003FFFF := reg_setReg_same _ _ _
  rw [fenEvtWrite, evtSource_get, if_pos hv, evtEn_get]
  cases hen : s.flag (Fld.FEN_EVT_EN k) with
  | true => exact ⟨hreg, by simp, fun _ => rfl, fun _ _ => rfl, hu⟩
  | false =>
    refine ⟨(reg_put_ne c _ _ 0 hne).trans hreg, fun _ => ⟨sget_sset_same _ _ _ _, ?_⟩, by simp,
      fun j hj => sget_sset_ne _ _ _ _ _ hj _, frame_trans hu (frame_then_put hc _ 0 hcount)⟩
    exact get_put_same c _ 0 hcount.1 hcount.2.1

/-- Settles O17: a watch word and a binding's control word, case by case as their writes go. -/
theorem watchesAndEventBindings : Obligations.WatchesAndEventBindings := by
  unfold Obligations.WatchesAndEventBindings
  intro s v hrun hserved
  have hw (w : Fin 16) : s.served (Reg.FEN_WATCH w) = true :=
    (served_fen s _ (by simp only [Reg.FEN_WATCH]; omega) (by simp only [Reg.FEN_WATCH]; omega)).trans hserved
  have he (k : Fin 32) : s.served (Reg.FEN_EVT k) = true :=
    (served_fen s _ (by simp only [Reg.FEN_EVT]; omega) (by simp only [Reg.FEN_EVT]; omega)).trans hserved
  refine ⟨fun w part => ⟨fenWatchWrite s w part v, ?_, ?_⟩,
    fun k => ⟨fun hv => ⟨fenEvtWrite s k (v ||| 0x80000000), ?_, ?_⟩, ?_⟩⟩
  · exact (act_running s _ hrun).trans (by rw [if_pos (hw w)])
  · obtain ⟨hc, hl, hh, hon, hoff⟩ := fenWatchWrite_meets s w part v
    exact ⟨hc, hl, hh, hon, hoff, frame_fenWatchWrite s w part v⟩
  · exact (act_running s _ hrun).trans (by rw [if_pos (he k)])
  · exact fenEvtWrite_meets s k v hv
  · intro hv
    have hsrc : (Fld.FEN_EVT_SOURCE k).get (v ||| 0x80000000) ∉ evtSources := by rwa [evtSource_get]
    exact (act_running s _ hrun).trans (by rw [if_pos (he k), fenEvtWrite, if_neg hsrc])

end Sys2Proof.Proofs
end

section
/-!
PROOF. Host writes of SQ_CFG and CQ_CFG (O20: R70, R71, R75).
-/

namespace Sys2Proof.Proofs
open Sys2Proof Sys2Proof.Machine Sys2Proof.Safety Sys2Proof.Laws

/-! ### SQ_CFG -/

/-- The CQ that SQ n is bound to after a write of SQ_CFG: an active SQ keeps its own (R71). -/
def cqAfter (s : State) (n : Nat) (v : Word) : Nat := if s.sqActive n then s.get (Fld.SQ_CFG_CQ n) else (Fld.SQ_CFG_CQ n).get v

/-- The fields of SQ n that a write of SQ_CFG takes over: PRIO and EN, size and CQ of an inactive SQ (R71). -/
def sqStored (s : State) (n : Nat) (v : Word) : State :=
  let s1 := (s.put (Fld.SQ_CFG_PRIO n) ((Fld.SQ_CFG_PRIO n).get v)).putB (Fld.SQ_CFG_EN n) (decide ((Fld.SQ_CFG_EN n).get v = 1))
  if s.sqActive n then s1
  else (s1.put (Fld.SQ_CFG_LOG2SIZE n) ((Fld.SQ_CFG_LOG2SIZE n).get v)).put (Fld.SQ_CFG_CQ n) (cqAfter s n v)

/-- An SQ that goes from disabled to enabled starts anew (R71). -/
def sqStarted (s : State) (n : Nat) : State :=
  (((s.putB (Fld.SQ_STATUS_HALTED n) false).put (Fld.SQ_STATUS_ERR n) 0).put (Fld.SQ_HEAD_HEAD n) 0).put (Fld.SQ_TAIL_TAIL n) 0

/-- A write of SQ_CFG that is taken. -/
theorem sqCfgWrite_taken (s : State) (n : Nat) (v : Word) (hk : 4 ≤ (Fld.SQ_CFG_LOG2SIZE n).get v)
    (hk' : (Fld.SQ_CFG_LOG2SIZE n).get v ≤ 16)
    (hcq : (Fld.SQ_CFG_EN n).get v = 1 → s.flag (Fld.CQ_CFG_EN (cqAfter s n v)) = true) :
    sqCfgWrite s n v = ((if (Fld.SQ_CFG_EN n).get v = 1 ∧ s.flag (Fld.SQ_CFG_EN n) = false then sqStarted (sqStored s n v) n
      else sqStored s n v).ringStatus n (cqAfter s n v)) := by
  have h1 : ¬ ((Fld.SQ_CFG_LOG2SIZE n).get v < 4 ∨ 16 < (Fld.SQ_CFG_LOG2SIZE n).get v) := by omega
  have h2 : ¬ (decide ((Fld.SQ_CFG_EN n).get v = 1) && !s.flag (Fld.CQ_CFG_EN (cqAfter s n v))) = true := by
    simpa using hcq
  unfold sqCfgWrite
  rw [if_neg h1]
  show (if (decide _ && !s.flag (Fld.CQ_CFG_EN (cqAfter s n v))) = true then _ else _) = _
  rw [if_neg h2]
  simp only [sqStored, sqStarted, Bool.and_eq_true, decide_eq_true_eq, Bool.not_eq_true']
  rfl

section
variable (s : State) (n : Nat) (v : Word)

/-- The fields of SQ_CFG. -/
def sqCfgFields (n : Nat) : List Field := [Fld.SQ_CFG_EN n, Fld.SQ_CFG_PRIO n, Fld.SQ_CFG_CQ n, Fld.SQ_CFG_LOG2SIZE n]

/-- The fields that an enabled SQ starts with (R71). -/
def sqStartFields (n : Nat) : List Field := [Fld.SQ_STATUS_HALTED n, Fld.SQ_STATUS_ERR n, Fld.SQ_HEAD_HEAD n, Fld.SQ_TAIL_TAIL n]

/-- The fields of SQ_CFG as they read after a write. -/
theorem get_sqStored :
    (sqStored s n v).flag (Fld.SQ_CFG_EN n) = decide ((Fld.SQ_CFG_EN n).get v = 1) ∧
    (sqStored s n v).get (Fld.SQ_CFG_PRIO n) = (Fld.SQ_CFG_PRIO n).get v ∧
    (sqStored s n v).get (Fld.SQ_CFG_CQ n) = cqAfter s n v ∧
    (sqStored s n v).get (Fld.SQ_CFG_LOG2SIZE n) =
      (if s.sqActive n then s.get (Fld.SQ_CFG_LOG2SIZE n) else (Fld.SQ_CFG_LOG2SIZE n).get v) := by
  have hv (f : Field) : f.get v % 2 ^ f.width = f.get v := Nat.mod_eq_of_lt (field_get_lt f v)
  unfold sqStored cqAfter
  cases s.sqActive n with
  | true =>
    refine ⟨flag_putB_self _ _ rfl rfl, ?_, ?_, ?_⟩
    · exact (get_put_apart _ _ rfl rfl).trans ((get_put_self _ _ rfl).trans (hv _))
    all_goals exact (get_put_apart _ _ rfl rfl).trans (get_put_apart _ _ rfl rfl)
  | false =>
    refine ⟨?_, ?_, ?_, ?_⟩
    · exact (flag_put_apart _ _ rfl rfl).trans ((flag_put_apart _ _ rfl rfl).trans (flag_putB_self _ _ rfl rfl))
    · exact (get_put_apart _ _ rfl rfl).trans ((get_put_apart _ _ rfl rfl).trans
        ((get_put_apart _ _ rfl rfl).trans ((get_put_self _ _ rfl).trans (hv _))))
    · exact (get_put_self _ _ rfl).trans (hv _)
    · exact (get_put_apart _ _ rfl rfl).trans ((get_put_self _ _ rfl).trans (hv _))

theorem frame_sqStored : Frame [] (bits (sqCfgFields n)) s (sqStored s n v) := by
  have h1 : Frame [] (bits (sqCfgFields n)) s ((s.put (Fld.SQ_CFG_PRIO n) ((Fld.SQ_CFG_PRIO n).get v)).putB (Fld.SQ_CFG_EN n)
      (decide ((Fld.SQ_CFG_EN n).get v = 1))) :=
    frame_then_putB (frame_put _ _ (covers_of_fits (by simp [sqCfgFields]) rfl)) _ _ (covers_of_fits (by simp [sqCfgFields]) rfl)
  refine frame_ite (fun _ => h1) fun _ => frame_then_put (frame_then_put h1 _ _ ?_) _ _ ?_
  all_goals exact covers_of_fits (by simp [sqCfgFields]) rfl

theorem frame_sqStarted : Frame [] (bits (sqStartFields n)) s (sqStarted s n) := by
  refine frame_then_put (frame_then_put (frame_then_put (frame_putB _ _ ?_) _ _ ?_) _ _ ?_) _ _ ?_
  all_goals exact covers_of_fits (by simp [sqStartFields]) rfl

/-- An SQ just enabled: not halted, no error, empty (R71). -/
theorem get_sqStarted :
    (sqStarted s n).flag (Fld.SQ_STATUS_HALTED n) = false ∧ (sqStarted s n).get (Fld.SQ_STATUS_ERR n) = 0 ∧
    (sqStarted s n).get (Fld.SQ_HEAD_HEAD n) = 0 ∧ (sqStarted s n).get (Fld.SQ_TAIL_TAIL n) = 0 := by
  have hs {f g : Field} (h : f.off = Reg.SQ_STATUS n) (hg : g = Fld.SQ_HEAD_HEAD n ∨ g = Fld.SQ_TAIL_TAIL n) : apart f g = true := by
    rcases hg with rfl | rfl <;> simp [apart, h, Fld.SQ_HEAD_HEAD, Fld.SQ_TAIL_TAIL, Reg.SQ_STATUS, Reg.SQ_HEAD, Reg.SQ_TAIL]
  have ht : apart (Fld.SQ_HEAD_HEAD n) (Fld.SQ_TAIL_TAIL n) = true := by
    simp [apart, Fld.SQ_HEAD_HEAD, Fld.SQ_TAIL_TAIL, Reg.SQ_HEAD, Reg.SQ_TAIL]
  unfold sqStarted
  refine ⟨?_, ?_, ?_, get_put_self _ _ rfl⟩
  · rw [flag_put_apart _ _ rfl (hs rfl (.inr rfl)), flag_put_apart _ _ rfl (hs rfl (.inl rfl)), flag_put_apart _ _ rfl rfl,
      flag_putB_self _ _ rfl rfl]
  · rw [get_put_apart _ _ rfl (hs rfl (.inr rfl)), get_put_apart _ _ rfl (hs rfl (.inl rfl)), get_put_self _ _ rfl, Nat.zero_mod]
  · rw [get_put_apart _ _ rfl ht, get_put_self _ _ rfl, Nat.zero_mod]
end

/-- The two ACTIVE bits follow (Tables 3.14 and 3.15). -/
theorem frame_ringStatus (s : State) (n cq : Nat) :
    Frame [] (bits [Fld.SQ_STATUS_ACTIVE n, Fld.CQ_STATUS_ACTIVE cq]) s (s.ringStatus n cq) :=
  frame_then_putB (frame_putB _ _ (covers_of_fits (by simp) rfl)) _ _ (covers_of_fits (by simp) rfl)

/-- An SQ error shows its code and can raise the interrupt (Table 3.12). -/
theorem sqError_meets (s : State) (n code : Nat) (h : code < 16) :
    (s.sqError n code).get (Fld.SQ_STATUS_ERR n) = code ∧
    Frame [.msix] (orBits pba (bits [Fld.SQ_STATUS_ERR n, Fld.RING_IRQ_STATUS_SQ_ERR])) s (s.sqError n code) := by
  have hput : (s.put (Fld.SQ_STATUS_ERR n) code).get (Fld.SQ_STATUS_ERR n) = code :=
    (get_put_self _ _ rfl).trans (Nat.mod_eq_of_lt h)
  have hoff : Reg.SQ_STATUS n < 0x29000 ∨ 0x29010 ≤ Reg.SQ_STATUS n := by simp only [Reg.SQ_STATUS]; omega
  unfold State.sqError
  refine ⟨?_, frame_ite_right (frame_put _ _ (covers_right _ (covers_of_fits (by simp) rfl))) fun _ =>
    frame_irqF_listed _ (by simp) rfl (by simp)⟩
  split
  · exact (get_irqF_apart _ rfl rfl hoff).trans hput
  · exact hput

/-- Below an unlisted size a write of SQ_CFG is ignored (R23). -/
theorem sqCfgWrite_unlisted (s : State) (n : Nat) (v : Word)
    (h : (Fld.SQ_CFG_LOG2SIZE n).get v < 4 ∨ 16 < (Fld.SQ_CFG_LOG2SIZE n).get v) : sqCfgWrite s n v = s := by
  rw [sqCfgWrite, if_pos h]

/-- An enabling write of SQ_CFG with the bound CQ disabled only reports (Table 3.14). -/
theorem sqCfgWrite_unbound (s : State) (n : Nat) (v : Word) (hk : 4 ≤ (Fld.SQ_CFG_LOG2SIZE n).get v)
    (hk' : (Fld.SQ_CFG_LOG2SIZE n).get v ≤ 16) (hen : (Fld.SQ_CFG_EN n).get v = 1)
    (hcq : s.flag (Fld.CQ_CFG_EN (cqAfter s n v)) = false) : sqCfgWrite s n v = s.sqError n 5 := by
  have h1 : ¬ ((Fld.SQ_CFG_LOG2SIZE n).get v < 4 ∨ 16 < (Fld.SQ_CFG_LOG2SIZE n).get v) := by omega
  have h2 : (decide ((Fld.SQ_CFG_EN n).get v = 1) && !s.flag (Fld.CQ_CFG_EN (cqAfter s n v))) = true := by simp [hen, hcq]
  rw [sqCfgWrite, if_neg h1]
  exact if_pos h2

/-- What follows the store of SQ_CFG changes no field of that word. -/
theorem get_sqStart_status (w : State) (n cq : Nat) (c : Prop) [Decidable c] (f : Field) (h : f.off = Reg.SQ_CFG n) :
    ((if c then sqStarted w n else w).ringStatus n cq).get f = w.get f := by
  have hstart : (if c then sqStarted w n else w).get f = w.get f := by
    refine get_of_frame_bits (frame_ite (fun _ => frame_sqStarted w n) fun _ => frame_refl _) fun g hg => apart_of_off ?_
    simp only [sqStartFields, List.mem_cons, List.not_mem_nil, or_false] at hg
    rcases hg with rfl | rfl | rfl | rfl <;> rw [h] <;>
      simp only [Fld.SQ_STATUS_HALTED, Fld.SQ_STATUS_ERR, Fld.SQ_HEAD_HEAD, Fld.SQ_TAIL_TAIL, Reg.SQ_CFG, Reg.SQ_STATUS,
        Reg.SQ_HEAD, Reg.SQ_TAIL] <;> omega
  refine (get_of_frame_bits (frame_ringStatus _ n cq) fun g hg => apart_of_off ?_).trans hstart
  simp only [List.mem_cons, List.not_mem_nil, or_false] at hg
  rcases hg with rfl | rfl <;> rw [h] <;>
    simp only [Fld.SQ_STATUS_ACTIVE, Fld.CQ_STATUS_ACTIVE, Reg.SQ_CFG, Reg.SQ_STATUS, Reg.CQ_STATUS] <;> omega

/-- The ACTIVE bits leave the other fields of an SQ as they were. -/
theorem get_ringStatus_sq (u : State) (n cq : Nat) (f : Field) (h : apart f (Fld.SQ_STATUS_ACTIVE n) = true) (hf : f.off < 0x22000) :
    (u.ringStatus n cq).get f = u.get f := by
  have hc : f.off ≠ (Fld.CQ_STATUS_ACTIVE cq).off := by simp only [Fld.CQ_STATUS_ACTIVE, Reg.CQ_STATUS]; omega
  exact get_of_frame_bits (frame_ringStatus u n cq) (by simp [h, apart_of_off hc])

/-- An SQ that a write enables starts anew, whatever the ACTIVE bits then show (R71). -/
theorem get_ringStatus_sqStarted (w : State) (n cq : Nat) (hn : n < 64) :
    ((sqStarted w n).ringStatus n cq).flag (Fld.SQ_STATUS_HALTED n) = false ∧
    ((sqStarted w n).ringStatus n cq).get (Fld.SQ_STATUS_ERR n) = 0 ∧
    ((sqStarted w n).ringStatus n cq).get (Fld.SQ_HEAD_HEAD n) = 0 ∧
    ((sqStarted w n).ringStatus n cq).get (Fld.SQ_TAIL_TAIL n) = 0 := by
  obtain ⟨hhalt, herr, hhead, htail⟩ := get_sqStarted w n
  have hkeep := get_ringStatus_sq (sqStarted w n) n cq
  have hst : Reg.SQ_STATUS n < 0x22000 := by simp only [Reg.SQ_STATUS]; omega
  have hh : apart (Fld.SQ_HEAD_HEAD n) (Fld.SQ_STATUS_ACTIVE n) = true ∧ Reg.SQ_HEAD n < 0x22000 := by
    simp [apart, Fld.SQ_HEAD_HEAD, Fld.SQ_STATUS_ACTIVE, Reg.SQ_HEAD, Reg.SQ_STATUS]; omega
  have ht : apart (Fld.SQ_TAIL_TAIL n) (Fld.SQ_STATUS_ACTIVE n) = true ∧ Reg.SQ_TAIL n < 0x22000 := by
    simp [apart, Fld.SQ_TAIL_TAIL, Fld.SQ_STATUS_ACTIVE, Reg.SQ_TAIL, Reg.SQ_STATUS]; omega
  refine ⟨?_, (hkeep _ rfl hst).trans herr, (hkeep _ hh.1 hh.2).trans hhead, (hkeep _ ht.1 ht.2).trans htail⟩
  rw [State.flag, hkeep (Fld.SQ_STATUS_HALTED n) rfl hst]; exact hhalt

/-- The fields of SQ n after a write of SQ_CFG that is taken (R71). -/
theorem sqCfgWrite_meets (s : State) (n : Nat) (hn : n < 64) (v : Word) (hk : 4 ≤ (Fld.SQ_CFG_LOG2SIZE n).get v)
    (hk' : (Fld.SQ_CFG_LOG2SIZE n).get v ≤ 16)
    (hcq : (Fld.SQ_CFG_EN n).get v = 1 → s.flag (Fld.CQ_CFG_EN (cqAfter s n v)) = true) :
    let t := sqCfgWrite s n v
    t.flag (Fld.SQ_CFG_EN n) = decide ((Fld.SQ_CFG_EN n).get v = 1) ∧
    t.get (Fld.SQ_CFG_PRIO n) = (Fld.SQ_CFG_PRIO n).get v ∧ t.get (Fld.SQ_CFG_CQ n) = cqAfter s n v ∧
    t.get (Fld.SQ_CFG_LOG2SIZE n) =
      (if s.sqActive n then s.get (Fld.SQ_CFG_LOG2SIZE n) else (Fld.SQ_CFG_LOG2SIZE n).get v) ∧
    ((Fld.SQ_CFG_EN n).get v = 1 → s.flag (Fld.SQ_CFG_EN n) = false → t.flag (Fld.SQ_STATUS_HALTED n) = false ∧
      t.get (Fld.SQ_STATUS_ERR n) = 0 ∧ t.get (Fld.SQ_HEAD_HEAD n) = 0 ∧ t.get (Fld.SQ_TAIL_TAIL n) = 0) := by
  rw [sqCfgWrite_taken s n v hk hk' hcq]
  obtain ⟨hen, hprio, hcqv, hsize⟩ := get_sqStored s n v
  have hkeep := get_sqStart_status (sqStored s n v) n (cqAfter s n v)
    ((Fld.SQ_CFG_EN n).get v = 1 ∧ s.flag (Fld.SQ_CFG_EN n) = false)
  refine ⟨?_, (hkeep _ rfl).trans hprio, (hkeep _ rfl).trans hcqv, (hkeep _ rfl).trans hsize, fun h1 h2 => ?_⟩
  · rw [State.flag, hkeep (Fld.SQ_CFG_EN n) rfl]; exact hen
  · rw [if_pos ⟨h1, h2⟩]; exact get_ringStatus_sqStarted _ n _ hn

/-- What a write of SQ_CFG that is taken can change (R71). -/
theorem frame_sqCfgWrite (s : State) (n : Nat) (v : Word) (hk : 4 ≤ (Fld.SQ_CFG_LOG2SIZE n).get v)
    (hk' : (Fld.SQ_CFG_LOG2SIZE n).get v ≤ 16)
    (hcq : (Fld.SQ_CFG_EN n).get v = 1 → s.flag (Fld.CQ_CFG_EN (cqAfter s n v)) = true) :
    Frame [] (bits (sqCfgFields n ++ sqStartFields n ++ [Fld.SQ_STATUS_ACTIVE n, Fld.CQ_STATUS_ACTIVE (cqAfter s n v)])) s
      (sqCfgWrite s n v) := by
  rw [sqCfgWrite_taken s n v hk hk' hcq]
  have hsub : sqCfgFields n ++ sqStartFields n ⊆
      sqCfgFields n ++ sqStartFields n ++ [Fld.SQ_STATUS_ACTIVE n, Fld.CQ_STATUS_ACTIVE (cqAfter s n v)] := List.subset_append_left ..
  refine frame_trans (frame_ite_right ?_ fun _ => ?_)
    (frame_bits_mono (frame_ringStatus _ n _) (List.Subset.refl _) (List.subset_append_right ..))
  · exact frame_bits_mono (frame_sqStored s n v) (List.Subset.refl _) (List.Subset.trans (List.subset_append_left ..) hsub)
  · exact frame_bits_mono (frame_sqStarted _ n) (List.Subset.refl _) (List.Subset.trans (List.subset_append_right ..) hsub)

/-! ### CQ_CFG -/

/-- The fields of CQ_CFG. -/
def cqCfgFields (n : Nat) : List Field := [Fld.CQ_CFG_EN n, Fld.CQ_CFG_VECTOR n, Fld.CQ_CFG_ERR_IMM n, Fld.CQ_CFG_LOG2SIZE n]

/-- The fields that an enabled CQ starts with (R75). -/
def cqStartFields (n : Nat) : List Field :=
  [⟨Reg.CQ_TAIL n, 31, 0⟩, Fld.CQ_HEAD_HEAD n, Fld.CQ_STATUS_ERR n, Fld.CQ_STATUS_FREE n]

/-- An SQ that is enabled is bound to CQ n, or a record of it is unwritten (Table 3.15). -/
def cqInUse (s : State) (n : Nat) : Bool :=
  (List.range 64).any (fun q => s.flag (Fld.SQ_CFG_EN q) && decide (s.get (Fld.SQ_CFG_CQ q) = n)) || s.cqUnwritten n

theorem cqInUse_iff (s : State) (n : Nat) : cqInUse s n = true ↔
    (∃ q < 64, s.flag (Fld.SQ_CFG_EN q) = true ∧ s.get (Fld.SQ_CFG_CQ q) = n) ∨ s.cqUnwritten n = true := by
  simp [cqInUse]

/-- The fields of CQ n that a write of CQ_CFG takes over: the size only where it may (R75). -/
def cqStored (s : State) (n : Nat) (v : Word) : State :=
  let s1 := ((s.put (Fld.CQ_CFG_VECTOR n) ((Fld.CQ_CFG_VECTOR n).get v)).put (Fld.CQ_CFG_ERR_IMM n)
    ((Fld.CQ_CFG_ERR_IMM n).get v)).putB (Fld.CQ_CFG_EN n) (decide ((Fld.CQ_CFG_EN n).get v = 1))
  if s.flag (Fld.CQ_CFG_EN n) || s.cqUnwritten n then s1 else s1.put (Fld.CQ_CFG_LOG2SIZE n) ((Fld.CQ_CFG_LOG2SIZE n).get v)

/-- The registers of a CQ that goes from disabled to enabled (R73, R75). -/
def cqStartRegs (s : State) (n : Nat) : State :=
  let s1 := (s.setReg (Reg.CQ_TAIL n) 0x10000).put (Fld.CQ_HEAD_HEAD n) 0
  (s1.put (Fld.CQ_STATUS_ERR n) 0).put (Fld.CQ_STATUS_FREE n) (s1.cqSize n - 1)

/-- A CQ that goes from disabled to enabled starts anew; its counted records are forgotten (R75; log entry 39). -/
def cqStarted (s : State) (n : Nat) : State :=
  { cqStartRegs s n with ring := { (cqStartRegs s n).ring with counted := sset 0 (cqStartRegs s n).ring.counted n 0 } }

/-- CQ n after a write of CQ_CFG that is taken, but for ACTIVE. -/
def cqWritten (s : State) (n : Nat) (v : Word) : State :=
  if (Fld.CQ_CFG_EN n).get v = 1 ∧ s.flag (Fld.CQ_CFG_EN n) = false then cqStarted (cqStored s n v) n else cqStored s n v

/-- A write of CQ_CFG that is taken. -/
theorem cqCfgWrite_taken (s : State) (n : Nat) (v : Word) (hk : 4 ≤ (Fld.CQ_CFG_LOG2SIZE n).get v)
    (hk' : (Fld.CQ_CFG_LOG2SIZE n).get v ≤ 16)
    (huse : ¬ (s.flag (Fld.CQ_CFG_EN n) = true ∧ (Fld.CQ_CFG_EN n).get v ≠ 1 ∧ cqInUse s n = true)) :
    cqCfgWrite s n v = (cqWritten s n v).putB (Fld.CQ_STATUS_ACTIVE n)
      (decide ((Fld.CQ_CFG_EN n).get v = 1) || (cqWritten s n v).cqUnwritten n) := by
  have h1 : ¬ ((Fld.CQ_CFG_LOG2SIZE n).get v < 4 ∨ 16 < (Fld.CQ_CFG_LOG2SIZE n).get v) := by omega
  have h2 : ¬ ((s.flag (Fld.CQ_CFG_EN n) && !decide ((Fld.CQ_CFG_EN n).get v = 1)) && cqInUse s n) = true := by
    simpa [and_assoc] using huse
  rw [cqCfgWrite, if_neg h1]
  refine (if_neg h2).trans ?_
  simp only [cqWritten, cqStored, cqStarted, cqStartRegs, Bool.and_eq_true, decide_eq_true_eq, Bool.not_eq_true']

/-- A write of CQ_CFG with an unlisted size is ignored (R23). -/
theorem cqCfgWrite_unlisted (s : State) (n : Nat) (v : Word)
    (h : (Fld.CQ_CFG_LOG2SIZE n).get v < 4 ∨ 16 < (Fld.CQ_CFG_LOG2SIZE n).get v) : cqCfgWrite s n v = s := by
  rw [cqCfgWrite, if_pos h]

/-- A write of CQ_CFG that would disable a CQ in use only reports (Table 3.15). -/
theorem cqCfgWrite_busy (s : State) (n : Nat) (v : Word) (hk : 4 ≤ (Fld.CQ_CFG_LOG2SIZE n).get v)
    (hk' : (Fld.CQ_CFG_LOG2SIZE n).get v ≤ 16) (hwas : s.flag (Fld.CQ_CFG_EN n) = true) (hen : (Fld.CQ_CFG_EN n).get v ≠ 1)
    (huse : cqInUse s n = true) : cqCfgWrite s n v = s.cqError n 2 := by
  have h1 : ¬ ((Fld.CQ_CFG_LOG2SIZE n).get v < 4 ∨ 16 < (Fld.CQ_CFG_LOG2SIZE n).get v) := by omega
  have h2 : ((s.flag (Fld.CQ_CFG_EN n) && !decide ((Fld.CQ_CFG_EN n).get v = 1)) && cqInUse s n) = true := by
    simp [hwas, hen, huse]
  rw [cqCfgWrite, if_neg h1]
  exact if_pos h2

/-- A CQ error shows its code and can raise the interrupt (Table 3.12). -/
theorem cqError_meets (s : State) (n code : Nat) (h : code < 16) :
    (s.cqError n code).get (Fld.CQ_STATUS_ERR n) = code ∧
    Frame [.msix] (orBits pba (bits [Fld.CQ_STATUS_ERR n, Fld.RING_IRQ_STATUS_CQ_ERR])) s (s.cqError n code) := by
  have hput : (s.put (Fld.CQ_STATUS_ERR n) code).get (Fld.CQ_STATUS_ERR n) = code :=
    (get_put_self _ _ rfl).trans (Nat.mod_eq_of_lt h)
  have hoff : Reg.CQ_STATUS n < 0x29000 ∨ 0x29010 ≤ Reg.CQ_STATUS n := by simp only [Reg.CQ_STATUS]; omega
  unfold State.cqError
  refine ⟨?_, frame_ite_right (frame_put _ _ (covers_right _ (covers_of_fits (by simp) rfl))) fun _ =>
    frame_irqF_listed _ (by simp) rfl (by simp)⟩
  split
  · exact (get_irqF_apart _ rfl rfl hoff).trans hput
  · exact hput

section
variable (s : State) (n : Nat) (v : Word)

/-- The fields of CQ_CFG as they read after a write. -/
theorem get_cqStored :
    (cqStored s n v).flag (Fld.CQ_CFG_EN n) = decide ((Fld.CQ_CFG_EN n).get v = 1) ∧
    (cqStored s n v).get (Fld.CQ_CFG_VECTOR n) = (Fld.CQ_CFG_VECTOR n).get v ∧
    (cqStored s n v).get (Fld.CQ_CFG_ERR_IMM n) = (Fld.CQ_CFG_ERR_IMM n).get v ∧
    (cqStored s n v).get (Fld.CQ_CFG_LOG2SIZE n) =
      (if s.flag (Fld.CQ_CFG_EN n) || s.cqUnwritten n then s.get (Fld.CQ_CFG_LOG2SIZE n) else (Fld.CQ_CFG_LOG2SIZE n).get v) := by
  have hv (f : Field) : f.get v % 2 ^ f.width = f.get v := Nat.mod_eq_of_lt (field_get_lt f v)
  unfold cqStored
  cases s.flag (Fld.CQ_CFG_EN n) || s.cqUnwritten n with
  | true =>
    refine ⟨flag_putB_self _ _ rfl rfl, ?_, ?_, ?_⟩
    · exact (get_put_apart _ _ rfl rfl).trans ((get_put_apart _ _ rfl rfl).trans ((get_put_self _ _ rfl).trans (hv _)))
    · exact (get_put_apart _ _ rfl rfl).trans ((get_put_self _ _ rfl).trans (hv _))
    · exact (get_put_apart _ _ rfl rfl).trans ((get_put_apart _ _ rfl rfl).trans (get_put_apart _ _ rfl rfl))
  | false =>
    refine ⟨(flag_put_apart _ _ rfl rfl).trans (flag_putB_self _ _ rfl rfl), ?_, ?_, (get_put_self _ _ rfl).trans (hv _)⟩
    · exact (get_put_apart _ _ rfl rfl).trans ((get_put_apart _ _ rfl rfl).trans ((get_put_apart _ _ rfl rfl).trans
        ((get_put_self _ _ rfl).trans (hv _))))
    · exact (get_put_apart _ _ rfl rfl).trans ((get_put_apart _ _ rfl rfl).trans ((get_put_self _ _ rfl).trans (hv _)))

theorem frame_cqStored : Frame [] (bits (cqCfgFields n)) s (cqStored s n v) := by
  have h1 : Frame [] (bits (cqCfgFields n)) s (((s.put (Fld.CQ_CFG_VECTOR n) ((Fld.CQ_CFG_VECTOR n).get v)).put
      (Fld.CQ_CFG_ERR_IMM n) ((Fld.CQ_CFG_ERR_IMM n).get v)).putB (Fld.CQ_CFG_EN n) (decide ((Fld.CQ_CFG_EN n).get v = 1))) := by
    refine frame_then_putB (frame_then_put (frame_put _ _ ?_) _ _ ?_) _ _ ?_
    all_goals exact covers_of_fits (by simp [cqCfgFields]) rfl
  exact frame_ite (fun _ => h1) fun _ => frame_then_put h1 _ _ (covers_of_fits (by simp [cqCfgFields]) rfl)

theorem frame_cqStartRegs : Frame [] (bits (cqStartFields n)) s (cqStartRegs s n) := by
  refine frame_then_put (frame_then_put (frame_then_put (frame_setReg_word _ _ _ fun b hb => ?_) _ _ ?_) _ _ ?_) _ _ ?_
  · exact ⟨⟨Reg.CQ_TAIL n, 31, 0⟩, by simp [cqStartFields], rfl, Nat.zero_le _, Nat.le_of_lt_succ hb⟩
  all_goals exact covers_of_fits (by simp [cqStartFields]) rfl

/-- Only the counts of records changed. -/
theorem frame_counted (x : Store Nat) : Frame [.ring] (bits (cqStartFields n)) s { s with ring := { s.ring with counted := x } } :=
  frame_part .ring (by simp) rfl fun r hr => by cases r <;> first | exact absurd rfl hr | simp [Part.same]

theorem frame_cqStarted : Frame [.ring] (bits (cqStartFields n)) s (cqStarted s n) :=
  frame_trans (frame_bits_mono (frame_cqStartRegs s n) (List.nil_subset _) (List.Subset.refl _)) (frame_counted _ n _)

/-- A CQ just enabled: empty, in phase 1, no error, all entries but one free, no record counted (R73, R75). -/
theorem get_cqStarted :
    (cqStarted s n).get (Fld.CQ_TAIL_TAIL n) = 0 ∧ (cqStarted s n).get (Fld.CQ_TAIL_PHASE n) = 1 ∧
    (cqStarted s n).get (Fld.CQ_HEAD_HEAD n) = 0 ∧ (cqStarted s n).get (Fld.CQ_STATUS_ERR n) = 0 ∧
    (cqStarted s n).get (Fld.CQ_STATUS_FREE n) = (s.cqSize n - 1) % 2 ^ 16 ∧ sget 0 (cqStarted s n).ring.counted n = 0 := by
  have htail : (cqStartRegs s n).reg (Reg.CQ_TAIL n) = 0x10000 := by
    unfold cqStartRegs
    rw [reg_put_ne, reg_put_ne, reg_put_ne, reg_setReg_same] <;>
      simp only [Fld.CQ_HEAD_HEAD, Fld.CQ_STATUS_ERR, Fld.CQ_STATUS_FREE, Reg.CQ_TAIL, Reg.CQ_HEAD, Reg.CQ_STATUS] <;> omega
  have hhs {f : Field} (h : f.off = Reg.CQ_STATUS n) : apart (Fld.CQ_HEAD_HEAD n) f = true :=
    apart_of_off (by rw [h]; simp only [Fld.CQ_HEAD_HEAD, Reg.CQ_HEAD, Reg.CQ_STATUS]; omega)
  have hsize : ((s.setReg (Reg.CQ_TAIL n) 0x10000).put (Fld.CQ_HEAD_HEAD n) 0).cqSize n = s.cqSize n := by
    simp only [State.cqSize, State.get]
    rw [reg_put_ne, reg_setReg_ne] <;> simp only [Fld.CQ_CFG_LOG2SIZE, Fld.CQ_HEAD_HEAD, Reg.CQ_CFG, Reg.CQ_HEAD, Reg.CQ_TAIL] <;> omega
  have hword (f : Field) (h : f.off = Reg.CQ_TAIL n) : (cqStarted s n).get f = f.get 0x10000 := by
    show f.get ((cqStartRegs s n).reg f.off) = _
    rw [h, htail]
  refine ⟨(hword _ rfl).trans (by simp [Field.get, bitsOf, Fld.CQ_TAIL_TAIL]),
    (hword _ rfl).trans (by simp [Field.get, bitsOf, Fld.CQ_TAIL_PHASE]), ?_, ?_, ?_, sget_sset_same _ _ _ _⟩
  · exact (get_put_apart _ _ rfl (hhs rfl)).trans ((get_put_apart _ _ rfl (hhs rfl)).trans (get_put_self _ _ rfl))
  · exact (get_put_apart _ _ rfl rfl).trans (get_put_self _ _ rfl)
  · exact (get_put_self _ _ rfl).trans (by rw [hsize]; rfl)
end

/-- CQ_CFG keeps what was stored in it. -/
theorem get_cqStarted_cfg (w : State) (n : Nat) (f : Field) (h : f.off = Reg.CQ_CFG n) : (cqStarted w n).get f = w.get f := by
  refine get_of_frame_bits (frame_cqStarted w n) fun g hg => apart_of_off ?_
  simp only [cqStartFields, List.mem_cons, List.not_mem_nil, or_false] at hg
  rcases hg with rfl | rfl | rfl | rfl <;> rw [h] <;>
    simp only [Fld.CQ_HEAD_HEAD, Fld.CQ_STATUS_ERR, Fld.CQ_STATUS_FREE, Reg.CQ_CFG, Reg.CQ_TAIL, Reg.CQ_HEAD, Reg.CQ_STATUS] <;> omega

/-- ACTIVE of a CQ is its own bit. -/
theorem get_cqActive (u : State) (n : Nat) (b : Bool) (f : Field) (h : apart f (Fld.CQ_STATUS_ACTIVE n) = true) :
    (u.putB (Fld.CQ_STATUS_ACTIVE n) b).get f = u.get f := get_put_apart u _ rfl h

section
variable (s : State) (n : Nat) (v : Word) (hk : 4 ≤ (Fld.CQ_CFG_LOG2SIZE n).get v) (hk' : (Fld.CQ_CFG_LOG2SIZE n).get v ≤ 16)
  (huse : ¬ (s.flag (Fld.CQ_CFG_EN n) = true ∧ (Fld.CQ_CFG_EN n).get v ≠ 1 ∧ cqInUse s n = true))
include hk hk' huse

/-- The fields of CQ_CFG after a write that is taken. -/
theorem get_cqCfgWrite (f : Field) (h : f.off = Reg.CQ_CFG n) : (cqCfgWrite s n v).get f = (cqStored s n v).get f := by
  rw [cqCfgWrite_taken s n v hk hk' huse, get_cqActive _ _ _ _ (apart_of_off (by
    rw [h]; simp only [Fld.CQ_STATUS_ACTIVE, Reg.CQ_CFG, Reg.CQ_STATUS]; omega)), cqWritten]
  split
  · exact get_cqStarted_cfg _ n f h
  · rfl

/-- CQ n after a write of CQ_CFG that is taken (R75). -/
theorem cqCfgWrite_meets :
    let t := cqCfgWrite s n v
    t.flag (Fld.CQ_CFG_EN n) = decide ((Fld.CQ_CFG_EN n).get v = 1) ∧
    t.get (Fld.CQ_CFG_VECTOR n) = (Fld.CQ_CFG_VECTOR n).get v ∧ t.get (Fld.CQ_CFG_ERR_IMM n) = (Fld.CQ_CFG_ERR_IMM n).get v ∧
    t.get (Fld.CQ_CFG_LOG2SIZE n) =
      (if s.flag (Fld.CQ_CFG_EN n) || s.cqUnwritten n then s.get (Fld.CQ_CFG_LOG2SIZE n) else (Fld.CQ_CFG_LOG2SIZE n).get v) ∧
    ((Fld.CQ_CFG_EN n).get v = 1 → s.flag (Fld.CQ_CFG_EN n) = false → t.get (Fld.CQ_TAIL_TAIL n) = 0 ∧
      t.get (Fld.CQ_TAIL_PHASE n) = 1 ∧ t.get (Fld.CQ_HEAD_HEAD n) = 0 ∧ t.get (Fld.CQ_STATUS_ERR n) = 0 ∧
      t.get (Fld.CQ_STATUS_FREE n) = (t.cqSize n - 1) % 2 ^ 16 ∧ sget 0 t.ring.counted n = 0) := by
  obtain ⟨hen, hvec, himm, hsize⟩ := get_cqStored s n v
  have hcfg := get_cqCfgWrite s n v hk hk' huse
  refine ⟨?_, (hcfg _ rfl).trans hvec, (hcfg _ rfl).trans himm, (hcfg _ rfl).trans hsize, fun h1 h2 => ?_⟩
  · rw [State.flag, hcfg (Fld.CQ_CFG_EN n) rfl]; exact hen
  · obtain ⟨htail, hphase, hhead, herr, hfree, hcnt⟩ := get_cqStarted (cqStored s n v) n
    have hq : (cqCfgWrite s n v).cqSize n = (cqStored s n v).cqSize n := congrArg (2 ^ ·) (hcfg _ rfl)
    have hoff {f : Field} (h : f.off ≠ Reg.CQ_STATUS n) : apart f (Fld.CQ_STATUS_ACTIVE n) = true := apart_of_off h
    have ht : Reg.CQ_TAIL n ≠ Reg.CQ_STATUS n := by simp only [Reg.CQ_TAIL, Reg.CQ_STATUS]; omega
    have hh : Reg.CQ_HEAD n ≠ Reg.CQ_STATUS n := by simp only [Reg.CQ_HEAD, Reg.CQ_STATUS]; omega
    rw [hq, cqCfgWrite_taken s n v hk hk' huse, cqWritten, if_pos ⟨h1, h2⟩]
    have hact := get_cqActive (cqStarted (cqStored s n v) n) n
      (decide ((Fld.CQ_CFG_EN n).get v = 1) || (cqStarted (cqStored s n v) n).cqUnwritten n)
    exact ⟨(hact _ (hoff ht)).trans htail, (hact _ (hoff ht)).trans hphase, (hact _ (hoff hh)).trans hhead, (hact _ rfl).trans herr,
      (hact _ rfl).trans hfree, hcnt⟩

/-- What a write of CQ_CFG that is taken can change. -/
theorem frame_cqCfgWrite :
    Frame [.ring] (bits (cqCfgFields n ++ cqStartFields n ++ [Fld.CQ_STATUS_ACTIVE n])) s (cqCfgWrite s n v) := by
  rw [cqCfgWrite_taken s n v hk hk' huse, cqWritten]
  have hsub : cqCfgFields n ++ cqStartFields n ⊆ cqCfgFields n ++ cqStartFields n ++ [Fld.CQ_STATUS_ACTIVE n] :=
    List.subset_append_left ..
  refine frame_then_putB (frame_ite_right ?_ fun _ => ?_) _ _ (covers_of_fits (by simp) rfl)
  · exact frame_bits_mono (frame_cqStored s n v) (List.nil_subset _) (List.Subset.trans (List.subset_append_left ..) hsub)
  · exact frame_bits_mono (frame_cqStarted _ n) (List.Subset.refl _) (List.Subset.trans (List.subset_append_right ..) hsub)
end

/-- Every register of the rings is served by the write that the statement names. -/
theorem exec_sqCfgWrite (s : State) (n : Fin 64) (v : Word) (hrun : s.pwr.hold = .running) (h : s.served (Reg.SQ_CFG n) = true) :
    exec (.sqCfgWrite n v) s = .next (sqCfgWrite s n v) := (act_running s _ hrun).trans (by rw [if_pos h])

theorem exec_cqCfgWrite (s : State) (n : Fin 64) (v : Word) (hrun : s.pwr.hold = .running) (h : s.served (Reg.CQ_CFG n) = true) :
    exec (.cqCfgWrite n v) s = .next (cqCfgWrite s n v) := (act_running s _ hrun).trans (by rw [if_pos h])

/-- Settles O20: the cases of the two writes, each from what its write does. -/
theorem ringConfigurationWrites : Obligations.RingConfigurationWrites := by
  unfold Obligations.RingConfigurationWrites
  intro s n v hrun
  refine ⟨fun hs => ?_, fun hs => ?_⟩
  · rw [exec_sqCfgWrite s n v hrun hs]
    refine ⟨fun h => by rw [sqCfgWrite_unlisted s n v h], fun hk hk' hcq => ⟨_, rfl, ?_⟩, fun hk hk' hen hcq => ⟨_, rfl, ?_⟩⟩
    · have hcq' (h : (Fld.SQ_CFG_EN n).get v = 1) : s.flag (Fld.CQ_CFG_EN (cqAfter s n v)) = true := hcq (decide_eq_true h)
      obtain ⟨hen, hprio, hc, hl, hrise⟩ := sqCfgWrite_meets s n n.isLt v hk hk' hcq'
      exact ⟨hen, hprio, hc, hl, fun h => hrise (of_decide_eq_true h), frame_sqCfgWrite s n v hk hk' hcq'⟩
    · rw [sqCfgWrite_unbound s n v hk hk' (of_decide_eq_true hen) hcq]
      exact sqError_meets s n 5 (by decide)
  · rw [exec_cqCfgWrite s n v hrun hs]
    refine ⟨fun h => by rw [cqCfgWrite_unlisted s n v h], fun hk hk' huse => ⟨_, rfl, ?_⟩,
      fun hk hk' hwas hen huse => ⟨_, rfl, ?_⟩⟩
    · have huse' : ¬ (s.flag (Fld.CQ_CFG_EN n) = true ∧ (Fld.CQ_CFG_EN n).get v ≠ 1 ∧ cqInUse s n = true) :=
        fun ⟨h1, h2, h3⟩ => huse ⟨h1, decide_eq_false h2, (cqInUse_iff s n).1 h3⟩
      obtain ⟨hen, hvec, himm, hl, hrise⟩ := cqCfgWrite_meets s n v hk hk' huse'
      exact ⟨hen, hvec, himm, hl, fun h => hrise (of_decide_eq_true h), frame_cqCfgWrite s n v hk hk' huse'⟩
    · rw [cqCfgWrite_busy s n v hk hk' hwas (of_decide_eq_false hen) ((cqInUse_iff s n).2 huse)]
      exact cqError_meets s n 2 (by decide)

end Sys2Proof.Proofs
end

section
/-!
PROOF. Host reads and writes of BAR0, BAR2, BAR4 and the configuration space, and CFG batches (O40: R8, R23, R24, R66, R67, R77,
R148, R449, R451, R455, R456, R458, R528 to R533).
-/

namespace Sys2Proof.Proofs
open Sys2Proof Sys2Proof.Machine Sys2Proof.Safety Sys2Proof.Laws

/-! ### Reads of BAR0 (R8, R528, R529) -/

/-- A change of the latched high words alone. -/
theorem frame_latch (s : State) (x : Store (Option Word)) : Frame [.latch] (bits []) s { s with latch := x } :=
  frame_part .latch (by simp) rfl fun r hr => by cases r <;> first | exact absurd rfl hr | simp [Part.same]

theorem hostRead_unserved {s : State} {o : Nat} (h : s.served o = false) : hostRead s o = (0, s) := by simp [hostRead, h]

section
variable {s : State} {o : Nat} (h : s.served o = true) (hsrc : o ≠ Reg.MRV_IRQ_SRC) (hcap : capLow o = none)
include h hsrc hcap

/-- Reading the low word of a wide register latches its high word (R8). -/
theorem hostRead_wideLow (hw : wideLow o = true) :
    hostRead s o = (s.readWord o, { s with latch := sset none s.latch (o + 4) (some (s.readWord (o + 4))) }) := by
  simp [hostRead, h, hsrc, hcap, hw]

/-- The next read of the high word returns what was latched (R8). -/
theorem hostRead_latched {v : Word} (hw : wideLow o = false) (hl : sget none s.latch o = some v) :
    hostRead s o = (v, { s with latch := sset none s.latch o none }) := by simp [hostRead, h, hsrc, hcap, hw, hl]

theorem hostRead_plain (hw : wideLow o = false) (hl : sget none s.latch o = none) : hostRead s o = (s.readWord o, s) := by
  simp [hostRead, h, hsrc, hcap, hw, hl]

end

theorem bar0Read_one (s : State) {o : Nat} (h : o % 4 = 0) :
    bar0Read s o false = { (hostRead s o).2 with rdata := leBytes 4 (hostRead s o).1.toNat } := by simp [bar0Read, h]

theorem bar0Read_two (s : State) {o : Nat} (h : o % 8 = 0) :
    bar0Read s o true = { (hostRead (hostRead s o).2 (o + 4)).2 with
      rdata := leBytes 4 (hostRead s o).1.toNat ++ leBytes 4 (hostRead (hostRead s o).2 (o + 4)).1.toNat } := by
  simp [bar0Read, h]

theorem bar0Read_misaligned (s : State) {o : Nat} (two : Bool) (h : o % (if two then 8 else 4) ≠ 0) :
    bar0Read s o two = { s with rdata := [] } := by rw [bar0Read, if_pos h]

/-! ### Writes of BAR0 (R24, R528, R529) -/

theorem hostWrite_unserved {s : State} {o : Nat} (h : s.served o = false) (v : Word) : hostWrite s o v = (s, false) := by
  simp [hostWrite, h]

theorem bar0Write_one (s : State) {o : Nat} (v : Word) (h : o % 4 = 0) : bar0Write s o [(15, v)] = (hostWrite s o v).1 := by
  simp [bar0Write, h]

theorem bar0Write_two (s : State) {o : Nat} (v w : Word) (h : o % 8 = 0) :
    bar0Write s o [(15, v), (15, w)] = (hostWrite (hostWrite s o v).1 (o + 4) w).1 := by simp [bar0Write, h]

/-- A write with partial byte enables, or not aligned, is ignored (R528). -/
theorem bar0Write_ignored (s : State) {o : Nat} (e : BitVec 4) (v : Word) (h : e ≠ 15 ∨ o % 4 ≠ 0) :
    bar0Write s o [(e, v)] = s := by
  show (if o % 4 = 0 then (if e = 15 then (hostWrite s o v).1 else s) else s) = s
  rcases h with he | ho
  · rw [if_neg he, ite_self]
  · rw [if_neg ho]

/-- Writing the complement of a mask, as the model and the statement spell it. -/
theorem xor_ones (x : Word) : x ^^^ 0xFFFFFFFF = ~~~x := BitVec.xor_allOnes

/-- A listed word takes what its access codes allow; a W1C bit that hardware set in the same cycle stays (R23, R24). -/
theorem storeWord_listed (s : State) {o i : Nat} {v : Word} {d : RegDesc} (hr : regAt o = some (d, i)) (ha : d.accepts v = true)
    (hd : d.rw ≠ 0 ∨ d.w1c ≠ 0) (he : o ∉ enableRegs) :
    storeWord s o v = some (s.setReg o (d.stored (s.reg o) (v &&& ~~~(sget 0 s.seen.sets o &&& BitVec.ofNat 32 d.w1c)))) := by
  have hd' : (d.rw = 0 && d.w1c = 0) = false := by simpa [imp_iff_not_or] using hd
  simp only [storeWord, hr, ha, hd', he, xor_ones]
  simp

/-- Which bits of a word a host write changes, one by one (R24). -/
theorem getLsbD_stored (d : RegDesc) (old v : Word) {b : Nat} (hb : b < 32) : (d.stored old v).getLsbD b =
    (if (BitVec.ofNat 32 d.rw).getLsbD b then v.getLsbD b
     else old.getLsbD b && !(v.getLsbD b && (BitVec.ofNat 32 d.w1c).getLsbD b)) := by
  simp only [RegDesc.stored, xor_ones, BitVec.getLsbD_or, BitVec.getLsbD_and, BitVec.getLsbD_not, hb, decide_true, Bool.true_and]
  cases (BitVec.ofNat 32 d.rw).getLsbD b <;> simp

/-! ### BAR2 (R77) -/

theorem bar2Word_sqDoorbell (s : State) (n : Fin 64) : s.bar2Word (0x1000 + 8 * n) = BitVec.ofNat 32 (s.get (Fld.SQ_TAIL_TAIL n)) := by
  have hn := n.isLt
  simp only [State.bar2Word]
  rw [if_neg (by omega), if_pos (by omega)]
  congr 3; omega

theorem bar2Word_cqDoorbell (s : State) (n : Fin 64) : s.bar2Word (0x2000 + 8 * n) = BitVec.ofNat 32 (s.get (Fld.CQ_HEAD_HEAD n)) := by
  have hn := n.isLt
  simp only [State.bar2Word]
  rw [if_neg (by omega), if_neg (by omega), if_pos (by omega)]
  congr 3; omega

theorem bar2Write_sqDoorbell (s : State) (n : Fin 64) (v : Word) : bar2Write s (0x1000 + 8 * n) v = sqDoorbell s n v := by
  have hn := n.isLt
  simp only [bar2Write]
  rw [if_neg (by omega), if_pos (by omega)]
  congr; omega

theorem bar2Write_cqDoorbell (s : State) (n : Fin 64) (v : Word) : bar2Write s (0x2000 + 8 * n) v = cqDoorbell s n v := by
  have hn := n.isLt
  simp only [bar2Write]
  rw [if_neg (by omega), if_neg (by omega), if_pos (by omega)]
  congr; omega

/-! ### The configuration space (R66) -/

/-- The data of a host read alone. -/
theorem frame_rdata {ps : List Part} {p : Bits} (s : State) (l : List Byte) (h : .rdata ∈ ps) : Frame ps p s { s with rdata := l } :=
  frame_part .rdata h rfl fun r hr => by cases r <;> first | exact absurd rfl hr | simp [Part.same]

/-- Bits outside a mask are free: or-ing a word's free bits to it once more changes nothing. -/
theorem or_free_idem (m v x : Word) : v ||| (x &&& ~~~m) = v ||| ((v ||| (x &&& ~~~m)) &&& ~~~m) := by
  ext i hi
  simp only [BitVec.getElem_or, BitVec.getElem_and, BitVec.getElem_not]
  cases v[i] <;> cases x[i] <;> cases m[i] <;> rfl

/-- A read of a configuration word returns its defined bits, the others free, and draws one free value. -/
theorem configRead_free (s : State) (r : PciReg) : ∃ x : Word, configRead s r =
    ((s.configWord r).2 ||| (x &&& ~~~(s.configWord r).1), (s.free (2 ^ 32)).2) :=
  ⟨BitVec.ofNat 32 (s.free (2 ^ 32)).1, by simp only [configRead, xor_ones]⟩

/-! ### A write of MRV_SCRUB, a register with no action of its own (R24) -/

/-- The row of MRV_SCRUB in the register list. -/
theorem regAt_scrub : ∃ d, regAt Reg.MRV_SCRUB = some (d, 0) ∧ d.rw = 1 ∧ d.w1c = 0 ∧ d.legal = [] := by
  refine ⟨_, rfl, rfl, rfl, rfl⟩

/-- A write of a word that its block only stores. -/
theorem hostWrite_scrub {s : State} (v : Word) (h : s.served Reg.MRV_SCRUB = true) :
    ∃ x, (hostWrite s Reg.MRV_SCRUB v).1 = s.setReg Reg.MRV_SCRUB x ∧ x.getLsbD 0 = v.getLsbD 0 ∧
      ∀ b < 32, b ≠ 0 → x.getLsbD b = (s.reg Reg.MRV_SCRUB).getLsbD b := by
  obtain ⟨d, hr, hrw, hw, hl⟩ := regAt_scrub
  have hacc : d.accepts v = true := by simp [RegDesc.accepts, hl]
  have hst := storeWord_listed s hr hacc (.inl (by rw [hrw]; decide)) (by decide)
  have hone : ∀ b < 32, (BitVec.ofNat 32 d.rw).getLsbD b = decide (b = 0) := by rw [hrw]; decide
  refine ⟨d.stored (s.reg Reg.MRV_SCRUB) (v &&& ~~~(sget 0 s.seen.sets Reg.MRV_SCRUB &&& BitVec.ofNat 32 d.w1c)), ?_, ?_,
    fun b hb hb0 => ?_⟩
  · have hblk : Reg.MRV_SCRUB / 0x10000 = 4 := by decide
    simp only [hostWrite, h, hr, hacc, hblk]
    rw [writeMrv, if_neg (by decide), if_neg (by decide), if_neg (by decide), hst]
    rfl
  · rw [getLsbD_stored _ _ _ (by decide), hone 0 (by decide)]
    simp [hw]
  · rw [getLsbD_stored _ _ _ hb, hone b hb]
    simp [hb0, hw]

/-- MRV_SCRUB takes EN and nothing else. -/
theorem scrubEn_hostWrite {s : State} (v : Word) (h : s.served Reg.MRV_SCRUB = true) :
    (hostWrite s Reg.MRV_SCRUB v).1.flag Fld.MRV_SCRUB_EN = v.getLsbD 0 ∧
      Frame [] (bits [Fld.MRV_SCRUB_EN]) s (hostWrite s Reg.MRV_SCRUB v).1 := by
  obtain ⟨x, ht, h0, hx⟩ := hostWrite_scrub v h
  rw [ht]
  refine ⟨?_, frame_regs (fun o b n => ?_) rfl⟩
  · rw [flag_eq_getLsbD _ _ rfl, show Fld.MRV_SCRUB_EN.off = Reg.MRV_SCRUB from rfl, reg_setReg_same]
    exact h0
  · by_cases e : o = Reg.MRV_SCRUB
    · subst e
      rw [reg_setReg_same]
      by_cases hb : b < 32
      · exact hx b hb fun e => n (by subst e; exact ⟨_, List.mem_singleton.2 rfl, rfl, Nat.le_refl _, Nat.le_refl _⟩)
      · rw [BitVec.getLsbD_of_ge _ _ (by omega), BitVec.getLsbD_of_ge _ _ (by omega)]
    · rw [reg_setReg_ne _ _ _ _ e]

/-! ### BAR4: the SRAM of the marvers (R67, R148) -/

/-- The marver at offset `off` of BAR4 is in use: pinned in a plan that runs, or with a time slice on it. -/
def sramTaken (s : State) (m : Nat) : Bool := (s.pinned m && s.running) || (s.mrvAt m).slice.isSome

theorem bar4Sram_read_taken {s : State} {off : Nat} (h : sramTaken s (off / 0x200000) = true) (n : Nat) (ecc : Ecc) :
    bar4Sram s off (.read n) ecc = { s.irqF Fld.RING_IRQ_STATUS_BAR4_BLOCKED with rdata := List.replicate n 0 } := if_pos h

theorem bar4Sram_write_taken {s : State} {off : Nat} (h : sramTaken s (off / 0x200000) = true) (l : List Byte) (ecc : Ecc) :
    bar4Sram s off (.write l) ecc = s.irqF Fld.RING_IRQ_STATUS_BAR4_BLOCKED := if_pos h

theorem bar4Sram_write_free {s : State} {off : Nat} (h : sramTaken s (off / 0x200000) = false) (l : List Byte) (ecc : Ecc) :
    bar4Sram s off (.write l) ecc =
      s.setMrv (off / 0x200000) { (s.mrvAt (off / 0x200000)).write (off % 0x200000) l with dirty := true } :=
  if_neg (by rw [Bool.not_eq_true]; exact h)

theorem bar4Sram_read_free {s : State} {off : Nat} (h : sramTaken s (off / 0x200000) = false) (n : Nat) (ecc : Ecc) :
    bar4Sram s off (.read n) ecc = { sramCheck s (off / 0x200000) (off % 0x200000) n ecc with
      rdata := ((sramCheck s (off / 0x200000) (off % 0x200000) n ecc).mrvAt (off / 0x200000)).readBytes (off % 0x200000) n } :=
  if_neg (by rw [Bool.not_eq_true]; exact h)

/-- A status flag whose interrupt has come, and what the interrupt leaves: for a flag outside the pending bits. -/
theorem irqF_meets (s : State) {f : Field} (h : f.hi = f.lo) (h32 : f.lo < 32) (hp : ∀ b < 32, ¬ pba f.off b) (l : List Byte) :
    (s.irqF f).flag f = true ∧ Frame [.msix] (orBits pba (bits [f])) s (s.irqF f) ∧
      ({ s.irqF f with rdata := l } : State).flag f = true ∧
      Frame [.rdata, .msix] (orBits pba (bits [f])) s { s.irqF f with rdata := l } := by
  have hf := flag_irqF s f h h32 hp
  have hfr := frame_irqF_listed (ps := [.msix]) (fs := [f]) s (f := f) (by simp) (fits_iff.2 ⟨by omega, by omega⟩) (by simp)
  exact ⟨hf, hfr, hf, frame_trans (frame_mono hfr (by simp) fun _ _ h => h) (frame_rdata _ l (by simp))⟩

theorem mrvAt_setMrv_same (s : State) (m : Nat) (x : Mrv) : (s.setMrv m x).mrvAt m = x := getD_lput_same _ _ _ _ _

theorem mrvAt_setMrv_ne (s : State) {m k : Nat} (x : Mrv) (h : k ≠ m) : (s.setMrv m x).mrvAt k = s.mrvAt k :=
  getD_lput_ne _ _ _ _ _ h

theorem frame_mrv {ps : List Part} {p : Bits} (s : State) (x : List Mrv) (h : .mrv ∈ ps) : Frame ps p s { s with mrv := x } :=
  frame_part .mrv h rfl fun r hr => by cases r <;> first | exact absurd rfl hr | simp [Part.same]

/-- A read that finds no word in error changes nothing and returns the bytes (R148). -/
theorem sramCheck_clean {s : State} {m a n : Nat} (h : (s.mrvAt m).bad a n = []) : sramCheck s m a n .clean = s := by
  simp [sramCheck, h]

/-- Every byte of a read lies in one of the words that the read touches. -/
theorem mem_wordsOf {a n i : Nat} (h : i < n) : (a + i) / 8 ∈ wordsOf a n := by
  rw [wordsOf, if_neg (by omega), List.mem_map]
  exact ⟨(a + i) / 8 - a / 8, List.mem_range.2 (by omega), by omega⟩

/-- Bytes of good words are read as they are stored (R148). -/
theorem readBytes_good {x : Mrv} {a n : Nat} (h : x.bad a n = []) : x.readBytes a n = bytesAt x.sram a n := by
  refine List.map_congr_left fun i hi => ?_
  have hw : sget 0 x.flaws ((a + i) / 8) = 0 := by
    have := List.filter_eq_nil_iff.1 h _ (mem_wordsOf (List.mem_range.1 hi))
    simpa using this
  rw [hw, if_neg (by simp [bitOf])]

/-! ### BAR4: the window to external memory (R449, R451, R452, R456, R458) -/

/-- A window whose memory is not ready reads zeros and reports itself (R449). -/
theorem bar4Mem_read_notReady {s : State} (h : s.ready 16 = false) (x n : Nat) (ecc : Ecc) :
    bar4Mem s x (.read n) ecc = { s.irqF Fld.MEM_IRQ_STATUS_WIN_NR with rdata := List.replicate n 0 } := if_pos (by rw [h]; rfl)

theorem bar4Mem_write_notReady {s : State} (h : s.ready 16 = false) (x : Nat) (l : List Byte) (ecc : Ecc) :
    bar4Mem s x (.write l) ecc = s.irqF Fld.MEM_IRQ_STATUS_WIN_NR := if_pos (by rw [h]; rfl)

/-- The address that the window maps its offset `x` to (R452). -/
def winAddr (s : State) (x : Nat) : Nat := s.wide Reg.MEM_WINBASE_LO / 2 ^ 25 * 2 ^ 25 + x

theorem winAddr_eq (s : State) (x : Nat) : s.wide Reg.MEM_WINBASE_LO / 2 ^ 25 * 2 ^ 25 + x = winAddr s x := rfl

/-- The state in which the words of a window read of `n` bytes are looked at: newly found errors are marked (R456). -/
def readFound (s : State) (a n : Nat) (ecc : Ecc) : State :=
  match ecc with
  | .uncorrectable h => if h / 2 ≤ n / 8 then (s.memCorrected ecc).memFlaw (a / 8 + h / 2) else s.memCorrected ecc
  | _ => s.memCorrected ecc

/-- An error in the first half that a read looks at marks the word of its first byte (R456). -/
theorem readFound_first (s : State) (a n : Nat) : readFound s a n (.uncorrectable 0) = s.memFlaw (a / 8) := by
  simp [readFound, State.memCorrected]

/-- What a read of the window gives then: all ones where a word is in error, else what memory holds (R451, R458). -/
def readDone (u : State) (a n : Nat) : State :=
  if u.memIn a n && u.memFlawed a n then u.memPoisoned a n
  else
    let (l, v) := memRead u a n
    { v with rdata := l }

theorem readDone_flawed {u : State} {a n : Nat} (hin : u.memIn a n = true) (hf : u.memFlawed a n = true) :
    readDone u a n = u.memPoisoned a n := if_pos (by rw [hin, hf]; rfl)

theorem readDone_good {u : State} {a n : Nat} (hin : u.memIn a n = true) (hf : u.memFlawed a n = false) :
    readDone u a n = { u with rdata := bytesAt u.mem.ram a n } := by
  rw [readDone, if_neg (by rw [hf, Bool.and_false]; decide), memRead, if_pos hin]

theorem readDone_outside {u : State} {a n : Nat} (hin : u.memIn a n = false) :
    readDone u a n = { u.memRefuse a with rdata := List.replicate n 0 } := by
  rw [readDone, if_neg (by rw [hin, Bool.false_and]; decide), memRead, if_neg (by rw [hin]; decide)]

theorem bar4Mem_read {s u : State} (h : s.ready 16 = true) {x n : Nat} {ecc : Ecc} (hu : readFound s (winAddr s x) n ecc = u) :
    bar4Mem s x (.read n) ecc = readDone u (winAddr s x) n := by
  subst hu
  -- The read of memory is made opaque: the two sides are compared without looking into it.
  obtain ⟨rd, hrd⟩ : ∃ rd, rd = memRead := ⟨_, rfl⟩
  rw [bar4Mem, if_neg (by rw [h]; simp), winAddr_eq, readDone, ← hrd]
  cases ecc <;> rfl

theorem bar4Mem_write_clean {s : State} (h : s.ready 16 = true) (x : Nat) (l : List Byte) :
    bar4Mem s x (.write l) .clean = memWrite s (winAddr s x) l := by
  rw [bar4Mem, if_neg (by rw [h]; simp)]
  rfl

/-- Corrected errors are counted and reported, and change no memory (R455). -/
theorem frame_memCorrected (s : State) (found : Ecc) : Frame [.msix]
    (orBits pba (bits [Fld.MEM_CNT_LINK_CORR, Fld.MEM_CNT_CORR, Fld.MEM_IRQ_STATUS_CORR])) s (s.memCorrected found) := by
  have hinc : ∀ f ∈ [Fld.MEM_CNT_LINK_CORR, Fld.MEM_CNT_CORR, Fld.MEM_IRQ_STATUS_CORR], fits f = true →
      Frame [.msix] (orBits pba (bits [Fld.MEM_CNT_LINK_CORR, Fld.MEM_CNT_CORR, Fld.MEM_IRQ_STATUS_CORR])) s (s.incSat f) :=
    fun f hf k => frame_mono (frame_incSat (p := bits _) f 1 (covers_of_fits hf k)) (fun _ h => h) fun _ _ h => .inr h
  cases found with
  | link => exact hinc _ (by simp) rfl
  | corrected =>
    exact frame_ite (fun _ => frame_trans (hinc _ (by simp) rfl) (frame_irqF_listed _ (by simp) rfl (by simp)))
      fun _ => frame_refl s
  | clean => exact frame_refl s
  | uncorrectable h => exact frame_refl s

/-- Memory that is as it was, with USABLE as it was, is read as it was. -/
theorem memIn_of_frame {ps : List Part} {p : Bits} {s t : State} (h : Frame ps p s t)
    (hp : ∀ b < 32, ¬ p Fld.MEM_USABLE_USABLE_MIB.off b) (a n : Nat) : t.memIn a n = s.memIn a n := by
  have hg : t.get Fld.MEM_USABLE_USABLE_MIB = s.get Fld.MEM_USABLE_USABLE_MIB := by
    simp only [State.get, reg_of_frame h hp]
  have hu : t.usable = s.usable := congrArg (· * 2 ^ 20) hg
  rw [State.memIn, State.memIn, hu]

theorem memIn_memCorrected (s : State) (found : Ecc) (a n : Nat) : (s.memCorrected found).memIn a n = s.memIn a n := by
  refine memIn_of_frame (frame_memCorrected s found) (fun b _ h => ?_) a n
  rcases h with h | ⟨g, hg, e, -⟩
  · exact not_pba_of_outside (by decide) b ‹_› h
  · revert e; revert g; decide

theorem mem_memCorrected (s : State) (found : Ecc) : (s.memCorrected found).mem = s.mem :=
  (frame_memCorrected s found).2 .mem (by simp)

/-- A read of good words below USABLE, its corrected errors counted (R455). -/
theorem bar4Mem_read_good {s : State} (h : s.ready 16 = true) {x n : Nat} (hin : s.memIn (winAddr s x) n = true)
    (hf : s.memFlawed (winAddr s x) n = false) {ecc : Ecc} (he : ecc = .clean ∨ ecc = .link ∨ ecc = .corrected) :
    bar4Mem s x (.read n) ecc = { s.memCorrected ecc with rdata := bytesAt s.mem.ram (winAddr s x) n } := by
  have hr : readFound s (winAddr s x) n ecc = s.memCorrected ecc := by rcases he with rfl | rfl | rfl <;> rfl
  have hin' := (memIn_memCorrected s ecc (winAddr s x) n).trans hin
  have hf' : (s.memCorrected ecc).memFlawed (winAddr s x) n = false := by
    rw [State.memFlawed, mem_memCorrected]; exact hf
  rw [bar4Mem_read h hr, readDone_good hin' hf']
  exact congrArg (fun m : Mem => { s.memCorrected ecc with rdata := bytesAt m.ram (winAddr s x) n }) (mem_memCorrected s ecc)

/-- A store entry that was just set to another value than the default is in the store. -/
theorem mem_sset {α : Type} [DecidableEq α] (d v : α) (hv : v ≠ d) (k : Nat) : ∀ l : Store α, (k, v) ∈ sset d l k v
  | [] => by simp [sset, hv]
  | (j, w) :: r => by
    simp only [sset, hv, if_false]
    by_cases hj : j = k
    · simp [hj]
    · by_cases hk : k < j
      · simp [hj, hk]
      · simp [hj, hk, mem_sset d v hv k r]

/-- The word that holds address `a`, once it is in error, spoils every read from `a` on (R456). -/
theorem memFlawed_memFlaw {s : State} (h : s.flag Fld.MEM_STATUS_IECC_ON = true) (a : Nat) {n : Nat} (hn : 0 < n) :
    (s.memFlaw (a / 8)).memFlawed a n = true := by
  rw [State.memFlaw, if_pos h]
  refine List.any_eq_true.2 ⟨(a / 8, 1), mem_sset _ _ (by decide) _ _, ?_⟩
  simp only [touches, Bool.and_eq_true, decide_eq_true_eq]
  omega

theorem memIn_memFlaw (s : State) (w a n : Nat) : (s.memFlaw w).memIn a n = s.memIn a n := by
  unfold State.memFlaw
  split <;> rfl

/-! ### CFG (R531 to R533) -/

/-- A batch joins the waiting ones. -/
theorem frame_batches {ps : List Part} {p : Bits} (s : State) (x : List Batch) (h : .batches ∈ ps) :
    Frame ps p s { s with batches := x } :=
  frame_part .batches h rfl fun r hr => by cases r <;> first | exact absurd rfl hr | simp [Part.same]

section
variable {s : State} {d : Desc} {l : List Byte}

/-- A list with a bad entry is refused at the first (R532). -/
theorem cfgListed_bad {i : Nat} (h : (cfgEntries (d.pay 38 2) l).findIdx? cfgEntryBad = some i) :
    cfgListed s d l = s.complete d stBadDescriptor i 0 := by simp only [cfgListed, h]

/-- A list whose tick has passed is late (R533). -/
theorem cfgListed_late (h : (cfgEntries (d.pay 38 2) l).findIdx? cfgEntryBad = none)
    (ht : d.pay 32 6 ≠ 0 ∧ d.pay 32 6 ≤ s.tickno) : cfgListed s d l = s.complete d stOverrun 0 0 := by
  simp only [cfgListed, h]
  exact if_pos ht

/-- The state in which a list of good entries waits as a batch, in the place of its order of dispatch (R533). -/
def cfgJoined (s : State) (d : Desc) (l : List Byte) : State :=
  { s.begin d with
    batches := insertBy (fun b => s.orderOf b.sq b.seq) ⟨d.sq, d.seq, d.pay 32 6, cfgEntries (d.pay 38 2) l⟩ s.batches }

theorem cfgListed_joins (h : (cfgEntries (d.pay 38 2) l).findIdx? cfgEntryBad = none)
    (ht : ¬ (d.pay 32 6 ≠ 0 ∧ d.pay 32 6 ≤ s.tickno)) : cfgListed s d l = batchesIdle (cfgJoined s d l) := by
  simp only [cfgListed, h]
  exact if_neg ht

theorem frame_cfgJoined (s : State) (d : Desc) (l : List Byte) : Frame [.batches, .flight] (bits []) s (cfgJoined s d l) :=
  frame_trans (frame_setDesc d { d with stage := .active } (by simp)) (frame_batches _ _ (by simp))

end

section
variable {s : State} {sq : Fin 64} {seq : BitVec 16} {d : Desc} (hrun : s.pwr.hold = .running)
  (htake : s.takeDispatched sq seq.toNat 0x09 = some d)
include hrun htake

theorem exec_cfg_full (hfit : s.batchFits (d.pay 38 2) = false) (r : HostRead) : exec (.cfg sq seq r) s = .next s := by
  show execCfg sq seq r s = _
  rw [execCfg, act_running _ _ hrun]
  simp only [htake, hfit, Bool.not_false, if_true]

theorem exec_cfg_host (hfit : s.batchFits (d.pay 38 2) = true) (hsp : d.pay 48 1 = 0) (hdma : s.canDma = true)
    (hep : d.episode = false) (l : List Byte) : exec (.cfg sq seq (.bytes l)) s = .next (cfgListed s d l) := by
  show execCfg sq seq (.bytes l) s = _
  rw [execCfg, act_running _ _ hrun]
  simp only [htake, hfit, hsp, State.withHost, hdma, State.episodeDone, hep, Bool.not_true, Bool.false_eq_true, if_false, if_true]

theorem exec_cfg_memory (hfit : s.batchFits (d.pay 38 2) = true) (hsp : d.pay 48 1 ≠ 0)
    (hans : s.memAnswers (d.pay 40 8) (8 * d.pay 38 2) = true) (hin : s.memIn (d.pay 40 8) (8 * d.pay 38 2) = true) (r : HostRead) :
    exec (.cfg sq seq r) s = .next (cfgListed s d (bytesAt s.mem.ram (d.pay 40 8) (8 * d.pay 38 2))) := by
  show execCfg sq seq r s = _
  rw [execCfg, act_running _ _ hrun]
  simp only [htake, hfit, hsp, hans, hin, memRead, Bool.not_true, Bool.false_eq_true, if_false, if_true]

end

/-! ### The commands -/

theorem exec_read (s : State) (a : HostReg) (two : Bool) : exec (.wideLowWordRead a two) s = execWideLowWordRead a two s := rfl

theorem exec_write (s : State) (a : HostReg) (l : List (BitVec 4 × Word)) : exec (.registerWrite a l) s = execRegisterWrite a l s := rfl

section
variable {s : State} (hrun : s.pwr.hold = .running)
include hrun

theorem exec_read_bar0 (off : BitVec 24) (two : Bool) :
    exec (.wideLowWordRead (.bar0 off) two) s = .next (bar0Read s off.toNat two) := (exec_read s _ two).trans (act_running s _ hrun)

theorem exec_read_bar2_one (off : BitVec 16) : exec (.wideLowWordRead (.bar2 off) false) s =
    .next { s with rdata := leBytes 4 (s.bar2Word off.toNat).toNat } := (exec_read s _ _).trans (act_running s _ hrun)

theorem exec_read_bar2_two (off : BitVec 16) : exec (.wideLowWordRead (.bar2 off) true) s =
    .next { s with rdata := leBytes 4 (s.bar2Word off.toNat).toNat ++ leBytes 4 (s.bar2Word (off.toNat + 4)).toNat } :=
  (exec_read s _ _).trans (act_running s _ hrun)

theorem exec_read_config (r : PciReg) (two : Bool) : exec (.wideLowWordRead (.config r) two) s =
    .next { (configRead s r).2 with rdata := leBytes 4 (configRead s r).1.toNat } := (exec_read s _ two).trans (act_running s _ hrun)

theorem exec_write_bar0 (off : BitVec 24) (l : List (BitVec 4 × Word)) :
    exec (.registerWrite (.bar0 off) l) s = .next (batchesIdle (bar0Write s off.toNat l)) :=
  (exec_write s _ l).trans (act_running s _ hrun)

theorem exec_write_bar2 (off : BitVec 16) (e : BitVec 4 × Word) (l : List (BitVec 4 × Word)) :
    exec (.registerWrite (.bar2 off) (e :: l)) s = .next (bar2Write s off.toNat e.2) :=
  (exec_write s _ _).trans (act_running s _ hrun)

theorem exec_write_config (r : PciReg) (e : BitVec 4 × Word) (l : List (BitVec 4 × Word)) :
    exec (.registerWrite (.config r) (e :: l)) s = .next (configWrite s r e.2) :=
  (exec_write s _ _).trans (act_running s _ hrun)

end

section
variable {s : State} (hrun : s.pwr.hold = .running) (hup : 3 ≤ s.pstate)
include hrun hup

theorem exec_bar4_sram {off : BitVec 26} (h : off.toNat < 0x2000000) (op : Bar4Op) (ecc : Ecc) :
    exec (.bar4Access off op ecc) s = .next (bar4Sram s off.toNat op ecc) := by
  show execBar4Access off op ecc s = _
  rw [execBar4Access, act_running _ _ hrun, if_neg (by omega), if_pos h]

theorem exec_bar4_mem {off : BitVec 26} (h : 0x2000000 ≤ off.toNat) (op : Bar4Op) (ecc : Ecc) :
    exec (.bar4Access off op ecc) s = .next (bar4Mem s (off.toNat - 0x2000000) op ecc) := by
  show execBar4Access off op ecc s = _
  rw [execBar4Access, act_running _ _ hrun, if_neg (by omega), if_neg (by omega)]

end

/-- Settles O40, space by space: BAR0, BAR2, the configuration space and MRV_SCRUB, BAR4, then the list of a CFG descriptor. -/
theorem hostAccess : Obligations.HostAccess := by
  intro s hrun
  refine ⟨fun off => ?_, fun d old v b hb => getLsbD_stored d old v hb,
    fun off e l => ⟨exec_read_bar2_one hrun off, exec_read_bar2_two hrun off, exec_write_bar2 hrun off e l⟩,
    fun n => ⟨bar2Word_sqDoorbell s n, bar2Word_cqDoorbell s n, fun v => ⟨bar2Write_sqDoorbell s n v, bar2Write_cqDoorbell s n v⟩⟩,
    fun r two => ?_, fun r e l => exec_write_config hrun r e l, fun v h => scrubEn_hostWrite v h, fun off hup => ?_,
    fun sq seq d htake => ?_⟩
  · intro o lo hi
    refine ⟨fun h => ?_, fun h => ?_, fun two h => ?_, fun h => hostRead_unserved h,
      fun h hsrc hcap => ⟨fun hw => ?_, fun v hw hl => ?_, fun hw hl => hostRead_plain h hsrc hcap hw hl⟩,
      fun v h => ?_, fun v w h => ?_, fun e v h => ?_, fun v h => hostWrite_unserved h v, fun v d i hr ha hd he => ?_⟩
    · rw [exec_read_bar0 hrun, bar0Read_one s h]
    · rw [exec_read_bar0 hrun, bar0Read_two s h]
    · rw [exec_read_bar0 hrun, bar0Read_misaligned s two h]
    · simp only [lo, hostRead_wideLow h hsrc hcap hw]
      exact ⟨trivial, sget_sset_same _ _ _ _, frame_latch s _⟩
    · simp only [lo, hostRead_latched h hsrc hcap hw hl]
      exact ⟨trivial, sget_sset_same _ _ _ _, frame_latch s _⟩
    · rw [exec_write_bar0 hrun, bar0Write_one s v h]
    · rw [exec_write_bar0 hrun, bar0Write_two s v w h]
    · rw [exec_write_bar0 hrun, bar0Write_ignored s e v h]
    · exact ⟨_, storeWord_listed s hr ha hd he, reg_setReg_same _ _ _,
        frame_setReg o _ fun b => (List.mem_singleton.2 rfl : o ∈ [o])⟩
  · obtain ⟨x, hx⟩ := configRead_free s r
    refine ⟨_, exec_read_config hrun r two, ⟨_, rfl, ?_⟩, ?_⟩
    · rw [hx]; exact or_free_idem _ _ _
    · rw [hx]; exact frame_trans (frame_free (2 ^ 32) (by simp)) (frame_rdata _ _ (by simp))
  · intro m a taken
    refine ⟨fun hlow htaken n l ecc => ?_, fun hlow htaken n l ecc => ?_, fun hhigh => ⟨fun hr n l ecc => ?_, fun hr n l => ?_⟩⟩
    · simp only [exec_bar4_sram hrun hup hlow, bar4Sram_read_taken htaken, bar4Sram_write_taken htaken]
      obtain ⟨h1, h2, h3, h4⟩ := irqF_meets s (f := Fld.RING_IRQ_STATUS_BAR4_BLOCKED) rfl (by decide) (not_pba_of_outside (by decide))
        (List.replicate n 0)
      exact ⟨⟨_, rfl, rfl, h3, h4⟩, _, rfl, h1, h2⟩
    · simp only [exec_bar4_sram hrun hup hlow, bar4Sram_read_free htaken, bar4Sram_write_free htaken]
      refine ⟨⟨_, rfl, mrvAt_setMrv_same _ _ _, ?_, fun k _ hk => mrvAt_setMrv_ne _ _ hk, frame_mrv s _ (by simp)⟩, rfl,
        fun hbad => ?_⟩
      · rw [mrvAt_setMrv_same]; rfl
      · rw [sramCheck_clean hbad, readBytes_good hbad]
    · simp only [exec_bar4_mem hrun hup hhigh, bar4Mem_read_notReady hr, bar4Mem_write_notReady hr]
      obtain ⟨h1, h2, h3, h4⟩ := irqF_meets s (f := Fld.MEM_IRQ_STATUS_WIN_NR) rfl (by decide) (not_pba_of_outside (by decide))
        (List.replicate n 0)
      exact ⟨⟨_, rfl, rfl, h3, h4⟩, _, rfl, h1, h2⟩
    · simp only [exec_bar4_mem hrun hup hhigh]
      refine ⟨congrArg _ (bar4Mem_write_clean hr _ l), fun hin hf ecc he => congrArg _ (bar4Mem_read_good hr hin hf he),
        fun hin hf => congrArg _ ((bar4Mem_read hr rfl).trans (readDone_flawed hin hf)), fun hin hn hon => congrArg _ ?_, fun hin => ?_⟩
      · exact (bar4Mem_read hr (readFound_first s _ n)).trans
          (readDone_flawed ((memIn_memFlaw s _ _ n).trans hin) (memFlawed_memFlaw hon _ hn))
      · refine ⟨_, congrArg _ ((bar4Mem_read hr rfl).trans (readDone_outside hin)), rfl, ?_⟩
        exact flag_irqF _ Fld.MEM_IRQ_STATUS_RANGE rfl (by decide) (not_pba_of_outside (by decide))
  · exact ⟨fun h r => exec_cfg_full hrun htake h r, fun h hsp hdma hep l => exec_cfg_host hrun htake h hsp hdma hep l,
      fun h hsp hans hin r => exec_cfg_memory hrun htake h hsp hans hin r, fun l => ⟨fun i h => cfgListed_bad h,
      fun h ht => cfgListed_late h ht, fun h ht => ⟨_, cfgListed_joins h ht, rfl, rfl, frame_cfgJoined s d l⟩⟩⟩

end Sys2Proof.Proofs
end

section
/-!
PROOF. What the blocks do when the gaffer stops leaves TICKNO and GAF_EDGE and enables no PWM module (for O35: R43, R63, R172, R263).
-/

namespace Sys2Proof.Proofs
open Sys2Proof Sys2Proof.Machine Sys2Proof.Safety Sys2Proof.Laws

/-- Every part of the state. -/
def allParts : List Part :=
  [.act, .latch, .cyc, .dtime, .dtimeOn, .freeCtr, .hostMem, .gaf, .msix, .recs, .flight, .ring, .pci, .batches, .evtCount, .tel,
    .pwr, .pwm, .vlv, .sns, .mods, .scan, .mem, .mrv, .slots, .jobs, .runs, .sig, .ctl, .stops, .obs, .tmr, .tmrStage, .tmrDue,
    .aud, .mix, .vis, .usb, .twb, .vxl, .fus, .rdata, .pending]

theorem mem_allParts (q : Part) : q ∈ allParts := by cases q <;> decide

/-- The words of TICKNO and GAF_EDGE. -/
def tickWords : List Nat := [Reg.GAF_TICKNO_LO, Reg.GAF_TICKNO_HI, Reg.GAF_EDGE_LO, Reg.GAF_EDGE_HI]

/-- The register bits other than TICKNO and GAF_EDGE. -/
def timeless : Bits := fun o _ => o ∉ tickWords

/-- The register bits other than those, and other than EN of the modules of the axes. -/
def quiet : Bits := fun o b => o ∉ tickWords ∧ ∀ n < 6, ¬ (o = Reg.PWM_STATUS n ∧ b = 0)

/-- A field without any of the bits that `quiet` excludes. -/
def quietField (f : Field) : Bool :=
  fits f && decide (f.off ∉ tickWords) && (List.range 6).all fun n => decide (f.off ≠ Reg.PWM_STATUS n) || decide (0 < f.lo)

theorem quietField_iff {f : Field} : quietField f = true ↔
    fits f = true ∧ f.off ∉ tickWords ∧ ∀ n < 6, f.off ≠ Reg.PWM_STATUS n ∨ 0 < f.lo := by
  simp [quietField, and_assoc]

theorem quiet_of_le {f : Field} (h : quietField f = true) {b : Nat} (hb : f.lo ≤ b) : quiet f.off b := by
  obtain ⟨-, ht, hn⟩ := quietField_iff.1 h
  exact ⟨ht, fun n hn' ⟨e, e0⟩ => (hn n hn').elim (fun k => k e) fun k => by omega⟩

theorem covers_quiet {f : Field} (h : quietField f = true) : Covers quiet f :=
  ⟨(fits_iff.1 (quietField_iff.1 h).1).1, (fits_iff.1 (quietField_iff.1 h).1).2, fun _ hb _ => quiet_of_le h hb⟩

/-- A word elsewhere than in the words of the gaffer, and not at the place of a PWM_STATUS. -/
theorem quiet_elsewhere {o : Nat} (h : o < 0x10018 ∨ 0x10030 ≤ o) (k : o < 0x81010 ∨ 0x81600 ≤ o ∨ o % 8 ≠ 0) (b : Nat) :
    quiet o b := by
  refine ⟨?_, fun n hn => ?_⟩
  · simp only [tickWords, Reg.GAF_TICKNO_LO, Reg.GAF_TICKNO_HI, Reg.GAF_EDGE_LO, Reg.GAF_EDGE_HI, List.mem_cons, List.not_mem_nil,
      or_false]
    omega
  · simp only [Reg.PWM_STATUS]
    omega

theorem quiet_of_pba {o b : Nat} (h : pba o b) : quiet o b := by
  simp only [pba, Safety.range] at h
  exact quiet_elsewhere (by omega) (by omega) b

theorem quiet_of_fence {o b : Nat} (h : fenceReach o b) : quiet o b := by
  rcases h with h | h
  · exact quiet_of_pba h
  · simp only [fences, Safety.range] at h
    exact quiet_elsewhere (by omega) (by omega) b

theorem quiet_of_tell {o b : Nat} (h : tellBits o b) : quiet o b := by
  rcases h with h | ⟨f, hf, rfl, hb, -⟩
  · exact quiet_of_pba h
  · have hq : ∀ f ∈ [Fld.LOG_LOSS_QLOST, Fld.LOG_IRQ_STATUS_QLOST], quietField f = true := by decide
    exact quiet_of_le (hq f hf) hb

/-- From `s` to `t` TICKNO and GAF_EDGE stay, and so does EN of every module of an axis. -/
abbrev Quiet (s t : State) : Prop := Frame allParts quiet s t

section
variable {s t : State}

/-- A change of no register. -/
theorem quiet_of_regs (h : t.regs = s.regs) : Quiet s t :=
  ⟨fun o b _ => by simp only [State.reg, h], fun q n => absurd (mem_allParts q) n⟩

theorem quiet_put {f : Field} (v : Nat) (h : quietField f = true) : Quiet s (s.put f v) := frame_put f v (covers_quiet h)

theorem quiet_putB {f : Field} (v : Bool) (h : quietField f = true) : Quiet s (s.putB f v) := frame_putB f v (covers_quiet h)

theorem quiet_putBit {f : Field} (i : Nat) (v : Bool) (h : quietField f = true) : Quiet s (s.putBit f i v) :=
  frame_putBit f i v (covers_quiet h)

theorem quiet_incSat {f : Field} (n : Nat) (h : quietField f = true) : Quiet s (s.incSat f n) := frame_incSat f n (covers_quiet h)

theorem quiet_irqBit {f : Field} (i : Nat) (h : quietField f = true) : Quiet s (s.irqBit f i) :=
  frame_irqBit f i (quiet_of_le h (Nat.le_add_right _ _)) (fun _ _ => quiet_of_pba) (mem_allParts _)

theorem quiet_irqF {f : Field} (h : quietField f = true) : Quiet s (s.irqF f) :=
  frame_irqF f (quiet_of_le h (Nat.le_refl _)) (fun _ _ => quiet_of_pba) (mem_allParts _)

theorem quiet_setReg {o : Nat} (v : Word) (h : ∀ b, quiet o b) : Quiet s (s.setReg o v) := frame_setReg o v h

theorem quiet_tell (typ src sub : Nat) (l : List Byte) (fl : Nat) : Quiet s (s.tell typ src sub l fl) :=
  frame_tell typ src sub fl l (fun _ _ => quiet_of_tell) (mem_allParts _) (mem_allParts _)

theorem quiet_complete (d : Desc) (st de re : Nat) : Quiet s (s.complete d st de re) :=
  frame_complete d st de re (fun _ _ => quiet_of_fence) (mem_allParts _) (mem_allParts _) (mem_allParts _)

theorem quiet_setAct (s : State) (o : Nat) (v : Word) : Quiet s (s.setAct o v) := quiet_of_regs rfl

theorem quiet_setPwm (s : State) (m : Nat) (x : Pwm) : Quiet s (s.setPwm m x) := quiet_of_regs rfl

theorem quiet_setCtl (s : State) (n : Nat) (x : Slot) : Quiet s (s.setCtl n x) := quiet_of_regs rfl

theorem quiet_setMrv (s : State) (m : Nat) (x : Mrv) : Quiet s (s.setMrv m x) := quiet_of_regs rfl

end

/-! ### Counter zeros (R265 to R267, R269, R274 to R276, R284) -/

theorem quiet_sarTrigger (s : State) {n : Nat} (h : n < 6) : Quiet s (sarTrigger s n) := by
  have hf : ∀ n < 6, quietField (Fld.SNS_CNT_TRIG_EXTRA n) = true := by decide
  exact frame_ite (fun _ => quiet_incSat 1 (hf n h)) fun _ => quiet_of_regs rfl

theorem quiet_scTrigger (s : State) (n : Nat) : Quiet s (scTrigger s n) :=
  frame_ite (fun _ => frame_refl s) fun _ => quiet_of_regs rfl

theorem quiet_adcTriggers (s : State) (m v : Nat) : Quiet s (adcTriggers s m v) :=
  frame_range fun n hn s =>
    frame_ite_right (frame_ite_right (frame_refl s) fun _ => quiet_sarTrigger s hn) fun _ => quiet_scTrigger _ n

/-- The words of an event stamp. -/
theorem quiet_evstamp {m : Nat} (h : m < 7) (b : Nat) : quiet (Reg.PWM_EVSTAMP_LO m) b ∧ quiet (Reg.PWM_EVSTAMP_LO m + 4) b := by
  have hw : ∀ m < 7, ∀ o ∈ [Reg.PWM_EVSTAMP_LO m, Reg.PWM_EVSTAMP_LO m + 4],
      o ∉ tickWords ∧ ∀ n < 6, o ≠ Reg.PWM_STATUS n := by decide
  have hq : ∀ o ∈ [Reg.PWM_EVSTAMP_LO m, Reg.PWM_EVSTAMP_LO m + 4], quiet o b := fun o ho =>
    ⟨(hw m h o ho).1, fun n hn e => (hw m h o ho).2 n hn e.1⟩
  exact ⟨hq _ (by simp), hq _ (by simp)⟩

theorem quiet_eventFires (s : State) {m : Nat} (h : m < 7) (v : Nat) : Quiet s (eventFires s m v) :=
  frame_ite_right
    (frame_ite_right (quiet_adcTriggers s m v) fun _ =>
      frame_setWide 64 _ _ (fun b => (quiet_evstamp h b).1) fun b => (quiet_evstamp h b).2)
    fun _ => quiet_irqBit m (by decide)

theorem quiet_eventOccurs (s : State) {m : Nat} (h : m < 7) (v : Nat) : Quiet s (eventOccurs s m v) :=
  frame_ite (fun _ => frame_trans (quiet_setPwm s m _) (quiet_eventFires _ h v)) fun _ => quiet_setPwm s m _

theorem quiet_holdTurnOn (s : State) : Quiet s (holdTurnOn s) :=
  frame_range fun _ _ s => frame_ite_right (frame_refl s) fun _ => quiet_of_regs rfl

theorem quiet_pushLap (s : State) (m t : Nat) (held : Bool) (cmp : List Nat) : Quiet s (pushLap s m t held cmp) := quiet_of_regs rfl

/-- The fields that a counter zero sets, beside those of its event. -/
theorem quietField_zero : ∀ m < 7, (∀ e < 4, quietField (Fld.PWM_EVC_ACTIVE m e) = true) ∧
    ∀ f ∈ [Fld.PWM_CMP_AB_CA m, Fld.PWM_CMP_AB_CB m, Fld.PWM_CMP_C_CC m, Fld.PWM_PERIOD_ACTIVE m, Fld.PWM_STATUS_LOCKMIS m,
      Fld.PWM_CFG_TICKLOCK m, Fld.PWM_CFG_CEN m], quietField f = true := by decide

theorem quiet_counterZero (s : State) {m : Nat} (h : m < 7) (t : Nat) : Quiet s (counterZero s m t) := by
  obtain ⟨hev, hf⟩ := quietField_zero m h
  refine frame_ite (fun _ => frame_refl s) fun _ => frame_trans (frame_ite_right ?_ fun _ => quiet_holdTurnOn _)
    (quiet_eventOccurs _ h 0)
  have hload : Quiet s ((List.range 4).foldl (fun s e => s.put (Fld.PWM_EVC_ACTIVE m e) (s.get (Fld.PWM_EVC_VALUE m e)))
      (s.loadReg (Reg.PWM_DT m))) :=
    frame_trans (quiet_setAct s _ _) (frame_range fun e he s => quiet_put _ (hev e he))
  refine frame_trans hload (frame_ite (fun _ => quiet_pushLap _ m t false []) fun _ => frame_trans ?_ (quiet_pushLap _ m t false _))
  exact frame_trans (frame_trans (quiet_put _ (hf _ (by simp))) (quiet_put _ (hf _ (by simp)))) (quiet_put _ (hf _ (by simp)))

theorem quiet_loadPeriod (s : State) {m : Nat} (h : m < 7) : Quiet s (loadPeriod s m) :=
  quiet_put _ ((quietField_zero m h).2 _ (by simp))

/-- A tick edge of the PWM modules enables and disables none (R263 to R265). -/
theorem quiet_pwmTickEdge (s : State) (axes tickdiv : Nat) (first switched : Bool) :
    Quiet s (pwmTickEdge s axes tickdiv first switched) := by
  refine frame_range fun m hm s => ?_
  have hf := (quietField_zero m hm).2
  have hlock : Quiet s (if (first || switched) && planAxis axes m then
      (s.putB (Fld.PWM_CFG_TICKLOCK m) true).putB (Fld.PWM_CFG_CEN m) true else s) :=
    frame_ite_right (frame_refl s) fun _ => frame_trans (quiet_putB _ (hf _ (by simp))) (quiet_putB _ (hf _ (by simp)))
  refine frame_trans hlock (frame_ite (fun _ => frame_refl _) fun _ => frame_trans ?_ (quiet_counterZero _ hm _))
  refine frame_trans (frame_ite_right ?_ fun _ => quiet_irqBit m (by decide)) (quiet_putB _ (hf _ (by simp)))
  exact frame_ite_right (frame_ite_right (frame_refl _) fun _ => quiet_setPwm _ m _) fun _ => quiet_loadPeriod _ hm

/-! ### The slots stop (R43, R252) -/

theorem quiet_finishDesc (s : State) (owner : Option (Nat × Nat)) (st de re : Nat) : Quiet s (finishDesc s owner st de re) := by
  unfold finishDesc
  split
  · exact frame_refl s
  · split
    · exact quiet_complete _ _ _ _
    · exact frame_refl s

theorem quiet_setStops (s : State) (l : List StopReq) : Quiet s { s with stops := l } := quiet_of_regs rfl

theorem quiet_stopBeganOne (s : State) (r : StopReq) (n : Nat) (collision : Bool) : Quiet s (stopBeganOne s r n collision) := by
  refine frame_ite (fun _ => quiet_setStops s _) fun _ => frame_trans (quiet_setStops s (s.stops.filter (· ≠ r))) ?_
  dsimp only
  split
  · exact quiet_complete _ _ _ _
  · exact frame_refl _

theorem quiet_stopBegan (s : State) (n : Nat) (collision : Bool) : Quiet s (stopBegan s n collision) :=
  frame_foldl_mem fun r _ s => quiet_stopBeganOne s r n collision

/-- The fields of a slot that stops. -/
theorem quietField_slot : ∀ n < 6, ∀ f ∈ [Fld.CTL_STATE_STATE n, Fld.CTL_STATE_UNDERRUN n, Fld.CTL_STATE_QDEPTH n,
    Fld.CTL_STATE_CAUSE n, Fld.CTL_CNT_STOPS n], quietField f = true := by decide

theorem quiet_slotIdle (s : State) {n : Nat} (h : n < 6) : Quiet s (slotIdle s n) := by
  have hf := quietField_slot n h
  refine frame_trans (frame_trans (frame_trans ?_ (quiet_put _ (hf _ (by simp)))) (quiet_putB _ (hf _ (by simp))))
    (quiet_put _ (hf _ (by simp)))
  exact frame_trans (quiet_setPwm s n _) (quiet_setCtl _ n _)

theorem quiet_stopSlot (s : State) {n : Nat} (h : n < 6) (cause : Option Nat) (record : Bool) : Quiet s (stopSlot s n cause record) := by
  have hf := quietField_slot n h
  have hcause (t : State) : Quiet t (match cause with | some c => t.put (Fld.CTL_STATE_CAUSE n) c | none => t) := by
    cases cause with
    | some c => exact quiet_put _ (hf _ (by simp))
    | none => exact frame_refl t
  have hstart (t : State) : Quiet t (match (s.slotOf n).start with
      | some c => finishDesc t (some (c.sq, c.seq)) stBadSequence 0x05 0 | none => t) := by
    split
    · exact quiet_finishDesc _ _ _ _ _
    · exact frame_refl t
  refine frame_trans (frame_trans (frame_trans (frame_ite_right ?_ fun _ => quiet_tell _ _ _ _ _)
    (frame_foldl_mem fun p _ t => quiet_finishDesc t _ _ _ _)) (hstart _)) (quiet_stopBegan _ n _)
  exact frame_trans (frame_trans (frame_trans (quiet_slotIdle s h) (hcause _)) (quiet_incSat 1 (hf _ (by simp))))
    (quiet_irqBit n (by decide))

/-- Every slot stops with the gaffer (R43, R232). -/
theorem quiet_slotsStop (s : State) : Quiet s (slotsStop s) := by
  refine frame_range fun n hn s => ?_
  have hstop (t : State) : Quiet t (if t.slotState n = 0 then
      match (t.slotOf n).start with
      | some c => finishDesc (slotIdle t n) (some (c.sq, c.seq)) stBadSequence 0x05 0
      | none => t
    else enterStopped t n 7) := by
    refine frame_ite (fun _ => ?_) fun _ => quiet_stopSlot t hn _ _
    split
    · exact frame_trans (quiet_slotIdle t hn) (quiet_finishDesc _ _ _ _ _)
    · exact frame_refl t
  exact frame_trans (quiet_setCtl s n _) (hstop _)

/-! ### Slices and jobs at the edge (R172, R174) -/

theorem quiet_clearJob (s : State) {m : Nat} (h : m < 16) : Quiet s (s.clearJob m) := by
  have hf : ∀ m < 16, quietField (Fld.MRV_JOB_JOB_VALID m) = true := by decide
  exact frame_trans (quiet_setMrv s m _) (quiet_putB _ (hf m h))

theorem quiet_endSlice (s : State) {m : Nat} (h : m < 16) : Quiet s (endSlice s m) :=
  frame_trans (quiet_clearJob s h) (quiet_setMrv _ m _)

theorem quiet_unselect (s : State) (j : Job) : Quiet s (unselect s j) :=
  frame_range fun _ hm s => frame_ite_right (frame_refl s) fun _ => quiet_clearJob s hm

theorem quiet_setJobs (s : State) (l : List Job) (x : List Mrv) : Quiet s { s with jobs := l, mrv := x } := quiet_of_regs rfl

/-- JOBS of any slot lies apart from the words of PWM_STATUS. -/
theorem quietField_jobs (n : Nat) : quietField (Fld.MRV_SLOT_FLAGS_JOBS n) = true := by
  refine quietField_iff.2 ⟨rfl, (quiet_elsewhere ?_ ?_ 0).1, fun k hk => .inl ?_⟩ <;>
    simp only [Fld.MRV_SLOT_FLAGS_JOBS, Reg.MRV_SLOT_FLAGS, Reg.PWM_STATUS] <;> omega

theorem quiet_dropJob (s : State) (j : Job) : Quiet s (dropJob s j) :=
  frame_trans (frame_trans (quiet_unselect s j) (quiet_setJobs _ _ _)) (quiet_put _ (quietField_jobs j.slot))

theorem quiet_endJob (s : State) (j : Job) (st de : Nat) : Quiet s (endJob s j st de) := by
  have hdrop := quiet_dropJob s j
  unfold endJob
  generalize dropJob s j = t at hdrop
  dsimp only
  split
  · exact frame_trans hdrop (quiet_complete _ _ _ _)
  · exact hdrop

/-- The fields that an access of external memory reports itself in. -/
theorem quietField_mem : ∀ f ∈ [Fld.MEM_ERRADDR_LO_ADDR, Fld.MEM_ERRADDR_HI_ADDR, Fld.MEM_ERRSRC_SRC, Fld.MEM_ERRSRC_VALID,
    Fld.MEM_IRQ_STATUS_RANGE, Fld.MEM_IRQ_STATUS_UNCORR, Fld.MEM_CNT2_UNCORR], quietField f = true := by decide

theorem quiet_memErr (s : State) (a n : Nat) : Quiet s (s.memErr a n) := by
  have hf := quietField_mem
  exact frame_trans (frame_trans (frame_trans (quiet_put _ (hf _ (by simp))) (quiet_put _ (hf _ (by simp)))) (quiet_put _ (hf _ (by simp))))
    (frame_setBit _ _ (covers_quiet (hf _ (by simp))))

theorem quiet_memRefuse (s : State) (a : Nat) : Quiet s (s.memRefuse a) :=
  frame_trans (quiet_memErr s a 4) (quiet_irqF (by decide))

theorem quiet_setMem (s : State) (x : Mem) : Quiet s { s with mem := x } := quiet_of_regs rfl

theorem quiet_memWrite (s : State) (a : Nat) (l : List Byte) : Quiet s (memWrite s a l) := by
  refine frame_ite (fun _ => frame_refl s) fun _ => frame_ite (fun _ => ?_) fun _ => quiet_memRefuse s a
  refine frame_trans (quiet_setMem s _) (frame_foldl_mem fun e _ t => ?_)
  exact frame_trans (frame_trans (quiet_incSat 1 (by decide)) (quiet_memErr _ _ _)) (quiet_irqF (by decide))


theorem quiet_freeBytes (s : State) (k : Nat) : Quiet s (s.freeBytes k).2 := quiet_of_regs rfl

theorem quiet_setHostMem (s : State) (x : Store Byte) : Quiet s { s with hostMem := x } := quiet_of_regs rfl

theorem quiet_freeOutput (s : State) (j : Job) : Quiet s (freeOutput s j) := by
  unfold freeOutput
  split
  · exact frame_refl s
  · exact frame_range fun b _ s => frame_trans (quiet_freeBytes s _) (frame_ite
      (fun _ => frame_ite_right (frame_refl _) fun _ => quiet_setHostMem _ _)
      fun _ => frame_ite_right (frame_refl _) fun _ => quiet_memWrite _ _ _)

theorem quiet_jobStops (s : State) : Quiet s (jobStops s) := by
  refine frame_foldl_mem fun j _ s => ?_
  split
  · exact frame_trans (quiet_freeOutput s j) (quiet_endJob _ j _ _)
  · exact frame_refl s

theorem quiet_setMrvs (s : State) (x : List Mrv) : Quiet s { s with mrv := x } := quiet_of_regs rfl

/-- Slices and jobs at a tick edge (R172). -/
theorem quiet_jobTickEdge (s : State) : Quiet s (jobTickEdge s) :=
  frame_trans (frame_trans (frame_range fun _ hm s => quiet_endSlice s hm) (quiet_setMrvs _ _)) (quiet_jobStops _)

/-! ### Shadows, thermal loads, DVFS, fences, modulators and MRV_PINNED (R24, R152, R156, R175, R194, R221) -/

theorem quiet_kadvUpdate (s : State) {n : Nat} (h : n < 6) : Quiet s (kadvUpdate s n) := by
  have hf : ∀ n < 6, quietField (Fld.OBS_SPDFS_KADV n) = true := by decide
  exact frame_ite (fun _ => frame_trans (quiet_put _ (hf n h)) (quiet_irqF (by decide))) fun _ => quiet_put _ (hf n h)

theorem quiet_loadShadow (s : State) (o : Nat) : Quiet s (loadShadow s o) := by
  unfold loadShadow
  split
  · exact frame_refl s
  · refine frame_ite (fun _ => frame_refl s) fun _ => frame_trans (quiet_setAct s o (s.reg o)) ?_
    dsimp only
    split
    case h_1 n hn =>
      exact frame_ite (fun _ => frame_refl _) fun _ => quiet_kadvUpdate _ (List.mem_range.1 (List.mem_of_find?_eq_some hn))
    case h_2 => exact frame_refl _

theorem quiet_loadShadows (s : State) : Quiet s (loadShadows s) := frame_foldl_mem fun o _ s => quiet_loadShadow s o

theorem quiet_setObs (s : State) (n : Nat) (x : Obs) : Quiet s (s.setObs n x) := quiet_of_regs rfl

theorem quiet_thermLoads (s : State) : Quiet s (thermLoads s) := by
  refine frame_range fun n hn s => frame_ite_right (frame_refl s) fun _ => frame_trans (quiet_setObs s n _) (quiet_setReg _ fun b => ?_)
  exact quiet_elsewhere (by simp only [Reg.OBS_THSTATE]; omega) (by simp only [Reg.OBS_THSTATE]; omega) b

theorem quiet_mrvIrq (s : State) (m : Nat) {f : Field} (h : quietField f = true) : Quiet s (s.mrvIrq m f) :=
  frame_trans (quiet_putBit m true (by decide)) (quiet_irqF h)

theorem quiet_dvfsApply (s : State) {m : Nat} (h : m < 16) (p : Nat) : Quiet s (dvfsApply s m p) := by
  have hf : ∀ m < 16, quietField (Fld.MRV_STATE_DVFS_CUR m) = true := by decide
  exact frame_trans (quiet_setMrv s m _) (frame_ite (fun _ => frame_refl _) fun _ =>
    frame_trans (quiet_put _ (hf m h)) (quiet_mrvIrq _ m (by decide)))

theorem quiet_dvfsEdge (s : State) : Quiet s (dvfsEdge s) := by
  refine frame_range fun m hm s => ?_
  split
  · exact quiet_dvfsApply s hm _
  · exact frame_refl s

theorem quiet_setRuns (s : State) (x : List Run) (l : List Job) : Quiet s { s with runs := x, jobs := l } := quiet_of_regs rfl

theorem quiet_fenceMarver (s : State) {m : Nat} (h : m < 16) (cause : Nat) : Quiet s (fenceMarver s m cause) := by
  have hf : ∀ m < 16, ∀ f ∈ [Fld.MRV_STATE_FENCED m, Fld.MRV_FENCED_FENCED, Fld.MRV_FENCE_CAUSE m, Fld.MRV_FENCE_COUNT m],
      quietField f = true := by decide
  refine frame_ite (fun _ => frame_refl s) fun _ => frame_trans (frame_trans (frame_trans (frame_trans (frame_trans ?_
    (quiet_irqF (by decide))) (quiet_tell _ _ _ _ _)) (quiet_clearJob _ h)) (quiet_setMrv _ m _)) (quiet_setRuns _ _ _)
  exact frame_trans (frame_trans (frame_trans (quiet_putB _ (hf m h _ (by simp))) (quiet_putBit m true (hf m h _ (by simp))))
    (quiet_put _ (hf m h _ (by simp)))) (quiet_incSat 1 (hf m h _ (by simp)))

theorem quiet_fenceEdge (s : State) : Quiet s (fenceEdge s) :=
  frame_range fun m hm s => frame_ite_right (frame_refl s) fun _ => frame_trans (quiet_setMrv s m _) (quiet_fenceMarver _ hm 2)

theorem quiet_setMod (s : State) (k : Nat) (x : Mod) : Quiet s (s.setMod k x) := quiet_of_regs rfl

theorem quiet_modStart (s : State) {k : Nat} (h : k < 4) (c : Nat) : Quiet s (modStart s k c) := by
  have hf : ∀ k < 4, ∀ f ∈ [Fld.MOD_STATUS_STATE k, Fld.MOD_OUT_COUNT k], quietField f = true := by decide
  exact frame_trans (frame_trans (frame_trans (quiet_setMod s k _) (quiet_put _ (hf k h _ (by simp)))) (quiet_put _ (hf k h _ (by simp))))
    (quiet_setMod _ k _)

theorem quiet_modTickEdge (s : State) (first : Bool) : Quiet s (modTickEdge s first) :=
  frame_range fun _ hk s => frame_ite_right (frame_refl s) fun _ => quiet_modStart s hk _

/-- MRV_PINNED and its copies are all that the display of the pinned marvers sets (R152). -/
theorem frame_showPinned (s : State) : Frame [] (Safety.range 0x40000 0x50000) s s.showPinned := by
  have hf : ∀ m < 16, ∀ f ∈ [Fld.MRV_STATE_PINNED m, Fld.MRV_PINNED_PINNED],
      fits f = true ∧ 0x40000 ≤ f.off ∧ f.off < 0x50000 := by decide
  exact frame_trans (frame_put _ _ (covers_range (hf 0 (by decide) _ (by simp))))
    (frame_range fun m hm s => frame_putB _ _ (covers_range (hf m hm _ (by simp))))

theorem quiet_showPinned (s : State) : Quiet s s.showPinned :=
  frame_mono (frame_showPinned s) (fun q _ => mem_allParts q) fun _ b h =>
    quiet_elsewhere (by simp only [Safety.range] at h; omega) (by simp only [Safety.range] at h; omega) b

/-! ### The gaffer stops (R43) -/

/-- The runs and what has started in a tick that ends are forgotten. -/
def clearTick (s : State) : State := { s with runs := [], gaf := { s.gaf with started := [], ended := [] } }

theorem quiet_clearTick (s : State) : Quiet s (clearTick s) := quiet_of_regs rfl

/-- What a stop of the gaffer does once the modules of the axes are off, but for RUNNING (R43, R553). -/
def stopEffects (s : State) : State :=
  modTickEdge (fenceEdge (dvfsEdge (thermLoads (loadShadows (jobTickEdge (clearTick (slotsStop s))))))) false

theorem quiet_stopEffects (s : State) : Quiet s (stopEffects s) := by
  have hjobs : Quiet s (jobTickEdge (clearTick (slotsStop s))) :=
    frame_trans (frame_trans (quiet_slotsStop s) (quiet_clearTick _)) (quiet_jobTickEdge _)
  have hloads := frame_trans (frame_trans hjobs (quiet_loadShadows _)) (quiet_thermLoads _)
  exact frame_trans (frame_trans (frame_trans hloads (quiet_dvfsEdge _)) (quiet_fenceEdge _)) (quiet_modTickEdge _ false)

theorem gafStopped_eq (s : State) :
    gafStopped s = ((stopEffects (pwmDisableAll s 3)).putB Fld.GAF_STATUS_RUNNING false).showPinned := by
  simp only [gafStopped, stopEffects, clearTick]

/-- After the modules of the axes are off, a stop leaves TICKNO and GAF_EDGE, and enables none (R43). -/
theorem quiet_gafStopped (s : State) : Quiet (pwmDisableAll s 3) (gafStopped s) := by
  rw [gafStopped_eq]
  exact frame_trans (frame_trans (quiet_stopEffects _) (quiet_putB false (by decide))) (quiet_showPinned _)

/-- RUNNING is clear once the gaffer has stopped (R43). -/
theorem running_gafStopped (s : State) : (gafStopped s).running = false := by
  have hshow (t : State) : t.showPinned.running = t.running :=
    flag_of_frame (frame_showPinned t) fun b _ _ h => by simp [Safety.range, Fld.GAF_STATUS_RUNNING, Reg.GAF_STATUS] at h
  rw [gafStopped_eq, hshow]
  exact flag_putB_self _ false rfl rfl

/-- A module of an axis is off after a disable of it (R271). -/
theorem en_pwmDisable_self (s : State) {m : Nat} (h : m < 6) (code : Nat) :
    (pwmDisable s m code).flag (Fld.PWM_STATUS_EN m) = false := by
  unfold pwmDisable
  dsimp only
  rw [if_neg (by omega)]
  split
  case isTrue => rw [flag_put_apart _ _ rfl (by simp [apart, Fld.PWM_STATUS_EN, Fld.PWM_STATUS_DISCAUSE]), flag_putB_self _ _ rfl rfl]
  case isFalse hacts =>
    simp only [Bool.or_eq_true, not_or] at hacts
    exact eq_false_of_ne_true hacts.1.2

/-- A disable of a module of an axis changes EN and DISCAUSE of that module alone (R271). -/
theorem frame_pwmDisable (s : State) {m : Nat} (h : m < 6) (code : Nat) :
    Frame [.pwm] (bits [Fld.PWM_STATUS_EN m, Fld.PWM_STATUS_DISCAUSE m]) s (pwmDisable s m code) := by
  have h6 : m ≠ 6 := by omega
  have hset (x : Pwm) : Frame [.pwm] (bits [Fld.PWM_STATUS_EN m, Fld.PWM_STATUS_DISCAUSE m]) s (s.setPwm m x) :=
    frame_part .pwm (by simp) rfl fun r hr => by cases r <;> first | exact absurd rfl hr | simp [Part.same, State.setPwm]
  exact frame_ite (fun e => absurd e h6) fun _ => frame_ite_right (hset _) fun _ =>
    frame_then_put (frame_putB _ _ (covers_of_fits (by simp) rfl)) _ _ (covers_of_fits (by simp) rfl)

/-- A module that is off stays off while others are disabled. -/
theorem en_pwmDisable (s : State) {m n : Nat} (hm : m < 6) (code : Nat) (h : m = n ∨ s.flag (Fld.PWM_STATUS_EN n) = false) :
    (pwmDisable s m code).flag (Fld.PWM_STATUS_EN n) = false := by
  by_cases e : m = n
  · subst e
    exact en_pwmDisable_self s hm code
  · rw [flag_of_frame_bits (frame_pwmDisable s hm code)]
    · exact h.resolve_left e
    · simp only [List.forall_mem_cons, List.not_mem_nil, false_imp_iff, implies_true, and_true]
      constructor <;> exact apart_of_off (by simp only [Fld.PWM_STATUS_EN, Fld.PWM_STATUS_DISCAUSE, Reg.PWM_STATUS]; omega)

/-- A module is off once a list of modules with it has been disabled. -/
theorem en_foldl_pwmDisable (code n : Nat) : ∀ (l : List Nat) (s : State), (∀ m ∈ l, m < 6) →
    n ∈ l ∨ s.flag (Fld.PWM_STATUS_EN n) = false → (l.foldl (fun s m => pwmDisable s m code) s).flag (Fld.PWM_STATUS_EN n) = false
  | [], _, _, h => h.resolve_left (by simp)
  | m :: l, s, hl, h => by
    refine en_foldl_pwmDisable code n l _ (fun k hk => hl k (by simp [hk])) ?_
    by_cases hn : n ∈ l
    · exact .inl hn
    · refine .inr (en_pwmDisable s (hl m (by simp)) code (h.imp_left fun h => ?_))
      exact ((List.mem_cons.1 h).resolve_right hn).symm

/-- Every module of an axis is off after the disable of all (R43). -/
theorem en_pwmDisableAll (s : State) (code : Nat) {n : Nat} (h : n < 6) :
    (pwmDisableAll s code).flag (Fld.PWM_STATUS_EN n) = false :=
  en_foldl_pwmDisable code n _ s (fun _ hm => List.mem_range.1 hm) (.inl (List.mem_range.2 h))

/-- The disable of all modules leaves TICKNO and GAF_EDGE. -/
theorem timeless_pwmDisableAll (s : State) (code : Nat) : Frame allParts timeless s (pwmDisableAll s code) := by
  refine frame_range fun m hm s => frame_mono (frame_pwmDisable s hm code) (fun q _ => mem_allParts q) ?_
  rintro o b ⟨f, hf, rfl, -⟩
  have hw : ∀ m < 6, ∀ f ∈ [Fld.PWM_STATUS_EN m, Fld.PWM_STATUS_DISCAUSE m], f.off ∉ tickWords := by decide
  exact hw m hm f hf

end Sys2Proof.Proofs
end

section
/-!
PROOF. The tick edge, overruns and SIGNAL actions (O35: R17, R41, R43, R46, R49, R51, R62, R63, R298, R521, R553).
-/

namespace Sys2Proof.Proofs
open Sys2Proof Sys2Proof.Machine Sys2Proof.Safety Sys2Proof.Laws

/-! ### TICKNO and GAF_EDGE (R62, R63) -/

/-- GAF_EDGE takes DTIME, and TICKNO holds (R63). -/
theorem edgeTime_meets (s : State) : (edgeTime s).wide Reg.GAF_EDGE_LO = s.dtime.toNat ∧ (edgeTime s).tickno = s.tickno :=
  ⟨wide_setWide s (by decide) s.dtime.isLt, wide_setWide_ne s 64 _ (by decide)⟩

/-- TICKNO counts modulo 2^48 and GAF_EDGE takes DTIME (R62, R63). -/
theorem nextTick_meets (s : State) : (nextTick s).tickno = (s.tickno + 1) % 2 ^ 48 ∧ (nextTick s).wide Reg.GAF_EDGE_LO = s.dtime.toNat ∧
    Frame [.gaf] (words [Reg.GAF_TICKNO_LO, Reg.GAF_TICKNO_HI, Reg.GAF_EDGE_LO, Reg.GAF_EDGE_HI]) s (nextTick s) := by
  have hedge := edgeTime_meets (s.setWide 48 Reg.GAF_TICKNO_LO ((s.tickno + 1) % 2 ^ 48))
  refine ⟨?_, hedge.1, ?_⟩
  · exact hedge.2.trans (wide_setWide s (by decide) (Nat.mod_lt _ (by positivity)))
  · have hw (o : Nat) (h : o ∈ tickWords) (b : Nat) : words tickWords o b := h
    have hset : Frame [.gaf] (words tickWords) s (edgeTime (s.setWide 48 Reg.GAF_TICKNO_LO ((s.tickno + 1) % 2 ^ 48))) :=
      frame_trans (frame_setWide 48 _ _ (hw _ (by decide)) (hw _ (by decide)))
        (frame_setWide 64 _ _ (hw _ (by decide)) (hw _ (by decide)))
    exact frame_trans hset (frame_setGaf _ _ (by simp))

/-! ### The gaffer stops at an edge (R43) -/

/-- The gaffer stopped at an edge, before the batches apply and the timers take the edge (R43). -/
def stoppedAt (s : State) : State :=
  gafStopped (pwmTickEdge (edgeTime s) s.axesInPlan (s.get Fld.GAF_TICKDIV_TICKDIV) false false)

/-- RUNNING and EN of the modules are clear, TICKNO holds and GAF_EDGE has taken DTIME once the gaffer has stopped at an edge. -/
theorem stoppedAt_meets (s : State) : (stoppedAt s).running = false ∧ (stoppedAt s).tickno = s.tickno ∧
    (stoppedAt s).wide Reg.GAF_EDGE_LO = s.dtime.toNat ∧ ∀ n < 6, (stoppedAt s).flag (Fld.PWM_STATUS_EN n) = false := by
  let u := stoppedAt s
  have hquiet : ∀ {s t : State}, Quiet s t → Frame allParts timeless s t := fun h => frame_mono h (fun _ h => h) fun _ _ h => h.1
  have htime : Frame allParts timeless (edgeTime s) u :=
    frame_trans (frame_trans (hquiet (quiet_pwmTickEdge _ _ _ _ _)) (timeless_pwmDisableAll _ 3)) (hquiet (quiet_gafStopped _))
  have hwide (o : Nat) (h : o ∈ tickWords) (h' : o + 4 ∈ tickWords) : u.wide o = (edgeTime s).wide o :=
    wide_of_frame htime (fun _ _ k => k h) fun _ _ k => k h'
  refine ⟨running_gafStopped _, (hwide _ (by decide) (by decide)).trans (edgeTime_meets s).2,
    (hwide _ (by decide) (by decide)).trans (edgeTime_meets s).1, fun n hn => ?_⟩
  have hen : u.flag (Fld.PWM_STATUS_EN n) = _ := flag_of_frame (quiet_gafStopped _) fun b h1 h2 k =>
    k.2 n hn ⟨rfl, Nat.le_zero.1 h2⟩
  rw [hen, en_pwmDisableAll _ _ hn]

/-! ### A start (R41, R56, R59) -/

/-- The words in which misses are counted. -/
theorem frame_clearMisses (s : State) : Frame [.gaf] (Safety.range 0x10040 0x10300) s (clearMisses s) := by
  have hf : ∀ k < 64, ∀ f ∈ [Fld.GAF_CTLMISS_MISS, Fld.GAF_ACT_CNT_CONSEC k],
      fits f = true ∧ 0x10040 ≤ f.off ∧ f.off < 0x10300 := by decide
  exact frame_trans (frame_trans (frame_setGaf s _ (by simp)) (frame_put _ _ (covers_range (hf 0 (by decide) _ (by simp)))))
    (frame_range fun k hk t => frame_put _ _ (covers_range (hf k hk _ (by simp))))

/-- TICKDIV of a plan is a number of two bytes. -/
theorem planTickdiv_lt (p : List Byte) : planTickdiv p < 2 ^ 16 := by
  have hlen : ((p.drop 8).take 2).length ≤ 2 := by simp
  calc planTickdiv p < 256 ^ ((p.drop 8).take 2).length := leNat_lt _
    _ ≤ 256 ^ 2 := Nat.pow_le_pow_right (by decide) hlen

/-- The first edge after a start: RUNNING sets, RUN_ERR clears, and the bank's plan is the active one (R41, R59). -/
theorem startEdge_meets (s : State) (b : Bool) :
    (startEdge s b).running = true ∧ (startEdge s b).flag Fld.GAF_STATUS_RUN_ERR = false ∧ (startEdge s b).activeBank = b ∧
      (startEdge s b).get Fld.GAF_TICKDIV_TICKDIV = planTickdiv (s.bank b) := by
  let s1 := (({ s with gaf := { s.gaf with starting := none } } : State).putB Fld.GAF_STATUS_RUNNING true).putB Fld.GAF_STATUS_RUN_ERR false
  let s2 := (s1.putB Fld.GAF_STATUS_ACTIVE_BANK b).put Fld.GAF_TICKDIV_TICKDIV (planTickdiv (s.bank b))
  have hs : startEdge s b = clearMisses s2 := by cases b <;> rfl
  have hkeep (f : Field) (h : f.off < 0x10040) : (startEdge s b).get f = s2.get f := by
    rw [hs]
    exact get_of_frame (frame_clearMisses s2) fun _ _ _ k => by simp only [Safety.range] at k; omega
  have hflag (f : Field) (h : f.off < 0x10040) : (startEdge s b).flag f = s2.flag f := by simp only [State.flag, hkeep f h]
  refine ⟨(hflag Fld.GAF_STATUS_RUNNING (by decide)).trans ?_, (hflag Fld.GAF_STATUS_RUN_ERR (by decide)).trans ?_,
    (hflag Fld.GAF_STATUS_ACTIVE_BANK (by decide)).trans ?_, (hkeep Fld.GAF_TICKDIV_TICKDIV (by decide)).trans ?_⟩
  · calc s2.flag Fld.GAF_STATUS_RUNNING = s1.flag Fld.GAF_STATUS_RUNNING :=
          (flag_put_apart _ _ rfl rfl).trans (flag_put_apart _ _ rfl rfl)
      _ = true := (flag_put_apart _ _ rfl rfl).trans (flag_putB_self _ true rfl rfl)
  · calc s2.flag Fld.GAF_STATUS_RUN_ERR = s1.flag Fld.GAF_STATUS_RUN_ERR :=
          (flag_put_apart _ _ rfl rfl).trans (flag_put_apart _ _ rfl rfl)
      _ = false := flag_putB_self _ false rfl rfl
  · exact (flag_put_apart _ _ rfl rfl).trans (flag_putB_self _ b rfl rfl)
  · exact (get_put_self _ _ rfl).trans (Nat.mod_eq_of_lt (planTickdiv_lt _))

/-- A start whose bank is no longer valid only reports itself (R42). -/
theorem startRefused_meets (s : State) : (startRefused s).flag Fld.GAF_STATUS_RUN_ERR = true ∧
    (startRefused s).gaf = { s.gaf with starting := none } ∧ Frame [.gaf] (bits [Fld.GAF_STATUS_RUN_ERR]) s (startRefused s) :=
  ⟨flag_putB_self s true rfl rfl, rfl,
    frame_trans (frame_putB _ _ (covers_of_fits (by simp) rfl)) (frame_setGaf _ _ (by simp))⟩

/-! ### What an edge does (R17, R41, R43, R521) -/

section
variable {s e : State} (he : tickEnds s = e)
include he

theorem tickEdge_starts {b : Bool} (h : e.gaf.starting = some b) (hv : e.bankValid b = true) : tickEdge s = tickBegins e (some b) := by
  simp only [tickEdge, he, h]
  exact if_pos hv

theorem tickEdge_refuses {b : Bool} (h : e.gaf.starting = some b) (hv : e.bankValid b = false) : tickEdge s = startRefused e := by
  simp only [tickEdge, he, h]
  exact if_neg (by rw [hv]; decide)

theorem tickEdge_stops (h : e.gaf.starting = none) (hr : e.flag Fld.GAF_CTRL_RUN = false) :
    tickEdge s = tmrTickEdge (batchesIdle (stoppedAt e)) := by
  simp only [tickEdge, he, h, hr]
  rfl

theorem tickEdge_halts (h : e.gaf.starting = none) (hr : e.flag Fld.GAF_CTRL_RUN = true) (hh : e.tel.haltReq = true) :
    tickEdge s = haltEnter (edgeCycle (tmrSuspend e) none true) := by
  simp only [tickEdge, he, h, hr, hh]
  rfl

theorem tickEdge_begins (h : e.gaf.starting = none) (hr : e.flag Fld.GAF_CTRL_RUN = true) (hh : e.tel.haltReq = false) :
    tickEdge s = tickBegins e none := by
  simp only [tickEdge, he, h, hr, hh]
  rfl

end

/-- The first edge after a start on bank `b`: the start, then the switch, then the effects of the edge (R17, R41). -/
theorem edgeCycle_first (s : State) (b : Bool) : edgeCycle s (some b) false =
    cascEdge (edgeEffects (switchEdge (startEdge (nextTick s) b)).1 true (switchEdge (startEdge (nextTick s) b)).2) true := by
  -- The switch is made opaque: the two sides are compared without looking into it.
  obtain ⟨sw, hsw⟩ : ∃ sw, sw = switchEdge := ⟨_, rfl⟩
  rw [edgeCycle, ← hsw]
  rfl

theorem edgeCycle_next (s : State) : edgeCycle s none false =
    cascEdge (edgeEffects (switchEdge (nextTick s)).1 false (switchEdge (nextTick s)).2) false := by
  obtain ⟨sw, hsw⟩ : ∃ sw, sw = switchEdge := ⟨_, rfl⟩
  rw [edgeCycle, ← hsw]
  rfl

/-- The edge at which a halt begins makes no switch (R521). -/
theorem edgeCycle_halts (s : State) : edgeCycle s none true = cascEdge (edgeEffects (nextTick s) false false) false := rfl

theorem tickBegins_eq (s : State) (first : Option Bool) : tickBegins s first =
    if (edgeCycle s first false).sleepDue = true then commitSleep (edgeCycle s first false) else edgeCycle s first false := rfl

/-! ### Overruns (R49, R51) -/

/-- The counts of an overrun: OVRCNT, CONSEC and LASTDONE (R51). -/
def overrunCounted (s : State) (i : Nat) : State :=
  (({ s with gaf := { s.gaf with ended := i :: s.gaf.ended } } : State).incSat (Fld.GAF_ACT_CNT_OVRCNT i)).incSat
    (Fld.GAF_ACT_CNT_CONSEC i) |>.put (Fld.GAF_ACT_TIME_LASTDONE i) 0xFFFF

/-- The mark of an overrun in GAF_OVR (R51). -/
def overrunMarked (s : State) (i : Nat) : State :=
  if i < 32 then s.setBit Fld.GAF_OVR_LO_OVR i else s.setBit Fld.GAF_OVR_HI_OVR (i - 32)

theorem overrunCounts_eq (s : State) (i : Nat) : ∃ l, overrunCounts s i =
    ((overrunMarked (overrunCounted s i) i).irqF Fld.GAF_IRQ_STATUS_OVERRUN).tell 0x01 1 i l := ⟨_, rfl⟩

theorem frame_overrunMarked (s : State) (i : Nat) :
    Frame [] (bits [Fld.GAF_OVR_LO_OVR, Fld.GAF_OVR_HI_OVR]) s (overrunMarked s i) :=
  frame_ite (fun _ => frame_setBit _ _ (covers_of_fits (by simp) rfl)) fun _ => frame_setBit _ _ (covers_of_fits (by simp) rfl)

theorem frame_tell_bits (s : State) (typ src sub : Nat) (l : List Byte) : Frame [.tel, .msix] tellBits s (s.tell typ src sub l) :=
  frame_tell typ src sub 0 l (fun _ _ h => h) (by simp) (by simp)

/-- Telemetry changes no word of the gaffer (R509). -/
theorem not_tellBits {o : Nat} (h : o < 0x20000) (b : Nat) : ¬ tellBits o b := by
  rintro (k | ⟨f, hf, rfl, -⟩)
  · simp only [pba, Safety.range] at k; omega
  · have hw : ∀ f ∈ [Fld.LOG_LOSS_QLOST, Fld.LOG_IRQ_STATUS_QLOST], 0x20000 ≤ f.off := by decide
    have := hw f hf
    omega

/-- What an overrun leaves of its counts: ENDED, OVRCNT, CONSEC, LASTDONE (R51). -/
theorem overrunCounted_meets (s : State) (i : Nat) :
    let u := overrunCounted s i
    u.gaf.ended = i :: s.gaf.ended ∧ u.get (Fld.GAF_ACT_CNT_OVRCNT i) = min 0xFFFF (s.get (Fld.GAF_ACT_CNT_OVRCNT i) + 1) ∧
      u.get (Fld.GAF_ACT_CNT_CONSEC i) = min 15 (s.get (Fld.GAF_ACT_CNT_CONSEC i) + 1) ∧
      u.get (Fld.GAF_ACT_TIME_LASTDONE i) = 0xFFFF ∧
      Frame [.gaf] (bits [Fld.GAF_ACT_CNT_OVRCNT i, Fld.GAF_ACT_CNT_CONSEC i, Fld.GAF_ACT_TIME_LASTDONE i]) s u := by
  intro u
  have htime : ∀ g ∈ [Fld.GAF_ACT_CNT_OVRCNT i, Fld.GAF_ACT_CNT_CONSEC i], apart g (Fld.GAF_ACT_TIME_LASTDONE i) = true := by
    simp only [List.forall_mem_cons, List.not_mem_nil, false_imp_iff, implies_true, and_true]
    constructor <;> exact apart_of_off (by
      simp only [Fld.GAF_ACT_CNT_OVRCNT, Fld.GAF_ACT_CNT_CONSEC, Fld.GAF_ACT_TIME_LASTDONE, Reg.GAF_ACT_CNT, Reg.GAF_ACT_TIME]; omega)
  have hone : apart (Fld.GAF_ACT_CNT_OVRCNT i) (Fld.GAF_ACT_CNT_CONSEC i) = true := rfl
  have htwo : apart (Fld.GAF_ACT_CNT_CONSEC i) (Fld.GAF_ACT_CNT_OVRCNT i) = true := rfl
  refine ⟨rfl, ?_, ?_, get_put_self _ _ rfl, ?_⟩
  · exact (get_put_apart _ _ rfl (htime _ (by simp))).trans ((get_incSat_apart _ rfl hone).trans (get_incSat_self _ rfl))
  · refine (get_put_apart _ _ rfl (htime _ (by simp))).trans ((get_incSat_self _ rfl).trans ?_)
    rw [get_incSat_apart _ rfl htwo]
    rfl
  · exact frame_trans (frame_setGaf s _ (by simp)) (frame_then_put (frame_then_incSat (frame_incSat _ _ (covers_of_fits (by simp) rfl))
      _ _ (covers_of_fits (by simp) rfl)) _ _ (covers_of_fits (by simp) rfl))

/-- What an overrun leaves, before its fallback acts (R51). -/
theorem overrunCounts_meets (s : State) {i : Nat} (h : i < 64) :
    let u := overrunCounts s i
    u.gaf.ended = i :: s.gaf.ended ∧ u.get (Fld.GAF_ACT_CNT_OVRCNT i) = min 0xFFFF (s.get (Fld.GAF_ACT_CNT_OVRCNT i) + 1) ∧
      u.get (Fld.GAF_ACT_CNT_CONSEC i) = min 15 (s.get (Fld.GAF_ACT_CNT_CONSEC i) + 1) ∧
      u.get (Fld.GAF_ACT_TIME_LASTDONE i) = 0xFFFF ∧ u.flag Fld.GAF_IRQ_STATUS_OVERRUN = true ∧
      (i < 32 → u.bitF Fld.GAF_OVR_LO_OVR i = true) ∧ (32 ≤ i → u.bitF Fld.GAF_OVR_HI_OVR (i - 32) = true) ∧
      Frame [.gaf, .tel, .msix] (orBits pba (bits [Fld.GAF_ACT_CNT_OVRCNT i, Fld.GAF_ACT_CNT_CONSEC i,
        Fld.GAF_ACT_TIME_LASTDONE i, Fld.GAF_OVR_LO_OVR, Fld.GAF_OVR_HI_OVR, Fld.GAF_IRQ_STATUS_OVERRUN,
        Fld.LOG_LOSS_QLOST, Fld.LOG_IRQ_STATUS_QLOST])) s u := by
  intro u
  obtain ⟨l, hu⟩ : ∃ l, u = _ := overrunCounts_eq s i
  obtain ⟨hended, hovr, hconsec, hlast, hframe⟩ := overrunCounted_meets s i
  let c := overrunCounted s i
  let m := overrunMarked c i
  let q := m.irqF Fld.GAF_IRQ_STATUS_OVERRUN
  have htell : Frame [.tel, .msix] tellBits q u := by
    rw [hu]; exact frame_tell_bits q 0x01 1 i l
  have hmark : Frame [] (bits [Fld.GAF_OVR_LO_OVR, Fld.GAF_OVR_HI_OVR]) c m := frame_overrunMarked c i
  have hirq : Frame [.msix] (orBits pba (bits [Fld.GAF_IRQ_STATUS_OVERRUN])) m q := frame_irqF_listed m (by simp) rfl (by simp)
  have hafter (f : Field) (hf : f.off < 0x20000) : u.get f = q.get f := get_of_frame htell fun b _ _ => not_tellBits hf b
  have hcount (f : Field) (hf : f.off < 0x20000)
      (ha : ∀ g ∈ [Fld.GAF_OVR_LO_OVR, Fld.GAF_OVR_HI_OVR, Fld.GAF_IRQ_STATUS_OVERRUN], apart f g = true) : u.get f = c.get f :=
    (hafter f hf).trans ((get_irqF_apart m rfl (ha _ (by simp)) (.inl (by omega))).trans
      (get_of_frame_bits hmark fun g hg => ha g (by simp at hg ⊢; tauto)))
  have hbit (f : Field) (j : Nat) (hf : f.off < 0x20000) (ha : apart f Fld.GAF_IRQ_STATUS_OVERRUN = true) : u.bitF f j = m.bitF f j := by
    simp only [State.bitF, hafter f hf]
    rw [show q.get f = m.get f from get_irqF_apart m rfl ha (.inl (by omega))]
  have hapart : ∀ f ∈ [Fld.GAF_ACT_CNT_OVRCNT i, Fld.GAF_ACT_CNT_CONSEC i, Fld.GAF_ACT_TIME_LASTDONE i],
      u.get f = c.get f := fun f hf => by
    have hoff : 0x10100 ≤ f.off ∧ f.off < 0x10200 + 8 * i := by
      simp only [List.mem_cons, List.not_mem_nil, or_false] at hf
      rcases hf with rfl | rfl | rfl <;>
        simp only [Fld.GAF_ACT_CNT_OVRCNT, Fld.GAF_ACT_CNT_CONSEC, Fld.GAF_ACT_TIME_LASTDONE, Reg.GAF_ACT_CNT, Reg.GAF_ACT_TIME] <;> omega
    have hlow : ∀ g ∈ [Fld.GAF_OVR_LO_OVR, Fld.GAF_OVR_HI_OVR, Fld.GAF_IRQ_STATUS_OVERRUN], g.off < 0x10100 := by decide
    exact hcount f (by omega) fun g hg => apart_of_off (by have := hlow g hg; omega)
  have hgaf : u.gaf = c.gaf := (htell.2 .gaf (by simp)).trans ((hirq.2 .gaf (by simp)).trans (hmark.2 .gaf (by simp)))
  have hflag : u.flag Fld.GAF_IRQ_STATUS_OVERRUN = q.flag Fld.GAF_IRQ_STATUS_OVERRUN := by
    simp only [State.flag, hafter _ (show Fld.GAF_IRQ_STATUS_OVERRUN.off < 0x20000 by decide)]
  refine ⟨by rw [hgaf]; exact hended, (hapart _ (by simp)).trans hovr, (hapart _ (by simp)).trans hconsec,
    (hapart _ (by simp)).trans hlast, hflag.trans (flag_irqF m _ rfl (by decide) (not_pba_of_outside (by decide))),
    fun hi => ?_, fun hi => ?_, ?_⟩
  · rw [hbit _ _ (by decide) rfl, show m = c.setBit Fld.GAF_OVR_LO_OVR i from if_pos hi]
    exact bitF_setBit_self c rfl (by simp only [Fld.GAF_OVR_LO_OVR]; omega)
  · rw [hbit _ _ (by decide) rfl, show m = c.setBit Fld.GAF_OVR_HI_OVR (i - 32) from if_neg (by omega)]
    exact bitF_setBit_self c rfl (by simp only [Fld.GAF_OVR_HI_OVR]; omega)
  · refine frame_trans (frame_trans (frame_trans (frame_mono hframe (by simp) ?_) (frame_mono hmark (by simp) ?_))
      (frame_mono hirq (by simp) ?_)) (frame_mono htell (by simp) ?_)
    · exact fun o b k => .inr (bits_mono (by simp) o b k)
    · exact fun o b k => .inr (bits_mono (by simp) o b k)
    · exact fun o b => Or.imp_right (bits_mono (by simp) o b)
    · exact fun o b => Or.imp_right (bits_mono (by simp) o b)

/-! ### The commands -/

theorem exec_tickEdge (s : State) : exec .tickEdge s = execTickEdge s := rfl

theorem exec_tickEdge_running {s : State} (h : s.pwr.hold = .running) :
    exec .tickEdge s = .next (if s.edgePossible then tickEdge (nextCycle s) else s) := by
  rw [exec_tickEdge, execTickEdge, act_running _ _ h]

theorem exec_actionOverrun (s : State) (i : Fin 64) : exec (.actionOverrun i) s = execActionOverrun i s := rfl

/-- An action that has not ended by its DEADLINE is counted, and its fallback acts (R49, R51). -/
theorem exec_actionOverrun_late {s : State} (h : s.pwr.hold = .running) {i : Fin 64} (hr : s.running = true) (hh : s.halted = false)
    (hsl : s.vxl.sleeping = false) (hst : s.gaf.starting = none) (hi : i.val < planCount s.plan) (hend : i.val ∉ s.gaf.ended)
    (hd : actDeadline s.plan i < s.edgeOfs) : exec (.actionOverrun i) s = .next (fallback (overrunCounts s i) i) := by
  rw [exec_actionOverrun, execActionOverrun, act_running _ _ h, if_pos (by simp [hr, hh, hsl, hst, hi, hend, hd])]

theorem exec_signalAction (s : State) (i : Fin 64) : exec (.signalAction i) s = execSignalAction i s := rfl

/-- A SIGNAL action that may start signals its fence and is done (R46). -/
theorem exec_signalAction_starts {s : State} (h : s.pwr.hold = .running) {i : Fin 64} (hmay : s.mayStart i 9 = true)
    (hd : s.edgeOfs ≤ actDeadline s.plan i) : exec (.signalAction i) s =
      .next (actionDone ((s.startAction i).signal (actParam s.plan i % 1024) s.tickno) i) := by
  rw [exec_signalAction, execSignalAction, act_running _ _ h, if_pos (by simp [hmay, hd])]

/-- Settles O35: the tick edge branch by branch of the ways it can go, then the start, the overrun and the SIGNAL action. -/
theorem ticksAndOverruns : Obligations.TicksAndOverruns := by
  intro s hrun
  have hexec := exec_tickEdge_running hrun
  refine ⟨fun hno => ?_, fun hyes => ?_, fun b => ⟨edgeCycle_first s b, startEdge_meets s b⟩,
    ⟨edgeCycle_next s, edgeCycle_halts s⟩, tickBegins_eq s, nextTick_meets s,
    fun i hr hh hsl hst hi hend hd => ?_, fun i => exec_signalAction_starts hrun⟩
  · rw [hexec, if_neg (by rw [hno]; decide)]
  · intro e
    have he : tickEnds (nextCycle s) = e := rfl
    clear_value e
    rw [hexec, if_pos hyes]
    refine ⟨fun b hb => ⟨fun hv => congrArg _ (tickEdge_starts he hb hv), fun hv => ?_⟩, fun hs hr => ?_,
      fun hs hr => ⟨fun hh => congrArg _ (tickEdge_halts he hs hr hh), fun hh => congrArg _ (tickEdge_begins he hs hr hh)⟩⟩
    · exact ⟨startRefused e, congrArg _ (tickEdge_refuses he hb hv), startRefused_meets e⟩
    · exact ⟨stoppedAt e, congrArg _ (tickEdge_stops he hs hr), stoppedAt_meets e⟩
  · obtain ⟨hended, hovr, hconsec, hlast, hflag, hlo, hhi, hframe⟩ := overrunCounts_meets s i.isLt
    exact ⟨overrunCounts s i, exec_actionOverrun_late hrun hr hh hsl hst hi hend hd, hended, hovr, hconsec, hlast, hflag, hlo, hhi,
      hframe⟩

end Sys2Proof.Proofs
end

section
/-!
PROOF. The gaffer's control registers (O34: R41 to R44, R51, R60, R61, R518).
-/

namespace Sys2Proof.Proofs
open Sys2Proof Sys2Proof.Machine Sys2Proof.Safety Sys2Proof.Laws

/-- Every register of the gaffer is served as GAF_CTRL is (R467, R476). -/
theorem served_gaf (s : State) {o : Nat} (h1 : 0x10000 ≤ o) (h2 : o < 0x20000) : s.served o = s.served Reg.GAF_CTRL := by
  have hb : o / 0x10000 = 1 := by omega
  have hw : o ≠ 0x100024 ∧ o ≠ 0x100014 := by omega
  simp [State.served, hb, hw, Reg.GAF_CTRL, Reg.VXL_WAKE, Reg.VXL_STATUS]

/-! ### GAF_CTRL (R41 to R44) -/

/-- RUN and BANK_INIT as a write of GAF_CTRL stores them. -/
def runStored (s : State) (run bank : Bool) : State := (s.putB Fld.GAF_CTRL_RUN run).putB Fld.GAF_CTRL_BANK_INIT bank

/-- A start or its withdrawal is noted. -/
def runStarting (s : State) (x : Option Bool) : State := { s with gaf := { s.gaf with starting := x } }

theorem runStored_meets (s : State) (run bank : Bool) :
    (runStored s run bank).flag Fld.GAF_CTRL_RUN = run ∧ (runStored s run bank).flag Fld.GAF_CTRL_BANK_INIT = bank ∧
      Frame [] (bits [Fld.GAF_CTRL_RUN, Fld.GAF_CTRL_BANK_INIT]) s (runStored s run bank) :=
  ⟨(flag_put_apart _ _ rfl rfl).trans (flag_putB_self _ _ rfl rfl), flag_putB_self _ _ rfl rfl,
    frame_then_putB (frame_putB _ _ (covers_of_fits (by simp) rfl)) _ _ (covers_of_fits (by simp) rfl)⟩

/-- What is stored with a start or its withdrawal. -/
theorem runStarting_meets (s : State) (run bank : Bool) (x : Option Bool) :
    let t := runStarting (runStored s run bank) x
    t.gaf = { s.gaf with starting := x } ∧ (t.flag Fld.GAF_CTRL_RUN = run ∧ t.flag Fld.GAF_CTRL_BANK_INIT = bank) ∧
      Frame [.gaf] (bits [Fld.GAF_CTRL_RUN, Fld.GAF_CTRL_BANK_INIT]) s t := by
  obtain ⟨hrun, hbank, hframe⟩ := runStored_meets s run bank
  exact ⟨rfl, ⟨hrun, hbank⟩, frame_trans (frame_bits_mono hframe (List.nil_subset _) (List.Subset.refl _)) (frame_setGaf _ _ (by simp))⟩

/-- A write of GAF_CTRL with RUN = 1, branch by branch (R41, R42, R44). -/
theorem gafCtrlWrite_run (s : State) (b : Bool) : gafCtrlWrite s (if b then 3 else 1) =
    if s.running then runStored s true b
    else if !s.ready 0 then s
    else if !(s.bankValid b && s.planParisonsOk (s.bank b)) then s.putB Fld.GAF_STATUS_RUN_ERR true
    else if !s.flag Fld.GAF_STATUS_LOCKED && (!s.isSlave || s.gaf.lost) then runStored s true b
    else runStarting (runStored s true b) (some b) := by
  cases b <;> rfl

/-- A write of GAF_CTRL with RUN = 0 (R43). -/
theorem gafCtrlWrite_stop (s : State) (b : Bool) :
    gafCtrlWrite s (if b then 2 else 0) = runStarting (runStored s false b) none := by
  cases b <;> rfl

/-! ### GAF_SWITCH (R60, R61) -/

/-- The code of Table 2.7 with which an ARM of bank `b` is refused, 0 for none. -/
def switchCode (s : State) (b : Bool) : Nat :=
  if s.bankValid b = false then 1
  else if s.wide Reg.GAF_SWTICK_LO ≠ 0 ∧ s.wide Reg.GAF_SWTICK_LO ≤ s.tickno then 2
  else if s.switchDivBad b = true then 3
  else if s.bankInUse b = true then 5
  else 0

theorem switchCode_lt (s : State) (b : Bool) : switchCode s b < 16 := by
  unfold switchCode
  split_ifs <;> decide

/-- Clearing SWITCH_ERR changes nothing that an ARM looks at. -/
theorem switchCode_cleared (s : State) (b : Bool) : switchCode (s.put Fld.GAF_STATUS_SWITCH_ERR 0) b = switchCode s b := by
  let t := s.put Fld.GAF_STATUS_SWITCH_ERR 0
  have hget (f : Field) (h : apart f Fld.GAF_STATUS_SWITCH_ERR = true) : t.get f = s.get f := get_put_apart s 0 rfl h
  have hflag (f : Field) (h : apart f Fld.GAF_STATUS_SWITCH_ERR = true) : t.flag f = s.flag f := flag_put_apart s 0 rfl h
  have hwide (o : Nat) (h : 0x10010 ≤ o) : t.wide o = s.wide o := by
    have hreg (a : Nat) (h : 0x10010 ≤ a) : t.reg a = s.reg a :=
      reg_put_ne s _ _ 0 (by simp only [Fld.GAF_STATUS_SWITCH_ERR, Reg.GAF_STATUS]; omega)
    rw [State.wide, State.wide, hreg o h, hreg (o + 4) (by omega)]
  have hvalid : t.bankValid b = s.bankValid b := by cases b <;> exact hflag _ rfl
  have hrun : t.running = s.running := hflag _ rfl
  have hslave : t.isSlave = s.isSlave := by
    simp only [State.isSlave, State.linkOn, State.cascId, hflag Fld.VXL_CFG_EN rfl, hget Fld.GLB_STRAP_CASC_ID rfl]
    rfl
  have hdiv : t.switchDivBad b = s.switchDivBad b := by
    rw [State.switchDivBad, State.switchDivBad, hslave, hrun, hwide _ (by decide), hget _ rfl]
    rfl
  have huse : t.bankInUse b = s.bankInUse b := by
    rw [State.bankInUse, State.bankInUse, hrun, State.activeBank, State.activeBank, hflag _ rfl]
  have htick : t.tickno = s.tickno := hwide _ (by decide)
  show switchCode t b = _
  rw [switchCode, switchCode, hvalid, hwide _ (by decide), htick, hdiv, huse]

/-- A write of GAF_SWITCH with ARM = 1 is refused with the first code of Table 2.7 that holds (R60, R61). -/
theorem gafSwitchWrite_arm (s : State) (b : Bool) : gafSwitchWrite s (if b then 3 else 2) =
    if switchCode s b = 0 then setSwitch (s.put Fld.GAF_STATUS_SWITCH_ERR 0) (some b)
    else switchRefuse (s.put Fld.GAF_STATUS_SWITCH_ERR 0) (switchCode s b) := by
  have harm : gafSwitchWrite s (if b then 3 else 2) =
      let t := s.put Fld.GAF_STATUS_SWITCH_ERR 0
      if !t.bankValid b then switchRefuse t 1
      else if t.wide Reg.GAF_SWTICK_LO ≠ 0 ∧ t.wide Reg.GAF_SWTICK_LO ≤ t.tickno then switchRefuse t 2
      else if t.switchDivBad b then switchRefuse t 3
      else if t.bankInUse b then switchRefuse t 5
      else setSwitch t (some b) := by cases b <;> rfl
  rw [harm, ← switchCode_cleared]
  generalize s.put Fld.GAF_STATUS_SWITCH_ERR 0 = t
  by_cases hvalid : t.bankValid b = false
  · simp [switchCode, hvalid]
  by_cases htick : t.wide Reg.GAF_SWTICK_LO ≠ 0 ∧ t.wide Reg.GAF_SWTICK_LO ≤ t.tickno
  · simp [switchCode, hvalid, htick]
  by_cases hdiv : t.switchDivBad b = true
  · simp [switchCode, hvalid, htick, hdiv]
  by_cases huse : t.bankInUse b = true <;> simp [switchCode, hvalid, htick, hdiv, huse]

/-- A write of GAF_SWITCH with CANCEL = 1 (R61). -/
theorem gafSwitchWrite_cancel (s : State) : gafSwitchWrite s 4 = setSwitch s none := rfl

theorem frame_setSwitch (s : State) (x : Option Bool) : Frame [.gaf] (bits [Fld.GAF_STATUS_SW_PENDING]) s (setSwitch s x) :=
  frame_trans (frame_setGaf s _ (by simp)) (frame_putB _ _ (covers_of_fits (by simp) rfl))

/-- An ARM that is taken (R60). -/
theorem armed_meets (s : State) (b : Bool) :
    let t := setSwitch (s.put Fld.GAF_STATUS_SWITCH_ERR 0) (some b)
    t.gaf = { s.gaf with swBank := some b } ∧ t.flag Fld.GAF_STATUS_SW_PENDING = true ∧ t.get Fld.GAF_STATUS_SWITCH_ERR = 0 ∧
      Frame [.gaf] (bits [Fld.GAF_STATUS_SW_PENDING, Fld.GAF_STATUS_SWITCH_ERR]) s t :=
  ⟨rfl, flag_putB_self _ true rfl rfl, (get_put_apart _ _ rfl rfl).trans (get_put_self s 0 rfl),
    frame_trans (frame_put _ _ (covers_of_fits (by simp) rfl)) (frame_bits_mono (frame_setSwitch _ _) (List.Subset.refl _) (by simp))⟩

/-- An ARM that is refused (R60). -/
theorem switchRefuse_meets (s : State) {code : Nat} (h : code < 16) :
    let t := switchRefuse (s.put Fld.GAF_STATUS_SWITCH_ERR 0) code
    t.get Fld.GAF_STATUS_SWITCH_ERR = code ∧ t.flag Fld.GAF_IRQ_STATUS_SWITCH_ERR = true ∧
      Frame [.msix] (orBits pba (bits [Fld.GAF_STATUS_SWITCH_ERR, Fld.GAF_IRQ_STATUS_SWITCH_ERR])) s t := by
  refine ⟨(get_irqF_apart _ rfl rfl (.inl (by decide))).trans ((get_put_self _ code rfl).trans (Nat.mod_eq_of_lt h)),
    flag_irqF _ _ rfl (by decide) (not_pba_of_outside (by decide)), ?_⟩
  have hc : Covers (orBits pba (bits [Fld.GAF_STATUS_SWITCH_ERR, Fld.GAF_IRQ_STATUS_SWITCH_ERR])) Fld.GAF_STATUS_SWITCH_ERR :=
    covers_right _ (covers_of_fits (by simp) rfl)
  exact frame_trans (frame_then_put (frame_put _ _ hc) _ _ hc) (frame_irqF_listed _ (by simp) rfl (by simp))

/-! ### The counters of an action (R51, R518) -/

/-- A CLR of one counter leaves what it counted in this cycle (R518). -/
theorem get_clrField (s : State) {f : Field} (k : fits f = true) : (s.clrField f).get f = f.get (sget 0 s.seen.sets f.off) :=
  (get_put_self s _ k).trans (Nat.mod_eq_of_lt (field_get_lt f _))

theorem actionClr_meets (s : State) (k : Nat) :
    let t := actionClr s k
    t.get (Fld.GAF_ACT_CNT_OVRCNT k) = (Fld.GAF_ACT_CNT_OVRCNT k).get (sget 0 s.seen.sets (Reg.GAF_ACT_CNT k)) ∧
      t.get (Fld.GAF_ACT_TIME_MINSLACK k) = 0xFFFF ∧
      Frame [] (bits [Fld.GAF_ACT_CNT_OVRCNT k, Fld.GAF_ACT_TIME_MINSLACK k]) s t := by
  have ha : apart (Fld.GAF_ACT_CNT_OVRCNT k) (Fld.GAF_ACT_TIME_MINSLACK k) = true := apart_of_off (by
    simp only [Fld.GAF_ACT_CNT_OVRCNT, Fld.GAF_ACT_TIME_MINSLACK, Reg.GAF_ACT_CNT, Reg.GAF_ACT_TIME]; omega)
  exact ⟨(get_put_apart _ _ rfl ha).trans (get_clrField s rfl),
    (get_put_self _ _ rfl).trans (Nat.mod_eq_of_lt (show 0xFFFF < 2 ^ 16 by decide)),
    frame_then_put (frame_put _ _ (covers_of_fits (by simp) rfl)) _ _ (covers_of_fits (by simp) rfl)⟩

/-! ### The commands -/

section
variable {s : State} (hrun : s.pwr.hold = .running) (hs : s.served Reg.GAF_CTRL = true)
include hrun hs

theorem exec_gafRun (b : Bool) : exec (.gafRun b) s = .next (gafCtrlWrite s (if b then 3 else 1)) := by
  show execGafRun b s = _
  rw [execGafRun, act_running _ _ hrun, if_pos hs]

theorem exec_gafStopRequest (b : Bool) : exec (.gafStopRequest b) s = .next (runStarting (runStored s false b) none) := by
  show execGafStopRequest b s = _
  rw [execGafStopRequest, act_running _ _ hrun, if_pos hs, gafCtrlWrite_stop]

theorem exec_gafSwitchArm (b : Bool) : exec (.gafSwitchArm b) s = .next (gafSwitchWrite s (if b then 3 else 2)) := by
  show execGafSwitchArm b s = _
  rw [execGafSwitchArm, act_running _ _ hrun, if_pos ((served_gaf s (by decide) (by decide)).trans hs)]

theorem exec_gafSwitchCancel : exec .gafSwitchCancel s = .next (setSwitch s none) := by
  show execGafSwitchCancel s = _
  rw [execGafSwitchCancel, act_running _ _ hrun, if_pos ((served_gaf s (by decide) (by decide)).trans hs), gafSwitchWrite_cancel]

theorem exec_actionClr (k : Fin 64) : exec (.actionClr k) s = .next (actionClr s k) := by
  have hk : 0x10000 ≤ Reg.GAF_ACT_CNT k ∧ Reg.GAF_ACT_CNT k < 0x20000 := by simp only [Reg.GAF_ACT_CNT]; omega
  show execActionClr k s = _
  rw [execActionClr, act_running _ _ hrun, if_pos ((served_gaf s hk.1 hk.2).trans hs)]

/-- GAF_RUN on a stopped gaffer that is ready (R41, R42, R44). -/
theorem gafRun_stopped_meets (b : Bool) (hstop : s.running = false) (hready : s.ready 0 = true) :
    let kept (t : State) : Prop := t.flag Fld.GAF_CTRL_RUN = true ∧ t.flag Fld.GAF_CTRL_BANK_INIT = b
    let good := s.bankValid b = true ∧ s.planParisonsOk (s.bank b) = true
    let canLock := s.flag Fld.GAF_STATUS_LOCKED = true ∨ (s.isSlave = true ∧ s.gaf.lost = false)
    (good → canLock → ∃ t, exec (.gafRun b) s = .next t ∧ t.gaf = { s.gaf with starting := some b } ∧ kept t ∧
      Frame [.gaf] (bits [Fld.GAF_CTRL_RUN, Fld.GAF_CTRL_BANK_INIT]) s t) ∧
    (good → ¬ canLock → ∃ t, exec (.gafRun b) s = .next t ∧ kept t ∧
      Frame [] (bits [Fld.GAF_CTRL_RUN, Fld.GAF_CTRL_BANK_INIT]) s t) ∧
    (¬ good → exec (.gafRun b) s = .next (s.putB Fld.GAF_STATUS_RUN_ERR true)) := by
  intro kept good canLock
  have hgood : (!(s.bankValid b && s.planParisonsOk (s.bank b))) = true ↔ ¬ good := by simp [good, imp_iff_not_or]
  have hlock : (!s.flag Fld.GAF_STATUS_LOCKED && (!s.isSlave || s.gaf.lost)) = true ↔ ¬ canLock := by
    simp [canLock, imp_iff_not_or]
  rw [exec_gafRun hrun hs, gafCtrlWrite_run, if_neg (by rw [hstop]; decide), if_neg (by rw [hready]; decide)]
  refine ⟨fun hg hc => ⟨_, rfl, ?_⟩, fun hg hc => ⟨_, rfl, ?_⟩, fun hg => by rw [if_pos (hgood.2 hg)]⟩
  · rw [if_neg (fun h => hgood.1 h hg), if_neg (fun h => hlock.1 h hc)]
    exact runStarting_meets s true b (some b)
  · rw [if_neg (fun h => hgood.1 h hg), if_pos (hlock.2 hc)]
    obtain ⟨h1, h2, hf⟩ := runStored_meets s true b
    exact ⟨⟨h1, h2⟩, hf⟩

/-- GAF_SWITCH_ARM, taken or refused (R60, R61). -/
theorem gafSwitchArm_meets (b : Bool) :
    (switchCode s b = 0 → ∃ t, exec (.gafSwitchArm b) s = .next t ∧ t.gaf = { s.gaf with swBank := some b } ∧
      t.flag Fld.GAF_STATUS_SW_PENDING = true ∧ t.get Fld.GAF_STATUS_SWITCH_ERR = 0 ∧
      Frame [.gaf] (bits [Fld.GAF_STATUS_SW_PENDING, Fld.GAF_STATUS_SWITCH_ERR]) s t) ∧
    (switchCode s b ≠ 0 → ∃ t, exec (.gafSwitchArm b) s = .next t ∧ t.get Fld.GAF_STATUS_SWITCH_ERR = switchCode s b ∧
      t.flag Fld.GAF_IRQ_STATUS_SWITCH_ERR = true ∧
      Frame [.msix] (orBits pba (bits [Fld.GAF_STATUS_SWITCH_ERR, Fld.GAF_IRQ_STATUS_SWITCH_ERR])) s t) := by
  rw [exec_gafSwitchArm hrun hs, gafSwitchWrite_arm]
  refine ⟨fun h => ⟨_, rfl, ?_⟩, fun h => ⟨_, rfl, ?_⟩⟩
  · rw [if_pos h]; exact armed_meets s b
  · rw [if_neg h]; exact switchRefuse_meets s (switchCode_lt s b)

end

/-- Settles O34: the writes of GAF_CTRL, of GAF_SWITCH and of an action's CLR, each branch by branch. -/
theorem gafferControlWrites : Obligations.GafferControlWrites := by
  intro s b hrun hs
  refine ⟨⟨fun hr => ⟨_, exec_gafRun hrun hs b, ?_⟩, fun hr hready => ?_, gafRun_stopped_meets hrun hs b⟩,
    ⟨_, exec_gafStopRequest hrun hs b, ?_⟩, gafSwitchArm_meets hrun hs b, ⟨_, exec_gafSwitchCancel hrun hs, rfl,
      flag_putB_self _ false rfl rfl, frame_setSwitch s none⟩, fun k => ⟨_, exec_actionClr hrun hs k, actionClr_meets s k⟩⟩
  · rw [gafCtrlWrite_run, if_pos hr]
    obtain ⟨h1, h2, hf⟩ := runStored_meets s true b
    exact ⟨⟨h1, h2⟩, hf⟩
  · rw [exec_gafRun hrun hs, gafCtrlWrite_run, if_neg (by rw [hr]; decide), if_pos (by rw [hready]; decide)]
  · obtain ⟨hgaf, ⟨h1, h2⟩, hf⟩ := runStarting_meets s false b none
    exact ⟨hgaf, h1, h2, hf⟩

end Sys2Proof.Proofs
end

section
/-!
PROOF. A cycle in which no command waits (O2: R63, R480).
-/

namespace Sys2Proof.Proofs
open Sys2Proof Sys2Proof.Machine Sys2Proof.Safety Sys2Proof.Laws

/-- A run over a list whose steps all leave a state as it is leaves it. -/
theorem foldl_self {α : Type} {f : State → α → State} {s : State} : ∀ {l : List α}, (∀ x ∈ l, f s x = s) → l.foldl f s = s
  | [], _ => rfl
  | x :: r, h => by
    rw [List.foldl_cons, h x (by simp)]
    exact foldl_self fun y hy => h y (by simp [hy])

/-! ### What the cycle latched (R96, R98, R113 to R115) -/

section
variable {s : State}

theorem toStop_of_latched_nil (h : s.ring.latched = []) (waiting : Bool) : s.toStop waiting = [] := by
  have hnone (d : Desc) : s.latchStatus d = none := by simp [State.latchStatus, h]
  simp [State.toStop, hnone]

/-- With nothing latched no descriptor stops. -/
theorem stopLatched_self (h : s.ring.latched = []) (waiting : Bool) : stopLatched s waiting = s :=
  if_pos (by rw [toStop_of_latched_nil h]; rfl)

theorem failWaits_self (h : s.failing = none) : ∀ n, failWaits n s = s
  | 0 => rfl
  | _ + 1 => by rw [failWaits, h]

theorem satWaits_self (h : s.satisfied = none) : ∀ n, satWaits n s = s
  | 0 => rfl
  | _ + 1 => by rw [satWaits, h]

/-- Where no descriptor waits on a fence there is no wait to evaluate. -/
theorem settle_self (h : ∀ d ∈ s.ring.flight, d.stage ≠ .waiting) : s.settle = s := by
  have hfail : s.failing = none := List.findSome?_eq_none_iff.2 fun d hd => if_pos (h d hd)
  have hsat : s.satisfied = none := List.findSome?_eq_none_iff.2 fun d hd => if_pos (h d hd)
  have hnote : s.ring.flight.map s.noteWait = s.ring.flight :=
    (List.map_congr_left fun d hd => if_neg (h d hd)).trans (List.map_id _)
  simp only [State.settle, failWaits_self hfail, satWaits_self hsat, State.noteWaits, hnote]

theorem signalResults_self (h : s.seen.signals = []) : signalResults s = s := by
  simp [signalResults, h]

theorem markResults_self (h : s.seen.marks = []) : markResults s = s := by
  simp [markResults, h]

/-- The end of a quiet cycle only forgets what was seen in it. -/
theorem cycleEnd_quiet (h : Safety.Quiet s) : cycleEnd s = { s with seen := ⟨[], false, [], [], []⟩ } := by
  obtain ⟨hlatch, hwait, hsig, hmark, -⟩ := h
  have hring : { s.ring with latched := [] } = s.ring := by rw [← hlatch]
  simp only [cycleEnd, stopLatched_self hlatch, settle_self hwait, hlatch, List.foldl_nil, signalResults_self hsig,
    markResults_self hmark, hring]

/-! ### What else the end of a cycle resolves (R167, R189, R250, R480, R509) -/

theorem heldLatches_self (h : ∀ n < 6, (s.snsAt n).hold = none) : heldLatches s = s :=
  foldl_self fun n hn => by rw [heldLatch, h n (List.mem_range.1 hn)]

theorem resolveAll_self (h : ∀ n < 6, (s.slotOf n).asks = []) : resolveAll s = s :=
  foldl_self fun n hn => if_pos (by rw [h n (List.mem_range.1 hn)]; rfl)

theorem torqueDues_self (h : ∀ n < 6, (s.slotOf n).off = none) : torqueDues s = s :=
  foldl_self fun n hn => by rw [torqueDue, h n (List.mem_range.1 hn)]

theorem lostRecord_self (h : s.tel.qlost = 0) : lostRecord s = s := if_pos (by simp [h])

theorem loadWrites_self (h : ∀ j ∈ s.sig, j.stage ≠ .writes) : loadWrites s = s := by
  have hnil : s.sig.filter (·.stage = .writes) = [] := List.filter_eq_nil_iff.2 fun j hj => by simpa using h j hj
  rw [loadWrites, hnil, List.foldl_nil]

/-- Only a byte store changes where a CRC word is zeroed. -/
theorem zeroCrc_eq (s : State) (b : Bool) : ∃ m, zeroCrc s b = { s with pwr := { s.pwr with mram := m } } := ⟨_, rfl⟩

/-- No erase is in progress at the end of a cycle, and without one nothing of the lehr store changes (R480). -/
theorem eraseDone_eq (s : State) : ∃ p : Pwr, eraseDone s = { s with pwr := p } ∧ p.erasing = false ∧
    (s.pwr.erasing = false → p = s.pwr) := by
  cases h : s.pwr.erasing with
  | false => exact ⟨s.pwr, if_neg (by rw [h]; decide), h, fun _ => rfl⟩
  | true =>
    obtain ⟨m, hm⟩ := zeroCrc_eq s false
    obtain ⟨k, hk⟩ := zeroCrc_eq (zeroCrc s false) true
    refine ⟨{ s.pwr with mram := k, erasing := false }, ?_, rfl, by simp⟩
    rw [eraseDone, if_pos h, hk, hm]

/-- The cycle counter advances, and DTIME with it once the tick PLL has locked, while TCLK runs (R63). -/
def timeCounts (s : State) : State :=
  { s with cyc := s.cyc + 1, dtime := if s.dtimeOn = true ∧ 3 ≤ s.pstate then s.dtime + 1 else s.dtime }

theorem nextCycle_eq (s : State) : nextCycle s =
    loadWrites (torqueDues (timeCounts (lostRecord (eraseDone (cycleEnd (resolveAll (heldLatches s))))))) := by
  rw [nextCycle]
  generalize lostRecord (eraseDone (cycleEnd (resolveAll (heldLatches s)))) = u
  refine congrArg (fun t => loadWrites (torqueDues t)) ?_
  have hb : (u.dtimeOn && decide (3 ≤ u.pstate)) = true ↔ u.dtimeOn = true ∧ 3 ≤ u.pstate := by simp
  by_cases h : u.dtimeOn = true ∧ 3 ≤ u.pstate
  · rw [timeCounts, if_pos h]
    exact if_pos (hb.2 h)
  · rw [timeCounts, if_neg h]
    exact if_neg fun k => h (hb.1 k)

/-- A quiet cycle: what was seen in it is forgotten, an erase of the lehr store ends, time counts (R63, R480), and that is all. -/
theorem nextCycle_quiet (h : Safety.Quiet s) : ∃ p : Pwr, p.erasing = false ∧ (s.pwr.erasing = false → p = s.pwr) ∧
    nextCycle s = timeCounts { s with seen := ⟨[], false, [], [], []⟩, pwr := p } := by
  obtain ⟨p, herase, hoff, hsame⟩ := eraseDone_eq (cycleEnd s)
  have hend := cycleEnd_quiet h
  obtain ⟨-, -, -, -, haxis, hsig, hlost⟩ := h
  rw [hend] at herase hsame
  let u : State := { s with seen := ⟨[], false, [], [], []⟩, pwr := p }
  have hu : eraseDone (cycleEnd (resolveAll (heldLatches s))) = u := by
    rw [heldLatches_self fun n hn => (haxis n hn).1, resolveAll_self fun n hn => (haxis n hn).2.1, hend, herase]
  have hrecord : lostRecord u = u := lostRecord_self hlost
  have htorque : torqueDues (timeCounts u) = timeCounts u := torqueDues_self fun n hn => (haxis n hn).2.2
  have hwrites : loadWrites (timeCounts u) = timeCounts u := loadWrites_self hsig
  exact ⟨p, hoff, hsame, by rw [nextCycle_eq, hu, hrecord, htorque, hwrites]⟩

end

theorem step_idle {s : State} (h : s.pending = []) : step s = .next (idleCycle s) := by rw [step, h]

/-- Settles O2: a step with an empty queue is the end of a cycle, and nothing in a quiet one is left to be resolved. -/
theorem idleCycleCounts : Obligations.IdleCycleCounts := by
  intro s hpending
  have hstep (hrun : s.pwr.hold = .running) : step s = .next (nextCycle s) := by rw [step_idle hpending, idleCycle, if_pos hrun]
  refine ⟨hstep, fun hrun hquiet => ?_, fun hheld => by rw [step_idle hpending, idleCycle, if_neg hheld]⟩
  obtain ⟨p, hoff, hsame, hnext⟩ := nextCycle_quiet hquiet
  refine ⟨_, (hstep hrun).trans (congrArg _ hnext), rfl, rfl, rfl, hoff, hsame, fun _ _ _ => rfl, fun q hq => ?_⟩
  cases q <;> first | exact absurd (by decide) hq | simp [Part.same, timeCounts]

end Sys2Proof.Proofs
end

section
/-!
PROOF. Runs of register writes: fields set one after another, and counters cleared together (R518).
-/

namespace Sys2Proof.Proofs
open Sys2Proof Sys2Proof.Machine Sys2Proof.Safety Sys2Proof.Laws

/-- Fields set one after another. -/
def putAll (s : State) (l : List (Field × Nat)) : State := l.foldl (fun s e => s.put e.1 e.2) s

theorem frame_putAll {ps : List Part} {p : Bits} {l : List (Field × Nat)} (s : State) (h : ∀ e ∈ l, Covers p e.1) :
    Frame ps p s (putAll s l) := frame_foldl_mem fun e he _ => frame_put e.1 e.2 (h e he)

/-- Fields with no bit in common, each set to a value that it can hold, read back as they were set. -/
theorem get_putAll {l : List (Field × Nat)} (s : State) (hp : (l.map Prod.fst).Pairwise fun f g => apart f g = true)
    (hf : ∀ e ∈ l, fits e.1 = true ∧ e.2 < 2 ^ e.1.width) : ∀ e ∈ l, (putAll s l).get e.1 = e.2 := by
  induction l generalizing s with
  | nil => simp
  | cons x r ih =>
    obtain ⟨hx, hr⟩ := List.pairwise_cons.1 hp
    have hfr : ∀ e ∈ r, fits e.1 = true ∧ e.2 < 2 ^ e.1.width := fun e he => hf e (by simp [he])
    obtain ⟨hfit, hlt⟩ := hf x (by simp)
    refine List.forall_mem_cons.2 ⟨?_, ih (s.put x.1 x.2) hr hfr⟩
    have hrest : Frame [] (bits (r.map Prod.fst)) (s.put x.1 x.2) (putAll (s.put x.1 x.2) r) :=
      frame_putAll _ fun a ha => covers_of_fits (List.mem_map_of_mem ha) (hfr a ha).1
    calc (putAll (s.put x.1 x.2) r).get x.1 = (s.put x.1 x.2).get x.1 := get_of_frame_bits hrest hx
      _ = x.2 % 2 ^ x.1.width := get_put_self s _ hfit
      _ = x.2 := Nat.mod_eq_of_lt hlt

/-- Counters cleared together. -/
def clrAll (s : State) (l : List Nat) : State := l.foldl State.clrReg s

theorem frame_clrAll (s : State) (l : List Nat) : Frame [] (words l) s (clrAll s l) :=
  frame_foldl_mem fun o ho _ => frame_setReg o _ fun _ => ho

/-- Each counter cleared reads what it counted in this cycle (R518). -/
theorem reg_clrAll {l : List Nat} (s : State) : ∀ o ∈ l, (clrAll s l).reg o = sget 0 s.seen.sets o := by
  induction l generalizing s with
  | nil => simp
  | cons x r ih =>
    intro o ho
    by_cases hr : o ∈ r
    · exact ih (s.clrReg x) o hr
    · obtain rfl := (List.mem_cons.1 ho).resolve_right hr
      exact (reg_of_frame (frame_clrAll (s.clrReg o) r) fun _ _ h => hr h).trans (reg_setReg_same _ _ _)

end Sys2Proof.Proofs
end

section
/-!
PROOF. CONTROL actions and the control registers (O37: R54, R233, R243, R250, R518).
-/

namespace Sys2Proof.Proofs
open Sys2Proof Sys2Proof.Machine Sys2Proof.Safety Sys2Proof.Laws

theorem slotOf_setCtl_same (s : State) (n : Nat) (x : Slot) : (s.setCtl n x).slotOf n = x := getD_lput_same _ _ _ _ _

theorem get_setCtl (s : State) (n : Nat) (x : Slot) (f : Field) : (s.setCtl n x).get f = s.get f := rfl

theorem frame_setCtl {ps : List Part} {p : Bits} (s : State) (n : Nat) (x : Slot) (h : .ctl ∈ ps) : Frame ps p s (s.setCtl n x) :=
  frame_part .ctl h rfl fun r hr => by cases r <;> first | exact absurd rfl hr | simp [Part.same]

/-- The requests that a CONTROL action raised join those of the cycle (R248 to R250). -/
theorem slotOf_slotPost (s : State) (n : Nat) : (slotPost s n).slotOf n = { s.slotOf n with
    post := [], asks := (s.slotOf n).asks ++ (s.slotOf n).post.map fun p => ⟨p.1, p.2, none, true⟩ } :=
  slotOf_setCtl_same s n _

/-! ### The write of the duties (R54, R233) -/

/-- The fields that slot n sets at its write time. -/
def dutyFields (n : Nat) : List Field :=
  [Fld.PWM_DUTY_AB_DA n, Fld.PWM_DUTY_AB_DB n, Fld.PWM_DUTY_C_DC n, Fld.CTL_DUTY_AB_DA n, Fld.CTL_DUTY_AB_DB n, Fld.CTL_DUTY_C_DC n,
    Fld.missOf n]

theorem fits_dutyFields : ∀ n < 6, ∀ f ∈ dutyFields n, fits f = true := by decide

theorem apart_dutyFields : ∀ n < 6, (dutyFields n).Pairwise fun f g => apart f g = true := by decide

/-- Those fields with what they are set to: the three duties twice, and no miss. -/
def dutyPuts (n a b c : Nat) : List (Field × Nat) := (dutyFields n).zip [a, b, c, a, b, c, 0]

/-- A slot whose catch has not ended writes its duties and no more (R233). -/
theorem slotWrite_duties {s : State} {n a b c : Nat} (h : (s.slotOf n).duties = some [a, b, c]) (hs : (s.slotOf n).start = none) :
    slotWrite s n = (putAll s (dutyPuts n a b c)).setCtl n { s.slotOf n with duties := none } := by
  have hslot : (putAll s (dutyPuts n a b c)).slotOf n = s.slotOf n := rfl
  simp only [slotWrite, h]
  refine Eq.trans ?_ (congrArg (fun x : Slot => (putAll s (dutyPuts n a b c)).setCtl n { x with duties := none }) hslot)
  split
  case h_1 k hk => exact absurd (hk.symm.trans hs) (by simp)
  case h_2 => rfl

theorem slotWrite_meets {s : State} {n a b c : Nat} (hn : n < 6) (h : (s.slotOf n).duties = some [a, b, c])
    (hs : (s.slotOf n).start = none) (ha : a < 2 ^ 16) (hb : b < 2 ^ 16) (hc : c < 2 ^ 16) :
    let t := slotWrite s n
    (∀ e ∈ dutyPuts n a b c, t.get e.1 = e.2) ∧ (t.slotOf n).duties = none ∧ Frame [.ctl] (bits (dutyFields n)) s t := by
  have hfst : (dutyPuts n a b c).map Prod.fst = dutyFields n := rfl
  have hfit : ∀ e ∈ dutyPuts n a b c, fits e.1 = true := fun e he =>
    fits_dutyFields n hn e.1 (hfst ▸ List.mem_map_of_mem he)
  have hval : ∀ e ∈ dutyPuts n a b c, e.2 < 2 ^ e.1.width := by
    have hmiss : (Fld.missOf n).width = 4 := by simp only [Machine.Field.width, Fld.missOf]; omega
    simp only [dutyPuts, dutyFields, List.zip_cons_cons, List.zip_nil_left, List.forall_mem_cons, List.not_mem_nil, false_imp_iff,
      implies_true, and_true]
    exact ⟨ha, hb, hc, ha, hb, hc, by rw [hmiss]; decide⟩
  rw [slotWrite_duties h hs]
  refine ⟨fun e he => (get_setCtl _ _ _ _).trans
    (get_putAll s (hfst ▸ apart_dutyFields n hn) (fun e he => ⟨hfit e he, hval e he⟩) e he), ?_, ?_⟩
  · rw [slotOf_setCtl_same]
  · exact frame_trans (frame_putAll s fun e he => covers_of_fits (hfst ▸ List.mem_map_of_mem he) (hfit e he))
      (frame_setCtl _ _ _ (by simp))

/-! ### CTL_DMAX (R243) -/

/-- A field in the low sixteen bits of a word. -/
theorem field_get_low16 {f : Field} (h : f.lo = 0) (k : f.hi = 15) (v : Word) : f.get v = v.toNat % 2 ^ 16 := by
  simp [Field.get, bitsOf, h, k]

theorem ctlDmaxWrite_meets (s : State) (n : Nat) (v : Word) :
    let x := v.toNat % 2 ^ 16
    let lim := s.get (Fld.FUS_FMAX_FMAX n)
    (x < 0x8000 → ctlDmaxWrite s n v = s) ∧
    (0x8000 ≤ x → let t := ctlDmaxWrite s n v
      t.get (Fld.CTL_DMAX_DMAX n) = min x lim ∧ t.flag (Fld.CTL_DMAX_CLAMPED n) = decide (lim < x) ∧
        Frame [] (bits [Fld.CTL_DMAX_DMAX n, Fld.CTL_DMAX_CLAMPED n]) s t) := by
  have hx : (Fld.CTL_DMAX_DMAX n).get v = v.toNat % 2 ^ 16 := field_get_low16 rfl rfl v
  intro x lim
  refine ⟨fun h => if_pos (by rw [hx]; exact h), fun h => ?_⟩
  have ht : ctlDmaxWrite s n v = (s.put (Fld.CTL_DMAX_DMAX n) (min x lim)).putB (Fld.CTL_DMAX_CLAMPED n) (decide (lim < x)) := by
    simp only [ctlDmaxWrite, hx]
    exact if_neg (by omega)
  have hlt : min x lim < 2 ^ 16 := by have := Nat.mod_lt v.toNat (show 0 < 2 ^ 16 by decide); omega
  rw [ht]
  exact ⟨(get_put_apart _ _ rfl rfl).trans ((get_put_self s _ rfl).trans (Nat.mod_eq_of_lt hlt)), flag_putB_self _ _ rfl rfl,
    frame_then_putB (frame_put _ _ (covers_of_fits (by simp) rfl)) _ _ (covers_of_fits (by simp) rfl)⟩

/-! ### The commands -/

section
variable {s : State} (hrun : s.pwr.hold = .running)
include hrun

theorem exec_controlStart {i : Fin 64} (h : s.mayStart i 5 = true) :
    exec (.controlStart i) s = .next ((s.actAxes i).foldl slotAct (s.startAction i)) := by
  show execControlStart i s = _
  rw [execControlStart, act_running _ _ hrun, if_pos h]

theorem exec_controlDutyWrite {i : Fin 64} (hl : s.live i = true) (ht : actType s.plan i = 5) : exec (.controlDutyWrite i) s =
    .next ((s.actAxes i).foldl slotPost (actionDone ((s.actAxes i).foldl slotWrite s) i)) := by
  show execControlDutyWrite i s = _
  rw [execControlDutyWrite, act_running _ _ hrun, if_pos (by simp [hl, ht])]

theorem exec_ctlDmaxWrite {n : Fin 6} (h : s.served (Reg.CTL_DMAX n) = true) (v : Word) :
    exec (.ctlDmaxWrite n v) s = .next (ctlDmaxWrite s n v) := by
  show execCtlDmaxWrite n v s = _
  rw [execCtlDmaxWrite, act_running _ _ hrun, if_pos h]

theorem exec_ctlCntClr {n : Fin 6} (h : s.served (Reg.CTL_CNT_CLR n) = true) :
    exec (.ctlCntClr n) s = .next (clrAll s [Reg.CTL_CNT n, Reg.CTL_CNT2 n]) := by
  show execCtlCntClr n s = _
  rw [execCtlCntClr, act_running _ _ hrun, if_pos h]
  rfl

end

/-- Settles O37: the start and the write of a CONTROL action, then CTL_DMAX and the CLR of the counters. -/
theorem controlActions : Obligations.ControlActions := by
  intro s hrun
  refine ⟨fun i => exec_controlStart hrun, fun i => exec_controlDutyWrite hrun, fun n _ => slotOf_slotPost s n,
    fun n a b c hd hs ha hb hc => ?_, fun n v h => ?_, fun n h => ?_⟩
  · obtain ⟨hget, hnone, hframe⟩ := slotWrite_meets n.isLt hd hs ha hb hc
    simp only [dutyPuts, dutyFields, List.zip_cons_cons, List.zip_nil_left, List.forall_mem_cons, List.not_mem_nil, false_imp_iff,
      implies_true, and_true] at hget
    obtain ⟨h1, h2, h3, h4, h5, h6, h7⟩ := hget
    exact ⟨h1, h2, h3, h4, h5, h6, h7, hnone, hframe⟩
  · obtain ⟨hlow, hhigh⟩ := ctlDmaxWrite_meets s n v
    rw [exec_ctlDmaxWrite hrun h]
    exact ⟨fun h => congrArg _ (hlow h), fun h => ⟨_, rfl, hhigh h⟩⟩
  · exact ⟨_, exec_ctlCntClr hrun h, reg_clrAll s, frame_clrAll s _⟩

end Sys2Proof.Proofs
end

section
/-!
PROOF. Sample sets: what a SAR latch leaves in the sample registers (for O38: R183 to R189, R198, R199).
-/

namespace Sys2Proof.Proofs
open Sys2Proof Sys2Proof.Machine Sys2Proof.Safety Sys2Proof.Laws

theorem snsAt_setSns_same (s : State) (n : Nat) (x : Sns) : (s.setSns n x).snsAt n = x := getD_lput_same _ _ _ _ _

theorem frame_setSns {ps : List Part} {p : Bits} (s : State) (n : Nat) (x : Sns) (h : .sns ∈ ps) : Frame ps p s (s.setSns n x) :=
  frame_part .sns h rfl fun r hr => by cases r <;> first | exact absurd rfl hr | simp [Part.same]

theorem frame_setMod {ps : List Part} {p : Bits} (s : State) (k : Nat) (x : Mod) (h : .mods ∈ ps) : Frame ps p s (s.setMod k x) :=
  frame_part .mods h rfl fun r hr => by cases r <;> first | exact absurd rfl hr | simp [Part.same]

theorem snsAt_of_frame {ps : List Part} {p : Bits} {s t : State} (h : Frame ps p s t) (hs : .sns ∉ ps) (n : Nat) :
    t.snsAt n = s.snsAt n := congrArg (fun l : List Sns => l.getD n Sns.init) (h.2 .sns hs)

theorem covers_words_of_fits {l : List Nat} {f : Field} (h : f.off ∈ l) (hf : fits f = true) : Covers (words l) f :=
  covers_words f h (fits_iff.1 hf).1 (fits_iff.1 hf).2

/-! ### The sample registers (R199) -/

/-- The words that hold the values of a set. -/
def valueWords (n : Nat) : List Nat := [Reg.SNS_IAB n, Reg.SNS_ICV n, Reg.SNS_VAB n, Reg.SNS_VC n, Reg.SNS_SC n]

/-- The values of a set, shown in their words. -/
def valuesShown (s : State) (n : Nat) (iab icv vab vc sc : Word) : State :=
  ((((s.setReg (Reg.SNS_IAB n) iab).setReg (Reg.SNS_ICV n) icv).setReg (Reg.SNS_VAB n) vab).setReg (Reg.SNS_VC n) vc).setReg
    (Reg.SNS_SC n) sc

/-- The flags and ages of a set, in the order in which they are set. -/
def flagFields (n : Nat) (t : Trig) (x : SampleSet) (age : Nat) : List (Field × Nat) :=
  [(Fld.SNS_FLAGS_IDX n, if t.idx.isSome then 1 else 0), (Fld.SNS_FLAGS_STALE n, 0), (Fld.SNS_FLAGS_CLIP n, x.clip),
    (Fld.SNS_FLAGS_VALID n, x.valid), (Fld.SNS_AGE_MOD_AGE n, x.modAge), (Fld.SNS_AGE_SC_AGE n, age)]

/-- The flags and ages of a set, and an index capture. -/
def flagsShown (s : State) (n : Nat) (t : Trig) (x : SampleSet) (age : Nat) : State :=
  match t.idx with
  | some q => (putAll s (flagFields n t x age)).setReg (Reg.SNS_QIDX n) q
  | none => putAll s (flagFields n t x age)

section
variable (s : State) (n : Nat)

/-- SEQ, the values, the count, then the flags. -/
theorem showSet_eq (t : Trig) (x : SampleSet) (chans : List Chan) (age : Nat) :
    ∃ iab icv vab vc sc : Word, showSet s n t x chans age =
      flagsShown ((valuesShown (s.put (Fld.SNS_SEQ_SEQ n) (x.tick % 2 ^ 16)) n iab icv vab vc sc).setReg (Reg.SNS_QPOS n) x.qpos)
        n t x age := ⟨_, _, _, _, _, rfl⟩

theorem frame_valuesShown (iab icv vab vc sc : Word) :
    Frame [] (words (valueWords n)) s (valuesShown s n iab icv vab vc sc) := by
  have hw (o : Nat) (h : o ∈ valueWords n) (b : Nat) : words (valueWords n) o b := h
  refine frame_then_setReg (frame_then_setReg (frame_then_setReg (frame_then_setReg (frame_setReg _ _ (hw _ ?_)) _ _ (hw _ ?_))
    _ _ (hw _ ?_)) _ _ (hw _ ?_)) _ _ (hw _ ?_) <;> simp [valueWords]

theorem frame_flagsShown (t : Trig) (x : SampleSet) (age : Nat) :
    Frame [] (words [Reg.SNS_FLAGS n, Reg.SNS_AGE n, Reg.SNS_QIDX n]) s (flagsShown s n t x age) := by
  have hputs : Frame [] (words [Reg.SNS_FLAGS n, Reg.SNS_AGE n, Reg.SNS_QIDX n]) s (putAll s (flagFields n t x age)) := by
    refine frame_putAll s fun e he => ?_
    have hword : e.1.off ∈ [Reg.SNS_FLAGS n, Reg.SNS_AGE n, Reg.SNS_QIDX n] ∧ fits e.1 = true := by
      simp only [flagFields, List.mem_cons, List.not_mem_nil, or_false] at he
      rcases he with rfl | rfl | rfl | rfl | rfl | rfl
      · exact ⟨.head _, rfl⟩
      · exact ⟨.head _, rfl⟩
      · exact ⟨.head _, rfl⟩
      · exact ⟨.head _, rfl⟩
      · exact ⟨.tail _ (.head _), rfl⟩
      · exact ⟨.tail _ (.head _), rfl⟩
    exact covers_words_of_fits hword.1 hword.2
  unfold flagsShown
  split
  · exact frame_then_setReg hputs _ _ fun _ => .tail _ (.tail _ (.head _))
  · exact hputs

/-- The words of an axis that a set is shown in. -/
def setWords (n : Nat) : List Nat :=
  [Reg.SNS_SEQ n, Reg.SNS_IAB n, Reg.SNS_ICV n, Reg.SNS_VAB n, Reg.SNS_VC n, Reg.SNS_SC n, Reg.SNS_QPOS n, Reg.SNS_FLAGS n,
    Reg.SNS_AGE n, Reg.SNS_QIDX n]

/-- What the sample registers show of a set (R199). -/
theorem showSet_meets (t : Trig) (x : SampleSet) (chans : List Chan) (age : Nat) :
    let u := showSet s n t x chans age
    u.reg (Reg.SNS_QPOS n) = x.qpos ∧ u.get (Fld.SNS_SEQ_SEQ n) = x.tick % 2 ^ 16 ∧ Frame [] (words (setWords n)) s u := by
  obtain ⟨iab, icv, vab, vc, sc, hu⟩ := showSet_eq s n t x chans age
  let q := s.put (Fld.SNS_SEQ_SEQ n) (x.tick % 2 ^ 16)
  let v := valuesShown q n iab icv vab vc sc
  let w := v.setReg (Reg.SNS_QPOS n) x.qpos
  have hflags := frame_flagsShown w n t x age
  have hvalues : Frame [] (words (valueWords n)) q v := frame_valuesShown q n iab icv vab vc sc
  have hseq : q.get (Fld.SNS_SEQ_SEQ n) = x.tick % 2 ^ 16 := (get_put_self s _ rfl).trans (Nat.mod_mod _ _)
  have hword : Reg.SNS_SEQ n ≠ Reg.SNS_QPOS n := by simp only [Reg.SNS_SEQ, Reg.SNS_QPOS]; omega
  simp only [hu]
  refine ⟨?_, ?_, ?_⟩
  · refine (reg_of_frame hflags fun b _ h => ?_).trans (reg_setReg_same v _ _)
    simp [words, Reg.SNS_QPOS, Reg.SNS_FLAGS, Reg.SNS_AGE, Reg.SNS_QIDX] at h
  · calc (flagsShown w n t x age).get (Fld.SNS_SEQ_SEQ n) = w.get (Fld.SNS_SEQ_SEQ n) := get_of_frame hflags fun b _ _ h => by
          simp [words, Fld.SNS_SEQ_SEQ, Reg.SNS_SEQ, Reg.SNS_FLAGS, Reg.SNS_AGE, Reg.SNS_QIDX] at h
      _ = v.get (Fld.SNS_SEQ_SEQ n) := congrArg (Field.get _) (reg_setReg_ne v _ _ _ hword)
      _ = q.get (Fld.SNS_SEQ_SEQ n) := get_of_frame hvalues fun b _ _ h => by
          simp [words, valueWords, Fld.SNS_SEQ_SEQ, Reg.SNS_SEQ, Reg.SNS_IAB, Reg.SNS_ICV, Reg.SNS_VAB, Reg.SNS_VC, Reg.SNS_SC] at h
      _ = x.tick % 2 ^ 16 := hseq
  · have hsub {l : List Nat} (h : l ⊆ setWords n) (o b : Nat) (k : words l o b) : words (setWords n) o b := h k
    have hput : Frame [] (words (setWords n)) s q := frame_put _ _ (covers_words_of_fits (.head _) rfl)
    refine frame_trans (frame_then_setReg (frame_trans hput (frame_mono hvalues (fun _ h => h) (hsub ?_))) _ _ fun _ => ?_)
      (frame_mono hflags (fun _ h => h) (hsub ?_))
    · simp [valueWords, setWords]
    · exact (by simp [setWords] : Reg.SNS_QPOS n ∈ setWords n)
    · simp [setWords]

/-! ### The SAR latch (R183, R184, R189) -/

/-- The modulator inputs of a trigger keep its valid values (Table 7.1). -/
def goodKept (s : State) (t : Trig) (chans : List Chan) : State :=
  t.taps.foldl (fun s tap =>
    if tap.valid && !tap.held then s.setMod tap.k { s.modAt tap.k with good := ((chans[tap.chan]?).map (·.p)).getD 0 } else s) s

theorem frame_goodKept (t : Trig) (chans : List Chan) : Frame [.mods] (bits []) s (goodKept s t chans) :=
  frame_foldl_mem fun _ _ s => frame_ite_right (frame_refl s) fun _ => frame_setMod _ _ _ (by simp)

/-- A pair out of its band is reported (R189). -/
def ampChecked (s : State) (n : Nat) (t : Trig) (pair : Option Pair) : State :=
  match pair with
  | some p => if (Fld.SNS_CFG_SC_EN 0).get t.cfg = 1 && !s.pairInBand n p then s.irqBit Fld.SNS_IRQ_STATUS_SCAMP n else s
  | none => s

theorem frame_ampChecked (hn : n < 6) (t : Trig) (pair : Option Pair) :
    Frame [.msix] (orBits pba (bits [Fld.SNS_IRQ_STATUS_SCAMP])) s (ampChecked s n t pair) := by
  unfold ampChecked
  split
  · refine frame_ite_right (frame_refl s) fun _ => frame_irqBit _ _ (.inr ⟨_, List.mem_singleton.2 rfl, rfl, ?_⟩) (fun _ _ h => .inl h)
      (by simp)
    simp only [Fld.SNS_IRQ_STATUS_SCAMP]
    omega
  · exact frame_refl s

/-- Which triggers still wait does not matter to the set that is formed. -/
theorem formSet_trigs (r : List Trig) (t : Trig) (codes : List Int) :
    formSet (s.setSns n { s.snsAt n with trigs := r }) n t codes = formSet s n t codes := by
  simp only [formSet, snsAt_setSns_same]
  rfl

/-- The newest set of an axis takes its place before the others. -/
def setKept (s : State) (n : Nat) (x : SampleSet) : State :=
  s.setSns n { s.snsAt n with sets := x :: (s.snsAt n).sets.take 2 }

/-- A trigger whose SAMPLE action overran has its set discarded (R198). -/
theorem latchSet_late {g : Trig} {rest : List Trig} (h : (s.snsAt n).trigs = g :: rest) (hg : g.late = true) (codes : List Int) :
    latchSet s n codes = s.setSns n { s.snsAt n with trigs := rest } := by
  simp only [latchSet, h, hg, if_true]

/-- The set of the oldest trigger is formed, shown and kept. -/
theorem latchSet_formed {g : Trig} {rest : List Trig} (h : (s.snsAt n).trigs = g :: rest) (hg : g.late = false) (codes : List Int) :
    let f := formSet s n g codes
    let t := showSet (s.setSns n { s.snsAt n with trigs := rest }) n g f.1 f.2.1 f.2.2
    latchSet s n codes = setKept (ampChecked (goodKept t g f.2.1) n g (s.snsAt n).pair) n f.1 := by
  simp only [latchSet, h, hg, formSet_trigs]
  rfl

/-- What a SAR latch leaves (R183, R184, R189, R199). -/
theorem latchSet_meets (hn : n < 6) {g : Trig} {rest : List Trig} (h : (s.snsAt n).trigs = g :: rest) (codes : List Int) :
    let x := (formSet s n g codes).1
    let u := latchSet s n codes
    (u.snsAt n).trigs = rest ∧ (g.late = true → Frame [.sns] (bits []) s u) ∧
    (g.late = false → (u.snsAt n).sets = x :: (s.snsAt n).sets.take 2 ∧ u.reg (Reg.SNS_QPOS n) = x.qpos ∧
      u.get (Fld.SNS_SEQ_SEQ n) = g.tick % 2 ^ 16 ∧
      Frame [.sns, .mods, .msix] (orBits pba (orBits (bits [Fld.SNS_IRQ_STATUS_SCAMP]) (words (setWords n)))) s u) := by
  intro x u
  cases hg : g.late with
  | true =>
    have hu : u = _ := latchSet_late s n h hg codes
    refine ⟨?_, fun _ => ?_, by simp⟩
    · rw [hu, snsAt_setSns_same]
    · rw [hu]; exact frame_setSns _ _ _ (by simp)
  | false =>
    have hu : u = _ := latchSet_formed s n h hg codes
    let a := s.setSns n { s.snsAt n with trigs := rest }
    let f := formSet s n g codes
    let t := showSet a n g f.1 f.2.1 f.2.2
    let k := goodKept t g f.2.1
    let c := ampChecked k n g (s.snsAt n).pair
    obtain ⟨hqpos, hseq, hshow⟩ := showSet_meets a n g f.1 f.2.1 f.2.2
    have hgood : Frame [.mods] (bits []) t k := frame_goodKept t g f.2.1
    have hamp : Frame [.msix] (orBits pba (bits [Fld.SNS_IRQ_STATUS_SCAMP])) k c := frame_ampChecked k n hn g _
    have hc : c.snsAt n = { s.snsAt n with trigs := rest } :=
      (snsAt_of_frame hamp (by simp) n).trans ((snsAt_of_frame hgood (by simp) n).trans
        ((snsAt_of_frame hshow (by simp) n).trans (snsAt_setSns_same _ _ _)))
    have hreg (o : Nat) (ho : 0x61050 ≤ o) : u.reg o = t.reg o := by
      rw [hu]
      refine (reg_of_frame hamp fun b hb hbit => ?_).trans (reg_of_frame hgood fun b _ hbit => ?_)
      · rcases hbit with hbit | ⟨e, he, ho', -⟩
        · exact not_pba_of_outside (.inr (by omega)) b hb hbit
        · obtain rfl := List.mem_singleton.1 he
          simp only [Fld.SNS_IRQ_STATUS_SCAMP, Reg.SNS_IRQ_STATUS] at ho'
          omega
      · obtain ⟨e, he, -⟩ := hbit
        simp at he
    have hsns : u.snsAt n = { s.snsAt n with trigs := rest, sets := f.1 :: (s.snsAt n).sets.take 2 } := by
      rw [hu, setKept, snsAt_setSns_same, hc]
    refine ⟨by rw [hsns], by simp, fun _ => ⟨by rw [hsns], (hreg _ ?_).trans hqpos, ?_, ?_⟩⟩
    · simp only [Reg.SNS_QPOS]; omega
    · refine Eq.trans (congrArg (Field.get _) (hreg _ ?_)) hseq
      simp only [Fld.SNS_SEQ_SEQ, Reg.SNS_SEQ]; omega
    · rw [hu]
      refine frame_trans (frame_trans (frame_trans (frame_trans (frame_setSns s n _ (by simp)) (frame_mono hshow (by simp) ?_))
        (frame_mono hgood (by simp) ?_)) (frame_mono hamp (by simp) ?_)) (frame_setSns _ _ _ (by simp))
      · exact fun _ _ h => .inr (.inr h)
      · rintro _ _ ⟨e, he, -⟩; simp at he
      · exact fun _ _ h => h.imp_right .inl

end

end Sys2Proof.Proofs
end

section
/-!
PROOF. Sample sets, the cull and the observers' inputs (O38: R48, R185, R189, R198, R206, R210, R221, R518).
-/

namespace Sys2Proof.Proofs
open Sys2Proof Sys2Proof.Machine Sys2Proof.Safety Sys2Proof.Laws

theorem obsAt_setObs_same (s : State) (n : Nat) (x : Obs) : (s.setObs n x).obsAt n = x := getD_lput_same _ _ _ _ _

theorem get_setObs (s : State) (n : Nat) (x : Obs) (f : Field) : (s.setObs n x).get f = s.get f := rfl

theorem frame_setObs {ps : List Part} {p : Bits} (s : State) (n : Nat) (x : Obs) (h : .obs ∈ ps) : Frame ps p s (s.setObs n x) :=
  frame_part .obs h rfl fun r hr => by cases r <;> first | exact absurd rfl hr | simp [Part.same]

/-! ### The cull (R210) -/

/-- The judgement of a speculation is kept with the validity of the set (R206, R210). -/
def judgedAs (s : State) (n : Nat) (ok : Bool) (sp : Spec) (culled : Bool) : State :=
  s.setObs n { s.obsAt n with setOk := some ok, spec := some { sp with judged := true, culled := culled } }

/-- The PROV words of an axis mark its four outputs as culled. -/
def cullMarks (n : Nat) : List (Field × Nat) := (List.range 4).map fun o => (Fld.OBS_PROV_CULLED n o, 1)

/-- A cull is counted, raises its interrupt and marks the four outputs. -/
def cullShown (s : State) (n : Nat) : State :=
  putAll ((s.incWrap (Fld.OBS_CULLCNT_CULLCNT n)).irqF Fld.OBS_IRQ_STATUS_CULL) (cullMarks n)

/-- The record of a cull: its reasons and the largest deviation. -/
def cullBytes (sp : Spec) (x : SampleSet) (why : Nat) : List Byte :=
  leBytes 1 15 ++ leBytes 1 why ++ leBytes 2 (min 0xFFFF (largestDev sp x).1) ++ leBytes 1 (largestDev sp x).2

section
variable {s : State} {n : Nat} {x : SampleSet} {sp : Spec} (hset : s.setN n = some x) (hrun : s.running = true)
  (haxis : bitOf s.axesInPlan n = true) (hok : (s.obsAt n).setOk = none) (hspec : (s.obsAt n).spec = some sp)
include hset hrun haxis hok hspec

/-- A speculation without a reason keeps only its judgement; one with a reason is also reported. -/
theorem obsLatch_judged :
    let why := if sp.dropped then 0 else cullReasons s n sp x (s.setValid n x)
    let j := judgedAs s n (s.setValid n x) sp (decide (why ≠ 0))
    (why = 0 → obsLatch s n = j) ∧ (why ≠ 0 → ∃ l, obsLatch s n = cullShown (j.tell 0x03 5 n l) n) := by
  intro why j
  have hstep : obsLatch s n = if why = 0 then j else cullShown (j.tell 0x03 5 n (cullBytes sp x why)) n := by
    simp only [obsLatch, hset, hrun, haxis, hok, hspec]
    rfl
  rw [hstep]
  exact ⟨fun h => if_pos h, fun h => ⟨_, if_neg h⟩⟩

end

/-- The marks of an axis: fields of one bit, apart from each other, from the count and from the interrupt. -/
theorem cullMarks_apart : ∀ n < 6, ((cullMarks n).map Prod.fst).Pairwise (fun f g => apart f g = true) ∧
    (∀ e ∈ cullMarks n, fits e.1 = true ∧ e.2 < 2 ^ e.1.width) ∧
    ∀ f ∈ (cullMarks n).map Prod.fst, apart (Fld.OBS_CULLCNT_CULLCNT n) f = true ∧ apart Fld.OBS_IRQ_STATUS_CULL f = true := by
  decide

theorem get_incWrap_self (s : State) {f : Field} (k : fits f = true) : (s.incWrap f).get f = (s.get f + 1) % 2 ^ f.width :=
  get_put_self s _ k

/-- What a cull leaves in the registers of its axis. -/
theorem cullShown_meets (s : State) {n : Nat} (hn : n < 6) :
    let u := cullShown s n
    u.get (Fld.OBS_CULLCNT_CULLCNT n) = (s.get (Fld.OBS_CULLCNT_CULLCNT n) + 1) % 2 ^ 32 ∧
      u.flag Fld.OBS_IRQ_STATUS_CULL = true ∧ (∀ o < 4, u.flag (Fld.OBS_PROV_CULLED n o) = true) ∧ u.obs = s.obs := by
  obtain ⟨hpair, hfit, hmark⟩ := cullMarks_apart n hn
  let c := s.incWrap (Fld.OBS_CULLCNT_CULLCNT n)
  let q := c.irqF Fld.OBS_IRQ_STATUS_CULL
  have hq : Frame [.msix] (orBits pba (bits [Fld.OBS_IRQ_STATUS_CULL])) c q := frame_irqF_listed c (by simp) rfl (by simp)
  have hputs : Frame [] (bits ((cullMarks n).map Prod.fst)) q (cullShown s n) :=
    frame_putAll q fun e he => covers_of_fits (List.mem_map_of_mem he) (hfit e he).1
  have hcount : q.get (Fld.OBS_CULLCNT_CULLCNT n) = c.get (Fld.OBS_CULLCNT_CULLCNT n) := by
    refine get_irqF_apart c rfl (apart_of_off ?_) (.inr ?_) <;>
      simp only [Fld.OBS_CULLCNT_CULLCNT, Fld.OBS_IRQ_STATUS_CULL, Reg.OBS_CULLCNT, Reg.OBS_IRQ_STATUS] <;> omega
  refine ⟨?_, ?_, fun o ho => ?_, (hputs.2 .obs (by simp)).trans (hq.2 .obs (by simp))⟩
  · exact (get_of_frame_bits hputs fun f hf => (hmark f hf).1).trans (hcount.trans (get_incWrap_self s rfl))
  · exact (flag_of_frame_bits hputs fun f hf => (hmark f hf).2).trans
      (flag_irqF c _ rfl (by decide) (not_pba_of_outside (by decide)))
  · have hone := get_putAll q hpair hfit (Fld.OBS_PROV_CULLED n o, 1) (List.mem_map.2 ⟨o, List.mem_range.2 ho, rfl⟩)
    simp only [State.flag]
    rw [show (cullShown s n).get (Fld.OBS_PROV_CULLED n o) = 1 from hone]
    rfl

/-- Telemetry changes no word of the observers (R509). -/
theorem not_tellBits_above {o : Nat} (h : 0x50000 ≤ o) (b : Nat) (hl : o < 0x100000) : ¬ tellBits o b := by
  rintro (k | ⟨f, hf, rfl, -⟩)
  · simp only [pba, Safety.range] at k; omega
  · have hw : ∀ f ∈ [Fld.LOG_LOSS_QLOST, Fld.LOG_IRQ_STATUS_QLOST], 0x100000 ≤ f.off := by decide
    have := hw f hf
    omega

/-- What the latch of a set leaves of the speculation of its axis (R206, R210). -/
theorem obsLatch_meets {s : State} {n : Nat} (hn : n < 6) {x : SampleSet} {sp : Spec} (hset : s.setN n = some x)
    (hrun : s.running = true) (haxis : bitOf s.axesInPlan n = true) (hok : (s.obsAt n).setOk = none)
    (hspec : (s.obsAt n).spec = some sp) :
    let why := if sp.dropped then 0 else cullReasons s n sp x (s.setValid n x)
    let u := obsLatch s n
    (u.obsAt n).setOk = some (s.setValid n x) ∧ (u.obsAt n).spec = some { sp with judged := true, culled := decide (why ≠ 0) } ∧
    (why = 0 → Frame [.obs] (bits []) s u) ∧
    (why ≠ 0 → u.get (Fld.OBS_CULLCNT_CULLCNT n) = (s.get (Fld.OBS_CULLCNT_CULLCNT n) + 1) % 2 ^ 32 ∧
      u.flag Fld.OBS_IRQ_STATUS_CULL = true ∧ ∀ o < 4, u.flag (Fld.OBS_PROV_CULLED n o) = true) := by
  intro why u
  let j := judgedAs s n (s.setValid n x) sp (decide (why ≠ 0))
  have hj : j.obsAt n = { s.obsAt n with
      setOk := some (s.setValid n x), spec := some { sp with judged := true, culled := decide (why ≠ 0) } } := obsAt_setObs_same s n _
  obtain ⟨hkeep, htell⟩ := obsLatch_judged hset hrun haxis hok hspec
  by_cases hwhy : why = 0
  · have hu : u = j := hkeep hwhy
    rw [hu, hj]
    exact ⟨rfl, rfl, fun _ => frame_setObs s n _ (by simp), fun h => absurd hwhy h⟩
  · obtain ⟨l, hl⟩ := htell hwhy
    have hu : u = cullShown (j.tell 0x03 5 n l) n := hl
    have ht := frame_tell_bits j 0x03 5 n l
    obtain ⟨hcount, hirq, hmarks, hobs⟩ := cullShown_meets (j.tell 0x03 5 n l) hn
    have hat : u.obsAt n = j.obsAt n := by
      rw [hu]
      exact congrArg (fun l : List Obs => l.getD n Obs.init) (hobs.trans (ht.2 .obs (by simp)))
    have hget : (j.tell 0x03 5 n l).get (Fld.OBS_CULLCNT_CULLCNT n) = s.get (Fld.OBS_CULLCNT_CULLCNT n) :=
      get_of_frame ht fun b _ _ => by
        apply not_tellBits_above <;> simp only [Fld.OBS_CULLCNT_CULLCNT, Reg.OBS_CULLCNT] <;> omega
    rw [hat, hj]
    refine ⟨rfl, rfl, fun h => absurd h hwhy, fun _ => ?_⟩
    rw [hu]
    exact ⟨hget ▸ hcount, hirq, hmarks⟩

/-! ### The slow temperature (R206) -/

/-- The fields that a write of OBS_TSLOW sets. -/
def tslowPuts (n : Nat) (v : Word) : List (Field × Nat) :=
  [(Fld.OBS_TSLOW_MAXAGE n, v.toNat / 2 ^ 24), (Fld.OBS_TSLOW_T n, v.toNat % 2 ^ 16), (Fld.OBS_TSLOW_AGE n, 0)]

theorem obsTslowWrite_eq (s : State) (n : Nat) (v : Word) : ∃ x, obsTslowWrite s n v = (putAll s (tslowPuts n v)).setObs n x := by
  have hage : (Fld.OBS_TSLOW_MAXAGE n).get v = v.toNat / 2 ^ 24 := by
    have := v.isLt
    simp only [Field.get, bitsOf, Fld.OBS_TSLOW_MAXAGE, Nat.shiftRight_eq_div_pow]
    omega
  have hval : (Fld.OBS_TSLOW_T n).get v = v.toNat % 2 ^ 16 := field_get_low16 rfl rfl v
  rw [obsTslowWrite, hage, hval]
  exact ⟨_, rfl⟩

theorem tslowPuts_fit (n : Nat) (v : Word) :
    ∀ e ∈ tslowPuts n v, e.1.off ∈ [Reg.OBS_TSLOW n] ∧ fits e.1 = true ∧ e.2 < 2 ^ e.1.width := by
  have hage : v.toNat / 2 ^ 24 < 2 ^ (Fld.OBS_TSLOW_MAXAGE n).width := by
    rw [show (Fld.OBS_TSLOW_MAXAGE n).width = 8 from rfl]
    have := v.isLt
    omega
  have hval : v.toNat % 2 ^ 16 < 2 ^ (Fld.OBS_TSLOW_T n).width := by
    rw [show (Fld.OBS_TSLOW_T n).width = 16 from rfl]
    omega
  simp only [tslowPuts, List.forall_mem_cons, List.not_mem_nil, false_imp_iff, implies_true, and_true]
  exact ⟨⟨.head _, rfl, hage⟩, ⟨.head _, rfl, hval⟩, .head _, rfl, Nat.two_pow_pos _⟩

theorem obsTslowWrite_meets (s : State) (n : Nat) (v : Word) :
    let t := obsTslowWrite s n v
    t.get (Fld.OBS_TSLOW_T n) = v.toNat % 2 ^ 16 ∧ t.get (Fld.OBS_TSLOW_MAXAGE n) = v.toNat / 2 ^ 24 ∧
      t.get (Fld.OBS_TSLOW_AGE n) = 0 ∧ Frame [.obs] (words [Reg.OBS_TSLOW n]) s t := by
  obtain ⟨x, hx⟩ := obsTslowWrite_eq s n v
  have hpair : ((tslowPuts n v).map Prod.fst).Pairwise fun f g => apart f g = true := by
    simp [tslowPuts, apart, Fld.OBS_TSLOW_MAXAGE, Fld.OBS_TSLOW_T, Fld.OBS_TSLOW_AGE]
  have hget := get_putAll s hpair fun e he => (tslowPuts_fit n v e he).2
  have hframe : Frame [.obs] (words [Reg.OBS_TSLOW n]) s ((putAll s (tslowPuts n v)).setObs n x) := by
    refine frame_trans (frame_putAll s fun e he => ?_) (frame_setObs _ _ _ (by simp))
    obtain ⟨hoff, hfit, -⟩ := tslowPuts_fit n v e he
    exact covers_words_of_fits hoff hfit
  rw [hx]
  exact ⟨(get_setObs _ _ _ _).trans (hget (_, _) (.tail _ (.head _))), (get_setObs _ _ _ _).trans (hget (_, _) (.head _)),
    (get_setObs _ _ _ _).trans (hget (_, _) (.tail _ (.tail _ (.head _)))), hframe⟩

/-! ### The thermal state (R221) -/

theorem toNat_halves (hi lo : Int) : (halves hi lo).toNat = lowBits 16 hi * 2 ^ 16 + lowBits 16 lo := by
  simp only [halves, BitVec.toNat_ofNat, lowBits]
  omega

/-- A half word taken as a signed number has its own bits. -/
theorem lowBits_sgn {x : Nat} (h : x < 2 ^ 16) : lowBits 16 (sgn 16 x) = x := by
  simp only [lowBits, sgn]
  split <;> omega

/-- A state loaded with no fraction shows the number that was loaded. -/
theorem satS_rsh_sgn (x : Nat) : satS 16 (rsh (sgn 16 x * 2 ^ 16) 16) = sgn 16 x := by
  simp only [satS, rsh, sgn]
  split <;> omega

theorem thermLoad_meets (s : State) (n : Nat) :
    let t := thermLoad s n
    (t.obsAt n).tw = sgn 16 (s.get (Fld.OBS_THINIT_TW n)) * 2 ^ 16 ∧ (t.obsAt n).thh = sgn 16 (s.get (Fld.OBS_THINIT_TH n)) * 2 ^ 16 ∧
      t.get (Fld.OBS_THSTATE_TW n) = s.get (Fld.OBS_THINIT_TW n) ∧ Frame [.obs] (words [Reg.OBS_THSTATE n]) s t := by
  intro t
  let tw := sgn 16 (s.get (Fld.OBS_THINIT_TW n)) * 2 ^ 16
  let th := sgn 16 (s.get (Fld.OBS_THINIT_TH n)) * 2 ^ 16
  let o := { s.obsAt n with tw := tw, thh := th, thload := false }
  have ht : t = showTherm (s.setObs n o) n := rfl
  have hobs : t.obsAt n = o := obsAt_setObs_same s n o
  have hword : t.reg (Reg.OBS_THSTATE n) = halves (satS 16 (rsh th 16)) (satS 16 (rsh tw 16)) := by
    rw [ht, showTherm, reg_setReg_same, obsAt_setObs_same]
  refine ⟨by rw [hobs], by rw [hobs], ?_, frame_then_setReg (frame_setObs s n _ (by simp)) _ _ fun _ => .head _⟩
  have hget : t.get (Fld.OBS_THSTATE_TW n) = (t.reg (Reg.OBS_THSTATE n)).toNat % 2 ^ 16 := field_get_low16 rfl rfl _
  have hlow : lowBits 16 (sgn 16 (s.get (Fld.OBS_THINIT_TW n))) = s.get (Fld.OBS_THINIT_TW n) := lowBits_sgn (field_get_lt _ _)
  rw [hget, hword, toNat_halves, satS_rsh_sgn, satS_rsh_sgn, hlow, Nat.mul_add_mod']
  exact Nat.mod_eq_of_lt (field_get_lt _ _)

/-! ### The commands -/

section
variable {s : State} (hrun : s.pwr.hold = .running)
include hrun

theorem exec_sampleStart {i : Fin 64} (h : s.mayStart i 1 = true) :
    exec (.sampleStart i) s = .next (sampleCheck (s.startAction i) i) := by
  show execSampleStart i s = _
  rw [execSampleStart, act_running _ _ hrun, if_pos h]

theorem exec_sarLatch (n : Fin 6) (volts : Vector Int 7) :
    let l := volts.toList.map sarCode
    let waits := s.pairDue n = true ∧ (s.snsAt n).trigs ≠ []
    (waits → exec (.sarLatch n volts) s = .next (s.setSns n { s.snsAt n with hold := some l })) ∧
    (¬ waits → exec (.sarLatch n volts) s = .next (sarLatch s n l)) := by
  have hexec : exec (.sarLatch n volts) s = execSarLatch n volts s := rfl
  simp only [hexec, execSarLatch, act_running _ _ hrun, Bool.and_eq_true, Bool.not_eq_true', List.isEmpty_eq_false_iff]
  exact ⟨fun h => by rw [if_pos h], fun h => by rw [if_neg h]⟩

theorem exec_obsTslowWrite {n : Fin 6} (h : s.served (Reg.OBS_TSLOW n) = true) (v : Word) :
    exec (.obsTslowWrite n v) s = .next (obsTslowWrite s n v) := by
  show execObsTslowWrite n v s = _
  rw [execObsTslowWrite, act_running _ _ hrun, if_pos h]

theorem exec_obsThload {n : Fin 6} (h : s.served (Reg.OBS_CTRL n) = true) :
    exec (.obsThload n) s = .next (obsThload s n) := by
  show execObsThload n s = _
  rw [execObsThload, act_running _ _ hrun, if_pos h]

theorem exec_obsCtrlClr {n : Fin 6} (h : s.served (Reg.OBS_CTRL n) = true) : exec (.obsCtrlClr n) s =
    .next (clrAll s (Reg.OBS_CULLCNT n :: Reg.OBS_RECOMP n :: (List.range 4).map (Reg.OBS_OCNT n))) := by
  show execObsCtrlClr n s = _
  rw [execObsCtrlClr, act_running _ _ hrun, if_pos h]
  rfl

end

/-- A SAMPLE action that starts is done once each of its axes has this tick's set (R198). -/
theorem sampleCheck_startAction (s : State) (i : Nat) :
    ((∀ n ∈ s.actAxes i, s.setN n ≠ none) → sampleCheck (s.startAction i) i = actionDone (s.startAction i) i) ∧
    ((∃ n ∈ s.actAxes i, s.setN n = none) → sampleCheck (s.startAction i) i = s.startAction i) := by
  have hall : (((s.startAction i).actAxes i).all fun n => ((s.startAction i).setN n).isSome) = true ↔
      ∀ n ∈ s.actAxes i, s.setN n ≠ none := by
    rw [List.all_eq_true]
    exact forall₂_congr fun _ _ => Option.isSome_iff_ne_none
  exact ⟨fun h => if_pos (hall.2 h), fun ⟨n, hn, hnone⟩ => if_neg fun h => hall.1 h n hn hnone⟩

theorem heldLatch_held {s : State} {n : Nat} {l : List Int} (h : (s.snsAt n).hold = some l) :
    heldLatch s n = sarLatch (s.setSns n { s.snsAt n with hold := none }) n l := by
  simp only [heldLatch, h]

/-- Settles O38: the SAMPLE action and the SAR latch, then the cull, then the writes of the observers' inputs. -/
theorem setsAndCulls : Obligations.SetsAndCulls := by
  intro s hrun
  refine ⟨fun i h => ?_, exec_sarLatch hrun, fun n l => heldLatch_held, fun n l g rest h => ?_, fun n x sp => obsLatch_meets n.isLt,
    fun n v h => ⟨_, exec_obsTslowWrite hrun h v, obsTslowWrite_meets s n v⟩,
    fun n h => ⟨⟨_, exec_obsThload hrun h, fun hr => ?_, fun hr => ?_⟩, _, exec_obsCtrlClr hrun h, reg_clrAll s, frame_clrAll s _⟩⟩
  · obtain ⟨hall, hsome⟩ := sampleCheck_startAction s i
    rw [exec_sampleStart hrun h]
    exact ⟨fun k => congrArg _ (hall k), fun k => congrArg _ (hsome k)⟩
  · exact ⟨rfl, latchSet_meets s n n.isLt h l⟩
  · rw [show obsThload s n = s.setObs n { s.obsAt n with thload := true } from if_pos hr]
    exact ⟨obsAt_setObs_same s n _, frame_setObs s n _ (by simp)⟩
  · rw [show obsThload s n = thermLoad s n from if_neg (by simp [hr])]
    exact thermLoad_meets s n

end Sys2Proof.Proofs
end

section
/-!
PROOF. What a LOAD's completion, its slot, its bank and its verification leave (for O50: R59, R97, R167, R500).
-/

namespace Sys2Proof.Proofs
open Sys2Proof Sys2Proof.Machine Sys2Proof.Safety Sys2Proof.Laws

/-! ### A completion (R97, R112) -/

section
variable (s : State) (d : Desc) (st de re : Nat)

/-- A completion changes records, descriptors in flight and the fences. -/
theorem frame_completed : Frame [.msix, .recs, .flight] fenceReach s (s.complete d st de re) :=
  frame_complete d st de re (fun _ _ h => h) (by simp) (by simp) (by simp)

theorem reg_complete {o : Nat} (h : o < 0x29000 ∨ 0x40000 ≤ o) : (s.complete d st de re).reg o = s.reg o :=
  reg_of_frame (frame_completed s d st de re) fun b _ => by
    simp only [fenceReach, orBits, pba, fences, Safety.range]
    omega

theorem get_complete {f : Field} (h : f.off < 0x29000 ∨ 0x40000 ≤ f.off) : (s.complete d st de re).get f = s.get f :=
  congrArg f.get (reg_complete s d st de re h)

theorem flag_complete {f : Field} (h : f.off < 0x29000 ∨ 0x40000 ≤ f.off) : (s.complete d st de re).flag f = s.flag f := by
  simp only [State.flag, get_complete s d st de re h]

theorem slotAt_complete (i : Nat) : (s.complete d st de re).slotAt i = s.slotAt i :=
  congrArg (fun l : List (Option Par) => (l[i]?).getD none) ((frame_completed s d st de re).2 .slots (by simp))

theorem mrvAt_complete (m : Nat) : (s.complete d st de re).mrvAt m = s.mrvAt m :=
  congrArg (fun l : List Mrv => l.getD m Mrv.init) ((frame_completed s d st de re).2 .mrv (by simp))

theorem bank_complete (b : Bool) : (s.complete d st de re).bank b = s.bank b := by
  have h : (s.complete d st de re).gaf = s.gaf := (frame_completed s d st de re).2 .gaf (by simp)
  simp only [State.bank, h]

theorem bankValid_complete (b : Bool) : (s.complete d st de re).bankValid b = s.bankValid b :=
  flag_complete s d st de re (.inl (by cases b <;> decide))

end

/-! ### A read of host memory (R69, R91) -/

section
variable {s : State} {d : Desc} {k : Desc → List Byte → State → State}

theorem withHost_bytes (h : s.canDma = true) (he : d.episode = false) (l : List Byte) : s.withHost d (.bytes l) k = k d l s := by
  simp only [State.withHost, h, State.episodeDone, he, Bool.not_true, Bool.false_eq_true, if_false]

theorem withHost_waits {r : HostRead} (h : s.canDma = false ∨ r = .timeout) : s.withHost d r k = s.hostEpisode d := by
  rcases h with h | rfl
  · exact if_pos (by simp [h])
  · unfold State.withHost
    split <;> rfl

end

theorem frame_sig {ps : List Part} {p : Bits} (s : State) (x : List SigJob) (h : .sig ∈ ps) : Frame ps p s { s with sig := x } :=
  frame_part .sig h rfl fun r hr => by cases r <;> first | exact absurd rfl hr | simp [Part.same]

/-! ### Slots (R167) -/

/-- A slot just set holds its parison. -/
theorem slotAt_lput_same (s : State) (i : Nat) (x : Option Par) (m : List Mrv) :
    State.slotAt { s with slots := lput none s.slots i x, mrv := m } i = x := by
  simp only [State.slotAt, ← List.getD_eq_getElem?_getD]
  exact getD_lput_same _ _ _ _ _

theorem slotAt_lput_ne (s : State) {i j : Nat} (x : Option Par) (m : List Mrv) (h : j ≠ i) :
    State.slotAt { s with slots := lput none s.slots i x, mrv := m } j = s.slotAt j := by
  simp only [State.slotAt, ← List.getD_eq_getElem?_getD]
  exact getD_lput_ne _ _ _ _ _ h

/-- The registers of the marvers and slots. -/
def marverWords : Bits := Safety.range 0x40000 0x50000

theorem frame_showSlots (s : State) : Frame [] marverWords s s.showSlots := by
  have hw {f : Field} (k : fits f = true) (h : 0x40000 ≤ f.off ∧ f.off < 0x50000) : Covers marverWords f :=
    ⟨(fits_iff.1 k).1, (fits_iff.1 k).2, fun _ _ _ => h⟩
  refine frame_foldl_mem fun m hm t => ?_
  have hm4 : m < 4 := List.mem_range.1 hm
  refine frame_then_put (frame_put _ _ (hw rfl ?_)) _ _ (hw rfl ?_)
  · simp only [Fld.MRV_PIN_ID_PIN_ID, Reg.MRV_PIN_ID]; omega
  · simp only [Fld.MRV_ARRAYS_ARRAYS, Reg.MRV_ARRAYS]; omega

/-- The marvers show their slots again: the slots stay. -/
theorem slots_showSlots (s : State) : s.showSlots.slots = s.slots := (frame_showSlots s).2 .slots (by simp)

theorem frame_slots {p : Bits} (s : State) (x : List (Option Par)) (m : List Mrv) :
    Frame [.slots, .mrv] p s { s with slots := x, mrv := m } := by
  have hslots : Frame [.slots, .mrv] p s { s with slots := x } :=
    frame_part .slots (by simp) rfl fun r hr => by cases r <;> first | exact absurd rfl hr | simp [Part.same]
  exact frame_trans hslots (frame_mrv _ m (by simp))

section
variable (s : State) (i : Nat) (x : Option Par)

/-- A slot that is set takes its place, whatever its registers show. -/
theorem slots_setSlot : (s.setSlot i x).slots = lput none s.slots i x := by
  unfold State.setSlot
  rw [slots_showSlots]
  cases x <;> rfl

theorem slotAt_setSlot_same : (s.setSlot i x).slotAt i = x := by
  rw [State.slotAt, slots_setSlot]
  exact slotAt_lput_same s i x s.mrv

theorem slotAt_setSlot_ne {j : Nat} (h : j ≠ i) : (s.setSlot i x).slotAt j = s.slotAt j := by
  rw [State.slotAt, slots_setSlot]
  exact slotAt_lput_ne s x s.mrv h

/-- A slot that is emptied changes the slots, the marvers and their registers (R167). -/
theorem frame_setSlot_none (h : i < 256) : Frame [.slots, .mrv] marverWords s (s.setSlot i none) := by
  unfold State.setSlot
  refine frame_trans (frame_then_setReg (frame_then_setReg (frame_slots s _ _) _ _ fun _ => ?_) _ _ fun _ => ?_)
    (frame_mono (frame_showSlots _) (by simp) fun _ _ h => h)
  · simp only [marverWords, Safety.range, Reg.MRV_SLOT_ID]; omega
  · simp only [marverWords, Safety.range, Reg.MRV_SLOT_FLAGS]; omega

end

/-- A byte of the payload. -/
theorem pay_one_lt (d : Desc) (o : Nat) : d.pay o 1 < 256 := by
  have h := leNat_lt ((d.raw.drop o).take 1)
  have hl : ((d.raw.drop o).take 1).length ≤ 1 := List.length_take_le _ _
  exact h.trans_le (le_trans (Nat.pow_le_pow_right (by decide) hl) (by decide))

/-! ### Banks (R59) -/

section
variable (s : State) (b : Bool) (img : List Byte) (v : Bool)

theorem bank_setBank : (s.setBank b img v).bank b = img := by cases b <;> rfl

theorem bankValid_setBank : (s.setBank b img v).bankValid b = v := by
  cases b <;> exact flag_putB_self _ _ rfl rfl

theorem frame_setBank : Frame [.gaf] (bits [Fld.GAF_STATUS_VALID_A, Fld.GAF_STATUS_VALID_B]) s (s.setBank b img v) := by
  cases b <;>
    exact frame_then_putB (frame_setGaf s _ (by simp)) _ _ (covers_of_fits (by simp) rfl)

theorem get_setBank {f : Field} (h : 0x20000 ≤ f.off) : (s.setBank b img v).get f = s.get f :=
  get_of_frame_bits (frame_setBank s b img v) fun g hg => apart_of_off (by
    have hlow : ∀ g ∈ [Fld.GAF_STATUS_VALID_A, Fld.GAF_STATUS_VALID_B], g.off < 0x20000 := by decide
    have := hlow g hg
    omega)

end

/-! ### A verification (R500, R501) -/

section
variable (s : State)

/-- What a verification that fails sets. -/
def authBadFields : List Field := [Fld.FUS_SIGCNT_FAIL, Fld.FUS_LASTAUTH_REASON, Fld.FUS_LASTAUTH_SLOT, Fld.FUS_IRQ_STATUS_AUTH_FAIL]

theorem frame_authBad (r k : Nat) : Frame [.msix] (orBits pba (bits authBadFields)) s (authBad s r k) := by
  have hfit : ∀ f ∈ authBadFields, Covers (orBits pba (bits authBadFields)) f := fun f hf =>
    have hall : ∀ f ∈ authBadFields, fits f = true := by decide
    have hc := covers_of_fits hf (hall f hf)
    ⟨hc.1, hc.2.1, fun b h1 h2 => .inr (hc.2.2 b h1 h2)⟩
  exact frame_trans (frame_then_put (frame_then_put (frame_incSat _ _ (hfit _ (by simp [authBadFields]))) _ _
    (hfit _ (by simp [authBadFields]))) _ _ (hfit _ (by simp [authBadFields])))
    (frame_irqF_listed _ (by simp [authBadFields]) rfl (by simp))

theorem frame_authGood (k : Nat) : Frame [] (bits [Fld.FUS_SIGCNT_OK, Fld.FUS_STATUS_DEVKEY]) s (authGood s k) := by
  have hcount : Frame [] (bits [Fld.FUS_SIGCNT_OK, Fld.FUS_STATUS_DEVKEY]) s (s.incSat Fld.FUS_SIGCNT_OK) :=
    frame_incSat _ _ (covers_of_fits (by simp) rfl)
  exact frame_ite_right hcount fun _ => frame_putB _ _ (covers_of_fits (by simp) rfl)

/-- What a failed verification leaves: its reason, its key slot and the count (R500). -/
theorem authBad_meets {r : Nat} (k : Nat) (hr : r < 256) :
    let t := authBad s r k
    t.get Fld.FUS_LASTAUTH_REASON = r ∧ t.get Fld.FUS_LASTAUTH_SLOT = k % 2 ∧
      t.get Fld.FUS_SIGCNT_FAIL = min 0xFFFF (s.get Fld.FUS_SIGCNT_FAIL + 1) := by
  let c := s.incSat Fld.FUS_SIGCNT_FAIL
  let p := c.put Fld.FUS_LASTAUTH_REASON r
  let q := p.put Fld.FUS_LASTAUTH_SLOT (k % 2)
  have hirq {f : Field} (h : apart f Fld.FUS_IRQ_STATUS_AUTH_FAIL = true) (ho : 0x29010 ≤ f.off) : (authBad s r k).get f = q.get f :=
    get_irqF_apart q rfl h (.inr ho)
  refine ⟨?_, ?_, ?_⟩
  · exact (hirq rfl (by decide)).trans ((get_put_apart p _ rfl rfl).trans ((get_put_self c _ rfl).trans (Nat.mod_eq_of_lt hr)))
  · exact (hirq rfl (by decide)).trans ((get_put_self p _ rfl).trans (Nat.mod_mod _ 2))
  · exact (hirq rfl (by decide)).trans ((get_put_apart p _ rfl rfl).trans ((get_put_apart c _ rfl rfl).trans (get_incSat_self s rfl)))

/-- A passed verification is counted (R500). -/
theorem get_authGood_ok (k : Nat) : (authGood s k).get Fld.FUS_SIGCNT_OK = min 0xFFFF (s.get Fld.FUS_SIGCNT_OK + 1) := by
  have hcount : (s.incSat Fld.FUS_SIGCNT_OK).get Fld.FUS_SIGCNT_OK = min 0xFFFF (s.get Fld.FUS_SIGCNT_OK + 1) := get_incSat_self s rfl
  simp only [authGood]
  split
  · exact (get_put_apart _ _ rfl rfl).trans hcount
  · exact hcount

end

/-- A change of neither the gaffer's status nor its armed bank leaves whether a bank is in use (Table 6.5). -/
theorem bankBusy_of_frame {ps : List Part} {p : Bits} {s t : State} (h : Frame ps p s t) (hg : .gaf ∉ ps)
    (hp : ∀ b < 32, ¬ p Reg.GAF_STATUS b) (b : Bool) : t.bankBusy b = s.bankBusy b := by
  have hrun : t.running = s.running := flag_of_frame h fun b _ hb => hp b (hb.trans_lt (by decide))
  have hact : t.activeBank = s.activeBank := flag_of_frame h fun b _ hb => hp b (hb.trans_lt (by decide))
  have hgaf : t.gaf = s.gaf := h.2 .gaf hg
  simp only [State.bankBusy, State.bankInUse, hrun, hact, hgaf]
  rfl

theorem bankBusy_authBad (s : State) (r k : Nat) (b : Bool) : (authBad s r k).bankBusy b = s.bankBusy b := by
  refine bankBusy_of_frame (frame_authBad s r k) (by simp) (fun i hi => ?_) b
  rintro (h | ⟨f, hf, ho, -⟩)
  · exact not_pba_of_outside (by decide) i hi h
  · have hne : ∀ f ∈ authBadFields, f.off ≠ Reg.GAF_STATUS := by decide
    exact hne f hf ho

theorem bankBusy_authGood (s : State) (k : Nat) (b : Bool) : (authGood s k).bankBusy b = s.bankBusy b := by
  refine bankBusy_of_frame (frame_authGood s k) (by simp) (fun i _ => ?_) b
  rintro ⟨f, hf, ho, -⟩
  have hne : ∀ f ∈ [Fld.FUS_SIGCNT_OK, Fld.FUS_STATUS_DEVKEY], f.off ≠ Reg.GAF_STATUS := by decide
  exact hne f hf ho

theorem ready_authGood (s : State) (k i : Nat) : (authGood s k).ready i = s.ready i := by
  have h : (authGood s k).get Fld.GLB_READY_READY = s.get Fld.GLB_READY_READY := get_of_frame_bits (frame_authGood s k) (by decide)
  simp only [State.ready, State.bitF, h]

/-- The reasons of R500. -/
theorem authFails_lt {s : State} {image : List Byte} {n k r : Nat} (h : authFails s image n k = some r) : r < 256 := by
  unfold authFails at h
  simp only at h
  split_ifs at h <;> cases h <;> decide

end Sys2Proof.Proofs
end

section
/-!
PROOF. LOAD descriptors and the signature engine (for O50: R59, R165 to R167, R500, R502, R503).
-/

namespace Sys2Proof.Proofs
open Sys2Proof Sys2Proof.Machine Sys2Proof.Safety Sys2Proof.Laws

/-! ### The first steps of a LOAD (R166, R502) -/

theorem frame_queueSig (s : State) (d : Desc) (img : List Byte) : Frame [.sig, .flight] (bits []) s (s.queueSig d img) :=
  frame_trans (frame_setDesc d { d with stage := .active } (by simp)) (frame_sig _ _ (by simp))

section
variable {s : State} {sq : Fin 64} {seq : BitVec 16} {d : Desc} (hrun : s.pwr.hold = .running)
  (htake : s.takeDispatched sq seq.toNat 0x03 = some d)
include hrun htake

theorem exec_loadPlan_busy (ht : d.pay 32 1 ≤ 1) {r : Nat} (h : s.bankBusy (decide (d.pay 32 1 = 1)) = some r) (i : HostRead) :
    exec (.loadPlan sq seq i) s = .next (s.complete d stBadSequence r 0) := by
  show execLoadPlan sq seq i s = _
  rw [execLoadPlan, act_running _ _ hrun]
  simp only [htake, h, Nat.not_lt.2 ht, if_false]

theorem exec_loadPlan_free (ht : d.pay 32 1 ≤ 1) (h : s.bankBusy (decide (d.pay 32 1 = 1)) = none) (hdma : s.canDma = true)
    (he : d.episode = false) (l : List Byte) :
    let img := slice l 0 (min 1216 (d.pay 48 4))
    (∀ o, planHeadBad img (d.pay 48 4) = some o → exec (.loadPlan sq seq (.bytes l)) s =
      .next ((s.setBank (decide (d.pay 32 1 = 1)) [] false).complete d stBadDescriptor o 0)) ∧
    (planHeadBad img (d.pay 48 4) = none → exec (.loadPlan sq seq (.bytes l)) s = .next (s.queueSig d img)) := by
  have hexec : exec (.loadPlan sq seq (.bytes l)) s = execLoadPlan sq seq (.bytes l) s := rfl
  rw [hexec, execLoadPlan, act_running _ _ hrun]
  simp only [htake, h, Nat.not_lt.2 ht, if_false, withHost_bytes hdma he]
  refine ⟨fun o ho => ?_, fun ho => ?_⟩
  · simp only [ho, planFail, h, Option.isSome_none, Bool.false_eq_true, if_false]
  · simp only [ho]

theorem exec_loadParison (ht : d.pay 32 1 = 2) (hdma : s.canDma = true) (he : d.episode = false) (l : List Byte) :
    let img := slice l 0 (d.pay 48 4)
    (∀ o, parHeadBad img (d.pay 48 4) = some o → exec (.loadParison sq seq (.bytes l)) s =
      .next (s.complete d stBadDescriptor o 0)) ∧
    (parHeadBad img (d.pay 48 4) = none → exec (.loadParison sq seq (.bytes l)) s = .next (s.queueSig d img)) := by
  have hexec : exec (.loadParison sq seq (.bytes l)) s = execLoadParison sq seq (.bytes l) s := rfl
  rw [hexec, execLoadParison, act_running _ _ hrun]
  simp only [htake, ht, ne_eq, not_true_eq_false, if_false, withHost_bytes hdma he]
  exact ⟨fun o ho => by simp only [ho], fun ho => by simp only [ho]⟩

/-- Unloading a slot whose jobs and marvers are idle empties it (R167). -/
theorem exec_unloadSlot (ht : d.pay 32 1 = 3) :
    (∀ r, s.slotBusy (d.pay 33 1) none = some r → exec (.unloadSlot sq seq) s = .next (s.complete d stBadSequence r 0)) ∧
    (s.slotBusy (d.pay 33 1) none = none →
      exec (.unloadSlot sq seq) s = .next ((s.setSlot (d.pay 33 1) none).complete d stOK 0 0)) := by
  have hexec : exec (.unloadSlot sq seq) s = execUnloadSlot sq seq s := rfl
  rw [hexec, execUnloadSlot, act_running _ _ hrun]
  simp only [htake, ht, ne_eq, not_true_eq_false, if_false]
  exact ⟨fun r hr => by simp only [hr], fun hr => by simp only [hr]⟩

end

/-! ### Plan images (R59, R502) -/

section
variable {s : State} {d : Desc} {img : List Byte}

theorem planFail_free {st de : Nat} (h : s.bankBusy (decide (d.pay 32 1 = 1)) = none) :
    planFail s d st de = (s.setBank (decide (d.pay 32 1 = 1)) [] false).complete d st de 0 := by
  simp only [planFail, h, Option.isSome_none, Bool.false_eq_true, if_false]

/-- A plan LOAD that fails leaves its free bank invalid (R59). -/
theorem bankValid_planFail {st de : Nat} (h : s.bankBusy (decide (d.pay 32 1 = 1)) = none) :
    (planFail s d st de).bankValid (decide (d.pay 32 1 = 1)) = false := by
  rw [planFail_free h, bankValid_complete, bankValid_setBank]

/-- It changes no register beyond the gaffer's and the fences. -/
theorem get_planFail {st de : Nat} {f : Field} (h : 0x40000 ≤ f.off) : (planFail s d st de).get f = s.get f := by
  simp only [planFail]
  refine (get_complete _ d st de 0 (.inr h)).trans ?_
  split
  · rfl
  · exact get_setBank _ _ _ _ (by omega)

/-- An image that does not verify is counted and named (R500). -/
theorem planVerify_bad {r : Nat} (h : authFails s img (fieldAt img 40 4) (fieldAt img 36 1) = some r) :
    let t := planVerify s d img
    t.get Fld.FUS_LASTAUTH_REASON = r ∧ t.get Fld.FUS_LASTAUTH_SLOT = fieldAt img 36 1 % 2 ∧
      t.get Fld.FUS_SIGCNT_FAIL = min 0xFFFF (s.get Fld.FUS_SIGCNT_FAIL + 1) ∧
      (s.bankBusy (decide (d.pay 32 1 = 1)) = none → t.bankValid (decide (d.pay 32 1 = 1)) = false) := by
  have ht : planVerify s d img = planFail (authBad s r (fieldAt img 36 1)) d stAuthFail (authDetail r (fieldAt img 36 1)) := by
    simp only [planVerify, h]
  obtain ⟨hreason, hslot, hcount⟩ := authBad_meets s (fieldAt img 36 1) (authFails_lt h)
  rw [ht]
  exact ⟨(get_planFail (by decide)).trans hreason, (get_planFail (by decide)).trans hslot, (get_planFail (by decide)).trans hcount,
    fun hbusy => bankValid_planFail ((bankBusy_authBad s r _ _).trans hbusy)⟩

/-- An image that verifies is counted, and fills a free bank when its contents are good (R59, R502). -/
theorem planVerify_good (h : authFails s img (fieldAt img 40 4) (fieldAt img 36 1) = none) :
    let b := decide (d.pay 32 1 = 1)
    let t := planVerify s d img
    t.get Fld.FUS_SIGCNT_OK = min 0xFFFF (s.get Fld.FUS_SIGCNT_OK + 1) ∧
      (s.bankBusy b = none → planBad img ≠ none → t.bankValid b = false) ∧
      (s.bankBusy b = none → planBad img = none → t.bankValid b = true ∧ t.bank b = img.take (64 + 16 * planCount img + 128)) := by
  intro b t
  let k := fieldAt img 36 1
  let g := authGood s k
  have hcount : g.get Fld.FUS_SIGCNT_OK = min 0xFFFF (s.get Fld.FUS_SIGCNT_OK + 1) := get_authGood_ok s k
  have hbusy : g.bankBusy b = s.bankBusy b := bankBusy_authGood s k b
  have ht : t = match s.bankBusy b with
      | some r => g.complete d stBadSequence r 0
      | none => match planBad img with
        | some o => planFail g d stBadDescriptor o
        | none => (g.setBank b (img.take (64 + 16 * planCount img + 128)) true).complete d stOK 0 (g.devkeyBit k) := by
    rw [← hbusy]
    simp only [t, planVerify, h]
    rfl
  cases hb : s.bankBusy b with
  | some r =>
    rw [ht, hb]
    exact ⟨(get_complete _ _ _ _ _ (.inr (by decide))).trans hcount, by simp, by simp⟩
  | none =>
    cases hp : planBad img with
    | some o =>
      rw [ht, hb, hp]
      exact ⟨(get_planFail (by decide)).trans hcount, fun _ _ => bankValid_planFail (hbusy.trans hb), by simp⟩
    | none =>
      rw [ht, hb, hp]
      refine ⟨?_, by simp, fun _ _ => ⟨?_, ?_⟩⟩
      · exact (get_complete _ _ _ _ _ (.inr (by decide))).trans ((get_setBank _ _ _ _ (by decide)).trans hcount)
      · rw [bankValid_complete, bankValid_setBank]
      · rw [bank_complete, bank_setBank]

end

/-! ### Parison images (R166, R167, R503) -/

section
variable {s : State} {d : Desc} {j : SigJob}

theorem parVerify_bad {r : Nat} (h : authFails s j.image (parBody j.image) (parKey j.image) = some r) :
    parVerify s d j =
      (authBad (s.dropSig j) r (parKey j.image)).complete d stAuthFail (authDetail r (parKey j.image)) 0 := by
  simp only [parVerify, h]

/-- The checks of an image that verifies, in their order (R166 steps 4 and 5). -/
theorem parVerify_good (h : authFails s j.image (parBody j.image) (parKey j.image) = none) :
    let g := authGood s (parKey j.image)
    let u := g.dropSig j
    let slot := d.pay 33 1
    let dest := d.pay 56 8
    parVerify s d j = match parContentBad j.image with
      | some o => u.complete d stBadDescriptor o 0
      | none =>
        if parKind j.image = 0 ∧ dest = 0 then u.complete d stBadDescriptor 56 0
        else if dest ≠ 0 ∧ !s.ready 16 then u.complete d stNotReady 0 0
        else match g.residency slot dest j.image with
          | some r => u.complete d stBadSequence r 0
          | none => (g.setSlot slot none).setStage j j.image .second := by
  intro g u slot dest
  rw [← ready_authGood s (parKey j.image) 16]
  simp only [parVerify, h]
  rfl

section
variable (s : State) (j : SigJob) (img : List Byte) (st : SigStage)

theorem slotAt_setStage (i : Nat) : (s.setStage j img st).slotAt i = s.slotAt i := rfl

theorem get_setStage (f : Field) : (s.setStage j img st).get f = s.get f := rfl

theorem sig_setStage : (s.setStage j img st).sig = s.sig.replace j { j with image := img, stage := st } := rfl

end

/-- A slot that is left invalid while its image is read again (R167, R503). -/
theorem parSecondPass_meets (k slot : Nat) (hslot : slot < 256) :
    let t := ((authGood s k).setSlot slot none).setStage j j.image .second
    t.slotAt slot = none ∧ t.sig = s.sig.replace j { j with stage := .second } ∧
      t.get Fld.FUS_SIGCNT_OK = min 0xFFFF (s.get Fld.FUS_SIGCNT_OK + 1) := by
  intro t
  let e := (authGood s k).setSlot slot none
  have hset : Frame [.slots, .mrv] marverWords (authGood s k) e := frame_setSlot_none _ slot hslot
  have hsig : e.sig = s.sig := (hset.2 .sig (by simp)).trans ((frame_authGood s k).2 .sig (by simp))
  have hcount : e.get Fld.FUS_SIGCNT_OK = (authGood s k).get Fld.FUS_SIGCNT_OK := get_of_frame hset fun b _ _ h => by
    simp [marverWords, Safety.range, Fld.FUS_SIGCNT_OK, Reg.FUS_SIGCNT] at h
  refine ⟨(slotAt_setStage e j _ _ _).trans (slotAt_setSlot_same _ _ _), (sig_setStage e j _ _).trans ?_,
    (get_setStage e j _ _ _).trans (hcount.trans (get_authGood_ok s k))⟩
  exact congrArg (fun l : List SigJob => l.replace j { j with stage := .second }) hsig

/-- Bytes that differ in the second read fail as code 8; the same bytes are written (R503). -/
theorem parSecond_meets (second : List Byte) :
    let n := parBody j.image
    let k := parKey j.image
    let t := parSecond s d j second
    (slice second 0 n ≠ slice j.image 0 n →
      t = (authBad (freeWrites (s.dropSig j) d j.image) 8 k).complete d stAuthFail (authDetail 8 k) 0) ∧
    (slice second 0 n = slice j.image 0 n →
      t.sig = s.sig.replace j ⟨j.sq, j.seq, slice second 0 j.image.length, .writes⟩ ∧ Frame [.sig] (bits []) s t) := by
  refine ⟨fun h => if_pos h, fun h => ?_⟩
  have ht : parSecond s d j second = s.setStage j (slice second 0 j.image.length) .writes := if_neg (by simp [h])
  rw [ht]
  exact ⟨rfl, frame_sig _ _ (by simp)⟩

/-- The writes of one LOAD are made once they can be made (R167, R449). -/
theorem loadWrites_one (h : s.sig.filter (fun k => k.stage = .writes) = [j]) (hd : s.findDesc j.sq j.seq = some d) :
    let may : Prop := (d.pay 56 8 = 0 ∨ s.ready 16 = true) ∧ ∀ r ∈ regionsOf j.image, (s.mrvAt r.2).slice = none
    (¬ may → loadWrites s = s) ∧
    (may → loadWrites s = parWrite { s with sig := s.sig.filter (· ≠ j) } d j.image) := by
  intro may
  have hmay : s.mayWrite d j.image = true ↔ may := by simp [State.mayWrite, may]
  have hstep : loadWrites s = if s.mayWrite d j.image then parWrite { s with sig := s.sig.filter (· ≠ j) } d j.image else s := by
    simp only [loadWrites, h, List.foldl_cons, List.foldl_nil, hd]
  rw [hstep]
  exact ⟨fun k => if_neg fun hm => k (hmay.1 hm), fun k => if_pos (hmay.2 k)⟩

/-- The writes of a LOAD fill its slot (R167). -/
theorem slotAt_parWrite {img : List Byte} (h : d.pay 56 8 = 0 ∨ s.memIn (d.pay 56 8) img.length = true) :
    (parWrite s d img).slotAt (d.pay 33 1) = some ⟨img, d.pay 56 8⟩ := by
  have hin : ¬ (d.pay 56 8 ≠ 0 ∧ (!s.memIn (d.pay 56 8) img.length) = true) := by
    rintro ⟨hdest, hout⟩
    simp [h.resolve_left hdest] at hout
  simp only [parWrite, if_neg hin]
  rw [slotAt_complete, slotAt_setSlot_same]

end

/-! ### The signature engine takes an image (R500, R503) -/

theorem find?_eq_of_mem {α : Type} [DecidableEq α] {l : List α} {a : α} (h : a ∈ l) : l.find? (fun b => b = a) = some a := by
  induction l with
  | nil => simp at h
  | cons x r ih =>
    rw [List.find?_cons]
    by_cases hx : x = a
    · simp [hx]
    · simp only [hx, decide_false]
      exact ih ((List.mem_cons.1 h).resolve_left fun e => hx e.symm)

section
variable {s : State} (hrun : s.pwr.hold = .running)
include hrun

theorem exec_signatureVerify_none (h : s.sigNext = none) (second : HostRead) : exec (.signatureVerify second) s = .next s := by
  show execSignatureVerify second s = _
  rw [execSignatureVerify, act_running _ _ hrun]
  simp only [h]

variable {j : SigJob} {d : Desc} (hnext : s.sigNext = some j) (hd : s.findDesc j.sq j.seq = some d)
include hnext hd

theorem exec_signatureVerify_waits (h : s.ready 17 = false) (second : HostRead) : exec (.signatureVerify second) s = .next s := by
  show execSignatureVerify second s = _
  rw [execSignatureVerify, act_running _ _ hrun]
  simp only [hnext, hd, h, Bool.not_false, if_true]

theorem exec_signatureVerify_plan (h : s.ready 17 = true) (ho : d.opcode = 0x03) (ht : d.pay 32 1 ≤ 1) (second : HostRead) :
    exec (.signatureVerify second) s = .next (planVerify (s.dropSig j) d j.image) := by
  show execSignatureVerify second s = _
  rw [execSignatureVerify, act_running _ _ hrun]
  simp only [hnext, hd, h, ho, ht, Bool.not_true, Bool.false_eq_true, decide_true, Bool.and_self, if_false, if_true]

/-- An image of a parison: its first pass, then what the second read gives. -/
theorem exec_signatureVerify_parison (h : s.ready 17 = true) (ho : d.opcode = 0x03) (ht : d.pay 32 1 = 2) (second : HostRead) :
    let u := if j.stage = .waits then parVerify s d j else s
    let k : SigJob := { j with stage := .second }
    exec (.signatureVerify second) s = .next (match u.sig.find? (fun i => i = k), u.findDesc j.sq j.seq with
      | some j, some d => match second with
        | .refused =>
          if !u.canDma then u.hostEpisode d
          else (freeWrites (u.dropSig j) d j.image).complete d stBadDescriptor 0x010000FF 0
        | _ => u.withHost d second fun d l s => parSecond s d j l
      | _, _ => u) := by
  intro u k
  have hexec : exec (.signatureVerify second) s = execSignatureVerify second s := rfl
  have hu : (if j.stage ≠ .waits then s else parVerify s d j) = u := ite_not _ _ _
  rw [hexec, execSignatureVerify, act_running _ _ hrun]
  simp only [hnext, hd, h, ho, ht, Bool.not_true, Bool.false_eq_true, if_false, show ¬ (2 ≤ 1) by decide, show ¬ (3 = 0x0D) by decide,
    decide_false, Bool.and_false, hu]
  rfl

variable (h : s.ready 17 = true) (ho : d.opcode = 0x03) (ht : d.pay 32 1 = 2) (second : HostRead)
include h ho ht

/-- What the engine does with an image of a parison (R91, R500, R503). -/
theorem signatureVerify_parison_meets :
    let u := if j.stage = .waits then parVerify s d j else s
    let k : SigJob := { j with stage := .second }
    (k ∉ u.sig → exec (.signatureVerify second) s = .next u) ∧
    (∀ e l, k ∈ u.sig → u.findDesc j.sq j.seq = some e → u.canDma = true → e.episode = false → second = .bytes l →
      exec (.signatureVerify second) s = .next (parSecond u e k l)) ∧
    (∀ e, k ∈ u.sig → u.findDesc j.sq j.seq = some e → u.canDma = true → second = .refused →
      exec (.signatureVerify second) s = .next ((freeWrites (u.dropSig k) e j.image).complete e stBadDescriptor 0x010000FF 0)) ∧
    (∀ e, k ∈ u.sig → u.findDesc j.sq j.seq = some e → u.canDma = false ∨ second = .timeout →
      exec (.signatureVerify second) s = .next (u.hostEpisode e)) := by
  intro u k
  rw [exec_signatureVerify_parison hrun hnext hd h ho ht second]
  refine ⟨fun hk => ?_, fun e l hk he hdma hep hs => ?_, fun e hk he hdma hs => ?_, fun e hk he hw => ?_⟩
  · have hnone : u.sig.find? (fun i => i = k) = none := by
      rw [List.find?_eq_none]
      intro i hi hik
      exact hk (of_decide_eq_true hik ▸ hi)
    simp only [u, k, hnone]
  · subst hs
    simp only [u, k, find?_eq_of_mem hk, he, withHost_bytes hdma hep]
  · subst hs
    simp only [u, k, find?_eq_of_mem hk, he, hdma, Bool.not_true, Bool.false_eq_true, if_false]
  · cases second with
    | refused =>
      have hdma : u.canDma = false := hw.resolve_right (by simp)
      simp only [u, k, find?_eq_of_mem hk, he, hdma, Bool.not_false, if_true]
    | bytes l => simp only [u, k, find?_eq_of_mem hk, he, withHost_waits hw]
    | timeout => simp only [u, k, find?_eq_of_mem hk, he, withHost_waits hw]

end

end Sys2Proof.Proofs
end

section
/-!
PROOF. REHEAT (for O50: R177, R178, R180, R449).
-/

namespace Sys2Proof.Proofs
open Sys2Proof Sys2Proof.Machine Sys2Proof.Safety Sys2Proof.Laws

/-! ### The start (R177, R178) -/

/-- A resident of marver m has no copy, and no image supplied is its parison (R177). -/
def imageMissing (s : State) (m : Nat) (images : List (List Byte)) : Bool :=
  (s.residents m).any fun e => e.2.dest = 0 && !images.any fun i => parId i = parId e.2.image

theorem imageMissing_iff (s : State) (m : Nat) (images : List (List Byte)) : imageMissing s m images = true ↔
    ∃ e ∈ s.residents m, e.2.dest = 0 ∧ ∀ i ∈ images, parId i ≠ parId e.2.image := by
  simp [imageMissing]

/-- Images join those that wait for the signature engine. -/
def sigJoined (s : State) (l : List SigJob) : State := { s with sig := s.sig ++ l }

section
variable (s : State) (l : List SigJob)

theorem mrvAt_sigJoined (m : Nat) : (sigJoined s l).mrvAt m = s.mrvAt m := rfl

theorem get_sigJoined (f : Field) : (sigJoined s l).get f = s.get f := rfl

end

/-- A scrub begins: the reheat is noted, its phase shown, its images wait for the signature engine. -/
def scrubBegun (s : State) (d : Desc) (m : Nat) (images : List (List Byte)) : State :=
  let t := (s.begin d).setMrv m { s.mrvAt m with reheat := some ⟨d.sq, d.seq, images, 0⟩ }
  sigJoined ((t.put (Fld.MRV_RHST_PHASE m) 1).put (Fld.MRV_RHST_RELOAD_KIB m) 0) (images.map fun i => ⟨d.sq, d.seq, i, .waits⟩)

theorem frame_setMrv {ps : List Part} {p : Bits} (s : State) (m : Nat) (x : Mrv) (h : .mrv ∈ ps) : Frame ps p s (s.setMrv m x) :=
  frame_mrv s _ h

theorem scrubBegun_meets (s : State) (d : Desc) (m : Nat) (images : List (List Byte)) :
    let t := scrubBegun s d m images
    (t.mrvAt m).reheat = some ⟨d.sq, d.seq, images, 0⟩ ∧ t.rhPhase m = 1 ∧
      t.sig = s.sig ++ images.map (fun i => ⟨d.sq, d.seq, i, .waits⟩) ∧
      Frame [.mrv, .flight, .sig] (bits [Fld.MRV_RHST_PHASE m, Fld.MRV_RHST_RELOAD_KIB m]) s t := by
  let x := { s.mrvAt m with reheat := some ⟨d.sq, d.seq, images, 0⟩ }
  let t := (s.begin d).setMrv m x
  have hmrv : t.mrvAt m = x := mrvAt_setMrv_same _ m x
  have hphase : (t.put (Fld.MRV_RHST_PHASE m) 1).get (Fld.MRV_RHST_PHASE m) = 1 := get_put_self t 1 rfl
  have hframe : Frame [.mrv, .flight, .sig] (bits [Fld.MRV_RHST_PHASE m, Fld.MRV_RHST_RELOAD_KIB m]) s t :=
    frame_trans (frame_setDesc d { d with stage := .active } (by simp)) (frame_setMrv _ m x (by simp))
  let u := (t.put (Fld.MRV_RHST_PHASE m) 1).put (Fld.MRV_RHST_RELOAD_KIB m) 0
  let l : List SigJob := images.map fun i => ⟨d.sq, d.seq, i, .waits⟩
  have hget : u.get (Fld.MRV_RHST_PHASE m) = 1 := (get_put_apart _ _ rfl rfl).trans hphase
  refine ⟨congrArg Mrv.reheat ((mrvAt_sigJoined u l m).trans hmrv), (get_sigJoined u l _).trans hget, rfl, ?_⟩
  exact frame_trans (frame_then_put (frame_then_put hframe _ _ (covers_of_fits (by simp) rfl)) _ _ (covers_of_fits (by simp) rfl))
    (frame_sig _ _ (by simp))

/-- A REHEAT of a fenced marver is refused for want of an image, or begins its scrub (R177, R178). -/
theorem reheatStart_meets {s : State} {d : Desc} (images : List (List Byte)) (hf : s.fenced (d.pay 32 1 % 16) = true)
    (hn : (s.mrvAt (d.pay 32 1 % 16)).reheat = none) :
    reheatStart s d images = if imageMissing s (d.pay 32 1 % 16) images then s.complete d stBadSequence 0 0
      else scrubBegun s d (d.pay 32 1 % 16) images := by
  simp only [reheatStart, hf, hn, Bool.not_true, Option.isSome_none, Bool.false_or]
  rfl

section
variable {s : State} {sq : Fin 64} {seq : BitVec 16} {d : Desc} (hrun : s.pwr.hold = .running)
  (htake : s.takeDispatched sq seq.toNat 0x0D = some d)
include hrun htake

theorem exec_reheat_refused (h : s.fenced (d.pay 32 1 % 16) = false ∨ (s.mrvAt (d.pay 32 1 % 16)).reheat ≠ none) (a b : HostRead) :
    exec (.reheat sq seq a b) s = .next (s.complete d stBadSequence 0 0) := by
  have hbad : (!s.fenced (d.pay 32 1 % 16) || (s.mrvAt (d.pay 32 1 % 16)).reheat.isSome) = true := by
    simpa [Option.isSome_iff_ne_none] using h
  show execReheat sq seq a b s = _
  rw [execReheat, act_running _ _ hrun]
  simp only [htake, hbad, if_true]

/-- The images that a REHEAT names are read, in order, where it names any (R178). -/
theorem exec_reheat_start (hf : s.fenced (d.pay 32 1 % 16) = true) (hn : (s.mrvAt (d.pay 32 1 % 16)).reheat = none)
    (hread : (s.canDma = true ∧ d.episode = false) ∨ (d.pay 40 8 = 0 ∧ d.pay 48 8 = 0)) (l0 l1 : List Byte) :
    exec (.reheat sq seq (.bytes l0) (.bytes l1)) s = .next (reheatStart s d (reheatImages d l0 l1)) := by
  have hok : (!s.fenced (d.pay 32 1 % 16) || (s.mrvAt (d.pay 32 1 % 16)).reheat.isSome) = false := by simp [hf, hn]
  show execReheat sq seq (.bytes l0) (.bytes l1) s = _
  rw [execReheat, act_running _ _ hrun]
  simp only [htake, hok, Bool.false_eq_true, if_false]
  rcases hread with ⟨hdma, he⟩ | ⟨h0, h1⟩
  · simp only [withHost_bytes hdma he]
    by_cases h0 : d.pay 40 8 = 0 <;> by_cases h1 : d.pay 48 8 = 0 <;> simp only [h0, h1, if_true, if_false, reheatImages]
  · simp only [h0, h1, if_true, reheatImages]

end

/-! ### Its end, and the phases on the way (R178, R180) -/

/-- A reheat that ends without a rejoin: its marver is no longer in reheat and says so (R180). -/
theorem reheatEnd_meets {s : State} {m : Nat} {r : Reheat} (h : (s.mrvAt m).reheat = some r) (st de : Nat) :
    let t := reheatEnd s m st de
    (t.mrvAt m).reheat = none ∧ t.rhPhase m = 0 ∧ t.flag Fld.MRV_PIRQ_STATUS_RH_FAIL = true := by
  let x := { s.mrvAt m with reheat := none }
  let p := (s.setMrv m x).put (Fld.MRV_RHST_PHASE m) 0
  let q := p.irqF Fld.MRV_PIRQ_STATUS_RH_FAIL
  have ht : reheatEnd s m st de = match q.findDesc r.sq r.seq with
      | some d => q.complete d st de 0
      | none => q := by
    simp only [reheatEnd, h]
    rfl
  have hirq : Frame [.msix] (orBits pba (bits [Fld.MRV_PIRQ_STATUS_RH_FAIL])) p q := frame_irqF_listed p (by simp) rfl (by simp)
  have hmrv : q.mrvAt m = x :=
    (congrArg (fun l : List Mrv => l.getD m Mrv.init) (hirq.2 .mrv (by simp))).trans (mrvAt_setMrv_same s m x)
  have hphase : q.get (Fld.MRV_RHST_PHASE m) = 0 := by
    refine (get_irqF_apart p rfl (apart_of_off ?_) (.inr ?_)).trans (get_put_self _ 0 rfl) <;>
      simp only [Fld.MRV_RHST_PHASE, Fld.MRV_PIRQ_STATUS_RH_FAIL, Reg.MRV_RHST, Reg.MRV_PIRQ_STATUS] <;> omega
  have hflag : q.flag Fld.MRV_PIRQ_STATUS_RH_FAIL = true := flag_irqF p _ rfl (by decide) (not_pba_of_outside (by decide))
  simp only [ht]
  split
  · refine ⟨congrArg Mrv.reheat ((mrvAt_complete q _ st de 0 m).trans hmrv), (get_complete q _ st de 0 (.inr ?_)).trans hphase,
      (flag_complete q _ st de 0 (.inr (by decide))).trans hflag⟩
    simp only [Fld.MRV_RHST_PHASE, Reg.MRV_RHST]; omega
  · exact ⟨congrArg Mrv.reheat hmrv, hphase, hflag⟩

/-- The SRAM and the tables of a marver that has been scrubbed (R178). -/
def scrubbed (x : Mrv) : Mrv := { x with sram := [], flaws := [], tables := [], prev := none, dirty := false }

theorem scrubDone_meets (s : State) (m : Nat) :
    let t := (s.setMrv m (scrubbed (s.mrvAt m))).put (Fld.MRV_RHST_PHASE m) 2
    t.mrvAt m = scrubbed (s.mrvAt m) ∧ t.rhPhase m = 2 ∧ Frame [.mrv] (bits [Fld.MRV_RHST_PHASE m]) s t :=
  ⟨mrvAt_setMrv_same s m _, get_put_self _ 2 rfl,
    frame_then_put (frame_setMrv s m _ (by simp)) _ _ (covers_of_fits (by simp) rfl)⟩

section
variable {s : State} {m : Fin 16} (hrun : s.pwr.hold = .running)
include hrun

theorem exec_reheatScrubDone_idle (h : s.rhPhase m ≠ 1 ∨ s.halted = true) (f : Option (BitVec 18)) :
    exec (.reheatScrubDone m f) s = .next s := by
  show execReheatScrubDone m f s = _
  rw [execReheatScrubDone, act_running _ _ hrun, if_pos (by simpa using h)]

theorem exec_reheatScrubDone (hp : s.rhPhase m = 1) (hh : s.halted = false) :
    exec (.reheatScrubDone m none) s = .next ((s.setMrv m (scrubbed (s.mrvAt m))).put (Fld.MRV_RHST_PHASE m) 2) ∧
    ∀ w : BitVec 18, exec (.reheatScrubDone m (some w)) s = .next (reheatEnd s m stUnitFenced (w.toNat * 8)) := by
  have hexec (f : Option (BitVec 18)) : exec (.reheatScrubDone m f) s = execReheatScrubDone m f s := rfl
  simp only [hexec, execReheatScrubDone, act_running _ _ hrun, hp, hh, ne_eq, not_true_eq_false, decide_false, Bool.or_self,
    Bool.false_eq_true, if_false]
  exact ⟨rfl, fun _ => trivial⟩

/-- The reload ends once its images are verified and the copies that it reads answer; the marver then waits to rejoin (R178, R449). -/
theorem exec_reheatReloadDone {r : Reheat} (h : (s.mrvAt m).reheat = some r) :
    let goes : Prop := s.halted = false ∧ s.rhPhase m = 2 ∧ (∀ j ∈ s.sig, ¬(j.sq = r.sq ∧ j.seq = r.seq)) ∧
      ∀ e ∈ s.residents m, e.2.dest ≠ 0 → s.memAnswers e.2.dest e.2.image.length = true
    (¬ goes → exec (.reheatReloadDone m) s = .next s) ∧
    (goes → ∃ t, exec (.reheatReloadDone m) s = .next t ∧ t.rhPhase m = 3) := by
  intro goes
  let stays : Prop := s.halted = true ∨ s.rhPhase m ≠ 2 ∨ (s.sig.any fun j => j.sq = r.sq && j.seq = r.seq) = true
  let waits : Bool := (s.residents m).any fun e => decide (e.2.dest ≠ 0) && !s.memAnswers e.2.dest e.2.image.length
  have hgoes : goes ↔ ¬ stays ∧ waits = false := by
    simp only [goes, stays, waits]
    simp [and_assoc]
  have hexec : exec (.reheatReloadDone m) s = execReheatReloadDone m s := rfl
  rw [hexec, execReheatReloadDone, act_running _ _ hrun]
  simp only [h]
  refine ⟨fun hg => ?_, fun hg => ?_⟩
  · by_cases hs : stays
    · rw [if_pos hs]
    · have hw : waits = true := by
        by_contra hw
        exact hg (hgoes.2 ⟨hs, by simpa using hw⟩)
      rw [if_neg hs, if_pos hw]
  · obtain ⟨hs, hw⟩ := hgoes.1 hg
    have hw' : ¬ waits = true := by simp [hw]
    rw [if_neg hs, if_neg hw']
    exact ⟨_, rfl, get_put_self _ 3 rfl⟩

end

/-- Settles O50: LOAD of plans and parisons, the signature engine, and REHEAT with its phases. -/
theorem loadsAndReheat : Obligations.LoadsAndReheat := by
  intro s hrun
  refine ⟨fun sq seq l d htake => ⟨fun ht => ⟨fun h r hr => exec_loadPlan_busy hrun htake ht hr h, fun hb hdma he => ?_⟩,
      fun ht hdma he => ?_, fun ht => ?_⟩, fun second h => exec_signatureVerify_none hrun h second,
    fun j d second hnext hd => ⟨fun h => exec_signatureVerify_waits hrun hnext hd h second,
      fun h ho ht => exec_signatureVerify_plan hrun hnext hd h ho ht second,
      fun h ho ht => signatureVerify_parison_meets hrun hnext hd h ho ht second⟩,
    fun d img => ⟨fun r => planVerify_bad, planVerify_good⟩, fun d j => ⟨fun r => parVerify_bad, fun h => ?_⟩,
    fun d j second => parSecond_meets second, fun j d => loadWrites_one, fun d img => slotAt_parWrite,
    fun sq seq a b d htake => ⟨fun h => exec_reheat_refused hrun htake h a b, fun hf hn hread l0 l1 => ?_⟩,
    fun m => ⟨exec_reheatScrubDone_idle hrun, fun hp hh => ?_, fun r => exec_reheatReloadDone hrun⟩⟩
  case refine_1 =>
    obtain ⟨hbad, hgood⟩ := exec_loadPlan_free hrun htake ht hb hdma he l
    exact ⟨hbad, fun h => ⟨_, hgood h, rfl, frame_queueSig s d _⟩⟩
  case refine_2 =>
    obtain ⟨hbad, hgood⟩ := exec_loadParison hrun htake ht hdma he l
    exact ⟨hbad, fun h => ⟨_, hgood h, rfl, frame_queueSig s d _⟩⟩
  case refine_3 =>
    obtain ⟨hbusy, hfree⟩ := exec_unloadSlot hrun htake ht
    refine ⟨hbusy, fun h => ⟨_, hfree h, ?_, fun i hi => ?_⟩⟩
    · rw [slotAt_complete, slotAt_setSlot_same]
    · rw [slotAt_complete, slotAt_setSlot_ne _ _ _ hi]
  case refine_4 =>
    have hgood := parVerify_good (d := d) h
    refine ⟨fun o ho => by rw [hgood, ho], fun hc => ⟨fun hk hd => ?_, fun hd hr => ?_, fun hkind hready =>
      ⟨fun r hres => ?_, fun hres => ?_⟩⟩⟩
    · rw [hgood, hc]; exact if_pos ⟨hk, hd⟩
    · rw [hgood, hc]
      exact (if_neg fun hb => hd hb.2).trans (if_pos ⟨hd, by simp [hr]⟩)
    all_goals
      have hplace : ¬ (parKind j.image = 0 ∧ d.pay 56 8 = 0) := fun hb => hkind hb.1 hb.2
      have hmem : ¬ (d.pay 56 8 ≠ 0 ∧ (!s.ready 16) = true) := fun hb => by simp [hready hb.1] at hb
    · rw [hgood, hc]
      simp only [if_neg hplace, if_neg hmem, hres]
    · have ht : parVerify s d j = ((authGood s (parKey j.image)).setSlot (d.pay 33 1) none).setStage j j.image .second := by
        rw [hgood, hc]
        simp only [if_neg hplace, if_neg hmem, hres]
      rw [ht]
      exact parSecondPass_meets _ _ (pay_one_lt d 33)
  case refine_5 =>
    have hstart := reheatStart_meets (reheatImages d l0 l1) hf hn
    rw [exec_reheat_start hrun htake hf hn hread l0 l1, hstart]
    refine ⟨fun hm => by rw [if_pos ((imageMissing_iff s _ _).2 hm)], fun hall => ?_⟩
    have hall' : ¬ imageMissing s (d.pay 32 1 % 16) (reheatImages d l0 l1) = true := fun hm => by
      obtain ⟨e, he, hd, hno⟩ := (imageMissing_iff s _ _).1 hm
      obtain ⟨i, hi, hid⟩ := hall e he hd
      exact hno i hi hid
    rw [if_neg hall']
    exact ⟨_, rfl, scrubBegun_meets s d _ _⟩
  case refine_6 =>
    obtain ⟨hnone, hsome⟩ := exec_reheatScrubDone hrun hp hh
    exact ⟨⟨_, hnone, scrubDone_meets s m⟩, fun w r hr => ⟨_, hsome w, reheatEnd_meets hr _ _⟩⟩

end Sys2Proof.Proofs
end

section
/-!
PROOF. What a stop of the gaffer reaches: neither the gaffer's own registers nor the power block, and not DTIME (for O30: R43, R44, R63).
-/

namespace Sys2Proof.Proofs
open Sys2Proof Sys2Proof.Machine Sys2Proof.Safety Sys2Proof.Laws

/-- The blocks whose registers the units set when the gaffer stops: MRV, OBS, SNS, CTL, MEM, LOG. -/
def stopBlocks : List Nat := [4, 5, 6, 7, 17, 20]

/-- The register bits that the units set when the gaffer stops: those blocks, what a completion reaches, and JOBS of any slot. -/
def stopReach : Bits := fun o b => fenceReach o b ∨ o / 0x10000 ∈ stopBlocks ∨ ∃ n, bits [Fld.MRV_SLOT_FLAGS_JOBS n] o b

/-- Every part of the state but DTIME. -/
def stopParts : List Part := allParts.filter (· ≠ .dtime)

theorem mem_stopParts {q : Part} (h : q ≠ .dtime) : q ∈ stopParts := List.mem_filter.2 ⟨mem_allParts q, decide_eq_true h⟩

/-- From `s` to `t` only what a stop reaches has changed. -/
abbrev Stop (s t : State) : Prop := Frame stopParts stopReach s t

/-- A field in one of those blocks. -/
def stopField (f : Field) : Bool := fits f && decide (f.off / 0x10000 ∈ stopBlocks)

theorem stopReach_of_block {o : Nat} (h : o / 0x10000 ∈ stopBlocks) (b : Nat) : stopReach o b := .inr (.inl h)

theorem covers_stop {f : Field} (h : stopField f = true) : Covers stopReach f := by
  obtain ⟨hfit, hblock⟩ := Bool.and_eq_true_iff.1 h
  exact ⟨(fits_iff.1 hfit).1, (fits_iff.1 hfit).2, fun b _ _ => stopReach_of_block (of_decide_eq_true hblock) b⟩

theorem stopReach_of_pba (o b : Nat) (h : pba o b) : stopReach o b := .inl (.inl h)

theorem stopReach_of_field {f : Field} (h : stopField f = true) (b : Nat) : stopReach f.off b :=
  stopReach_of_block (of_decide_eq_true (Bool.and_eq_true_iff.1 h).2) b

theorem stopReach_of_tell (o b : Nat) (h : tellBits o b) : stopReach o b := by
  rcases h with h | ⟨f, hf, rfl, -⟩
  · exact stopReach_of_pba o b h
  · have hq : ∀ f ∈ [Fld.LOG_LOSS_QLOST, Fld.LOG_IRQ_STATUS_QLOST], stopField f = true := by decide
    exact stopReach_of_field (hq f hf) b

section
variable {s t : State}

/-- A change of neither a register nor DTIME. -/
theorem stop_of_regs (h : t.regs = s.regs) (hd : t.dtime = s.dtime) : Stop s t := by
  refine ⟨fun o b _ => by simp only [State.reg, h], fun q hq => ?_⟩
  obtain rfl : q = .dtime := by
    by_contra hne
    exact hq (mem_stopParts hne)
  exact hd

theorem stop_put {f : Field} (v : Nat) (h : stopField f = true) : Stop s (s.put f v) := frame_put f v (covers_stop h)

theorem stop_putB {f : Field} (v : Bool) (h : stopField f = true) : Stop s (s.putB f v) := frame_putB f v (covers_stop h)

theorem stop_putBit {f : Field} (i : Nat) (v : Bool) (h : stopField f = true) : Stop s (s.putBit f i v) :=
  frame_putBit f i v (covers_stop h)

theorem stop_incSat {f : Field} (n : Nat) (h : stopField f = true) : Stop s (s.incSat f n) := frame_incSat f n (covers_stop h)

theorem stop_irqBit {f : Field} (i : Nat) (h : stopField f = true) : Stop s (s.irqBit f i) :=
  frame_irqBit f i (stopReach_of_field h _) stopReach_of_pba (mem_stopParts (by decide))

theorem stop_irqF {f : Field} (h : stopField f = true) : Stop s (s.irqF f) :=
  frame_irqF f (stopReach_of_field h _) stopReach_of_pba (mem_stopParts (by decide))

theorem stop_setReg {o : Nat} (v : Word) (h : ∀ b, stopReach o b) : Stop s (s.setReg o v) := frame_setReg o v h

theorem stop_tell (typ src sub : Nat) (l : List Byte) (fl : Nat) : Stop s (s.tell typ src sub l fl) :=
  frame_tell typ src sub fl l stopReach_of_tell (mem_stopParts (by decide)) (mem_stopParts (by decide))

theorem stop_complete (d : Desc) (st de re : Nat) : Stop s (s.complete d st de re) :=
  frame_complete d st de re (fun _ _ h => .inl h) (mem_stopParts (by decide)) (mem_stopParts (by decide)) (mem_stopParts (by decide))

theorem stop_setAct (s : State) (o : Nat) (v : Word) : Stop s (s.setAct o v) := stop_of_regs rfl rfl

theorem stop_setPwm (s : State) (m : Nat) (x : Pwm) : Stop s (s.setPwm m x) := stop_of_regs rfl rfl

theorem stop_setCtl (s : State) (n : Nat) (x : Slot) : Stop s (s.setCtl n x) := stop_of_regs rfl rfl

theorem stop_setMrv (s : State) (m : Nat) (x : Mrv) : Stop s (s.setMrv m x) := stop_of_regs rfl rfl

theorem stop_putJobs (s : State) (n v : Nat) : Stop s (s.put (Fld.MRV_SLOT_FLAGS_JOBS n) v) :=
  frame_put _ v ⟨by simp [Fld.MRV_SLOT_FLAGS_JOBS], by simp [Fld.MRV_SLOT_FLAGS_JOBS], fun b h1 h2 =>
    .inr (.inr ⟨n, _, List.mem_singleton.2 rfl, rfl, h1, h2⟩)⟩

end

/-! ### The slots stop (R43, R252) -/

theorem stop_finishDesc (s : State) (owner : Option (Nat × Nat)) (st de re : Nat) : Stop s (finishDesc s owner st de re) := by
  unfold finishDesc
  split
  · exact frame_refl s
  · split
    · exact stop_complete _ _ _ _
    · exact frame_refl s

theorem stop_setStops (s : State) (l : List StopReq) : Stop s { s with stops := l } := stop_of_regs rfl rfl

theorem stop_stopBeganOne (s : State) (r : StopReq) (n : Nat) (collision : Bool) : Stop s (stopBeganOne s r n collision) := by
  refine frame_ite (fun _ => stop_setStops s _) fun _ => frame_trans (stop_setStops s (s.stops.filter (· ≠ r))) ?_
  dsimp only
  split
  · exact stop_complete _ _ _ _
  · exact frame_refl _

theorem stop_stopBegan (s : State) (n : Nat) (collision : Bool) : Stop s (stopBegan s n collision) :=
  frame_foldl_mem fun r _ s => stop_stopBeganOne s r n collision

/-- The fields of a slot that stops. -/
theorem stopField_slot : ∀ n < 6, ∀ f ∈ [Fld.CTL_STATE_STATE n, Fld.CTL_STATE_UNDERRUN n, Fld.CTL_STATE_QDEPTH n,
    Fld.CTL_STATE_CAUSE n, Fld.CTL_CNT_STOPS n], stopField f = true := by decide

theorem stop_slotIdle (s : State) {n : Nat} (h : n < 6) : Stop s (slotIdle s n) := by
  have hf := stopField_slot n h
  refine frame_trans (frame_trans (frame_trans ?_ (stop_put _ (hf _ (by simp)))) (stop_putB _ (hf _ (by simp))))
    (stop_put _ (hf _ (by simp)))
  exact frame_trans (stop_setPwm s n _) (stop_setCtl _ n _)

theorem stop_stopSlot (s : State) {n : Nat} (h : n < 6) (cause : Option Nat) (record : Bool) : Stop s (stopSlot s n cause record) := by
  have hf := stopField_slot n h
  have hcause (t : State) : Stop t (match cause with | some c => t.put (Fld.CTL_STATE_CAUSE n) c | none => t) := by
    cases cause with
    | some c => exact stop_put _ (hf _ (by simp))
    | none => exact frame_refl t
  have hstart (t : State) : Stop t (match (s.slotOf n).start with
      | some c => finishDesc t (some (c.sq, c.seq)) stBadSequence 0x05 0 | none => t) := by
    split
    · exact stop_finishDesc _ _ _ _ _
    · exact frame_refl t
  refine frame_trans (frame_trans (frame_trans (frame_ite_right ?_ fun _ => stop_tell _ _ _ _ _)
    (frame_foldl_mem fun p _ t => stop_finishDesc t _ _ _ _)) (hstart _)) (stop_stopBegan _ n _)
  exact frame_trans (frame_trans (frame_trans (stop_slotIdle s h) (hcause _)) (stop_incSat 1 (hf _ (by simp))))
    (stop_irqBit n (by decide))

/-- Every slot stops with the gaffer (R43, R232). -/
theorem stop_slotsStop (s : State) : Stop s (slotsStop s) := by
  refine frame_range fun n hn s => ?_
  have hstop (t : State) : Stop t (if t.slotState n = 0 then
      match (t.slotOf n).start with
      | some c => finishDesc (slotIdle t n) (some (c.sq, c.seq)) stBadSequence 0x05 0
      | none => t
    else enterStopped t n 7) := by
    refine frame_ite (fun _ => ?_) fun _ => stop_stopSlot t hn _ _
    split
    · exact frame_trans (stop_slotIdle t hn) (stop_finishDesc _ _ _ _ _)
    · exact frame_refl t
  exact frame_trans (stop_setCtl s n _) (hstop _)

/-! ### Slices and jobs at the edge (R172, R174) -/

theorem stop_clearJob (s : State) {m : Nat} (h : m < 16) : Stop s (s.clearJob m) := by
  have hf : ∀ m < 16, stopField (Fld.MRV_JOB_JOB_VALID m) = true := by decide
  exact frame_trans (stop_setMrv s m _) (stop_putB _ (hf m h))

theorem stop_endSlice (s : State) {m : Nat} (h : m < 16) : Stop s (endSlice s m) :=
  frame_trans (stop_clearJob s h) (stop_setMrv _ m _)

theorem stop_unselect (s : State) (j : Job) : Stop s (unselect s j) :=
  frame_range fun _ hm s => frame_ite_right (frame_refl s) fun _ => stop_clearJob s hm

theorem stop_setJobs (s : State) (l : List Job) (x : List Mrv) : Stop s { s with jobs := l, mrv := x } := stop_of_regs rfl rfl

theorem stop_dropJob (s : State) (j : Job) : Stop s (dropJob s j) :=
  frame_trans (frame_trans (stop_unselect s j) (stop_setJobs _ _ _)) (stop_putJobs _ j.slot _)

theorem stop_endJob (s : State) (j : Job) (st de : Nat) : Stop s (endJob s j st de) := by
  have hdrop := stop_dropJob s j
  unfold endJob
  generalize dropJob s j = t at hdrop
  dsimp only
  split
  · exact frame_trans hdrop (stop_complete _ _ _ _)
  · exact hdrop

/-- The fields that an access of external memory reports itself in. -/
theorem stopField_mem : ∀ f ∈ [Fld.MEM_ERRADDR_LO_ADDR, Fld.MEM_ERRADDR_HI_ADDR, Fld.MEM_ERRSRC_SRC, Fld.MEM_ERRSRC_VALID,
    Fld.MEM_IRQ_STATUS_RANGE, Fld.MEM_IRQ_STATUS_UNCORR, Fld.MEM_CNT2_UNCORR], stopField f = true := by decide

theorem stop_memErr (s : State) (a n : Nat) : Stop s (s.memErr a n) := by
  have hf := stopField_mem
  exact frame_trans (frame_trans (frame_trans (stop_put _ (hf _ (by simp))) (stop_put _ (hf _ (by simp)))) (stop_put _ (hf _ (by simp))))
    (frame_setBit _ _ (covers_stop (hf _ (by simp))))

theorem stop_memRefuse (s : State) (a : Nat) : Stop s (s.memRefuse a) :=
  frame_trans (stop_memErr s a 4) (stop_irqF (by decide))

theorem stop_setMem (s : State) (x : Mem) : Stop s { s with mem := x } := stop_of_regs rfl rfl

theorem stop_memWrite (s : State) (a : Nat) (l : List Byte) : Stop s (memWrite s a l) := by
  refine frame_ite (fun _ => frame_refl s) fun _ => frame_ite (fun _ => ?_) fun _ => stop_memRefuse s a
  refine frame_trans (stop_setMem s _) (frame_foldl_mem fun e _ t => ?_)
  exact frame_trans (frame_trans (stop_incSat 1 (by decide)) (stop_memErr _ _ _)) (stop_irqF (by decide))


theorem stop_freeBytes (s : State) (k : Nat) : Stop s (s.freeBytes k).2 := stop_of_regs rfl rfl

theorem stop_setHostMem (s : State) (x : Store Byte) : Stop s { s with hostMem := x } := stop_of_regs rfl rfl

theorem stop_freeOutput (s : State) (j : Job) : Stop s (freeOutput s j) := by
  unfold freeOutput
  split
  · exact frame_refl s
  · exact frame_range fun b _ s => frame_trans (stop_freeBytes s _) (frame_ite
      (fun _ => frame_ite_right (frame_refl _) fun _ => stop_setHostMem _ _)
      fun _ => frame_ite_right (frame_refl _) fun _ => stop_memWrite _ _ _)

theorem stop_jobStops (s : State) : Stop s (jobStops s) := by
  refine frame_foldl_mem fun j _ s => ?_
  split
  · exact frame_trans (stop_freeOutput s j) (stop_endJob _ j _ _)
  · exact frame_refl s

theorem stop_setMrvs (s : State) (x : List Mrv) : Stop s { s with mrv := x } := stop_of_regs rfl rfl

/-- Slices and jobs at a tick edge (R172). -/
theorem stop_jobTickEdge (s : State) : Stop s (jobTickEdge s) :=
  frame_trans (frame_trans (frame_range fun _ hm s => stop_endSlice s hm) (stop_setMrvs _ _)) (stop_jobStops _)

/-! ### Shadows, thermal loads, DVFS, fences, modulators and MRV_PINNED (R24, R152, R156, R175, R194, R221) -/

theorem stop_kadvUpdate (s : State) {n : Nat} (h : n < 6) : Stop s (kadvUpdate s n) := by
  have hf : ∀ n < 6, stopField (Fld.OBS_SPDFS_KADV n) = true := by decide
  exact frame_ite (fun _ => frame_trans (stop_put _ (hf n h)) (stop_irqF (by decide))) fun _ => stop_put _ (hf n h)

theorem stop_loadShadow (s : State) (o : Nat) : Stop s (loadShadow s o) := by
  unfold loadShadow
  split
  · exact frame_refl s
  · refine frame_ite (fun _ => frame_refl s) fun _ => frame_trans (stop_setAct s o (s.reg o)) ?_
    dsimp only
    split
    case h_1 n hn =>
      exact frame_ite (fun _ => frame_refl _) fun _ => stop_kadvUpdate _ (List.mem_range.1 (List.mem_of_find?_eq_some hn))
    case h_2 => exact frame_refl _

theorem stop_loadShadows (s : State) : Stop s (loadShadows s) := frame_foldl_mem fun o _ s => stop_loadShadow s o

theorem stop_setObs (s : State) (n : Nat) (x : Obs) : Stop s (s.setObs n x) := stop_of_regs rfl rfl

theorem stop_thermLoads (s : State) : Stop s (thermLoads s) := by
  refine frame_range fun n hn s => frame_ite_right (frame_refl s) fun _ => frame_trans (stop_setObs s n _) (stop_setReg _ fun b => ?_)
  exact stopReach_of_block (o := Reg.OBS_THSTATE n) (by simp only [Reg.OBS_THSTATE, stopBlocks, List.mem_cons]; omega) b

theorem stop_mrvIrq (s : State) (m : Nat) {f : Field} (h : stopField f = true) : Stop s (s.mrvIrq m f) :=
  frame_trans (stop_putBit m true (by decide)) (stop_irqF h)

theorem stop_dvfsApply (s : State) {m : Nat} (h : m < 16) (p : Nat) : Stop s (dvfsApply s m p) := by
  have hf : ∀ m < 16, stopField (Fld.MRV_STATE_DVFS_CUR m) = true := by decide
  exact frame_trans (stop_setMrv s m _) (frame_ite (fun _ => frame_refl _) fun _ =>
    frame_trans (stop_put _ (hf m h)) (stop_mrvIrq _ m (by decide)))

theorem stop_dvfsEdge (s : State) : Stop s (dvfsEdge s) := by
  refine frame_range fun m hm s => ?_
  split
  · exact stop_dvfsApply s hm _
  · exact frame_refl s

theorem stop_setRuns (s : State) (x : List Run) (l : List Job) : Stop s { s with runs := x, jobs := l } := stop_of_regs rfl rfl

theorem stop_fenceMarver (s : State) {m : Nat} (h : m < 16) (cause : Nat) : Stop s (fenceMarver s m cause) := by
  have hf : ∀ m < 16, ∀ f ∈ [Fld.MRV_STATE_FENCED m, Fld.MRV_FENCED_FENCED, Fld.MRV_FENCE_CAUSE m, Fld.MRV_FENCE_COUNT m],
      stopField f = true := by decide
  refine frame_ite (fun _ => frame_refl s) fun _ => frame_trans (frame_trans (frame_trans (frame_trans (frame_trans ?_
    (stop_irqF (by decide))) (stop_tell _ _ _ _ _)) (stop_clearJob _ h)) (stop_setMrv _ m _)) (stop_setRuns _ _ _)
  exact frame_trans (frame_trans (frame_trans (stop_putB _ (hf m h _ (by simp))) (stop_putBit m true (hf m h _ (by simp))))
    (stop_put _ (hf m h _ (by simp)))) (stop_incSat 1 (hf m h _ (by simp)))

theorem stop_fenceEdge (s : State) : Stop s (fenceEdge s) :=
  frame_range fun m hm s => frame_ite_right (frame_refl s) fun _ => frame_trans (stop_setMrv s m _) (stop_fenceMarver _ hm 2)

theorem stop_setMod (s : State) (k : Nat) (x : Mod) : Stop s (s.setMod k x) := stop_of_regs rfl rfl

theorem stop_modStart (s : State) {k : Nat} (h : k < 4) (c : Nat) : Stop s (modStart s k c) := by
  have hf : ∀ k < 4, ∀ f ∈ [Fld.MOD_STATUS_STATE k, Fld.MOD_OUT_COUNT k], stopField f = true := by decide
  exact frame_trans (frame_trans (frame_trans (stop_setMod s k _) (stop_put _ (hf k h _ (by simp)))) (stop_put _ (hf k h _ (by simp))))
    (stop_setMod _ k _)

theorem stop_modTickEdge (s : State) (first : Bool) : Stop s (modTickEdge s first) :=
  frame_range fun _ hk s => frame_ite_right (frame_refl s) fun _ => stop_modStart s hk _

/-! ### The gaffer stops (R43, R63) -/

theorem stop_clearTick (s : State) : Stop s (clearTick s) := stop_of_regs rfl rfl

theorem stop_stopEffects (s : State) : Stop s (stopEffects s) := by
  have hjobs : Stop s (jobTickEdge (clearTick (slotsStop s))) :=
    frame_trans (frame_trans (stop_slotsStop s) (stop_clearTick _)) (stop_jobTickEdge _)
  have hloads := frame_trans (frame_trans hjobs (stop_loadShadows _)) (stop_thermLoads _)
  exact frame_trans (frame_trans (frame_trans hloads (stop_dvfsEdge _)) (stop_fenceEdge _)) (stop_modTickEdge _ false)

/-- The register bits that a stop of the gaffer can change: RUNNING, EN and DISCAUSE of the modules, and what the units set. -/
def gafStopReach : Bits := fun o b => stopReach o b ∨ bits [Fld.GAF_STATUS_RUNNING] o b ∨ o / 0x10000 = 8

theorem frame_gafStopped (s : State) : Frame stopParts gafStopReach s (gafStopped s) := by
  have hunits {t u : State} (h : Stop t u) : Frame stopParts gafStopReach t u := frame_mono h (fun _ h => h) fun _ _ h => .inl h
  have hpwm : Frame stopParts gafStopReach s (pwmDisableAll s 3) := by
    refine frame_range fun m hm t => frame_mono (frame_pwmDisable t hm 3) (fun q hq => mem_stopParts ?_) ?_
    · rintro rfl
      simp at hq
    · rintro o b ⟨f, hf, rfl, -⟩
      have hw : ∀ m < 6, ∀ f ∈ [Fld.PWM_STATUS_EN m, Fld.PWM_STATUS_DISCAUSE m], f.off / 0x10000 = 8 := by decide
      exact .inr (.inr (hw m hm f hf))
  have hshow (t : State) : Stop t t.showPinned := frame_mono (frame_showPinned t) (by simp) fun o b h =>
    stopReach_of_block (by simp only [Safety.range] at h; simp only [stopBlocks, List.mem_cons]; omega) b
  rw [gafStopped_eq]
  refine frame_trans (frame_trans (frame_trans hpwm (hunits (stop_stopEffects _))) (frame_putB _ _ ?_)) (hunits (hshow _))
  exact ⟨by decide, by decide, fun b h1 h2 => .inr (.inl ⟨_, List.mem_singleton.2 rfl, rfl, h1, h2⟩)⟩

end Sys2Proof.Proofs
end

section
/-!
PROOF. What the losses of lock reach: the tick PLL, the USB port, a marver (for O30: R43, R44, R175, R383, R441, R471).
-/

namespace Sys2Proof.Proofs
open Sys2Proof Sys2Proof.Machine Sys2Proof.Safety Sys2Proof.Laws

/-! ### The tick PLL (R44, R441) -/

/-- Neither LOCKED nor the lock of the tick PLL is within the reach of a stop. -/
theorem not_gafStopReach {o b : Nat} (h : o = Reg.GAF_STATUS ∧ b = 5 ∨ o = Reg.PWR_PLL ∧ b = 16) : ¬ gafStopReach o b := by
  rintro (hunits | ⟨f, hf, ho, h1, h2⟩ | hpwm)
  · rcases hunits with hfence | hblock | ⟨n, f, hf, ho, h1, h2⟩
    · simp only [fenceReach, orBits, pba, fences, Safety.range, Reg.GAF_STATUS, Reg.PWR_PLL] at hfence h
      omega
    · simp only [stopBlocks, List.mem_cons, List.not_mem_nil, or_false, Reg.GAF_STATUS, Reg.PWR_PLL] at hblock h
      omega
    · obtain rfl := List.mem_singleton.1 hf
      simp only [Fld.MRV_SLOT_FLAGS_JOBS, Reg.MRV_SLOT_FLAGS, Reg.GAF_STATUS] at ho h2 h
      omega
  · obtain rfl := List.mem_singleton.1 hf
    simp only [Fld.GAF_STATUS_RUNNING, Reg.GAF_STATUS, Reg.PWR_PLL] at ho h2 h
    omega
  · simp only [Reg.GAF_STATUS, Reg.PWR_PLL] at hpwm h
    omega

theorem flag_irqF_apart (s : State) {f g : Field} (k : fits f = true) (h : apart g f = true)
    (hp : g.off < 0x29000 ∨ 0x29010 ≤ g.off) : (s.irqF f).flag g = s.flag g := by
  simp only [State.flag, get_irqF_apart s k h hp]

/-- A word that an interrupt does not reach is as it was. -/
theorem reg_irqF_ne (s : State) {f : Field} {o : Nat} (k : fits f = true) (h : f.off ≠ o) (hp : o < 0x29000 ∨ 0x29010 ≤ o) :
    (s.irqF f).reg o = s.reg o := by
  have hirq : Frame [.msix] (orBits pba (bits [f])) s (s.irqF f) := frame_irqF_listed s (by simp) k (by simp)
  refine reg_of_frame hirq fun b hb hbit => ?_
  rcases hbit with hbit | ⟨g, hg, ho, -⟩
  · exact not_pba_of_outside hp b hb hbit
  · exact h (List.mem_singleton.1 hg ▸ ho)

theorem flag_setGaf (s : State) (x : Gaf) (f : Field) : State.flag { s with gaf := x } f = s.flag f := rfl

/-- The loss of the tick PLL as far as it does not stop the gaffer: its locks, and a start that waits (R41, R44). -/
def unlocked (s : State) : State :=
  let u := (s.putB Fld.GAF_STATUS_LOCKED false).putB Fld.PWR_PLL_TICK false
  { u with gaf := { u.gaf with starting := if u.isSlave && !u.running then u.gaf.starting else none } }

theorem unlocked_meets (s : State) : (unlocked s).flag Fld.GAF_STATUS_LOCKED = false ∧ (unlocked s).flag Fld.PWR_PLL_TICK = false ∧
    (unlocked s).running = s.running := by
  have hflag (f : Field) : (unlocked s).flag f = ((s.putB Fld.GAF_STATUS_LOCKED false).putB Fld.PWR_PLL_TICK false).flag f :=
    flag_setGaf _ _ f
  refine ⟨(hflag _).trans ?_, (hflag _).trans (flag_putB_self _ false rfl rfl), (hflag _).trans ?_⟩
  · exact (flag_put_apart _ _ rfl rfl).trans (flag_putB_self s false rfl rfl)
  · exact (flag_put_apart _ _ rfl rfl).trans (flag_put_apart s _ rfl rfl)

/-- LOST of the gaffer is noted, with its interrupt (R44). -/
def lostNoted (s : State) : State := ({ s with gaf := { s.gaf with lost := true } } : State).irqF Fld.GAF_IRQ_STATUS_LOCK_LOST

theorem frame_lostNoted (s : State) :
    Frame [.gaf, .msix] (orBits pba (bits [Fld.GAF_IRQ_STATUS_LOCK_LOST])) s (lostNoted s) :=
  frame_trans (frame_setGaf s _ (by simp)) (frame_irqF_listed _ (by simp) rfl (by simp))

theorem tickLost_eq (s : State) : tickLost s = if s.running then lostNoted (gafStopped (unlocked s)) else unlocked s := by
  rw [← (unlocked_meets s).2.2]
  generalize hu : unlocked s = u
  simp only [unlocked] at hu
  simp only [tickLost, hu, lostNoted]

/-- What a loss of the tick PLL leaves (R44): no lock, no ticks, DTIME as it was, and of a gaffer that ran its note and no PWM module
on. -/
def TickGone (s u : State) : Prop :=
  u.flag Fld.GAF_STATUS_LOCKED = false ∧ u.flag Fld.PWR_PLL_TICK = false ∧ u.running = false ∧ u.dtime = s.dtime ∧
    (s.running = true → u.flag Fld.GAF_IRQ_STATUS_LOCK_LOST = true ∧ u.gaf.lost = true ∧ ∀ n < 6, u.flag (Fld.PWM_STATUS_EN n) = false)

/-- The flags that it leaves. -/
def tickGoneFlags : List Field :=
  [Fld.GAF_STATUS_LOCKED, Fld.PWR_PLL_TICK, Fld.GAF_STATUS_RUNNING, Fld.GAF_IRQ_STATUS_LOCK_LOST] ++
    (List.range 6).map Fld.PWM_STATUS_EN

theorem mem_tickGoneFlags {n : Nat} (h : n < 6) : Fld.PWM_STATUS_EN n ∈ tickGoneFlags :=
  List.mem_append_right _ (List.mem_map.2 ⟨n, List.mem_range.2 h, rfl⟩)

/-- A change of none of its flags, of the gaffer beside its registers or of DTIME leaves a loss as it is. -/
theorem tickGone_of_flags {s u t : State} (h : TickGone s u) (hf : ∀ f ∈ tickGoneFlags, t.flag f = u.flag f) (hd : t.dtime = u.dtime)
    (hg : t.gaf = u.gaf) : TickGone s t := by
  obtain ⟨hlocked, htick, hrun, hdtime, hran⟩ := h
  refine ⟨(hf _ (by simp [tickGoneFlags])).trans hlocked, (hf _ (by simp [tickGoneFlags])).trans htick,
    (hf _ (by simp [tickGoneFlags])).trans hrun, hd.trans hdtime, fun hr => ?_⟩
  obtain ⟨hirq, hlost, hen⟩ := hran hr
  exact ⟨(hf _ (by simp [tickGoneFlags])).trans hirq, by rw [hg]; exact hlost,
    fun n hn => (hf _ (mem_tickGoneFlags hn)).trans (hen n hn)⟩

/-- The gaffer, stopped by the loss of its clock (R44). -/
theorem lostNoted_meets (s : State) (h : s.flag Fld.GAF_STATUS_LOCKED = false) (ht : s.flag Fld.PWR_PLL_TICK = false) :
    TickGone s (lostNoted (gafStopped s)) := by
  let g := gafStopped s
  have hstop := frame_gafStopped s
  have hnote := frame_lostNoted g
  have hlow {f : Field} (hb : f.off < 0x29000 ∨ 0x29010 ≤ f.off) (ha : apart f Fld.GAF_IRQ_STATUS_LOCK_LOST = true) :
      (lostNoted g).flag f = g.flag f := (flag_irqF_apart _ rfl ha hb).trans (flag_setGaf g _ f)
  refine ⟨?_, ?_, ?_, ?_, fun _ => ⟨?_, ?_, fun n hn => ?_⟩⟩
  · refine (hlow (.inl (by decide)) rfl).trans ((flag_of_frame hstop fun b h1 h2 => ?_).trans h)
    exact not_gafStopReach (.inl ⟨rfl, Nat.le_antisymm h2 h1⟩)
  · refine (hlow (.inr (by decide)) rfl).trans ((flag_of_frame hstop fun b h1 h2 => ?_).trans ht)
    exact not_gafStopReach (.inr ⟨rfl, Nat.le_antisymm h2 h1⟩)
  · exact (hlow (.inl (by decide)) rfl).trans (running_gafStopped s)
  · exact (hnote.2 .dtime (by simp)).trans (hstop.2 .dtime (by simp [stopParts]))
  · exact flag_irqF _ _ rfl (by decide) (not_pba_of_outside (by decide))
  · have hgaf : (lostNoted g).gaf = { g.gaf with lost := true } :=
      (frame_irqF_listed (ps := [.msix]) (fs := [Fld.GAF_IRQ_STATUS_LOCK_LOST]) _ (by simp) rfl (by simp)).2 .gaf (by simp)
    rw [hgaf]
  · have hen : g.flag (Fld.PWM_STATUS_EN n) = (pwmDisableAll s 3).flag (Fld.PWM_STATUS_EN n) :=
      flag_of_frame (quiet_gafStopped s) fun b h1 h2 k => k.2 n hn ⟨rfl, Nat.le_zero.1 h2⟩
    refine (hlow (.inr ?_) (apart_of_off ?_)).trans (hen.trans (en_pwmDisableAll s 3 hn)) <;>
      simp only [Fld.PWM_STATUS_EN, Reg.PWM_STATUS, Fld.GAF_IRQ_STATUS_LOCK_LOST, Reg.GAF_IRQ_STATUS] <;> omega

theorem tickLost_meets (s : State) : TickGone s (tickLost s) := by
  obtain ⟨hlocked, htick, hrun⟩ := unlocked_meets s
  have hdtime : (unlocked s).dtime = s.dtime := rfl
  rw [tickLost_eq]
  split
  case isTrue hr =>
    obtain ⟨h1, h2, h3, h4, h5⟩ := lostNoted_meets (unlocked s) hlocked htick
    exact ⟨h1, h2, h3, h4.trans hdtime, fun k => h5 (hrun.trans k)⟩
  case isFalse hr => exact ⟨hlocked, htick, hrun.trans (by simpa using hr), hdtime, fun k => absurd k hr⟩

/-- A slave that loses its lock acquires (R441). -/
theorem acquire_meets (s : State) : TickGone s (acquire s) ∧ (acquire s).linkState = 1 := by
  let v : Vxl := { s.vxl with missed := 0, hold := false, sleeping := false, commitAt := none, acqAt := s.cyc }
  have hgone : TickGone s (tickLost (s.setVxl v)) := tickLost_meets (s.setVxl v)
  have hapart : ∀ f ∈ tickGoneFlags, apart f Fld.VXL_STATUS_STATE = true := by decide
  exact ⟨tickGone_of_flags hgone (fun f hf => flag_put_apart _ 1 rfl (hapart f hf)) rfl rfl, get_put_self _ 1 rfl⟩

/-- What the loss of the tick PLL leaves (R44, R441, R471). -/
theorem tickPllLost_meets {s : State} (h : s.flag Fld.PWR_PLL_TICK = true) :
    let u := tickPllLost s
    TickGone s u ∧ u.flag Fld.PWR_IRQ_STATUS_PLL_LOST = true ∧ (s.isSlave = true → u.linkState = 1) := by
  intro u
  let t := if s.isSlave then acquire s else tickLost s
  have hu : u = t.irqF Fld.PWR_IRQ_STATUS_PLL_LOST := if_neg (by simp [h])
  have hgone : TickGone s t := by
    simp only [t]
    split
    · exact (acquire_meets s).1
    · exact tickLost_meets s
  have hirq : Frame [.msix] (orBits pba (bits [Fld.PWR_IRQ_STATUS_PLL_LOST])) t (t.irqF Fld.PWR_IRQ_STATUS_PLL_LOST) :=
    frame_irqF_listed t (by simp) rfl (by simp)
  have hapart : ∀ f ∈ tickGoneFlags, apart f Fld.PWR_IRQ_STATUS_PLL_LOST = true ∧ (f.off < 0x29000 ∨ 0x29010 ≤ f.off) := by decide
  rw [hu]
  refine ⟨tickGone_of_flags hgone (fun f hf => flag_irqF_apart t rfl (hapart f hf).1 (hapart f hf).2) (hirq.2 .dtime (by simp))
    (hirq.2 .gaf (by simp)), flag_irqF t _ rfl (by decide) (not_pba_of_outside (by decide)), fun hs => ?_⟩
  have hstate : (t.irqF Fld.PWR_IRQ_STATUS_PLL_LOST).linkState = t.linkState := get_irqF_apart t rfl rfl (.inr (by decide))
  rw [hstate, show t = acquire s from if_pos hs]
  exact (acquire_meets s).2

/-! ### A fence (R175) -/

/-- What a fence of marver m sets beside its FENCED flag. -/
def fenceFields (m : Nat) : List Field :=
  [Fld.MRV_FENCED_FENCED, Fld.MRV_FENCE_CAUSE m, Fld.MRV_FENCE_COUNT m, Fld.MRV_PIRQ_STATUS_FENCED, Fld.MRV_JOB_JOB_VALID m]

/-- Each lies within a word of the marvers, apart from the flag. -/
theorem fenceFields_apart : ∀ m < 16, ∀ f ∈ fenceFields m,
    fits f = true ∧ f.off / 0x10000 = 4 ∧ apart (Fld.MRV_STATE_FENCED m) f = true := by decide

/-- The bits that a fence of marver m can change beside its FENCED flag: its fields, and those of its record. -/
def fenceMarverReach (m : Nat) : Bits := orBits tellBits (bits (fenceFields m))

theorem frame_setRuns {ps : List Part} {p : Bits} (s : State) (x : List Run) (l : List Job) (hr : .runs ∈ ps) (hj : .jobs ∈ ps) :
    Frame ps p s { s with runs := x, jobs := l } := by
  refine frame_trans (t := { s with runs := x }) ?_ ?_
  · exact frame_part .runs hr rfl fun r hr => by cases r <;> first | exact absurd rfl hr | simp [Part.same]
  · exact frame_part .jobs hj rfl fun r hr => by cases r <;> first | exact absurd rfl hr | simp [Part.same]

/-- What a fence does once it has set the flag of its marver (R175). -/
theorem frame_fenceMarver {s : State} {m : Nat} (hm : m < 16) (h : s.fenced m = false) (cause : Nat) :
    Frame [.tel, .msix, .mrv, .runs, .jobs] (fenceMarverReach m) (s.putB (Fld.MRV_STATE_FENCED m) true) (fenceMarver s m cause) := by
  have hc {f : Field} (hf : f ∈ fenceFields m) : Covers (fenceMarverReach m) f :=
    covers_right _ (covers_of_fits hf (fenceFields_apart m hm f hf).1)
  have hputs (t : State) : Frame [.tel, .msix, .mrv, .runs, .jobs] (fenceMarverReach m) t
      (((t.putBit Fld.MRV_FENCED_FENCED m true).put (Fld.MRV_FENCE_CAUSE m) cause).incSat (Fld.MRV_FENCE_COUNT m)) :=
    frame_trans (frame_trans (frame_putBit _ m true (hc (by simp [fenceFields]))) (frame_put _ _ (hc (by simp [fenceFields]))))
      (frame_incSat _ 1 (hc (by simp [fenceFields])))
  have hirq (t : State) : Frame [.tel, .msix, .mrv, .runs, .jobs] (fenceMarverReach m) t (t.irqF Fld.MRV_PIRQ_STATUS_FENCED) :=
    frame_irqF _ (.inr ⟨_, by simp [fenceFields], rfl, by decide, by decide⟩) (fun _ _ h => .inl (.inl h)) (by simp)
  have htell (t : State) (l : List Byte) : Frame [.tel, .msix, .mrv, .runs, .jobs] (fenceMarverReach m) t (t.tell 0x09 4 m l) :=
    frame_tell _ _ _ _ _ (fun _ _ h => .inl h) (by simp) (by simp)
  have hclear (t : State) : Frame [.tel, .msix, .mrv, .runs, .jobs] (fenceMarverReach m) t (t.clearJob m) :=
    frame_trans (frame_setMrv t m _ (by simp)) (frame_putB _ _ (hc (by simp [fenceFields])))
  have hfenced : ¬ s.fenced m = true := by simp [h]
  simp only [fenceMarver, if_neg hfenced]
  exact frame_trans (frame_trans (frame_trans (frame_trans (frame_trans (hputs _) (hirq _)) (htell _ _)) (hclear _))
    (frame_setMrv _ m _ (by simp))) (frame_setRuns _ _ _ (by simp) (by simp))

/-- A flag that its record and its fields leave is after a fence as the FENCED flag left it. -/
theorem flag_fenceMarver {s : State} {m : Nat} (hm : m < 16) (h : s.fenced m = false) (cause : Nat) {f : Field}
    (hf : ∀ g ∈ fenceFields m, apart f g = true) (ho : f.off / 0x10000 = 4 ∨ f.off / 0x10000 = 18) :
    (fenceMarver s m cause).flag f = (s.putB (Fld.MRV_STATE_FENCED m) true).flag f := by
  refine flag_of_frame (frame_fenceMarver hm h cause) fun b h1 h2 => ?_
  rintro ((k | ⟨g, hg, hgo, -⟩) | ⟨g, hg, hgo, h3, h4⟩)
  · simp only [pba, Safety.range] at k; omega
  · have hw : ∀ g ∈ [Fld.LOG_LOSS_QLOST, Fld.LOG_IRQ_STATUS_QLOST], g.off / 0x10000 = 20 := by decide
    have := hw g hg
    omega
  · have := hf g hg
    simp only [apart, ne_eq, Bool.or_eq_true, decide_eq_true_eq] at this
    omega

/-- A marver that is fenced says so, and the locks of the PLLs stay (R175). -/
theorem fenceMarver_meets (s : State) {m : Nat} (hm : m < 16) (cause : Nat) {f : Field} (hf : f.off = Reg.PWR_PLL) :
    (fenceMarver s m cause).fenced m = true ∧ (fenceMarver s m cause).flag f = s.flag f := by
  cases h : s.fenced m with
  | true =>
    rw [show fenceMarver s m cause = s from if_pos h]
    exact ⟨h, rfl⟩
  | false =>
    have hblock : (Fld.MRV_STATE_FENCED m).off / 0x10000 = 4 := by simp only [Fld.MRV_STATE_FENCED, Reg.MRV_STATE]; omega
    have hpll {g : Field} (hg : g.off / 0x10000 = 4) : apart f g = true := apart_of_off (by
      rw [hf]; simp only [Reg.PWR_PLL]; omega)
    refine ⟨(flag_fenceMarver hm h cause (fun g hg => (fenceFields_apart m hm g hg).2.2) (.inl hblock)).trans
      (flag_putB_self s true rfl rfl), ?_⟩
    exact (flag_fenceMarver hm h cause (fun g hg => hpll (fenceFields_apart m hm g hg).2.1) (.inr (by rw [hf]; rfl))).trans
      (flag_put_apart s _ rfl (hpll hblock))

/-! ### The USB port (R378, R383) -/

/-- What the USB port sets: its own registers, and what a completion reaches. -/
def usbReach : Bits := fun o b => fenceReach o b ∨ o / 0x10000 = 14

abbrev UsbOnly (s t : State) : Prop := Frame allParts usbReach s t

section
variable {s t : State}

theorem usb_of_regs (h : t.regs = s.regs) : UsbOnly s t := ⟨fun o b _ => by simp only [State.reg, h], fun q n => absurd (mem_allParts q) n⟩

theorem covers_usb {f : Field} (k : fits f = true) (h : f.off / 0x10000 = 14) : Covers usbReach f :=
  ⟨(fits_iff.1 k).1, (fits_iff.1 k).2, fun _ _ _ => .inr h⟩

theorem usb_put {f : Field} (v : Nat) (k : fits f = true) (h : f.off / 0x10000 = 14) : UsbOnly s (s.put f v) := frame_put f v (covers_usb k h)

theorem usb_putB {f : Field} (v : Bool) (k : fits f = true) (h : f.off / 0x10000 = 14) : UsbOnly s (s.putB f v) :=
  frame_putB f v (covers_usb k h)

theorem usb_incSat {f : Field} (k : fits f = true) (h : f.off / 0x10000 = 14) : UsbOnly s (s.incSat f) := frame_incSat f 1 (covers_usb k h)

theorem usb_irqF {f : Field} (h : f.off / 0x10000 = 14) : UsbOnly s (s.irqF f) :=
  frame_irqF f (.inr h) (fun _ _ h => .inl (.inl h)) (mem_allParts _)

theorem usb_complete (d : Desc) (st de re : Nat) : UsbOnly s (s.complete d st de re) :=
  frame_complete d st de re (fun _ _ h => .inl h) (mem_allParts _) (mem_allParts _) (mem_allParts _)

theorem usb_setUsb (s : State) (x : Usb) : UsbOnly s (s.setUsb x) := usb_of_regs rfl

end

theorem usb_setReq (s : State) (r : Option (List Byte)) : UsbOnly s (setReq s r) :=
  frame_trans (usb_setUsb s _) (usb_putB _ rfl (by decide))

theorem usb_deliver (s : State) (sq seq : Nat) (req : List Byte) : UsbOnly s (deliver s sq seq req) := by
  unfold deliver
  split
  · exact usb_complete _ _ _ _
  · exact frame_refl s

theorem usb_usbServe1 (s : State) : UsbOnly s (usbServe1 s) := by
  unfold usbServe1
  dsimp only
  split
  · split
    · exact frame_trans (usb_setUsb s _) (usb_complete _ _ _ _)
    · exact usb_setUsb s _
  · split
    · refine frame_ite (fun _ => frame_trans (usb_setUsb s _) (usb_deliver _ _ _ _)) fun _ => frame_ite (fun _ => ?_) fun _ => usb_setUsb s _
      exact frame_trans (frame_trans (frame_trans (usb_setUsb s _) (usb_setReq _ _)) (usb_put _ rfl (by decide))) (usb_incSat rfl (by decide))
    · exact usb_setUsb s _
    · exact usb_setUsb s _
  · exact frame_refl s

theorem usb_usbServeN (n : Nat) (s : State) : UsbOnly s (usbServeN n s) := by
  induction n generalizing s with
  | zero => exact frame_refl s
  | succ n ih => exact frame_trans (usb_usbServe1 s) (ih _)

theorem usb_addNotice (s : State) (tag : Nat) : UsbOnly s (addNotice s tag) :=
  frame_ite (fun _ => frame_trans (usb_setUsb s _) (usb_incSat rfl (by decide))) fun _ => usb_setUsb s _

theorem usb_usbCancel (s : State) : UsbOnly s (usbCancel s) := by
  unfold usbCancel
  split
  · exact frame_refl s
  · have hreq (x : Usb) : UsbOnly s (setReq (State.setUsb ((s.incSat Fld.USB_CNT_CANCELS).irqF Fld.USB_IRQ_STATUS_CANCEL) x) none) :=
      frame_trans (frame_trans (frame_trans (usb_incSat rfl (by decide)) (usb_irqF (by decide))) (usb_setUsb _ x)) (usb_setReq _ _)
    dsimp only
    split
    · exact frame_trans (hreq _) (usb_complete _ _ _ _)
    · exact frame_trans (frame_trans (hreq _) (usb_addNotice _ _)) (usb_usbServeN _ _)

theorem usb_setConfig (s : State) (v : Nat) : UsbOnly s (setConfig s v) :=
  frame_ite (fun _ => frame_refl s) fun _ => frame_trans (usb_put _ rfl (by decide)) (usb_irqF (by decide))

theorem usb_setAlt (s : State) (play rec : Nat) : UsbOnly s (setAlt s play rec) := by
  have hmix (t : State) (x : Mix) (i : Nat) : UsbOnly t ((t.setMix x).setConv i false) := usb_of_regs rfl
  refine frame_ite (fun _ => frame_refl s) fun _ => frame_trans (frame_trans (frame_trans
    (frame_ite_right (frame_ite_right (frame_refl s) fun _ => hmix s _ _) fun _ => hmix _ _ _) (usb_put _ rfl (by decide)))
    (usb_put _ rfl (by decide))) (usb_irqF (by decide))

theorem usb_usbDeconfigure (s : State) : UsbOnly s (usbDeconfigure s) :=
  frame_trans (frame_trans (frame_trans (frame_trans (usb_put _ rfl (by decide)) (usb_setConfig _ _)) (usb_setAlt _ _ _))
    (usb_putB _ rfl (by decide))) (usb_setUsb _ _)

/-- The status of a port that is off (Table 16.5). -/
def usbOff (s : State) : State :=
  (((s.putB Fld.USB_STATUS_CONNECTED false).putB Fld.USB_STATUS_HS false).putB Fld.USB_STATUS_SUSPENDED false).put
    Fld.USB_STATUS_TESTMODE 0

theorem usbOff_meets (s : State) : (usbOff s).flag Fld.USB_STATUS_CONNECTED = false ∧ UsbOnly s (usbOff s) :=
  ⟨(flag_put_apart _ _ rfl rfl).trans ((flag_put_apart _ _ rfl rfl).trans ((flag_put_apart _ _ rfl rfl).trans
    (flag_putB_self s false rfl rfl))), frame_trans (frame_trans (frame_trans (usb_putB _ rfl (by decide)) (usb_putB _ rfl (by decide)))
    (usb_putB _ rfl (by decide))) (usb_put _ rfl (by decide))⟩

/-- A detached port is not connected, and only the port has changed (R378). -/
theorem usbDetach_meets (s : State) : (usbDetach s).flag Fld.USB_STATUS_CONNECTED = false ∧ UsbOnly s (usbDetach s) := by
  have ha : UsbOnly s (s.putB Fld.USB_CTRL_CONNECT false) := usb_putB _ rfl (by decide)
  have ht (a : State) (h : s.putB Fld.USB_CTRL_CONNECT false = a) : usbDetach s =
      if !a.flag Fld.USB_STATUS_CONNECTED then a else usbOff (usbDeconfigure (usbCancel a)) := by
    simp only [usbDetach, h, usbOff]
  generalize hs : s.putB Fld.USB_CTRL_CONNECT false = a at ha
  rw [ht a hs]
  obtain ⟨hoff, hframe⟩ := usbOff_meets (usbDeconfigure (usbCancel a))
  split
  case isTrue hc => exact ⟨by simpa using hc, ha⟩
  case isFalse => exact ⟨hoff, frame_trans (frame_trans (frame_trans ha (usb_usbCancel a)) (usb_usbDeconfigure _)) hframe⟩

end Sys2Proof.Proofs
end

section
/-!
PROOF. Locks of the PLLs and the warm resets of their loss (O30: R41, R44, R63, R441, R471, R473, R553, Table 20.4).
-/

namespace Sys2Proof.Proofs
open Sys2Proof Sys2Proof.Machine Sys2Proof.Safety Sys2Proof.Laws

/-! ### A warm reset (R473) -/

theorem pwr_foldl {α : Type} {f : State → α → State} (h : ∀ s x, (f s x).pwr = s.pwr) (l : List α) (s : State) :
    (l.foldl f s).pwr = s.pwr := by
  induction l generalizing s with
  | nil => rfl
  | cons x r ih => exact (ih (f s x)).trans (h s x)

theorem pwr_loadProtection (s : State) : (loadProtection s).pwr = s.pwr := by
  unfold loadProtection
  refine (pwr_foldl (fun t p => ?_) _ _).trans ((pwr_foldl (fun t n => ?_) _ _).trans ?_)
  all_goals simp only [put_pwr, loadReg_pwr]

/-- The fuses show in registers alone. -/
theorem pwr_loadFuses (s : State) : (loadFuses s).pwr = s.pwr := by
  unfold loadFuses showLocks
  refine (pwr_loadProtection _).trans ((pwr_foldl (fun t e => ?_) _ _).trans ((pwr_foldl (fun t i => ?_) _ _).trans
    ((pwr_foldl (fun t p => ?_) _ _).trans ((pwr_foldl (fun t n => ?_) _ _).trans ?_))))
  all_goals simp only [put_pwr, putB_pwr, setReg_pwr]

theorem pwr_loadStrap (s : State) (strap : Nat) : (loadStrap s strap).pwr = s.pwr := rfl

theorem pwr_mirrorDrop (s : State) : s.mirrorDrop.pwr = s.pwr := by
  have hlost (t : State) (n : Nat) : Frame [.msix] (orBits pba (bits [Fld.LOG_LOSS_MLOST, Fld.LOG_IRQ_STATUS_MLOST])) t (t.mlost n) :=
    frame_ite (fun _ => frame_refl t) fun _ => frame_trans
      (frame_incSat _ n (covers_right _ (covers_of_fits (by simp) rfl))) (frame_irqF_listed _ (by simp) rfl (by simp))
  exact (hlost { s with tel := { s.tel with mirror := [] } } _).2 .pwr (by simp)

theorem pwr_stopProgram (s : State) : (stopProgram s).pwr = s.pwr := by
  unfold stopProgram
  split <;> rfl

/-- The registers that a warm reset sets last: the power state, its cause, the tick PLL and its lock, DISCAUSE of every module and the
results of the deferred valves (R277, R290, R473). -/
def warmShown (before s : State) (cause : Nat) (tick : Bool) : State :=
  let t := ((s.put Fld.PWR_STATUS_STATE 4).putB Fld.PWR_STATUS_BUSY false).putB Fld.PWR_RSTCAUSE_COLD false
  let t := ((t.put Fld.PWR_RSTCAUSE_CAUSE cause).putB Fld.PWR_PLL_TICK tick).putB Fld.GAF_STATUS_LOCKED tick
  deferredAborts before ((List.range 7).foldl (fun t m => t.put (Fld.PWM_STATUS_DISCAUSE m) 3) t)

theorem frame_deferredAborts (before s : State) :
    Frame [] (Safety.range 0x90000 0xa0000) s (deferredAborts before s) := by
  have hf : ∀ c < 8, fits (Fld.VLV_STATUS_RESULT c) = true ∧ 0x90000 ≤ (Fld.VLV_STATUS_RESULT c).off ∧
      (Fld.VLV_STATUS_RESULT c).off < 0xa0000 := by decide
  exact frame_range fun c hc t => frame_ite_right (frame_refl t) fun _ => frame_put _ _ (covers_range (hf c hc))

theorem frame_discauses (s : State) : Frame [] (Safety.range 0x80000 0x90000) s
    ((List.range 7).foldl (fun t m => t.put (Fld.PWM_STATUS_DISCAUSE m) 3) s) := by
  have hf : ∀ m < 7, fits (Fld.PWM_STATUS_DISCAUSE m) = true ∧ 0x80000 ≤ (Fld.PWM_STATUS_DISCAUSE m).off ∧
      (Fld.PWM_STATUS_DISCAUSE m).off < 0x90000 := by decide
  exact frame_range fun m hm t => frame_put _ _ (covers_range (hf m hm))

/-- A warm reset shows its cause, and holds what was held (R473). -/
theorem warmShown_meets (before s : State) {cause : Nat} (h : cause < 16) (tick : Bool) :
    (warmShown before s cause tick).get Fld.PWR_RSTCAUSE_CAUSE = cause ∧ (warmShown before s cause tick).pwr = s.pwr := by
  let a := ((s.put Fld.PWR_STATUS_STATE 4).putB Fld.PWR_STATUS_BUSY false).putB Fld.PWR_RSTCAUSE_COLD false
  let b := a.put Fld.PWR_RSTCAUSE_CAUSE cause
  let c := (b.putB Fld.PWR_PLL_TICK tick).putB Fld.GAF_STATUS_LOCKED tick
  let d := (List.range 7).foldl (fun t m => t.put (Fld.PWM_STATUS_DISCAUSE m) 3) c
  have hd := frame_discauses c
  have hv := frame_deferredAborts before d
  have hcause : c.get Fld.PWR_RSTCAUSE_CAUSE = cause :=
    (get_put_apart _ _ rfl rfl).trans ((get_put_apart b _ rfl rfl).trans ((get_put_self a cause rfl).trans (Nat.mod_eq_of_lt h)))
  have hout {l u : Nat} (hl : u ≤ 0x120000) (i : Nat) : ¬ Safety.range l u Fld.PWR_RSTCAUSE_CAUSE.off i := by
    simp only [Safety.range, Fld.PWR_RSTCAUSE_CAUSE, Reg.PWR_RSTCAUSE]; omega
  refine ⟨?_, (hv.2 .pwr (by simp)).trans (hd.2 .pwr (by simp))⟩
  exact (get_of_frame hv fun i _ _ => hout (by decide) i).trans ((get_of_frame hd fun i _ _ => hout (by decide) i).trans hcause)

/-- A warm reset is what it keeps and loads, and then what it shows. -/
theorem warmState_eq (s : State) (cause : Nat) (hot : Bool) :
    ∃ before t tick, warmState s cause hot = warmShown before (loadStrap (loadFuses t) before.cascId) cause tick ∧ t.pwr.hold = s.pwr.hold := by
  have hpwr : (stopProgram s.mirrorDrop).pwr = s.pwr := (pwr_stopProgram _).trans (pwr_mirrorDrop s)
  generalize hb : stopProgram s.mirrorDrop = before at hpwr
  refine ⟨before, ?_, ?_, ?eq, ?hold⟩
  case eq =>
    simp only [warmState, hb, warmShown]
    rfl
  case hold => simp only [put_pwr, hpwr]

theorem warmState_meets (s : State) {cause : Nat} (h : cause < 16) (hot : Bool) :
    (warmState s cause hot).get Fld.PWR_RSTCAUSE_CAUSE = cause ∧ (warmState s cause hot).pwr.hold = s.pwr.hold := by
  obtain ⟨before, t, tick, hwarm, hhold⟩ := warmState_eq s cause hot
  obtain ⟨hcause, hpwr⟩ := warmShown_meets before (loadStrap (loadFuses t) before.cascId) h tick
  have hload : (loadStrap (loadFuses t) before.cascId).pwr = t.pwr := (pwr_loadStrap _ _).trans (pwr_loadFuses t)
  rw [hwarm]
  exact ⟨hcause, by rw [hpwr, hload, hhold]⟩

theorem fabricLost_meets (s : State) : (fabricLost s).get Fld.PWR_RSTCAUSE_CAUSE = 8 ∧ (fabricLost s).flag Fld.PWR_PLL_FABRIC = false ∧
    (fabricLost s).pwr.hold = s.pwr.hold := by
  obtain ⟨hcause, hhold⟩ := warmState_meets s (show 8 < 16 by decide) false
  unfold fabricLost
  generalize warmState s 8 false = w at hcause hhold
  exact ⟨(get_put_apart _ _ rfl rfl).trans hcause, flag_putB_self _ false rfl rfl, hhold⟩

/-- The word of the locks without those that a loss of XTAL ends (Table 20.4). -/
def xtalUnlocked (s : State) : State := s.setReg Reg.PWR_PLL (s.reg Reg.PWR_PLL &&& 0x00100000)

theorem xtalUnlocked_meets (s : State) : (xtalUnlocked s).flag Fld.PWR_PLL_XTAL_OK = false ∧
    (xtalUnlocked s).get Fld.PWR_RSTCAUSE_CAUSE = s.get Fld.PWR_RSTCAUSE_CAUSE := by
  have hword : (xtalUnlocked s).reg Reg.PWR_PLL = s.reg Reg.PWR_PLL &&& 0x00100000 := reg_setReg_same s _ _
  refine ⟨?_, congrArg (Field.get _) (reg_setReg_ne s _ _ _ (by decide))⟩
  rw [flag_eq_getLsbD _ _ rfl, show Fld.PWR_PLL_XTAL_OK.off = Reg.PWR_PLL from rfl, hword, BitVec.getLsbD_and]
  exact Bool.and_false _

theorem xtalLost_meets (s : State) : (xtalLost s).get Fld.PWR_RSTCAUSE_CAUSE = 9 ∧ (xtalLost s).flag Fld.PWR_PLL_XTAL_OK = false ∧
    (xtalLost s).pwr.hold = .xtal := by
  have hcause := (warmState_meets (tickLost (pwmDisableAll s 3)) (show 9 < 16 by decide) false).1
  unfold xtalLost
  generalize warmState (tickLost (pwmDisableAll s 3)) 9 false = w at hcause
  obtain ⟨hok, hkeep⟩ := xtalUnlocked_meets w
  exact ⟨hkeep.trans hcause, hok, rfl⟩

/-! ### A lock (R41, R63, R471) -/

/-- One bit of NCLK, as a field of its own. -/
def nclk (m : Nat) : Field := ⟨Reg.PWR_PLL, m, m⟩

theorem bitOf_nclk (s : State) {m : Nat} (h : m < 16) : bitOf (s.get Fld.PWR_PLL_NCLK) m = s.flag (nclk m) := by
  have hbit : s.bitF Fld.PWR_PLL_NCLK m = (s.reg Reg.PWR_PLL).getLsbD (0 + m) :=
    bitF_eq_getLsbD s Fld.PWR_PLL_NCLK m (by simp only [Fld.PWR_PLL_NCLK]; omega)
  rw [flag_eq_getLsbD s (nclk m) rfl]
  exact hbit.trans (by rw [Nat.zero_add]; rfl)

theorem fits_nclk {m : Nat} (h : m < 16) : fits (nclk m) = true := fits_iff.2 ⟨Nat.le_refl _, by simp only [nclk]; omega⟩

theorem width_nclk (m : Nat) : (nclk m).width = 1 := by simp [Machine.Field.width, nclk]

/-- DTIME counts, and a loss of lock is forgotten (R41, R63). -/
def clocked (s : State) : State := { s with dtimeOn := true, gaf := { s.gaf with lost := false } }

theorem flag_clocked (s : State) (f : Field) : (clocked s).flag f = s.flag f := rfl

theorem gaf_clocked (s : State) : (clocked s).gaf = { s.gaf with lost := false } := rfl

theorem frame_clocked (s : State) : Frame [.dtimeOn, .gaf] (bits []) s (clocked s) := by
  refine frame_trans (t := { s with dtimeOn := true }) ?_ (frame_setGaf _ _ (by simp))
  exact frame_part .dtimeOn (by simp) rfl fun r hr => by cases r <;> first | exact absurd rfl hr | simp [Part.same]

/-- A master or standalone device locked to the crystal (R41, R63). -/
theorem tickLocked_meets (s : State) :
    let t := tickLocked s false
    t.dtimeOn = true ∧ t.gaf = { s.gaf with lost := false } ∧ t.flag Fld.GAF_STATUS_LOCKED = true ∧
      t.flag Fld.GAF_STATUS_TCLK_SRC = false ∧ t.flag Fld.PWR_PLL_TICK = true ∧
      Frame [.dtimeOn, .gaf] (bits [Fld.GAF_STATUS_LOCKED, Fld.GAF_STATUS_TCLK_SRC, Fld.PWR_PLL_TICK]) s t := by
  let a := s.putB Fld.GAF_STATUS_LOCKED true
  let b := a.putB Fld.GAF_STATUS_TCLK_SRC false
  let c := b.putB Fld.PWR_PLL_TICK true
  have hlock : c.flag Fld.GAF_STATUS_LOCKED = true :=
    (flag_put_apart b _ rfl rfl).trans ((flag_put_apart a _ rfl rfl).trans (flag_putB_self s true rfl rfl))
  have hsrc : c.flag Fld.GAF_STATUS_TCLK_SRC = false := (flag_put_apart b _ rfl rfl).trans (flag_putB_self a false rfl rfl)
  have htick : c.flag Fld.PWR_PLL_TICK = true := flag_putB_self b true rfl rfl
  have hframe : Frame [.dtimeOn, .gaf] (bits [Fld.GAF_STATUS_LOCKED, Fld.GAF_STATUS_TCLK_SRC, Fld.PWR_PLL_TICK]) s c :=
    frame_then_putB (frame_then_putB (frame_putB _ _ (covers_of_fits (by simp) rfl)) _ _ (covers_of_fits (by simp) rfl)) _ _
      (covers_of_fits (by simp) rfl)
  have hgaf : c.gaf = s.gaf := (putB_gaf b _ _).trans ((putB_gaf a _ _).trans (putB_gaf s _ _))
  have ht : tickLocked s false = clocked c := rfl
  generalize c = c at hlock hsrc htick hframe hgaf ht
  rw [ht]
  refine ⟨rfl, ?_, (flag_clocked c _).trans hlock, (flag_clocked c _).trans hsrc, (flag_clocked c _).trans htick, ?_⟩
  · rw [gaf_clocked, hgaf]
  · exact frame_trans hframe (frame_mono (frame_clocked c) (fun _ h => h) (bits_mono (by simp)))

/-! ### A loss (R471) -/

section
variable {s : State} {f : Field}

theorem pllLost_unlocked (h : s.flag f = false) (hw : f.width = 1) (react : State → State) : pllLost s f react = s := by
  have hlt : s.get f < 2 ^ f.width := field_get_lt _ _
  have hne : s.get f ≠ 1 := by simpa [State.flag] using h
  rw [hw] at hlt
  exact if_pos (by omega)

theorem pllLost_locked (h : s.flag f = true) (react : State → State) :
    pllLost s f react = (react (s.put f 0)).irqF Fld.PWR_IRQ_STATUS_PLL_LOST := by
  have hone : s.get f = 1 := by simpa [State.flag] using h
  exact if_neg (by omega)

/-- The interrupt of a loss shows, and a flag elsewhere is as the block left it. -/
theorem pllIrq_meets (t : State) : (t.irqF Fld.PWR_IRQ_STATUS_PLL_LOST).flag Fld.PWR_IRQ_STATUS_PLL_LOST = true ∧
    ∀ g : Field, g.off ≠ Reg.PWR_IRQ_STATUS → (g.off < 0x29000 ∨ 0x29010 ≤ g.off) →
      (t.irqF Fld.PWR_IRQ_STATUS_PLL_LOST).flag g = t.flag g :=
  ⟨flag_irqF t _ rfl (by decide) (not_pba_of_outside (by decide)), fun _ hg hp => flag_irqF_apart t rfl (apart_of_off hg) hp⟩

end

theorem bitOf_clrBit (v i : Nat) : bitOf (clrBit v i) i = false := by
  unfold clrBit
  split
  case isTrue h =>
    have hodd : v / 2 ^ i % 2 = 1 := by simpa [bitOf, Nat.shiftRight_eq_div_pow] using h
    have hle : 2 ^ i * 1 ≤ v := by
      by_contra hlt
      rw [Nat.div_eq_of_lt (by omega)] at hodd
      omega
    have hsub : (v - 2 ^ i) / 2 ^ i = v / 2 ^ i - 1 := by simpa using Nat.sub_mul_div v (2 ^ i) 1
    simp only [bitOf, Nat.shiftRight_eq_div_pow, hsub, decide_eq_false_iff_not]
    omega
  case isFalse h => simpa using h

/-- A bit just cleared reads 0. -/
theorem bitF_putBit_false (s : State) {f : Field} (i : Nat) (k : fits f = true) : (s.putBit f i false).bitF f i = false := by
  have hclr : clrBit (s.get f) i ≤ s.get f := by
    unfold clrBit
    split
    · exact Nat.sub_le _ _
    · exact Nat.le_refl _
  have hget : (s.putBit f i false).get f = clrBit (s.get f) i :=
    (get_put_self s _ k).trans (Nat.mod_eq_of_lt (hclr.trans_lt (field_get_lt _ _)))
  simp only [State.bitF, hget, bitOf_clrBit]

end Sys2Proof.Proofs
end

section
/-!
PROOF. PLLs lock and lose lock (O30: R41, R44, R63, R441, R471, R473, R553).
-/

namespace Sys2Proof.Proofs
open Sys2Proof Sys2Proof.Machine Sys2Proof.Safety Sys2Proof.Laws

/-! ### Locks -/

/-- A training is under way (R446). -/
def training (s : State) : State := { s with mem := { s.mem with training := true } }

theorem flag_training (s : State) (f : Field) : (training s).flag f = s.flag f := rfl

theorem ready_training (s : State) (i : Nat) : (training s).ready i = s.ready i := rfl

theorem mem_training (s : State) : (training s).mem = { s.mem with training := true } := rfl

/-- LPDDR5X trains again: it is not ready and not trained until that ends (R446, R471). -/
def trainsAgain (s : State) : State := training ((clearReady s 16).putB Fld.MEM_STATUS_TRAINED false)

/-- The flag of a PLL whose lock only shows (Table 20.4). -/
def lockFlags : List (Pll × Field) :=
  [(.xtal, Fld.PWR_PLL_XTAL_OK), (.fabric, Fld.PWR_PLL_FABRIC), (.mem, Fld.PWR_PLL_MEM), (.usb, Fld.PWR_PLL_USB),
    (.pcie, Fld.PWR_PLL_PCIE), (.vxltx, Fld.PWR_PLL_VXLTX)]

theorem exec_pllLockAcquired_held {s : State} (h : s.pwr.hold = .xtal) : exec (.pllLockAcquired .xtal) s =
    .next (State.putB { s with pwr := { s.pwr with hold := .running } } Fld.PWR_PLL_XTAL_OK true) := by
  show execPllLockAcquired .xtal s = _
  simp only [execPllLockAcquired, h]
  exact act_running _ _ rfl

section
variable {s : State} (hrun : s.pwr.hold = .running)
include hrun

theorem exec_pllLockAcquired_shows {p : Pll} {f : Field} (h : (p, f) ∈ lockFlags) :
    exec (.pllLockAcquired p) s = .next (s.putB f true) := by
  have hexec : exec (.pllLockAcquired p) s = execPllLockAcquired p s := rfl
  simp only [lockFlags, List.mem_cons, Prod.mk.injEq, List.not_mem_nil, or_false] at h
  rcases h with ⟨rfl, rfl⟩ | ⟨rfl, rfl⟩ | ⟨rfl, rfl⟩ | ⟨rfl, rfl⟩ | ⟨rfl, rfl⟩ | ⟨rfl, rfl⟩ <;>
    simp only [hexec, execPllLockAcquired, hrun, act_running]

theorem exec_pllLockAcquired_nclk (m : Fin 16) : exec (.pllLockAcquired (.nclk m)) s = .next (s.put (nclk m) 1) := by
  show execPllLockAcquired (.nclk m) s = _
  simp only [execPllLockAcquired, hrun, act_running, nclk]

theorem exec_pllLockAcquired_tick :
    exec (.pllLockAcquired .tick) s = .next (if s.isSlave then s else tickLocked s false) := by
  show execPllLockAcquired .tick s = _
  simp only [execPllLockAcquired, hrun, act_running]

theorem exec_pllLockLost (p : Pll) : exec (.pllLockLost p) s = .next (match p with
    | .xtal => xtalLost s
    | .tick => batchesIdle (tickPllLost s)
    | .fabric => fabricLost s
    | .nclk m => pllLost s (nclk m) fun s => fenceMarver s m 1
    | .mem => pllLost s Fld.PWR_PLL_MEM trainsAgain
    | .usb => pllLost s Fld.PWR_PLL_USB usbDetach
    | .pcie => pllLost s Fld.PWR_PLL_PCIE linkDown
    | .vxltx => pllLost s Fld.PWR_PLL_VXLTX id) := by
  show execPllLockLost p s = _
  rw [execPllLockLost, act_running _ _ hrun]
  cases p <;> rfl

theorem exec_tickPllLockLost : exec .tickPllLockLost s = .next (batchesIdle (tickPllLost s)) := by
  show execTickPllLockLost s = _
  rw [execTickPllLockLost, act_running _ _ hrun]

end

/-! ### What each loss leaves (R44, R471) -/

section
variable {s : State} {f : Field}

/-- The flag of a lost lock, and the interrupt, where the block leaves the locks alone. -/
theorem pllLost_meets (hf : f.off = Reg.PWR_PLL) (hk : fits f = true) (h : s.flag f = true) {react : State → State}
    (hr : (react (s.put f 0)).flag f = (s.put f 0).flag f) :
    (pllLost s f react).flag f = false ∧ (pllLost s f react).flag Fld.PWR_IRQ_STATUS_PLL_LOST = true := by
  obtain ⟨hirq, hkeep⟩ := pllIrq_meets (react (s.put f 0))
  have hclear : (s.put f 0).flag f = false := by
    have hget : (s.put f 0).get f = 0 := (get_put_self s 0 hk).trans (Nat.zero_mod _)
    simp [State.flag, hget]
  rw [pllLost_locked h]
  exact ⟨(hkeep f (by rw [hf]; decide) (by rw [hf]; decide)).trans (hr.trans hclear), hirq⟩

/-- A flag of a block that the interrupt does not reach is as the block left it. -/
theorem flag_pllLost (h : s.flag f = true) {react : State → State} {g : Field} (hg : g.off ≠ Reg.PWR_IRQ_STATUS)
    (hp : g.off < 0x29000 ∨ 0x29010 ≤ g.off) : (pllLost s f react).flag g = (react (s.put f 0)).flag g := by
  rw [pllLost_locked h]
  exact (pllIrq_meets _).2 g hg hp

theorem frame_pllIrq (s : State) : Frame [.msix] (orBits pba (bits [Fld.PWR_IRQ_STATUS_PLL_LOST])) s (s.irqF Fld.PWR_IRQ_STATUS_PLL_LOST) :=
  frame_irqF_listed s (by simp) rfl (by simp)

end

theorem trainsAgain_meets (s : State) : (trainsAgain s).mem = { s.mem with training := true } ∧ (trainsAgain s).ready 16 = false ∧
    (trainsAgain s).flag Fld.MEM_STATUS_TRAINED = false ∧ (trainsAgain s).flag Fld.PWR_PLL_MEM = s.flag Fld.PWR_PLL_MEM := by
  let c := clearReady s 16
  let t := c.putB Fld.MEM_STATUS_TRAINED false
  have hready : c.ready 16 = false := bitF_putBit_false s 16 rfl
  have hkeep : t.get Fld.GLB_READY_READY = c.get Fld.GLB_READY_READY := get_put_apart c _ rfl rfl
  have hmem : t.mem = s.mem := (putB_mem c _ _).trans (putBit_mem s _ _ _)
  have hpll : t.flag Fld.PWR_PLL_MEM = s.flag Fld.PWR_PLL_MEM := (flag_put_apart c _ rfl rfl).trans (flag_put_apart s _ rfl rfl)
  refine ⟨(mem_training t).trans (by rw [hmem]), (ready_training t 16).trans ?_, (flag_training t _).trans (flag_putB_self c false rfl rfl),
    (flag_training t _).trans hpll⟩
  simp only [State.ready, State.bitF, hkeep] at hready ⊢
  exact hready

/-- The loss of the memory PLL (R471). -/
theorem memLost_meets {s : State} (h : s.flag Fld.PWR_PLL_MEM = true) :
    let t := pllLost s Fld.PWR_PLL_MEM trainsAgain
    t.flag Fld.PWR_PLL_MEM = false ∧ t.mem = { s.mem with training := true } ∧ t.ready 16 = false ∧
      t.flag Fld.MEM_STATUS_TRAINED = false ∧ t.flag Fld.PWR_IRQ_STATUS_PLL_LOST = true := by
  intro t
  let u := trainsAgain (s.put Fld.PWR_PLL_MEM 0)
  obtain ⟨hmem, hready, htrained, hflag⟩ := trainsAgain_meets (s.put Fld.PWR_PLL_MEM 0)
  obtain ⟨hlost, hirq⟩ := pllLost_meets rfl rfl h hflag
  have ht : t = u.irqF Fld.PWR_IRQ_STATUS_PLL_LOST := pllLost_locked h _
  have hget : t.get Fld.GLB_READY_READY = u.get Fld.GLB_READY_READY := by
    rw [ht]; exact get_irqF_apart u rfl rfl (.inl (by decide))
  refine ⟨hlost, ?_, ?_, (flag_pllLost h (by decide) (.inr (by decide))).trans htrained, hirq⟩
  · rw [ht]
    exact ((frame_pllIrq u).2 .mem (by simp)).trans hmem
  · simp only [State.ready, State.bitF, hget]
    exact hready

/-- The link is down (Table 1.8). -/
theorem linkDown_meets (s : State) : (linkDown s).reg Reg.RING_LINK = 0 ∧ (linkDown s).flag Fld.PWR_PLL_PCIE = s.flag Fld.PWR_PLL_PCIE := by
  have hword : (s.setReg Reg.RING_LINK 0).reg Reg.RING_LINK = 0 := reg_setReg_same s _ _
  have hpll : (s.setReg Reg.RING_LINK 0).reg Reg.PWR_PLL = s.reg Reg.PWR_PLL := reg_setReg_ne s _ _ _ (by decide)
  have hflag : (s.setReg Reg.RING_LINK 0).flag Fld.PWR_PLL_PCIE = s.flag Fld.PWR_PLL_PCIE := by
    rw [flag_eq_getLsbD _ _ rfl, flag_eq_getLsbD _ _ rfl]
    exact congrArg (fun v : Word => v.getLsbD _) hpll
  unfold linkDown
  generalize s.setReg Reg.RING_LINK 0 = a at hword hflag
  dsimp only
  split
  · exact ⟨(reg_irqF_ne a rfl (by decide) (.inl (by decide))).trans hword, (flag_irqF_apart a rfl rfl (.inr (by decide))).trans hflag⟩
  · exact ⟨hword, hflag⟩

/-- The loss of the PCI Express PLL (R471). -/
theorem pcieLost_meets {s : State} (h : s.flag Fld.PWR_PLL_PCIE = true) :
    let t := pllLost s Fld.PWR_PLL_PCIE linkDown
    t.reg Reg.RING_LINK = 0 ∧ t.flag Fld.PWR_PLL_PCIE = false ∧ t.flag Fld.PWR_IRQ_STATUS_PLL_LOST = true := by
  intro t
  let u := linkDown (s.put Fld.PWR_PLL_PCIE 0)
  obtain ⟨hword, hflag⟩ := linkDown_meets (s.put Fld.PWR_PLL_PCIE 0)
  obtain ⟨hlost, hirq⟩ := pllLost_meets rfl rfl h hflag
  have ht : t = u.irqF Fld.PWR_IRQ_STATUS_PLL_LOST := pllLost_locked h _
  refine ⟨?_, hlost, hirq⟩
  rw [ht]
  exact (reg_irqF_ne u rfl (by decide) (.inl (by decide))).trans hword

/-- The loss of the USB PLL (R378, R471). -/
theorem usbLost_meets {s : State} (h : s.flag Fld.PWR_PLL_USB = true) :
    let t := pllLost s Fld.PWR_PLL_USB usbDetach
    t.flag Fld.PWR_PLL_USB = false ∧ t.flag Fld.USB_STATUS_CONNECTED = false ∧ t.flag Fld.PWR_IRQ_STATUS_PLL_LOST = true := by
  obtain ⟨hoff, hframe⟩ := usbDetach_meets (s.put Fld.PWR_PLL_USB 0)
  have hflag : (usbDetach (s.put Fld.PWR_PLL_USB 0)).flag Fld.PWR_PLL_USB = (s.put Fld.PWR_PLL_USB 0).flag Fld.PWR_PLL_USB := by
    refine flag_of_frame hframe fun b _ _ k => ?_
    simp only [usbReach, fenceReach, orBits, pba, fences, Safety.range, Fld.PWR_PLL_USB, Reg.PWR_PLL] at k
    omega
  obtain ⟨hlost, hirq⟩ := pllLost_meets rfl rfl h hflag
  exact ⟨hlost, (flag_pllLost h (by decide) (.inr (by decide))).trans hoff, hirq⟩

/-- The loss of the PLL of the Vexiq transmitter, which nothing else follows (R471). -/
theorem vxltxLost_meets {s : State} (h : s.flag Fld.PWR_PLL_VXLTX = true) :
    let t := pllLost s Fld.PWR_PLL_VXLTX id
    t.flag Fld.PWR_PLL_VXLTX = false ∧ t.flag Fld.PWR_IRQ_STATUS_PLL_LOST = true ∧
      Frame [.msix] (orBits pba (bits [Fld.PWR_PLL_VXLTX, Fld.PWR_IRQ_STATUS_PLL_LOST])) s t := by
  obtain ⟨hlost, hirq⟩ := pllLost_meets (react := id) rfl rfl h rfl
  refine ⟨hlost, hirq, ?_⟩
  rw [pllLost_locked h]
  exact frame_trans (frame_put _ _ (covers_right _ (covers_of_fits (by simp) rfl))) (frame_irqF_listed _ (by simp) rfl (by simp))

/-- The loss of the clock of a marver fences it (R175, R471). -/
theorem nclkLost_meets {s : State} {m : Nat} (hm : m < 16) (h : s.flag (nclk m) = true) :
    let t := pllLost s (nclk m) fun s => fenceMarver s m 1
    t.flag (nclk m) = false ∧ t.fenced m = true ∧ t.flag Fld.PWR_IRQ_STATUS_PLL_LOST = true := by
  obtain ⟨hfenced, hflag⟩ := fenceMarver_meets (s.put (nclk m) 0) hm 1 (f := nclk m) rfl
  obtain ⟨hlost, hirq⟩ := pllLost_meets (react := fun s => fenceMarver s m 1) rfl (fits_nclk hm) h hflag
  refine ⟨hlost, (flag_pllLost h ?_ (.inr ?_)).trans hfenced, hirq⟩ <;>
    simp only [Fld.MRV_STATE_FENCED, Reg.MRV_STATE, Reg.PWR_IRQ_STATUS] <;> omega

/-- The locks whose loss does nothing where there was none. -/
def lossFlags : List (Pll × Field) :=
  [(.mem, Fld.PWR_PLL_MEM), (.usb, Fld.PWR_PLL_USB), (.pcie, Fld.PWR_PLL_PCIE), (.vxltx, Fld.PWR_PLL_VXLTX)]

theorem exec_pllLockLost_unlocked {s : State} (hrun : s.pwr.hold = .running) {p : Pll} {f : Field} (hp : (p, f) ∈ lossFlags)
    (h : s.flag f = false) : exec (.pllLockLost p) s = .next s := by
  rw [exec_pllLockLost hrun]
  simp only [lossFlags, List.mem_cons, Prod.mk.injEq, List.not_mem_nil, or_false] at hp
  rcases hp with ⟨rfl, rfl⟩ | ⟨rfl, rfl⟩ | ⟨rfl, rfl⟩ | ⟨rfl, rfl⟩ <;> exact congrArg _ (pllLost_unlocked h rfl _)

/-- Settles O30: the locks, the loss of the tick PLL, then the losses of the others, and the warm resets. -/
theorem pllsLockAndLose : Obligations.PllsLockAndLose := by
  intro s
  refine ⟨exec_pllLockAcquired_held, fun hrun => ?_⟩
  have htick : exec (.pllLockLost .tick) s = .next (batchesIdle (tickPllLost s)) := exec_pllLockLost hrun .tick
  refine ⟨fun p f => exec_pllLockAcquired_shows hrun, fun m => ⟨_, exec_pllLockAcquired_nclk hrun m, ?_, ?_⟩, fun hs => ?_, fun hs => ?_,
    fun h => ?_, fun h => ⟨_, exec_tickPllLockLost hrun, htick, ?_⟩, fun p f => exec_pllLockLost_unlocked hrun,
    fun h => ⟨_, exec_pllLockLost hrun .mem, memLost_meets h⟩, fun h => ⟨_, exec_pllLockLost hrun .pcie, pcieLost_meets h⟩,
    fun h => ⟨_, exec_pllLockLost hrun .usb, usbLost_meets h⟩, fun h => ⟨_, exec_pllLockLost hrun .vxltx, vxltxLost_meets h⟩,
    fun m => ⟨fun h => ?_, fun h => ⟨_, exec_pllLockLost hrun (.nclk m), ?_⟩⟩, ⟨_, exec_pllLockLost hrun .fabric, rfl, ?_⟩,
    ⟨_, exec_pllLockLost hrun .xtal, rfl, xtalLost_meets s⟩⟩
  case refine_1 =>
    rw [bitOf_nclk _ m.isLt, State.flag, get_put_self s 1 (fits_nclk m.isLt), width_nclk]
    rfl
  case refine_2 => exact frame_put _ _ (covers_of_fits (by simp [nclk]) (fits_nclk m.isLt))
  case refine_3 =>
    refine ⟨_, ?_, tickLocked_meets s⟩
    rw [exec_pllLockAcquired_tick hrun, hs]
    rfl
  case refine_4 =>
    rw [exec_pllLockAcquired_tick hrun, hs]
    rfl
  case refine_5 =>
    have hsame : tickPllLost s = s := if_pos (by simp [h])
    exact ⟨by rw [exec_tickPllLockLost hrun, hsame], by rw [htick, hsame]⟩
  case refine_6 =>
    obtain ⟨⟨hlocked, hpll, hrunning, hdtime, hran⟩, hirq, hslave⟩ := tickPllLost_meets h
    exact ⟨hlocked, hpll, hrunning, hirq, hdtime, hran, hslave⟩
  case refine_7 =>
    rw [bitOf_nclk s m.isLt] at h
    rw [exec_pllLockLost hrun]
    exact congrArg _ (pllLost_unlocked h (width_nclk m) _)
  case refine_8 =>
    rw [bitOf_nclk s m.isLt] at h
    obtain ⟨hlost, hfenced, hirq⟩ := nclkLost_meets m.isLt h
    exact ⟨(bitOf_nclk _ m.isLt).trans hlost, hfenced, hirq⟩
  case refine_9 =>
    obtain ⟨hcause, hflag, hhold⟩ := fabricLost_meets s
    exact ⟨hcause, hflag, hhold.trans hrun⟩

end Sys2Proof.Proofs
end

section
/-!
PROOF. Doorbells of the submission and completion rings (O19, O59: R72, R73, R77 to R80).
-/

namespace Sys2Proof.Proofs
open Sys2Proof Sys2Proof.Machine Sys2Proof.Safety Sys2Proof.Laws

section
variable {s : State} {n : Nat}

theorem sqDoorbell_disabled (h : s.flag (Fld.SQ_CFG_EN n) = false) (v : Word) : sqDoorbell s n v = s := by
  simp [sqDoorbell, h]

theorem cqDoorbell_disabled (h : s.flag (Fld.CQ_CFG_EN n) = false) (v : Word) : cqDoorbell s n v = s := by
  simp [cqDoorbell, h]

/-- A doorbell within the free entries of an enabled SQ moves its tail (R78). -/
theorem sqDoorbell_fits (h : s.flag (Fld.SQ_CFG_EN n) = true) {v : Word} (hlt : v.toNat % 2 ^ 16 < s.sqSize n)
    (hfree : (v.toNat % 2 ^ 16 + s.sqSize n - s.get (Fld.SQ_TAIL_TAIL n)) % s.sqSize n + s.sqCount n < s.sqSize n) :
    sqDoorbell s n v = s.put (Fld.SQ_TAIL_TAIL n) (v.toNat % 2 ^ 16) := by
  rw [sqDoorbell, if_neg (by simp [h])]
  exact if_pos ⟨hlt, hfree⟩

/-- Any other halts an enabled SQ (R78). -/
theorem sqDoorbell_halts (h : s.flag (Fld.SQ_CFG_EN n) = true) {v : Word} (hfit : ¬ (v.toNat % 2 ^ 16 < s.sqSize n ∧
    (v.toNat % 2 ^ 16 + s.sqSize n - s.get (Fld.SQ_TAIL_TAIL n)) % s.sqSize n + s.sqCount n < s.sqSize n)) :
    sqDoorbell s n v = s.sqHalt n 1 := by
  rw [sqDoorbell, if_neg (by simp [h])]
  exact if_neg hfit

/-- The error interrupt of an SQ without an error so far (Table 3.12). -/
theorem flag_sqError_irq {code : Nat} (h : s.get (Fld.SQ_STATUS_ERR n) = 0) :
    (s.sqError n code).flag Fld.RING_IRQ_STATUS_SQ_ERR = true := by
  rw [State.sqError, if_pos h]
  exact flag_irqF _ _ rfl (by decide) (not_pba_of_outside (by decide))

theorem flag_cqError_irq {code : Nat} (h : s.get (Fld.CQ_STATUS_ERR n) = 0) :
    (s.cqError n code).flag Fld.RING_IRQ_STATUS_CQ_ERR = true := by
  rw [State.cqError, if_pos h]
  exact flag_irqF _ _ rfl (by decide) (not_pba_of_outside (by decide))

/-- A field apart from those that a frame names beside the pending bits is as it was. -/
theorem get_of_frame_pba {ps : List Part} {fs : List Field} {t : State} (h : Frame ps (orBits pba (bits fs)) s t) {g : Field}
    (hp : g.off < 0x29000 ∨ 0x29010 ≤ g.off) (hf : ∀ f ∈ fs, apart g f = true) : t.get g = s.get g := by
  refine get_of_frame h fun b h1 h2 hb => ?_
  rcases hb with hb | ⟨f, hmem, ho, h3, h4⟩
  · simp only [pba, Safety.range] at hb
    omega
  · have hapart := hf f hmem
    simp only [apart, ne_eq, Bool.or_eq_true, decide_eq_true_eq] at hapart
    omega

/-- A halted SQ shows it, with the code and the interrupt of its error (R78, Table 3.12). -/
theorem sqHalt_meets (s : State) (n : Nat) {code : Nat} (hc : code < 16) :
    let t := s.sqHalt n code
    t.flag (Fld.SQ_STATUS_HALTED n) = true ∧ t.get (Fld.SQ_STATUS_ERR n) = code ∧
    (s.get (Fld.SQ_STATUS_ERR n) = 0 → t.flag Fld.RING_IRQ_STATUS_SQ_ERR = true) ∧
    Frame [.msix] (orBits pba (bits [Fld.SQ_STATUS_HALTED n, Fld.SQ_STATUS_ERR n, Fld.RING_IRQ_STATUS_SQ_ERR])) s t := by
  let u := s.putB (Fld.SQ_STATUS_HALTED n) true
  have hu : u.flag (Fld.SQ_STATUS_HALTED n) = true := flag_putB_self _ _ rfl rfl
  have herr : u.get (Fld.SQ_STATUS_ERR n) = s.get (Fld.SQ_STATUS_ERR n) := get_put_apart s _ rfl rfl
  have hne : apart (Fld.SQ_STATUS_HALTED n) Fld.RING_IRQ_STATUS_SQ_ERR = true :=
    apart_of_off (by simp only [Fld.SQ_STATUS_HALTED, Fld.RING_IRQ_STATUS_SQ_ERR, Reg.SQ_STATUS, Reg.RING_IRQ_STATUS]; omega)
  obtain ⟨hcode, hframe⟩ := sqError_meets u n code hc
  have hout : Reg.SQ_STATUS n < 0x29000 ∨ 0x29010 ≤ Reg.SQ_STATUS n := by simp only [Reg.SQ_STATUS]; omega
  have hhalt : (u.sqError n code).get (Fld.SQ_STATUS_HALTED n) = u.get (Fld.SQ_STATUS_HALTED n) :=
    get_of_frame_pba hframe hout (by simp [hne, show apart (Fld.SQ_STATUS_HALTED n) (Fld.SQ_STATUS_ERR n) = true from rfl])
  refine ⟨?_, hcode, fun h => flag_sqError_irq (herr.trans h), frame_trans (frame_putB _ _ ?_) (frame_mono hframe (by simp) ?_)⟩
  · exact (decide_eq_decide.2 (by rw [State.sqHalt, hhalt])).trans hu
  · exact covers_right _ (covers_of_fits (by simp) rfl)
  · exact fun o b h => h.imp_right (bits_mono (List.subset_cons_self _ _) o b)

/-- A doorbell within the written records of an enabled CQ moves its head and frees the entries passed (R73, R79). -/
theorem cqDoorbell_fits (h : s.flag (Fld.CQ_CFG_EN n) = true) {v : Word} (hlt : v.toNat % 2 ^ 16 < s.cqSize n)
    (hk : (v.toNat % 2 ^ 16 + s.cqSize n - s.get (Fld.CQ_HEAD_HEAD n)) % s.cqSize n ≤
      (s.get (Fld.CQ_TAIL_TAIL n) + s.cqSize n - s.get (Fld.CQ_HEAD_HEAD n)) % s.cqSize n) :
    cqDoorbell s n v = (s.put (Fld.CQ_HEAD_HEAD n) (v.toNat % 2 ^ 16)).put (Fld.CQ_STATUS_FREE n)
      (s.get (Fld.CQ_STATUS_FREE n) + (v.toNat % 2 ^ 16 + s.cqSize n - s.get (Fld.CQ_HEAD_HEAD n)) % s.cqSize n) := by
  rw [cqDoorbell, if_neg (by simp [h])]
  exact if_pos ⟨hlt, hk⟩

theorem cqDoorbell_refused (h : s.flag (Fld.CQ_CFG_EN n) = true) {v : Word} (hfit : ¬ (v.toNat % 2 ^ 16 < s.cqSize n ∧
    (v.toNat % 2 ^ 16 + s.cqSize n - s.get (Fld.CQ_HEAD_HEAD n)) % s.cqSize n ≤
      (s.get (Fld.CQ_TAIL_TAIL n) + s.cqSize n - s.get (Fld.CQ_HEAD_HEAD n)) % s.cqSize n)) :
    cqDoorbell s n v = s.cqError n 1 := by
  rw [cqDoorbell, if_neg (by simp [h])]
  exact if_neg hfit

/-- Head and free entries of a CQ stand in different words. -/
theorem apart_cqHead_free (n : Nat) : apart (Fld.CQ_HEAD_HEAD n) (Fld.CQ_STATUS_FREE n) = true :=
  apart_of_off (by simp only [Fld.CQ_HEAD_HEAD, Fld.CQ_STATUS_FREE, Reg.CQ_HEAD, Reg.CQ_STATUS]; omega)

/-- An error of a CQ leaves its head (R79). -/
theorem get_cqError_head (s : State) (n : Nat) {code : Nat} (hc : code < 16) :
    (s.cqError n code).get (Fld.CQ_HEAD_HEAD n) = s.get (Fld.CQ_HEAD_HEAD n) := by
  have herr : Reg.CQ_HEAD n ≠ Reg.CQ_STATUS n := by simp only [Reg.CQ_HEAD, Reg.CQ_STATUS]; omega
  have hirq : Reg.CQ_HEAD n ≠ Reg.RING_IRQ_STATUS := by simp only [Reg.CQ_HEAD, Reg.RING_IRQ_STATUS]; omega
  have hout : Reg.CQ_HEAD n < 0x29000 ∨ 0x29010 ≤ Reg.CQ_HEAD n := by simp only [Reg.CQ_HEAD]; omega
  exact get_of_frame_pba (cqError_meets s n code hc).2 hout
    (by simpa using ⟨apart_of_off (g := Fld.CQ_STATUS_ERR n) herr, apart_of_off (g := Fld.RING_IRQ_STATUS_CQ_ERR) hirq⟩)

end

section
variable (s : State) (n : Fin 64) (v : Word)

theorem exec_sqDoorbell (h : s.pwr.hold = .running) : exec (.sqDoorbell n v) s = .next (sqDoorbell s n v) :=
  act_running s (sqDoorbell · n v) h

theorem exec_cqDoorbell (h : s.pwr.hold = .running) : exec (.cqDoorbell n v) s = .next (cqDoorbell s n v) :=
  act_running s (cqDoorbell · n v) h

end

/-- Settles O59: a doorbell of a disabled ring changes nothing, and no command does while the device is held. -/
theorem disabledRingIgnoresDoorbell : Obligations.DisabledRingIgnoresDoorbell := by
  unfold Obligations.DisabledRingIgnoresDoorbell
  intro s n v
  by_cases hrun : s.pwr.hold = .running
  · exact ⟨fun h => by rw [exec_sqDoorbell s n v hrun, sqDoorbell_disabled h],
      fun h => by rw [exec_cqDoorbell s n v hrun, cqDoorbell_disabled h]⟩
  · exact ⟨fun _ => act_held s (sqDoorbell · n v) hrun, fun _ => act_held s (cqDoorbell · n v) hrun⟩

/-- Settles O19: the doorbells of the two rings, each with the value that fits and the one that does not. -/
theorem doorbellsMoveRings : Obligations.DoorbellsMoveRings := by
  unfold Obligations.DoorbellsMoveRings
  intro s n v hrun
  have hlow : v.toNat % 2 ^ 16 % 2 ^ 16 = v.toNat % 2 ^ 16 := Nat.mod_mod _ _
  rw [exec_sqDoorbell s n v hrun, exec_cqDoorbell s n v hrun]
  refine ⟨fun h => by rw [sqDoorbell_disabled h], fun h => ⟨fun hfit => ⟨_, rfl, ?_⟩, fun hfit => ⟨_, rfl, ?_⟩⟩,
    fun h => by rw [cqDoorbell_disabled h], fun h => ⟨fun hfit => ⟨_, rfl, ?_⟩, fun hfit => ⟨_, rfl, ?_⟩⟩⟩
  · rw [sqDoorbell_fits h hfit.1 hfit.2]
    exact ⟨(get_put_self _ _ rfl).trans hlow, frame_put _ _ (covers_of_fits (by simp) rfl)⟩
  · rw [sqDoorbell_halts h hfit]
    exact sqHalt_meets s n (by decide)
  · rw [cqDoorbell_fits h hfit.1 hfit.2]
    exact ⟨(get_put_apart _ _ rfl (apart_cqHead_free n)).trans ((get_put_self _ _ rfl).trans hlow), get_put_self _ _ rfl,
      frame_then_put (frame_put _ _ (covers_of_fits (by simp) rfl)) _ _ (covers_of_fits (by simp) rfl)⟩
  · rw [cqDoorbell_refused h hfit]
    obtain ⟨hcode, hframe⟩ := cqError_meets s n 1 (by decide)
    exact ⟨get_cqError_head s n (by decide), hcode, flag_cqError_irq, hframe⟩

end Sys2Proof.Proofs
end

section
/-!
PROOF. What a request to a fence leaves in the fence (for O10: R110, R123, R130).
-/

namespace Sys2Proof.Proofs
open Sys2Proof Sys2Proof.Machine Sys2Proof.Safety Sys2Proof.Laws

/-- The words in which a fence request is reported: FEN_STALE, FEN_IRQ_STATUS, FEN_POISON_FIRST, and the pending bits of a message
held back. -/
def fenceReports : Bits := orBits pba (Safety.range 0x30000 0x30100)

section
variable (s : State)

theorem covers_fenceReports {f : Field} (h : fits f = true ∧ 0x30000 ≤ f.off ∧ f.off < 0x30100) : Covers fenceReports f :=
  covers_right f (covers_range h)

/-- An interrupt of the fence block is a report. -/
theorem frame_fenceReports_irqBit (f : Field) (i : Nat) (h : 0x30000 ≤ f.off ∧ f.off < 0x30100) :
    Frame [.msix] fenceReports s (s.irqBit f i) := frame_irqBit f i (.inr h) (fun _ _ k => .inl k) (by simp)

theorem frame_fenceReports_irqF (f : Field) (h : 0x30000 ≤ f.off ∧ f.off < 0x30100) :
    Frame [.msix] fenceReports s (s.irqF f) := frame_irqF f (.inr h) (fun _ _ k => .inl k) (by simp)

theorem frame_fenceReports_watchesFire (n v : Nat) (po : Bool) : Frame [.msix] fenceReports s (watchesFire s n v po) :=
  frame_foldl _ (fun t _ => frame_ite (fun _ => frame_fenceReports_irqBit t _ _ (by decide)) fun _ => frame_refl t) _ s

theorem frame_fenceReports_notePoison (n : Nat) : Frame [.msix] fenceReports s (notePoison s n) := by
  have hi : Covers fenceReports Fld.FEN_POISON_FIRST_INDEX := covers_fenceReports (by decide)
  have hv : Covers fenceReports Fld.FEN_POISON_FIRST_VALID := covers_fenceReports (by decide)
  unfold notePoison
  refine frame_trans (frame_fenceReports_irqF s Fld.FEN_IRQ_STATUS_POISONED (by decide)) (frame_ite (fun _ => ?_) fun _ =>
    frame_ite (fun _ => frame_put _ _ hi) fun _ => frame_refl _)
  exact frame_trans (frame_then_put (frame_setBit _ _ hv) _ _ hi) (frame_seen _)

end

section
variable (s : State) (n : Nat) (sigs : List Nat) (po un : Bool)

/-- POISONED of fence `n` after a request: poison wins over unpoison (R123). -/
def poisonedAfter : Bool :=
  if po || un then ((s.fenReq n).poison || po) || ((s.fenReq n).poisoned && !((s.fenReq n).unpoison || un)) else s.poisoned n

/-- A request sets VALUE to the largest value; from there on only POISONED and the reports change (R110, R123). -/
theorem fenceApply_valued : ∃ x : Seen, Frame [.msix] (orBits fenceReports (bits [Fld.FEN_STATE_POISONED n]))
    (({ s with seen := x } : State).setWide 64 (Reg.FEN_VALUE_LO n) (sigs.foldl max (s.fenceValue n))) (fenceApply s n sigs po un) := by
  have hleft {a b : State} (h : Frame [.msix] fenceReports a b) :
      Frame [.msix] (orBits fenceReports (bits [Fld.FEN_STATE_POISONED n])) a b := frame_mono h (fun _ h => h) fun _ _ h => .inl h
  unfold fenceApply
  refine ⟨_, frame_trans (frame_ite_right (frame_then_putB (frame_ite_left (frame_refl _) fun _ => hleft ?_) _ _ ?_) fun _ =>
    hleft (frame_fenceReports_notePoison _ n)) (hleft (frame_fenceReports_watchesFire _ n _ _))⟩
  · exact frame_trans (frame_incSat Fld.FEN_STALE_COUNT _ (covers_fenceReports (by decide)))
      (frame_fenceReports_irqF _ Fld.FEN_IRQ_STATUS_STALE (by decide))
  · exact covers_right _ (covers_of_fits (by simp) rfl)

/-- A request sets POISONED; from there on only the reports change (R123). -/
theorem fenceApply_poisoned : ∃ u : State, Frame [.msix] fenceReports (u.putB (Fld.FEN_STATE_POISONED n) (poisonedAfter s n po un))
    (fenceApply s n sigs po un) := by
  unfold fenceApply
  exact ⟨_, frame_trans (frame_ite_right (frame_refl _) fun _ => frame_fenceReports_notePoison _ n)
    (frame_fenceReports_watchesFire _ n _ _)⟩

/-- The words of a fence hold none of the reports. -/
theorem not_fenceReports {o : Nat} (h : 0x30100 ≤ o) (b : Nat) : ¬ fenceReports o b := by
  simp only [fenceReports, orBits, pba, Safety.range]
  omega

/-- VALUE after a request is the largest of what it held and the values signalled (R110). -/
theorem fenceValue_fenceApply (hn : n < 1024) (h : sigs.foldl max (s.fenceValue n) < 2 ^ 64) :
    (fenceApply s n sigs po un).fenceValue n = sigs.foldl max (s.fenceValue n) := by
  obtain ⟨x, hx⟩ := fenceApply_valued s n sigs po un
  have hword {o : Nat} (h1 : 0x32000 ≤ o) (h2 : o < 0x34000) : ∀ b < 32, ¬ orBits fenceReports (bits [Fld.FEN_STATE_POISONED n]) o b := by
    rintro b - (h | ⟨f, hf, ho, -⟩)
    · exact not_fenceReports (by omega) b h
    · rw [List.mem_singleton.1 hf] at ho
      simp only [Fld.FEN_STATE_POISONED, Reg.FEN_STATE] at ho
      omega
  have hlo : 0x32000 ≤ Reg.FEN_VALUE_LO n ∧ Reg.FEN_VALUE_LO n + 4 < 0x34000 := by simp only [Reg.FEN_VALUE_LO]; omega
  exact (wide_of_frame hx (hword (by omega) (by omega)) (hword (by omega) (by omega))).trans (wide_setWide _ (Nat.le_refl 64) h)

/-- POISONED after a request (R123). -/
theorem poisoned_fenceApply : (fenceApply s n sigs po un).poisoned n = poisonedAfter s n po un := by
  obtain ⟨u, hu⟩ := fenceApply_poisoned s n sigs po un
  have hword : 0x30100 ≤ Reg.FEN_STATE n := by simp only [Reg.FEN_STATE]; omega
  exact (flag_of_frame hu fun b _ _ => not_fenceReports hword b).trans (flag_putB_self u _ rfl rfl)

end

/-- VALUE of a fence is a number of 64 bits. -/
theorem wide_lt (s : State) (o : Nat) : s.wide o < 2 ^ 64 := by
  have hl := (s.reg o).isLt
  have hh := (s.reg (o + 4)).isLt
  simp only [State.wide]
  omega

end Sys2Proof.Proofs
end

section
/-!
PROOF. The point of no return of a descriptor (O10: R88, R97, R112, R123).
-/

namespace Sys2Proof.Proofs
open Sys2Proof Sys2Proof.Machine Sys2Proof.Safety Sys2Proof.Laws

theorem mem_insertRec (r : Rec) : ∀ l : List Rec, r ∈ insertRec r l
  | [] => by simp [insertRec]
  | q :: t => by
    unfold insertRec
    split
    · exact List.mem_cons_self
    · exact List.mem_cons_of_mem _ (mem_insertRec r t)

theorem length_insertRec (r : Rec) : ∀ l : List Rec, (insertRec r l).length = l.length + 1
  | [] => rfl
  | q :: t => by
    unfold insertRec
    split
    · rfl
    · exact congrArg (· + 1) (length_insertRec r t)

section
variable (s : State) (d : Desc) (status detail result : Nat)

/-- The record of a descriptor that completes now (Table 3.4, R97). -/
def recordOf : Rec :=
  { sq := d.sq, cq := d.cq, tag := BitVec.ofNat 32 d.tag, seq := d.seq, opcode := d.opcode, status := status
    retried := d.retried, signalled := decide (status = stOK) && d.signal, late := false
    sqHead := s.get (Fld.SQ_HEAD_HEAD d.sq), detail := detail, tick := s.tickno, ofs := s.edgeOfs
    result := result, irq := d.irq, wb := none, at_ := s.cyc }

/-- Its record queued, and itself no longer in flight (R97). -/
def retired : State :=
  { s with ring := { s.ring with recs := insertRec (recordOf s d status detail result) s.ring.recs, flight := s.ring.flight.erase d } }

theorem frame_retired (p : Bits) : Frame [.recs, .flight] p s (retired s d status detail result) :=
  ⟨fun _ _ _ => rfl, fun q n => by cases q <;> simp_all [Part.same, retired]⟩

/-- A completion by what the descriptor signals (R112). -/
theorem complete1_eq : complete1 s d status detail result =
    if d.signal = false then retired s d status detail result
    else if status = stOK then
      if d.opcode = 0x07 then retired s d status detail result
      else fenceApply (retired s d status detail result) (d.signalFence % 1024) [d.signalValue] false false
    else if s.flag (Fld.FEN_STATE_POISON_ON_FAIL (d.signalFence % 1024)) = true then
      fenceApply (retired s d status detail result) (d.signalFence % 1024) [] true false
    else retired s d status detail result := by
  simp only [complete1, Bool.not_eq_true']
  rfl

/-- What the fence does once the record is queued reaches neither records nor descriptors in flight. -/
theorem frame_retired_complete1 : Frame [.msix] fenceReach (retired s d status detail result) (complete1 s d status detail result) := by
  have hfence (l : List Nat) (po : Bool) : Frame [.msix] fenceReach (retired s d status detail result)
      (fenceApply (retired s d status detail result) (d.signalFence % 1024) l po false) :=
    frame_fenceApply _ (Nat.mod_lt _ (by decide)) l po false (fun _ _ h => h) (by simp)
  rw [complete1_eq]
  exact frame_ite (fun _ => frame_refl _) fun _ => frame_ite (fun _ => frame_ite (fun _ => frame_refl _) fun _ => hfence _ _) fun _ =>
    frame_ite (fun _ => hfence _ _) fun _ => frame_refl _

end

/-- Settles O10: the record and the descriptors in flight, then the signal or the poison of its fence. -/
theorem completionRecord : Obligations.CompletionRecord := by
  unfold Obligations.CompletionRecord
  intro s d status detail result
  have hkeep := frame_retired_complete1 s d status detail result
  have hrecs : (complete1 s d status detail result).ring.recs = insertRec (recordOf s d status detail result) s.ring.recs :=
    hkeep.2 .recs (by simp)
  have hn : d.signalFence % 1024 < 1024 := Nat.mod_lt _ (by decide)
  refine ⟨⟨recordOf s d status detail result, ?_, rfl, rfl, rfl, rfl, rfl, rfl, rfl, rfl, rfl, rfl, rfl, rfl, rfl, rfl, rfl⟩, ?_,
    hkeep.2 .flight (by simp), fun hsig hok hop => ?_, fun hsig hst hpof => ?_, fun hsig => ?_, ?_⟩
  · exact hrecs ▸ mem_insertRec _ _
  · exact (congrArg List.length hrecs).trans (length_insertRec _ _)
  · rw [complete1_eq, if_neg (by simp [hsig]), if_pos hok, if_neg hop]
    have hval : d.signalValue < 2 ^ 64 := (leNat_lt _).trans_le
      (Nat.pow_le_pow_right (by decide : 0 < 256) (List.length_take_le 8 (d.raw.drop 24)))
    exact fenceValue_fenceApply _ _ _ _ _ hn (max_lt (wide_lt s _) hval)
  · rw [complete1_eq, if_neg (by simp [hsig]), if_neg hst, if_pos hpof]
    exact (poisoned_fenceApply _ _ _ _ _).trans (by simp [poisonedAfter])
  · rw [complete1_eq, if_pos hsig]
    exact frame_retired s d status detail result _
  · exact frame_complete1 d status detail result none (fun _ _ h => h) (by simp) (by simp) (by simp)

end Sys2Proof.Proofs
end

section
/-!
PROOF. Messages: when one goes, when it is held back, and how those held back go (for O22 and O23: R68, R69, R103, R104).
-/

namespace Sys2Proof.Proofs
open Sys2Proof Sys2Proof.Machine Sys2Proof.Safety Sys2Proof.Laws

/-! ### Whether messages can be sent (R68, R69) -/

/-- The fields that decide whether the device reaches the host. -/
def dmaFields : List Field := [Fld.RING_LINK_UP, Fld.LOG_DBG_HALTED, Fld.PWR_STATUS_STATE]

theorem canDma_of_frame {ps : List Part} {p : Bits} {s t : State} (h : Frame ps p s t) (hr : .ring ∉ ps)
    (hw : ∀ f ∈ dmaFields, ∀ b < 32, ¬ p f.off b) : t.canDma = s.canDma := by
  obtain ⟨hbme, hd3, -⟩ := h.2 .ring hr
  have hget {f : Field} (hf : f ∈ dmaFields) : t.get f = s.get f := congrArg f.get (reg_of_frame h (hw f hf))
  have hup : t.flag Fld.RING_LINK_UP = s.flag Fld.RING_LINK_UP := by simp only [State.flag, hget (f := Fld.RING_LINK_UP) (by simp [dmaFields])]
  have hhalt : t.halted = s.halted := by
    simp only [State.halted, State.flag, hget (f := Fld.LOG_DBG_HALTED) (by simp [dmaFields])]
  have hpwr : t.pstate = s.pstate := hget (by simp [dmaFields])
  simp only [State.canDma, hup, hbme, hd3, hhalt, hpwr]

/-- The pending bits and the messages sent have no part in it. -/
theorem canDma_of_pba {s t : State} (h : Frame [.msix] pba s t) : t.canDma = s.canDma := by
  have hoff : ∀ f ∈ dmaFields, f.off < 0x29000 ∨ 0x29010 ≤ f.off := by decide
  exact canDma_of_frame h (by simp) fun f hf => not_pba_of_outside (hoff f hf)

/-! ### Pending bits (R104) -/

/-- Clearing bit `i` leaves the others. -/
theorem bitOf_clrBit_ne (v : Nat) {i j : Nat} (h : j ≠ i) : bitOf (clrBit v i) j = bitOf v j := by
  unfold clrBit
  split
  case isTrue hset =>
    have hodd : v / 2 ^ i % 2 = 1 := by simpa [bitOf, Nat.shiftRight_eq_div_pow] using hset
    obtain ⟨w, rfl⟩ : ∃ w, v = 2 ^ i + w := Nat.exists_eq_add_of_le <| by
      by_contra hlt
      rw [Nat.div_eq_of_lt (by omega)] at hodd
      omega
    rw [Nat.add_div_left _ (Nat.two_pow_pos i)] at hodd
    simp only [bitOf_eq_testBit, Nat.add_sub_cancel_left]
    rcases Nat.lt_or_gt_of_ne h with hlt | hgt
    · have hmod (x : Nat) : x.testBit j = (x % 2 ^ i).testBit j := by simp [Nat.testBit_mod_two_pow, hlt]
      rw [hmod w, hmod (2 ^ i + w), Nat.add_mod_left]
    · have hdiv (x : Nat) : x.testBit j = (x / 2 ^ i / 2).testBit (j - (i + 1)) := by
        rw [Nat.div_div_eq_div_mul, ← Nat.pow_succ, Nat.testBit_div_two_pow]
        congr; omega
      rw [hdiv w, hdiv (2 ^ i + w), Nat.add_div_left _ (Nat.two_pow_pos i)]
      congr 1; omega
  case isFalse => rfl

theorem bitF_putBit_ne (s : State) {f : Field} {i j : Nat} (b : Bool) (k : fits f = true) (h : f.lo + j ≤ f.hi) (hij : j ≠ i) :
    (s.putBit f i b).bitF f j = s.bitF f j := by
  have hj : j < f.width := by unfold Machine.Field.width; omega
  have hget : (s.putBit f i b).get f = (if b then orBit (s.get f) i else clrBit (s.get f) i) % 2 ^ f.width := get_put_self s _ k
  have hlow (x : Nat) : bitOf (x % 2 ^ f.width) j = bitOf x j := by simp [bitOf_eq_testBit, Nat.testBit_mod_two_pow, hj]
  rw [State.bitF, hget, hlow]
  cases b with
  | false => exact bitOf_clrBit_ne _ hij
  | true => simp only [State.bitF, bitOf_eq_testBit, orBit, if_true, Nat.one_shiftLeft, Nat.testBit_or,
      Nat.testBit_two_pow_of_ne (Ne.symm hij), Bool.or_false]

/-- The pending bit of vector `v`. -/
def pendingBit (s : State) (v : Nat) : Bool := s.bitF (Fld.MSIX_PBA_PENDING (v / 32)) (v % 32)

/-- The message of vector `v` is held back: it is pending, and its vector is not masked. -/
def heldBack (s : State) (v : Nat) : Bool := pendingBit s v && !s.flag (Fld.MSIX_CTRL_MASK v)

/-- Another vector's pending bit leaves that of `w`. -/
theorem pendingBit_putBit_ne (s : State) (b : Bool) {v w : Nat} (h : w ≠ v) :
    pendingBit (s.putBit (Fld.MSIX_PBA_PENDING (v / 32)) (v % 32) b) w = pendingBit s w := by
  by_cases hword : w / 32 = v / 32
  · have hbit : w % 32 ≠ v % 32 := by omega
    have hlt : w % 32 < 32 := Nat.mod_lt _ (by decide)
    rw [pendingBit, hword, bitF_putBit_ne s b rfl (by simp only [Fld.MSIX_PBA_PENDING]; omega) hbit, pendingBit, hword]
  · have hget : (s.putBit (Fld.MSIX_PBA_PENDING (v / 32)) (v % 32) b).get (Fld.MSIX_PBA_PENDING (w / 32)) =
        s.get (Fld.MSIX_PBA_PENDING (w / 32)) :=
      get_put_apart s _ rfl (apart_of_off (by simp only [Fld.MSIX_PBA_PENDING, Reg.MSIX_PBA]; omega))
    simp only [pendingBit, State.bitF, hget]

/-- The masks stand apart from the pending bits. -/
theorem mask_of_pba {ps : List Part} {s t : State} (h : Frame ps pba s t) {v : Nat} (hv : v < 128) :
    t.flag (Fld.MSIX_CTRL_MASK v) = s.flag (Fld.MSIX_CTRL_MASK v) :=
  flag_of_frame h fun b _ _ => by simp only [pba, Safety.range, Fld.MSIX_CTRL_MASK, Reg.MSIX_CTRL]; omega

/-- A pending bit that changes is a change of the pending bits alone. -/
theorem frame_pendingBit (s : State) {v : Nat} (hv : v < 128) (b : Bool) :
    Frame [] pba s (s.putBit (Fld.MSIX_PBA_PENDING (v / 32)) (v % 32) b) :=
  frame_putBit _ _ _ (covers_range ⟨rfl, by simp only [Fld.MSIX_PBA_PENDING, Reg.MSIX_PBA]; omega⟩)

/-- What is held back is read off the MSI-X words. -/
theorem heldBack_of_regs {s t : State} (h : ∀ o, 0x28000 ≤ o → t.reg o = s.reg o) (v : Nat) : heldBack t v = heldBack s v := by
  have hpend : t.get (Fld.MSIX_PBA_PENDING (v / 32)) = s.get (Fld.MSIX_PBA_PENDING (v / 32)) :=
    congrArg (Field.get _) (h _ (by simp only [Fld.MSIX_PBA_PENDING, Reg.MSIX_PBA]; omega))
  have hmask : t.get (Fld.MSIX_CTRL_MASK v) = s.get (Fld.MSIX_CTRL_MASK v) :=
    congrArg (Field.get _) (h _ (by simp only [Fld.MSIX_CTRL_MASK, Reg.MSIX_CTRL]; omega))
  simp only [heldBack, pendingBit, State.bitF, State.flag, hpend, hmask]

/-! ### One message (R104) -/

section
variable {s : State} {v : Nat} (hv : v < 128)
include hv

/-- A message that can go goes. -/
theorem sendMsg_sent (hd : s.canDma = true) (hm : s.flag (Fld.MSIX_CTRL_MASK v) = false) :
    s.sendMsg v = { s with ring := { s.ring with msix := s.ring.msix ++ [v] } } := by
  simp [State.sendMsg, Nat.mod_eq_of_lt hv, hd, hm]

/-- Any other is held back. -/
theorem sendMsg_held (h : s.canDma = false ∨ s.flag (Fld.MSIX_CTRL_MASK v) = true) :
    s.sendMsg v = s.putBit (Fld.MSIX_PBA_PENDING (v / 32)) (v % 32) true := by
  rcases h with h | h <;> simp [State.sendMsg, Nat.mod_eq_of_lt hv, h]

/-- A message that can reach the host is sent or stays behind a mask: what is held back and unmasked is as it was. -/
theorem sendMsg_meets (hd : s.canDma = true) :
    ((s.sendMsg v).ring.msix = s.ring.msix ∨ (s.sendMsg v).ring.msix = s.ring.msix ++ [v]) ∧
    ∀ w < 128, heldBack (s.sendMsg v) w = heldBack s w := by
  cases hm : s.flag (Fld.MSIX_CTRL_MASK v) with
  | false =>
    rw [sendMsg_sent hv hd hm]
    exact ⟨.inr rfl, fun _ _ => rfl⟩
  | true =>
    rw [sendMsg_held hv (.inr hm)]
    refine ⟨.inl rfl, fun w hw => ?_⟩
    have hmask := mask_of_pba (frame_pendingBit s hv true) hw
    by_cases hwv : w = v
    · subst hwv
      simp only [heldBack, hmask, hm, Bool.not_true, Bool.and_false]
    · simp only [heldBack, hmask, pendingBit_putBit_ne s true hwv]

end

/-! ### An interrupt sends at most one message (R103) -/

/-- A mask with at most one bit set counts at most one. -/
theorem popCount_le_one {x i : Nat} (h : ∀ j < 32, x.testBit j = true → j = i) : popCount x ≤ 1 := by
  have hsub : (List.range 32).filter (bitOf x) ⊆ [i] := fun j hj => by
    obtain ⟨hlt, hbit⟩ := List.mem_filter.1 hj
    exact List.mem_singleton.2 (h j (List.mem_range.1 hlt) (by rwa [bitOf_eq_testBit] at hbit))
  exact (List.subperm_of_subset (List.nodup_range.filter _) hsub).length_le

/-- A status bit that hardware sets: the bit itself, then one message at most. -/
theorem irqF_eq (s : State) (f : Field) : ∃ k ≤ 1, ∃ (u : State) (w : Word), Frame [] (bits [⟨f.off, f.lo, f.lo⟩]) s u ∧
    s.irqF f = (u.sendMsgs (s.get (Fld.RING_BVEC_VECTOR (f.off / 0x10000))) k).noteSet f.off w := by
  refine ⟨_, ?_, _, _, ?_, rfl⟩
  · refine popCount_le_one (i := f.lo) fun j _ h => ?_
    by_contra hne
    have hm : (BitVec.ofNat 32 (2 ^ f.lo)).toNat.testBit j = false := by
      rw [BitVec.toNat_ofNat, Nat.testBit_mod_two_pow, Nat.testBit_two_pow_of_ne (Ne.symm hne), Bool.and_false]
    simp only [Nat.testBit_and, Nat.testBit_xor, BitVec.toNat_and, BitVec.toNat_or, Nat.testBit_or, hm, Bool.or_false, Bool.xor_self,
      Bool.and_false, Bool.false_eq_true] at h
  · have hne : f.off ≠ f.off + 4 := by omega
    refine frame_regs (fun o b hb => ?_) rfl
    by_cases hen : o = f.off + 4
    · rw [hen, reg_setReg_same]
    rw [reg_setReg_ne _ _ _ _ hen]
    by_cases ho : o = f.off
    · have hbit : b ≠ f.lo := fun e => hb ⟨_, List.mem_singleton_self _, ho.symm, e.ge, e.le⟩
      rw [ho, reg_setReg_same, BitVec.getLsbD_or, BitVec.getLsbD_ofNat, Nat.testBit_two_pow_of_ne (Ne.symm hbit), Bool.and_false,
        Bool.or_false]
    · rw [reg_setReg_ne _ _ _ _ ho]

section
variable {s : State} {f : Field} (hdma : ∀ g ∈ dmaFields, g.off ≠ f.off)
include hdma

theorem canDma_of_status {u : State} (h : Frame [] (bits [⟨f.off, f.lo, f.lo⟩]) s u) : u.canDma = s.canDma :=
  canDma_of_frame h (by simp) fun g hg b _ ⟨_, hmem, ho, _⟩ => hdma g hg (by rw [← ho, List.mem_singleton.1 hmem])

/-- An interrupt while messages go sends its message or none, and what is held back and unmasked is as it was (R103, R104). -/
theorem irqF_sends (hlow : f.off < 0x28000) (hd : s.canDma = true) :
    ((s.irqF f).ring.msix = s.ring.msix ∨
      (s.irqF f).ring.msix = s.ring.msix ++ [s.get (Fld.RING_BVEC_VECTOR (f.off / 0x10000))]) ∧
    ∀ w < 128, heldBack (s.irqF f) w = heldBack s w := by
  obtain ⟨k, hk, u, x, hframe, heq⟩ := irqF_eq s f
  have hv : s.get (Fld.RING_BVEC_VECTOR (f.off / 0x10000)) < 128 := get_lt s _
  generalize s.get (Fld.RING_BVEC_VECTOR (f.off / 0x10000)) = vec at hv heq ⊢
  have hring : u.ring.msix = s.ring.msix := hframe.2 .msix (by simp)
  have hheld (w : Nat) : heldBack u w = heldBack s w := heldBack_of_regs (fun o ho => reg_of_frame hframe fun b _ ⟨_, hmem, hoff, _⟩ => by
    rw [List.mem_singleton.1 hmem] at hoff
    simp only at hoff
    omega) w
  have hdu : u.canDma = true := (canDma_of_status hdma hframe).trans hd
  obtain ⟨hsent, hkept⟩ := sendMsg_meets hv hdu
  rw [heq, ← hring]
  rcases Nat.le_one_iff_eq_zero_or_eq_one.1 hk with rfl | rfl
  · exact ⟨.inl rfl, fun w _ => hheld w⟩
  · exact ⟨hsent, fun w hw => (hkept w hw).trans (hheld w)⟩

/-- An interrupt while no message can go sends none. -/
theorem irqF_silent (hd : s.canDma = false) : (s.irqF f).ring.msix = s.ring.msix := by
  obtain ⟨k, hk, u, x, hframe, heq⟩ := irqF_eq s f
  have hv : s.get (Fld.RING_BVEC_VECTOR (f.off / 0x10000)) < 128 := get_lt s _
  have hring : u.ring.msix = s.ring.msix := hframe.2 .msix (by simp)
  have hdu : u.canDma = false := (canDma_of_status hdma hframe).trans hd
  rw [heq, ← hring]
  rcases Nat.le_one_iff_eq_zero_or_eq_one.1 hk with rfl | rfl
  · rfl
  · exact congrArg (·.ring.msix) (sendMsg_held hv (.inl hdu))

end

/-- A frame with no message sent names the messages for nothing. -/
theorem frame_drop_msix {p : Bits} {s t : State} (h : Frame [.msix] p s t) (hm : t.ring.msix = s.ring.msix) : Frame [] p s t :=
  ⟨h.1, fun q _ => by
    by_cases hq : q = .msix
    · subst hq; exact hm
    · exact h.2 q (by simpa using hq)⟩

/-! ### Those held back go (R104) -/

section
variable {s : State} {v : Nat}

theorem pbaFlush_self (h : s.canDma = false ∨ heldBack s v = false) : s.pbaFlush v = s := by
  refine if_neg fun hc => ?_
  simp only [Bool.and_eq_true, Bool.not_eq_true'] at hc
  obtain ⟨⟨hpend, hdma⟩, hmask⟩ := hc
  rcases h with h | h
  · exact absurd (hdma.symm.trans h) (by decide)
  · rw [heldBack, pendingBit, hpend, hmask] at h
    exact absurd h (by decide)

/-- A message held back that can go now: its pending bit clears and it is sent. -/
theorem pbaFlush_sends (hv : v < 128) (hd : s.canDma = true) (h : heldBack s v = true) :
    ∃ u, u = s.putBit (Fld.MSIX_PBA_PENDING (v / 32)) (v % 32) false ∧
      s.pbaFlush v = { u with ring := { u.ring with msix := s.ring.msix ++ [v] } } := by
  obtain ⟨hpend, hmask⟩ := Bool.and_eq_true_iff.1 h
  have hmask' : s.flag (Fld.MSIX_CTRL_MASK v) = false := by simpa using hmask
  have hframe := frame_mono (frame_pendingBit s hv false) (qs := [.msix]) (by simp) fun _ _ h => h
  refine ⟨_, rfl, ?_⟩
  rw [State.pbaFlush, if_pos (by rw [hd, hmask', show s.bitF _ _ = true from hpend]; rfl),
    sendMsg_sent hv ((canDma_of_pba hframe).trans hd) ((mask_of_pba hframe hv).trans hmask'), putBit_ring]

/-- What the flush of one vector does: its message goes where it is held back, and every other one stays as it is. -/
theorem pbaFlush_meets (hv : v < 128) (hd : s.canDma = true) :
    (s.pbaFlush v).ring.msix = s.ring.msix ++ (if heldBack s v then [v] else []) ∧
    (heldBack s v = true → pendingBit (s.pbaFlush v) v = false) ∧
    (∀ w, w ≠ v → pendingBit (s.pbaFlush v) w = pendingBit s w) ∧ Frame [.msix] pba s (s.pbaFlush v) := by
  by_cases h : heldBack s v = true
  · obtain ⟨u, hu, heq⟩ := pbaFlush_sends hv hd h
    have hmsix : Frame [.msix] pba u { u with ring := { u.ring with msix := s.ring.msix ++ [v] } } :=
      frame_part .msix (by simp) rfl fun r hr => by cases r <;> first | exact absurd rfl hr | simp [Part.same]
    have hbit : pendingBit u v = false := hu ▸ bitF_putBit_false s _ rfl
    rw [heq, if_pos h]
    refine ⟨rfl, fun _ => hbit, fun w hw => ?_, frame_trans (hu ▸ frame_mono (frame_pendingBit s hv false) (by simp) fun _ _ h => h) hmsix⟩
    exact (congrArg (pendingBit · w) hu).trans (pendingBit_putBit_ne s false hw)
  · rw [pbaFlush_self (.inr (by simpa using h)), if_neg h, List.append_nil]
    exact ⟨rfl, fun h' => absurd h' h, fun _ _ => rfl, frame_refl s⟩

end

theorem frame_pbaFlush (s : State) {v : Nat} (hv : v < 128) : Frame [.msix] pba s (s.pbaFlush v) := by
  cases hd : s.canDma with
  | false =>
    rw [pbaFlush_self (.inl hd)]
    exact frame_refl s
  | true =>
    obtain ⟨-, -, -, hframe⟩ := pbaFlush_meets hv hd
    exact hframe

/-- A flush leaves the pending bits of the vectors it does not name. -/
theorem pendingBit_flush {w : Nat} : ∀ {l : List Nat} {s : State}, (∀ v ∈ l, v < 128) → s.canDma = true → w ∉ l →
    pendingBit (l.foldl State.pbaFlush s) w = pendingBit s w
  | [], _, _, _, _ => rfl
  | v :: l, s, hl, hd, hw => by
    obtain ⟨-, -, hkept, hframe⟩ := pbaFlush_meets (hl v (by simp)) hd
    have ih : pendingBit (l.foldl State.pbaFlush (s.pbaFlush v)) w = pendingBit (s.pbaFlush v) w :=
      pendingBit_flush (fun x hx => hl x (List.mem_cons_of_mem v hx)) ((canDma_of_pba hframe).trans hd)
        fun h => hw (List.mem_cons_of_mem v h)
    exact ih.trans (hkept w fun e => hw (e ▸ List.mem_cons_self))

/-- A flush of a list of vectors sends those held back, in the order of the list, and clears their pending bits. -/
theorem flush_meets : ∀ {l : List Nat} {s : State}, l.Nodup → (∀ v ∈ l, v < 128) → s.canDma = true →
    (l.foldl State.pbaFlush s).ring.msix = s.ring.msix ++ l.filter (heldBack s) ∧
    ∀ v ∈ l, heldBack s v = true → pendingBit (l.foldl State.pbaFlush s) v = false
  | [], s, _, _, _ => by simp
  | v :: l, s, hnd, hl, hd => by
    obtain ⟨hv, hrest⟩ := List.nodup_cons.1 hnd
    have hl' : ∀ x ∈ l, x < 128 := fun x hx => hl x (by simp [hx])
    obtain ⟨hmsix, hclear, hkept, hframe⟩ := pbaFlush_meets (hl v (by simp)) hd
    have hd' : (s.pbaFlush v).canDma = true := (canDma_of_pba hframe).trans hd
    have hheld : ∀ x ∈ l, heldBack (s.pbaFlush v) x = heldBack s x := fun x hx => by
      rw [heldBack, hkept x fun e => hv (e ▸ hx), mask_of_pba hframe (hl' x hx), heldBack]
    obtain ⟨hsent, hcleared⟩ := flush_meets hrest hl' hd'
    refine ⟨?_, fun x hx hx' => ?_⟩
    · rw [List.foldl_cons, hsent, hmsix, List.filter_congr hheld, List.append_assoc, List.filter_cons]
      split <;> rfl
    · rcases List.mem_cons.1 hx with rfl | hx
      · exact (pendingBit_flush hl' hd' hv).trans (hclear hx')
      · exact hcleared x hx ((hheld x hx).trans hx')

/-- The flush of all vectors while messages go. -/
theorem pbaFlushAll_meets {s : State} (hd : s.canDma = true) :
    s.pbaFlushAll.ring.msix = s.ring.msix ++ (List.range 128).filter (heldBack s) ∧
    ∀ v ∈ (List.range 128).filter (heldBack s), pendingBit s.pbaFlushAll v = false := by
  obtain ⟨hsent, hclear⟩ := flush_meets List.nodup_range (fun v hv => List.mem_range.1 hv) hd
  exact ⟨hsent, fun v hv => hclear v (List.mem_filter.1 hv).1 (List.mem_filter.1 hv).2⟩

theorem pbaFlushAll_self {s : State} (hd : s.canDma = false) : s.pbaFlushAll = s := foldl_self fun _ _ => pbaFlush_self (.inl hd)

theorem frame_pbaFlushAll (s : State) : Frame [.msix] pba s s.pbaFlushAll :=
  frame_range fun _ hv t => frame_pbaFlush t hv

end Sys2Proof.Proofs
end

section
/-!
PROOF. The link goes and comes (O23: R68, R69, R104).
-/

namespace Sys2Proof.Proofs
open Sys2Proof Sys2Proof.Machine Sys2Proof.Safety Sys2Proof.Laws

/-- After a flush from a state that has the messages and the MSI-X words of `s`: those held back in `s` have gone, or none can go. -/
theorem flush_resumes {s u : State} (hm : u.ring.msix = s.ring.msix) (hreg : ∀ o, 0x28000 ≤ o → u.reg o = s.reg o) :
    (u.pbaFlushAll.canDma = true → u.pbaFlushAll.ring.msix = s.ring.msix ++ (List.range 128).filter (heldBack s) ∧
      ∀ v ∈ (List.range 128).filter (heldBack s), pendingBit u.pbaFlushAll v = false) ∧
    (u.pbaFlushAll.canDma = false → u.pbaFlushAll.ring.msix = s.ring.msix ∧
      ∀ k, u.pbaFlushAll.reg (Reg.MSIX_PBA k) = s.reg (Reg.MSIX_PBA k)) := by
  have hheld : heldBack u = heldBack s := funext (heldBack_of_regs hreg)
  rw [canDma_of_pba (frame_pbaFlushAll u), ← hm, ← hheld]
  refine ⟨pbaFlushAll_meets, fun hd => ?_⟩
  rw [pbaFlushAll_self hd]
  exact ⟨rfl, fun k => hreg _ (by simp only [Reg.MSIX_PBA]; omega)⟩

/-- A flush reaches of the rings the messages alone. -/
theorem ring_pbaFlushAll (u : State) : u.pbaFlushAll.ring = { u.ring with msix := u.pbaFlushAll.ring.msix } := by
  have h := frame_pbaFlushAll u
  obtain ⟨hbme, hd3, hheld, hlast, hlatched, hcounted, hrr, hsent⟩ := h.2 .ring (by simp)
  have hrecs : u.pbaFlushAll.ring.recs = u.ring.recs := h.2 .recs (by simp)
  have hflight : u.pbaFlushAll.ring.flight = u.ring.flight := h.2 .flight (by simp)
  generalize u.pbaFlushAll.ring = r at *
  cases r
  simp_all

/-- A change of Bus Master Enable or of the power-management state alone. -/
theorem frame_busState (s : State) (b d : Bool) : Frame [.ring, .msix] pba s { s with ring := { s.ring with bme := b, d3hot := d } } :=
  frame_part .ring (by simp) rfl fun r hr => by cases r <;> first | exact absurd rfl hr | simp [Part.same]

section
variable (s : State)

/-- The link shows itself up, with its width and speed (Table 3.9). -/
def linkShown (w v : Nat) : State := ((s.put Fld.RING_LINK_WIDTH w).put Fld.RING_LINK_SPEED v).putB Fld.RING_LINK_UP true

/-- The fields of RING_LINK. -/
def linkFields : List Field := [Fld.RING_LINK_WIDTH, Fld.RING_LINK_SPEED, Fld.RING_LINK_UP]

theorem frame_linkShown (w v : Nat) : Frame [] (bits linkFields) s (linkShown s w v) := by
  refine frame_then_putB (frame_then_put (frame_put _ _ ?_) _ _ ?_) _ _ ?_ <;> exact covers_of_fits (by simp [linkFields]) rfl

theorem linkShown_meets {w v : Nat} (hw : w < 16) (hv : v < 16) :
    let t := linkShown s w v
    t.get Fld.RING_LINK_WIDTH = w ∧ t.get Fld.RING_LINK_SPEED = v ∧ t.flag Fld.RING_LINK_UP = true := by
  refine ⟨?_, ?_, flag_putB_self _ _ rfl rfl⟩
  · exact (get_put_apart _ _ rfl rfl).trans ((get_put_apart _ _ rfl rfl).trans ((get_put_self _ _ rfl).trans (Nat.mod_eq_of_lt hw)))
  · exact (get_put_apart _ _ rfl rfl).trans ((get_put_self _ _ rfl).trans (Nat.mod_eq_of_lt hv))

end

/-- The words that LINK_UP and LINK_DOWN reach beside the pending bits lie below the MSI-X table. -/
theorem dma_apart_linkEvt : ∀ g ∈ dmaFields, g.off ≠ Fld.RING_IRQ_STATUS_LINK_EVT.off := by decide

/-- Without a link nothing reaches the host. -/
theorem canDma_of_link_down {s : State} (h : s.reg Reg.RING_LINK = 0) : s.canDma = false := by
  have hup : s.flag Fld.RING_LINK_UP = false := decide_eq_false fun k => by
    rw [State.get, show Fld.RING_LINK_UP.off = Reg.RING_LINK from rfl, h] at k
    exact absurd k (by decide)
  simp [State.canDma, hup]

/-- The link is down: no message goes, and the loss is reported where it was up (R69). -/
theorem linkDown_stops (s : State) :
    let t := linkDown s
    t.reg Reg.RING_LINK = 0 ∧ t.canDma = false ∧ t.ring.msix = s.ring.msix ∧
    (s.flag Fld.RING_LINK_UP = true → t.flag Fld.RING_IRQ_STATUS_LINK_EVT = true) ∧
    Frame [] (orBits pba (bits [⟨Reg.RING_LINK, 31, 0⟩, Fld.RING_IRQ_STATUS_LINK_EVT])) s t := by
  obtain ⟨hlink, -⟩ := linkDown_meets s
  refine ⟨hlink, canDma_of_link_down hlink, ?_⟩
  have hdma : (s.setReg Reg.RING_LINK 0).canDma = false := canDma_of_link_down (reg_setReg_same _ _ _)
  have hu : Frame [] (orBits pba (bits [⟨Reg.RING_LINK, 31, 0⟩, Fld.RING_IRQ_STATUS_LINK_EVT])) s (s.setReg Reg.RING_LINK 0) :=
    frame_setReg_word _ _ _ fun b hb => .inr ⟨_, List.mem_cons_self, rfl, Nat.zero_le b, Nat.le_of_lt_succ hb⟩
  unfold linkDown
  generalize s.setReg Reg.RING_LINK 0 = u at hdma hu ⊢
  have hring : u.ring.msix = s.ring.msix := hu.2 .msix (by simp)
  have hsilent : (u.irqF Fld.RING_IRQ_STATUS_LINK_EVT).ring.msix = u.ring.msix := irqF_silent dma_apart_linkEvt hdma
  cases s.flag Fld.RING_LINK_UP with
  | false => exact ⟨hring, fun h => absurd h (by decide), hu⟩
  | true =>
    refine ⟨hsilent.trans hring, fun _ => flag_irqF u _ rfl (by decide) (not_pba_of_outside (by decide)), frame_trans hu ?_⟩
    exact frame_drop_msix (frame_irqF_listed u (by simp) rfl (by simp)) hsilent

/-! ### The link comes back -/

/-- The link shows itself up and, where it was down, reports it (R69). -/
def linkReported (s : State) (w v : Nat) : State :=
  if s.flag Fld.RING_LINK_UP then linkShown s w v else (linkShown s w v).irqF Fld.RING_IRQ_STATUS_LINK_EVT

section
variable (s : State) {w v : Nat}

/-- The words of the link and of its interrupt lie below the MSI-X table. -/
theorem reg_linkShown {o : Nat} (h : 0x28000 ≤ o) : (linkShown s w v).reg o = s.reg o := by
  have hne {f : Field} (hf : f.off = Reg.RING_LINK) : o ≠ f.off := by rw [hf, Reg.RING_LINK]; omega
  exact (reg_put_ne _ _ _ _ (hne rfl)).trans ((reg_put_ne _ _ _ _ (hne rfl)).trans (reg_put_ne _ _ _ _ (hne rfl)))

/-- The fields that the return of the link can change, beside pending bits. -/
def linkUpFields : List Field := [Fld.RING_LINK_WIDTH, Fld.RING_LINK_SPEED, Fld.RING_LINK_UP, Fld.RING_IRQ_STATUS_LINK_EVT]

theorem linkReported_meets (hw : w < 16) (hv : v < 16) :
    let t := linkReported s w v
    t.get Fld.RING_LINK_WIDTH = w ∧ t.get Fld.RING_LINK_SPEED = v ∧ t.flag Fld.RING_LINK_UP = true ∧
    (s.flag Fld.RING_LINK_UP = false → t.flag Fld.RING_IRQ_STATUS_LINK_EVT = true) ∧
    Frame [.msix] (orBits pba (bits linkUpFields)) s t := by
  obtain ⟨hwidth, hspeed, hup⟩ := linkShown_meets s hw hv
  have hshown : Frame [.msix] (orBits pba (bits linkUpFields)) s (linkShown s w v) :=
    frame_mono (frame_linkShown s w v) (by simp) fun o b h => .inr (bits_mono (by simp [linkFields, linkUpFields]) o b h)
  unfold linkReported
  cases s.flag Fld.RING_LINK_UP with
  | true => exact ⟨hwidth, hspeed, hup, fun h => absurd h (by decide), hshown⟩
  | false =>
    have hkeep {f : Field} (h : f ∈ linkFields) : ((linkShown s w v).irqF Fld.RING_IRQ_STATUS_LINK_EVT).get f = (linkShown s w v).get f := by
      have hapart : ∀ f ∈ linkFields, apart f Fld.RING_IRQ_STATUS_LINK_EVT = true ∧ f.off < 0x29000 := by decide
      exact get_irqF_apart _ rfl (hapart f h).1 (.inl (hapart f h).2)
    exact ⟨(hkeep (by simp [linkFields])).trans hwidth, (hkeep (by simp [linkFields])).trans hspeed,
      (flag_irqF_apart _ rfl rfl (.inl (by decide))).trans hup, fun _ => flag_irqF _ _ rfl (by decide) (not_pba_of_outside (by decide)),
      frame_trans hshown (frame_irqF_listed _ (by simp [linkUpFields]) rfl (by simp))⟩

/-- Once the link is reported, its message has gone or not, and what is held back is as it was (R103, R104). -/
theorem linkReported_sends (hdown : s.flag Fld.RING_LINK_UP = false) (hd : (linkReported s w v).canDma = true) :
    ((linkReported s w v).ring.msix = s.ring.msix ∨
      (linkReported s w v).ring.msix = s.ring.msix ++ [s.get (Fld.RING_BVEC_VECTOR 2)]) ∧
    ∀ k < 128, heldBack (linkReported s w v) k = heldBack s k := by
  have heq : linkReported s w v = (linkShown s w v).irqF Fld.RING_IRQ_STATUS_LINK_EVT := by simp [linkReported, hdown]
  have hirq : Frame [.msix] (orBits pba (bits [Fld.RING_IRQ_STATUS_LINK_EVT])) (linkShown s w v) (linkReported s w v) :=
    heq ▸ frame_irqF_listed _ (by simp) rfl (by simp)
  have hdma : (linkShown s w v).canDma = true := by
    refine (canDma_of_frame hirq (by simp) fun f hf b hb => ?_).symm.trans hd
    have hpba : ∀ f ∈ dmaFields, f.off < 0x29000 ∨ 0x29010 ≤ f.off := by decide
    rintro (h | ⟨g, hg, ho, -⟩)
    · exact not_pba_of_outside (hpba f hf) b hb h
    · exact dma_apart_linkEvt f hf (by rw [← ho, List.mem_singleton.1 hg])
  obtain ⟨hsent, hheld⟩ := irqF_sends dma_apart_linkEvt (by decide) hdma
  have hvec : (linkShown s w v).get (Fld.RING_BVEC_VECTOR 2) = s.get (Fld.RING_BVEC_VECTOR 2) :=
    get_of_frame_bits (frame_linkShown s w v) (by decide)
  rw [heq]
  refine ⟨?_, fun k hk => (hheld k hk).trans (heldBack_of_regs (fun o ho => reg_linkShown s ho) k)⟩
  rw [← hvec]
  exact hsent

end

section
variable {s : State} (hrun : s.pwr.hold = .running)
include hrun

theorem exec_linkDown_link : exec (.linkDown .link) s = .next (linkDown s) := act_running s linkDown hrun

theorem exec_linkDown_busMaster : exec (.linkDown .busMaster) s = .next { s with ring := { s.ring with bme := false } } :=
  act_running s (setBusMaster · false) hrun

theorem exec_linkUp_busMaster :
    exec (.linkUp .busMaster) s = .next ({ s with ring := { s.ring with bme := true } } : State).pbaFlushAll :=
  act_running s (setBusMaster · true) hrun

theorem exec_linkUp_link (w v : Nat) : exec (.linkUp (.link w v)) s = .next (linkReported s w v).pbaFlushAll :=
  act_running s (fun s => (linkReported s w v).pbaFlushAll) hrun

theorem exec_d3hotEntry : exec .d3hotEntry s = .next { s with ring := { s.ring with d3hot := true } } :=
  act_running s (setD3hot · true) hrun

theorem exec_d0Return : exec .d0Return s = .next ({ s with ring := { s.ring with d3hot := false } } : State).pbaFlushAll :=
  act_running s (setD3hot · false) hrun

end

/-- Settles O23: the loss of the link, then the three ways in which messages can go again. -/
theorem linkGoesAndComes : Obligations.LinkGoesAndComes := by
  unfold Obligations.LinkGoesAndComes
  intro s hrun
  refine ⟨exec_linkDown_busMaster hrun, ⟨_, exec_linkDown_link hrun, linkDown_stops s⟩, ⟨_, exec_linkUp_busMaster hrun, ?_⟩,
    fun w v hw hv => ⟨_, exec_linkUp_link hrun w v, ?_⟩, exec_d3hotEntry hrun, ⟨_, exec_d0Return hrun, ?_⟩⟩
  · exact ⟨ring_pbaFlushAll _, flush_resumes rfl fun _ _ => rfl, frame_trans (frame_busState s true _)
      (frame_mono (frame_pbaFlushAll _) (by simp) fun _ _ h => h)⟩
  · obtain ⟨hwidth, hspeed, hup, hevt, hframe⟩ := linkReported_meets s hw hv
    have hflush := frame_pbaFlushAll (linkReported s w v)
    have hget {f : Field} (hf : f.off < 0x29000) : (linkReported s w v).pbaFlushAll.get f = (linkReported s w v).get f :=
      get_of_frame hflush fun b _ _ => by simp only [pba, Safety.range]; omega
    have hflag {f : Field} (hf : f.off < 0x29000) : (linkReported s w v).pbaFlushAll.flag f = (linkReported s w v).flag f := by
      simp only [State.flag, hget hf]
    refine ⟨(hget (by decide)).trans hwidth, (hget (by decide)).trans hspeed, (hflag (by decide)).trans hup, fun h => ?_,
      fun h => ⟨(hflag (by decide)).trans (hevt h), fun hd => ?_⟩, frame_trans hframe (frame_mono hflush (by simp) fun _ _ h => .inl h)⟩
    · have heq : linkReported s w v = linkShown s w v := by simp [linkReported, h]
      rw [heq]
      exact flush_resumes rfl fun o ho => reg_linkShown s ho
    · have hd' : (linkReported s w v).canDma = true := (canDma_of_pba hflush).symm.trans hd
      obtain ⟨hsent, hheld⟩ := linkReported_sends s h hd'
      obtain ⟨hgone, hclear⟩ := pbaFlushAll_meets hd'
      have hlist : (List.range 128).filter (heldBack (linkReported s w v)) = (List.range 128).filter (heldBack s) :=
        List.filter_congr fun k hk => hheld k (List.mem_range.1 hk)
      rw [hlist] at hgone hclear
      have happend {l : List Nat} (e : (linkReported s w v).ring.msix = l) := hgone.trans (congrArg (· ++ _) e)
      exact ⟨hsent.imp happend happend, hclear⟩
  · exact ⟨ring_pbaFlushAll _, flush_resumes rfl fun _ _ => rfl, frame_trans (frame_busState s _ false)
      (frame_mono (frame_pbaFlushAll _) (by simp) fun _ _ h => h)⟩

end Sys2Proof.Proofs
end

section
/-!
PROOF. Records and messages go to the host (O22: R75, R84, R88, R101, R102, R104, R107, R122).
-/

namespace Sys2Proof.Proofs
open Sys2Proof Sys2Proof.Machine Sys2Proof.Safety Sys2Proof.Laws

/-! ### Counted records and their message (R101, R102) -/

theorem frame_ringCounted (s : State) (x : Store Nat) (p : Bits) :
    Frame [.ring, .msix] p s { s with ring := { s.ring with counted := x } } :=
  frame_part .ring (by simp) rfl fun r hr => by cases r <;> first | exact absurd rfl hr | simp [Part.same]

theorem frame_cqMessage (s : State) (n : Nat) : Frame [.ring, .msix] pba s (s.cqMessage n) :=
  frame_trans (frame_ringCounted s _ _) (frame_sendMsg _ (fun _ _ h => h) (by simp))

theorem frame_recordCounts (s : State) (r : Rec) : Frame [.ring, .msix] pba s (recordCounts s r) :=
  frame_ite (fun _ => frame_ite_right (frame_ringCounted s _ _) fun _ => frame_cqMessage _ _) fun _ => frame_refl s

/-- The message of a CQ: its counts clear, and it goes where it can (R102). -/
theorem cqMessage_meets (s : State) (n : Nat) :
    sget 0 (s.cqMessage n).ring.counted n = 0 ∧
    (s.canDma = true → s.flag (Fld.MSIX_CTRL_MASK (s.get (Fld.CQ_CFG_VECTOR n))) = false →
      (s.cqMessage n).ring.msix = s.ring.msix ++ [s.get (Fld.CQ_CFG_VECTOR n)]) := by
  let u : State := { s with ring := { s.ring with counted := sset 0 s.ring.counted n 0 } }
  have hmsg : Frame [.msix] pba u (u.sendMsg (s.get (Fld.CQ_CFG_VECTOR n))) := frame_sendMsg _ (fun _ _ h => h) (by simp)
  obtain ⟨-, -, -, -, -, hcounted, -⟩ := hmsg.2 .ring (by simp)
  refine ⟨(congrArg (sget 0 · n) hcounted).trans (sget_sset_same _ _ _ _), fun hd hm => ?_⟩
  exact congrArg (·.ring.msix) (sendMsg_sent (s := u) (get_lt s (Fld.CQ_CFG_VECTOR n)) hd hm)

/-! ### A record is written (R75, R84, R88) -/

section
variable (s : State) (r : Rec) (q : List Rec)

/-- Host memory once a record is written at CQ_TAIL, behind the posted write-back of its descriptor (R88, R122). -/
def recordMem : Store Byte :=
  writeBytes (match r.wb with
    | some (a, b) => writeBytes s.hostMem a b
    | none => s.hostMem) (s.wide (Reg.CQ_BASE_LO r.cq) + 32 * s.get (Fld.CQ_TAIL_TAIL r.cq)) (r.bytes (s.get (Fld.CQ_TAIL_PHASE r.cq)))

/-- The record has left the queue for host memory, which is then `m`. -/
def recordPlaced (m : Store Byte) : State := { s with ring := { s.ring with recs := q }, hostMem := m }

/-- Its CQ's tail has advanced, and PHASE has inverted where it wrapped (R75). -/
def tailAdvanced : State :=
  let nxt := (s.get (Fld.CQ_TAIL_TAIL r.cq) + 1) % s.cqSize r.cq
  (s.put (Fld.CQ_TAIL_TAIL r.cq) nxt).put (Fld.CQ_TAIL_PHASE r.cq)
    (if nxt = 0 then 1 - s.get (Fld.CQ_TAIL_PHASE r.cq) else s.get (Fld.CQ_TAIL_PHASE r.cq))

/-- Its SQ has one descriptor less in flight. -/
def inflightLess : State := s.put (Fld.SQ_STATUS_INFLIGHT r.sq) (s.get (Fld.SQ_STATUS_INFLIGHT r.sq) - 1)

/-- The rest of a record's writing: the count of retried descriptors, its interrupt, the status of its rings (R101, Table 22.6). -/
def recordReported : State :=
  (recordCounts (if r.retried then s.incSat Fld.LOG_RETRY_RETRIED else s) r).ringStatus r.sq r.cq

theorem frame_recordPlaced (m : Store Byte) : Frame [.hostMem, .recs] (bits []) s (recordPlaced s q m) :=
  ⟨fun _ _ _ => rfl, fun p hp => by cases p <;> simp_all [Part.same, recordPlaced]⟩

theorem tailAdvanced_meets :
    let t := tailAdvanced s r
    let nxt := (s.get (Fld.CQ_TAIL_TAIL r.cq) + 1) % s.cqSize r.cq
    t.get (Fld.CQ_TAIL_TAIL r.cq) = nxt % 2 ^ 16 ∧
    t.get (Fld.CQ_TAIL_PHASE r.cq) = (if nxt = 0 then 1 - s.get (Fld.CQ_TAIL_PHASE r.cq) else s.get (Fld.CQ_TAIL_PHASE r.cq)) ∧
    Frame [] (bits [Fld.CQ_TAIL_TAIL r.cq, Fld.CQ_TAIL_PHASE r.cq]) s t := by
  have hphase : s.get (Fld.CQ_TAIL_PHASE r.cq) < 2 := get_lt s _
  unfold tailAdvanced
  generalize (s.get (Fld.CQ_TAIL_TAIL r.cq) + 1) % s.cqSize r.cq = nxt
  have hbit : (if nxt = 0 then 1 - s.get (Fld.CQ_TAIL_PHASE r.cq) else s.get (Fld.CQ_TAIL_PHASE r.cq)) < 2 ^ 1 := by
    split <;> omega
  refine ⟨(get_put_apart _ _ rfl rfl).trans (get_put_self _ _ rfl), (get_put_self _ _ rfl).trans (Nat.mod_eq_of_lt hbit),
    frame_then_put (frame_put _ _ (covers_of_fits (by simp) rfl)) _ _ (covers_of_fits (by simp) rfl)⟩

/-- The fields that the rest of a record's writing can change, beside pending bits. -/
def reportedFields (r : Rec) : List Field := [Fld.LOG_RETRY_RETRIED, Fld.SQ_STATUS_ACTIVE r.sq, Fld.CQ_STATUS_ACTIVE r.cq]

theorem frame_recordReported : Frame [.ring, .msix] (orBits pba (bits (reportedFields r))) s (recordReported s r) := by
  have hactive : [Fld.SQ_STATUS_ACTIVE r.sq, Fld.CQ_STATUS_ACTIVE r.cq] ⊆ reportedFields r := List.subset_cons_self _ _
  refine frame_trans (frame_trans ?_ (frame_mono (frame_recordCounts _ r) (fun _ h => h) fun _ _ h => .inl h))
    (frame_mono (frame_ringStatus _ r.sq r.cq) (by simp) fun o b h => .inr (bits_mono hactive o b h))
  exact frame_ite (fun _ => frame_incSat _ _ (covers_right _ (covers_of_fits (by simp [reportedFields]) rfl))) fun _ => frame_refl s

/-- The tail of a CQ is none of the fields that follow it. -/
theorem get_recordReported {f : Field} (h : f.off = Reg.CQ_TAIL r.cq) : (recordReported (inflightLess s r) r).get f = s.get f := by
  have hsq : f.off ≠ Reg.SQ_STATUS r.sq := by rw [h]; simp only [Reg.CQ_TAIL, Reg.SQ_STATUS]; omega
  have hcq : f.off ≠ Reg.CQ_STATUS r.cq := by rw [h]; simp only [Reg.CQ_TAIL, Reg.CQ_STATUS]; omega
  have hlog : f.off ≠ Reg.LOG_RETRY := by rw [h]; simp only [Reg.CQ_TAIL, Reg.LOG_RETRY]; omega
  have hout : f.off < 0x29000 ∨ 0x29010 ≤ f.off := by rw [h]; simp only [Reg.CQ_TAIL]; omega
  refine (get_of_frame_pba (frame_recordReported _ r) hout ?_).trans (get_put_apart _ _ rfl (apart_of_off hsq))
  simpa [reportedFields] using ⟨apart_of_off (g := Fld.LOG_RETRY_RETRIED) hlog, apart_of_off (g := Fld.SQ_STATUS_ACTIVE r.sq) hsq,
    apart_of_off (g := Fld.CQ_STATUS_ACTIVE r.cq) hcq⟩

theorem inflight_recordReported :
    (recordReported s r).get (Fld.SQ_STATUS_INFLIGHT r.sq) = s.get (Fld.SQ_STATUS_INFLIGHT r.sq) := by
  have hlog : Reg.SQ_STATUS r.sq ≠ Reg.LOG_RETRY := by simp only [Reg.SQ_STATUS, Reg.LOG_RETRY]; omega
  have hout : Reg.SQ_STATUS r.sq < 0x29000 ∨ 0x29010 ≤ Reg.SQ_STATUS r.sq := by simp only [Reg.SQ_STATUS]; omega
  refine get_of_frame_pba (frame_recordReported s r) hout ?_
  simpa [reportedFields] using ⟨apart_of_off (f := Fld.SQ_STATUS_INFLIGHT r.sq) (g := Fld.LOG_RETRY_RETRIED) hlog,
    (rfl : apart (Fld.SQ_STATUS_INFLIGHT r.sq) (Fld.SQ_STATUS_ACTIVE r.sq) = true),
    (rfl : apart (Fld.SQ_STATUS_INFLIGHT r.sq) (Fld.CQ_STATUS_ACTIVE r.cq) = true)⟩

/-- The state once the oldest record is written. -/
def recordWritten (m : Store Byte) : State := recordReported (inflightLess (tailAdvanced (recordPlaced s q m) r) r) r

/-- The fields that the writing of a record can change, beside pending bits. -/
def recordFields (r : Rec) : List Field :=
  [Fld.CQ_TAIL_TAIL r.cq, Fld.CQ_TAIL_PHASE r.cq, Fld.SQ_STATUS_INFLIGHT r.sq, Fld.SQ_STATUS_ACTIVE r.sq, Fld.CQ_STATUS_ACTIVE r.cq,
    Fld.LOG_RETRY_RETRIED]

theorem frame_inflightLess : Frame [] (bits [Fld.SQ_STATUS_INFLIGHT r.sq]) s (inflightLess s r) :=
  frame_put _ _ (covers_of_fits (by simp) rfl)

/-- From the tail's advance on neither host memory nor the queue of records changes. -/
theorem frame_recordWritten_placed (m : Store Byte) :
    Frame [.ring, .msix] (orBits pba (bits (recordFields r))) (recordPlaced s q m) (recordWritten s r q m) := by
  obtain ⟨-, -, htail⟩ := tailAdvanced_meets (recordPlaced s q m) r
  have hsub {fs : List Field} (h : fs ⊆ recordFields r) (o b : Nat) : bits fs o b → orBits pba (bits (recordFields r)) o b :=
    fun k => .inr (bits_mono h o b k)
  refine frame_trans (frame_trans (frame_mono htail (by simp) (hsub (by simp [recordFields])))
    (frame_mono (frame_inflightLess _ r) (by simp) (hsub (by simp [recordFields])))) (frame_mono (frame_recordReported _ r) (by simp) ?_)
  exact fun o b k => k.imp_right (bits_mono (by simp [reportedFields, recordFields]) o b)

end

section
variable {s : State} (hrun : s.pwr.hold = .running)
include hrun

theorem exec_recordWrite {r : Rec} {q : List Rec} (hd : s.canDma = true) (hq : s.ring.recs = r :: q) (hat : r.at_ ≠ s.cyc) :
    ∃ m, m = recordMem s r ∧ exec .recordWrite s = .next (recordWritten s r q m) := by
  show ∃ m, _ ∧ execRecordWrite s = _
  rw [execRecordWrite, act_running s _ hrun]
  simp only [hq, hd, hat, Bool.not_true, Bool.false_or, decide_false, Bool.false_eq_true, if_false]
  generalize hm : writeBytes _ _ _ = m
  exact ⟨m, hm.symm, rfl⟩

theorem exec_cqModerationTimeout (n : Fin 64) :
    exec (.cqModerationTimeout n) s = .next (if sget 0 s.ring.counted n = 0 then s else s.cqMessage n) :=
  act_running s (fun s => if sget 0 s.ring.counted n = 0 then s else s.cqMessage n) hrun

theorem exec_msixUnmask {v : Fin 128} (h : s.served (Reg.MSIX_CTRL v) = true) :
    exec (.msixUnmask v) s = .next ((s.putB (Fld.MSIX_CTRL_MASK v) false).pbaFlush v) :=
  (act_running s _ hrun).trans (by rw [if_pos h])

end

/-- A vector just unmasked: its pending message goes if messages can be sent (R104). -/
theorem unmask_meets (s : State) {v : Nat} (hv : v < 128) :
    let u := s.putB (Fld.MSIX_CTRL_MASK v) false
    let t := u.pbaFlush v
    t.flag (Fld.MSIX_CTRL_MASK v) = false ∧
    (pendingBit s v = true → s.canDma = true → t.ring.msix = s.ring.msix ++ [v] ∧ pendingBit t v = false) ∧
    (pendingBit s v = false ∨ s.canDma = false → t = u) ∧
    Frame [.msix] (orBits pba (bits [Fld.MSIX_CTRL_MASK v])) s t := by
  intro u t
  have hu : Frame [] (bits [Fld.MSIX_CTRL_MASK v]) s u := frame_put _ _ (covers_of_fits (by simp) rfl)
  have hmask : u.flag (Fld.MSIX_CTRL_MASK v) = false := flag_putB_self _ _ rfl rfl
  have hoff : (Fld.MSIX_PBA_PENDING (v / 32)).off ≠ (Fld.MSIX_CTRL_MASK v).off := by
    simp only [Fld.MSIX_PBA_PENDING, Fld.MSIX_CTRL_MASK, Reg.MSIX_PBA, Reg.MSIX_CTRL]; omega
  have hpend : pendingBit u v = pendingBit s v := by simp only [pendingBit, State.bitF, u, State.putB, get_put_apart s _ rfl (apart_of_off hoff)]
  have hheld : heldBack u v = pendingBit s v := by rw [heldBack, hpend, hmask, Bool.not_false, Bool.and_true]
  have hdma : u.canDma = s.canDma := by
    refine canDma_of_frame hu (by simp) fun f hf b _ ⟨g, hg, ho, _⟩ => ?_
    have hlow : ∀ f ∈ dmaFields, f.off < 0x28000 ∨ 0x29000 ≤ f.off := by decide
    have hf := hlow f hf
    rw [← ho, List.mem_singleton.1 hg] at hf
    simp only [Fld.MSIX_CTRL_MASK, Reg.MSIX_CTRL] at hf
    omega
  have hflush := frame_pbaFlush u hv
  refine ⟨(mask_of_pba hflush hv).trans hmask, fun hp hd => ?_, fun h => pbaFlush_self (h.symm.imp hdma.trans hheld.trans),
    frame_trans (frame_mono hu (by simp) fun _ _ h => .inr h) (frame_mono hflush (fun _ h => h) fun _ _ h => .inl h)⟩
  obtain ⟨hmsix, hclear, -, -⟩ := pbaFlush_meets hv (hdma.trans hd)
  exact ⟨hmsix.trans (by rw [hheld, if_pos hp]; rfl), hclear (hheld.trans hp)⟩

/-- Settles O22: a record's way to the host, the message of a CQ, and that of a vector just unmasked. -/
theorem recordsAndMessages : Obligations.RecordsAndMessages := by
  unfold Obligations.RecordsAndMessages
  refine ⟨fun s r q hrun hd hq hat => ?_, fun s n hrun => ?_, fun s v hrun hs => ?_⟩
  · obtain ⟨m, hm, hexec⟩ := exec_recordWrite hrun hd hq hat
    have hplaced := frame_recordPlaced s q m
    have hrest := frame_recordWritten_placed s r q m
    obtain ⟨htail, hphase, hadv⟩ := tailAdvanced_meets (recordPlaced s q m) r
    have hless : s.get (Fld.SQ_STATUS_INFLIGHT r.sq) - 1 < 2 ^ 8 := (Nat.sub_le _ 1).trans_lt (get_lt s _)
    have hsq : Reg.SQ_STATUS r.sq ≠ Reg.CQ_TAIL r.cq := by simp only [Reg.CQ_TAIL, Reg.SQ_STATUS]; omega
    have hinflight : (tailAdvanced (recordPlaced s q m) r).get (Fld.SQ_STATUS_INFLIGHT r.sq) = s.get (Fld.SQ_STATUS_INFLIGHT r.sq) :=
      get_of_frame_bits hadv (by simpa using ⟨apart_of_off (g := Fld.CQ_TAIL_TAIL r.cq) hsq, apart_of_off (g := Fld.CQ_TAIL_PHASE r.cq) hsq⟩)
    refine ⟨_, hexec, (hrest.2 .hostMem (by simp)).trans hm, hrest.2 .recs (by simp), (get_recordReported _ r rfl).trans htail,
      (get_recordReported _ r rfl).trans hphase, ?_, frame_trans (frame_mono hplaced (by simp) ?_) (frame_mono hrest (by simp) fun _ _ h => h)⟩
    · refine (inflight_recordReported _ r).trans ((get_put_self _ _ rfl).trans ?_)
      rw [hinflight]
      exact Nat.mod_eq_of_lt hless
    · exact fun o b ⟨f, hf, _⟩ => absurd hf List.not_mem_nil
  · rw [exec_cqModerationTimeout hrun]
    obtain ⟨hcounted, hsent⟩ := cqMessage_meets s n
    exact ⟨fun h => by rw [if_pos h], fun h => ⟨_, by rw [if_neg h], hcounted, hsent, frame_cqMessage s n⟩⟩
  · obtain ⟨hmask, hsent, hself, hframe⟩ := unmask_meets s v.isLt
    refine ⟨_, exec_msixUnmask hrun hs, hmask, hsent, fun h => ?_, hframe⟩
    rw [hself h]
    exact frame_put _ _ (covers_of_fits (by simp) rfl)

end Sys2Proof.Proofs
end

section
/-!
PROOF. Fetch and dispatch (O21: R74, R81 to R83, R85, R91, R115, R116).
-/

namespace Sys2Proof.Proofs
open Sys2Proof Sys2Proof.Machine Sys2Proof.Safety Sys2Proof.Laws

/-! ### The SQ that arbitration names (R81) -/

/-- The SQ served next is one of the 64, and can be fetched from. -/
theorem nextSq_fetchable {s : State} {n : Nat} (h : s.nextSq = some n) : n < 64 ∧ s.fetchable n = true := by
  obtain ⟨p, -, hp⟩ := List.exists_of_findSome?_eq_some h
  have hfetch := List.find?_some hp
  obtain ⟨i, -, rfl⟩ := List.mem_map.1 (List.mem_of_find?_eq_some hp)
  exact ⟨Nat.mod_lt _ (by decide), (Bool.and_eq_true_iff.1 hfetch).1⟩

/-! ### One entry (R85) -/

section
variable (s : State) (n : Nat) (raw : List Byte)

/-- The descriptor that an entry of SQ `n` makes. -/
def fetchedDesc : Desc := ⟨n, s.get (Fld.SQ_CFG_CQ n), slice raw 0 64, .ready, s.cyc, 0, false, false, 0, 0, [], 0⟩

/-- The head has passed the entry, and the two counts have followed (R72 to R74). -/
def entryTaken : State :=
  let u := s.put (Fld.SQ_HEAD_HEAD n) ((s.get (Fld.SQ_HEAD_HEAD n) + 1) % s.sqSize n)
  (u.incWrap (Fld.SQ_STATUS_INFLIGHT n)).put (Fld.CQ_STATUS_FREE (s.get (Fld.SQ_CFG_CQ n)))
    (u.get (Fld.CQ_STATUS_FREE (s.get (Fld.SQ_CFG_CQ n))) - 1)

/-- Its descriptor is in flight, and the next number is expected (R85). -/
def entryNumbered : State :=
  let u := entryTaken s n
  (({ u with ring := { u.ring with flight := u.ring.flight ++ [fetchedDesc s n raw] } } : State).ringStatus n
    (s.get (Fld.SQ_CFG_CQ n))).incWrap (Fld.SQ_SEQ_NEXT n)

/-- A good entry joins the descriptors in flight, waiting where it waits on fences (R85, R115). -/
def entryJoined : State :=
  let d := fetchedDesc s n raw
  if d.wait then (entryNumbered s n raw).setDesc d { d with stage := .waiting } else entryNumbered s n raw

end

/-- Which units are ready is read off GLB_READY. -/
theorem unitReady_of_get {s t : State} (h : t.get Fld.GLB_READY_READY = s.get Fld.GLB_READY_READY) (raw : List Byte) :
    t.unitReady raw = s.unitReady raw := by
  have hbit (i : Nat) : t.ready i = s.ready i := by simp only [State.ready, State.bitF, h]
  simp only [State.unitReady, hbit]

/-- The words of an SQ and a CQ are different words. -/
theorem ringWords_ne {n : Nat} (hn : n < 64) (cq : Nat) :
    (Reg.SQ_HEAD n ≠ Reg.SQ_SEQ n ∧ Reg.SQ_HEAD n ≠ Reg.SQ_STATUS n ∧ Reg.SQ_SEQ n ≠ Reg.SQ_STATUS n) ∧
    Reg.SQ_HEAD n ≠ Reg.CQ_STATUS cq ∧ Reg.SQ_SEQ n ≠ Reg.CQ_STATUS cq ∧ Reg.SQ_STATUS n ≠ Reg.CQ_STATUS cq := by
  simp only [Reg.SQ_HEAD, Reg.SQ_SEQ, Reg.SQ_STATUS, Reg.CQ_STATUS]
  omega

section
variable (s : State) (n : Nat) (raw : List Byte)

theorem frame_entryTaken : Frame [] (bits [Fld.SQ_HEAD_HEAD n, Fld.SQ_STATUS_INFLIGHT n, Fld.CQ_STATUS_FREE (s.get (Fld.SQ_CFG_CQ n))]) s
    (entryTaken s n) := by
  refine frame_then_put (frame_then_incWrap (frame_put _ _ ?_) _ _ ?_) _ _ ?_ <;> exact covers_of_fits (by simp) rfl

/-- The head and the counts once an entry is taken (R72 to R74). -/
theorem entryTaken_meets (hn : n < 64) (hfew : s.get (Fld.SQ_STATUS_INFLIGHT n) < 32) :
    let t := entryTaken s n
    t.get (Fld.SQ_HEAD_HEAD n) = (s.get (Fld.SQ_HEAD_HEAD n) + 1) % s.sqSize n % 2 ^ 16 ∧
    t.get (Fld.SQ_STATUS_INFLIGHT n) = s.get (Fld.SQ_STATUS_INFLIGHT n) + 1 ∧
    t.get (Fld.CQ_STATUS_FREE (s.get (Fld.SQ_CFG_CQ n))) = s.get (Fld.CQ_STATUS_FREE (s.get (Fld.SQ_CFG_CQ n))) - 1 := by
  unfold entryTaken
  generalize s.get (Fld.SQ_CFG_CQ n) = cq
  generalize (s.get (Fld.SQ_HEAD_HEAD n) + 1) % s.sqSize n = head
  obtain ⟨⟨-, hhs, -⟩, hhc, -, hsc⟩ := ringWords_ne hn cq
  let u := s.put (Fld.SQ_HEAD_HEAD n) head
  have hinfl : u.get (Fld.SQ_STATUS_INFLIGHT n) = s.get (Fld.SQ_STATUS_INFLIGHT n) :=
    get_put_apart s _ rfl (apart_of_off (f := Fld.SQ_STATUS_INFLIGHT n) (g := Fld.SQ_HEAD_HEAD n) hhs.symm)
  have hfree : u.get (Fld.CQ_STATUS_FREE cq) = s.get (Fld.CQ_STATUS_FREE cq) :=
    get_put_apart s _ rfl (apart_of_off (f := Fld.CQ_STATUS_FREE cq) (g := Fld.SQ_HEAD_HEAD n) hhc.symm)
  refine ⟨?_, ?_, ?_⟩
  · exact (get_put_apart _ _ rfl (apart_of_off (f := Fld.SQ_HEAD_HEAD n) (g := Fld.CQ_STATUS_FREE cq) hhc)).trans
      ((get_put_apart u _ rfl (apart_of_off (f := Fld.SQ_HEAD_HEAD n) (g := Fld.SQ_STATUS_INFLIGHT n) hhs)).trans (get_put_self s _ rfl))
  · refine (get_put_apart _ _ rfl (apart_of_off (f := Fld.SQ_STATUS_INFLIGHT n) (g := Fld.CQ_STATUS_FREE cq) hsc)).trans
      ((get_incWrap_self u rfl).trans ?_)
    rw [hinfl]
    exact Nat.mod_eq_of_lt (show s.get (Fld.SQ_STATUS_INFLIGHT n) + 1 < 2 ^ 8 by omega)
  · refine (get_put_self _ _ rfl).trans ?_
    rw [hfree]
    exact Nat.mod_eq_of_lt (show s.get (Fld.CQ_STATUS_FREE cq) - 1 < 2 ^ 16 from (Nat.sub_le _ 1).trans_lt (get_lt s _))

/-- What follows once the entry is taken: the number of the next, the ACTIVE bits, the descriptor. -/
def numberedFields : List Field := [Fld.SQ_SEQ_NEXT n, Fld.SQ_STATUS_ACTIVE n, Fld.CQ_STATUS_ACTIVE (s.get (Fld.SQ_CFG_CQ n))]

theorem frame_entryNumbered : Frame [.flight] (bits (numberedFields s n)) (entryTaken s n) (entryNumbered s n raw) :=
  frame_then_incWrap (frame_trans (frame_flight _ (by simp)) (frame_bits_mono (frame_ringStatus _ n _) (by simp)
    (List.subset_cons_self _ _))) _ _ (covers_of_fits (by simp) rfl)

theorem frame_entryJoined : Frame [.flight] (bits (numberedFields s n)) (entryTaken s n) (entryJoined s n raw) :=
  frame_ite_right (frame_entryNumbered s n raw) fun _ => frame_setDesc _ _ (by simp)

/-- What a good entry changes: its ring's head, number and counts, the ACTIVE bits, the descriptors in flight. -/
theorem frame_fetched {cq : Nat} (h : s.get (Fld.SQ_CFG_CQ n) = cq) :
    Frame [.flight] (bits [Fld.SQ_HEAD_HEAD n, Fld.SQ_STATUS_INFLIGHT n, Fld.SQ_SEQ_NEXT n, Fld.CQ_STATUS_FREE cq,
      Fld.SQ_STATUS_ACTIVE n, Fld.CQ_STATUS_ACTIVE cq]) s (entryJoined s n raw) := by
  subst h
  exact frame_trans (frame_bits_mono (frame_entryTaken s n) (by simp) (by simp))
    (frame_bits_mono (frame_entryJoined s n raw) (by simp) (by simp [numberedFields]))

/-- GLB_READY is none of the words that an entry changes. -/
theorem ready_entryNumbered : (entryNumbered s n raw).get Fld.GLB_READY_READY = s.get Fld.GLB_READY_READY := by
  have hlow {f : Field} (h : 0x20000 ≤ f.off) : apart Fld.GLB_READY_READY f = true :=
    apart_of_off (by simp only [Fld.GLB_READY_READY, Reg.GLB_READY]; omega)
  refine (get_of_frame_bits (frame_entryNumbered s n raw) fun f hf => hlow ?_).trans
    (get_of_frame_bits (frame_entryTaken s n) fun f hf => hlow ?_)
  · simp only [numberedFields, List.mem_cons, List.not_mem_nil, or_false] at hf
    rcases hf with rfl | rfl | rfl <;> exact Nat.le_add_right_of_le (by decide)
  · simp only [List.mem_cons, List.not_mem_nil, or_false] at hf
    rcases hf with rfl | rfl | rfl <;> exact Nat.le_add_right_of_le (by decide)

theorem flight_entryJoined (h : fetchedDesc s n raw ∉ s.ring.flight) : (entryJoined s n raw).ring.flight =
    s.ring.flight ++ [{ fetchedDesc s n raw with stage := if (fetchedDesc s n raw).wait then .waiting else .ready }] := by
  unfold entryJoined entryNumbered
  dsimp only
  cases hw : (fetchedDesc s n raw).wait with
  | false => rfl
  | true =>
    have hkeep : s.ring.flight.map (fun x => if x = fetchedDesc s n raw then { fetchedDesc s n raw with stage := .waiting } else x) =
        s.ring.flight := (List.map_congr_left fun x hx => if_neg fun e => h (by rwa [← e])).trans (List.map_id _)
    refine (List.map_append (l₁ := s.ring.flight)).trans ?_
    rw [hkeep]
    simp

theorem entryJoined_meets (hn : n < 64) (hfew : s.get (Fld.SQ_STATUS_INFLIGHT n) < 32) :
    let cq := s.get (Fld.SQ_CFG_CQ n)
    let t := entryJoined s n raw
    t.get (Fld.SQ_HEAD_HEAD n) = (s.get (Fld.SQ_HEAD_HEAD n) + 1) % s.sqSize n % 2 ^ 16 ∧
    t.get (Fld.SQ_SEQ_NEXT n) = (s.get (Fld.SQ_SEQ_NEXT n) + 1) % 2 ^ 16 ∧
    t.get (Fld.SQ_STATUS_INFLIGHT n) = s.get (Fld.SQ_STATUS_INFLIGHT n) + 1 ∧
    t.get (Fld.CQ_STATUS_FREE cq) = s.get (Fld.CQ_STATUS_FREE cq) - 1 := by
  intro cq t
  obtain ⟨hhead, hinfl, hfree⟩ := entryTaken_meets s n hn hfew
  obtain ⟨⟨hhq, hhs, hqs⟩, hhc, hqc, hsc⟩ := ringWords_ne hn cq
  have hkeep {f : Field} (h1 : apart f (Fld.SQ_SEQ_NEXT n) = true) (h2 : apart f (Fld.SQ_STATUS_ACTIVE n) = true)
      (h3 : apart f (Fld.CQ_STATUS_ACTIVE cq) = true) : t.get f = (entryTaken s n).get f :=
    get_of_frame_bits (frame_entryJoined s n raw) (by simpa [numberedFields, h1, h2] using h3)
  refine ⟨(hkeep ?_ ?_ ?_).trans hhead, ?_, (hkeep ?_ rfl rfl).trans hinfl, (hkeep ?_ rfl rfl).trans hfree⟩
  · exact apart_of_off hhq
  · exact apart_of_off hhs
  · exact apart_of_off hhc
  · let u : State := { entryTaken s n with
      ring := { (entryTaken s n).ring with flight := (entryTaken s n).ring.flight ++ [fetchedDesc s n raw] } }
    have hseq : (u.ringStatus n cq).get (Fld.SQ_SEQ_NEXT n) = s.get (Fld.SQ_SEQ_NEXT n) := by
      refine (get_of_frame_bits (frame_ringStatus u n cq) ?_).trans (get_of_frame_bits (frame_entryTaken s n) ?_)
      · simpa using ⟨apart_of_off (f := Fld.SQ_SEQ_NEXT n) (g := Fld.SQ_STATUS_ACTIVE n) hqs,
          apart_of_off (f := Fld.SQ_SEQ_NEXT n) (g := Fld.CQ_STATUS_ACTIVE cq) hqc⟩
      · simpa using ⟨apart_of_off (f := Fld.SQ_SEQ_NEXT n) (g := Fld.SQ_HEAD_HEAD n) hhq.symm,
          apart_of_off (f := Fld.SQ_SEQ_NEXT n) (g := Fld.SQ_STATUS_INFLIGHT n) hqs,
          apart_of_off (f := Fld.SQ_SEQ_NEXT n) (g := Fld.CQ_STATUS_FREE cq) hqc⟩
    have hnext := get_incWrap_self (u.ringStatus n cq) (f := Fld.SQ_SEQ_NEXT n) rfl
    rw [hseq] at hnext
    refine Eq.trans ?_ hnext
    simp only [t, entryJoined, entryNumbered]
    split <;> rfl
  · exact apart_of_off hqs.symm
  · exact apart_of_off hqc.symm

end

section
variable {s : State} {n : Nat} {raw : List Byte}

/-- An entry with the expected number and well-formed fields whose unit is ready, and which no abort is held for. -/
theorem fetchOne_good (hheld : s.heldIs n (s.get (Fld.SQ_SEQ_NEXT n)) = false)
    (hseq : (fetchedDesc s n raw).seq = s.get (Fld.SQ_SEQ_NEXT n)) (hhead : headerBad (slice raw 0 64) = none)
    (hpay : payloadBad (slice raw 0 64) = none) (hready : s.unitReady (slice raw 0 64) = true) :
    fetchOne s n raw = entryJoined s n raw := by
  unfold fetchOne
  extract_lets cq exp raw' d s1 s2 held s3 s4 s5 s6 s7 s8
  have hfree : held = false := hheld
  have htaken : s4 = entryTaken s n := if_neg (by simp [hfree])
  have hnumbered : s8 = entryNumbered s n raw := by simp only [s8, s7, s6, s5, htaken]; rfl
  have hunit : s8.unitReady raw' = true := by
    rw [hnumbered, unitReady_of_get (ready_entryNumbered s n raw)]
    exact hready
  rw [if_neg (show ¬ d.seq ≠ exp from not_not.2 hseq), if_neg (by simp [hfree]), show headerBad raw' = none from hhead,
    show payloadBad raw' = none from hpay]
  dsimp only
  rw [if_neg (by simp [hunit]), hnumbered]
  rfl

end

/-- A read that gives one entry of an SQ that can be fetched from. -/
theorem fetchMany_one {s : State} {n : Nat} (h : s.fetchable n = true) (raw : List Byte) :
    fetchMany s n ([raw].take 8) = fetchOne s n raw := if_pos h

/-! ### Dispatch (R82, R83, R116) -/

/-- The descriptors of the same SQ that were fetched before `d`. -/
def earlierOf (s : State) (d : Desc) : List Desc := (s.ring.flight.takeWhile (· ≠ d)).filter (·.sq = d.sq)

theorem mayGo_iff (s : State) (d : Desc) : s.mayGo d = true ↔ (d.barrier = true → earlierOf s d = []) ∧ ∀ e ∈ earlierOf s d,
    e.stage ≠ .ready ∧ ¬ (e.stage = .waiting ∧ unitOf e.opcode = unitOf d.opcode) ∧ ¬ (e.barrier = true ∧ e.stage ≠ .active) := by
  cases hb : d.barrier <;> simp [State.mayGo, earlierOf, hb, and_assoc]

/-! ### The commands -/

/-- SQ `n` has been served at its priority (R81). -/
def servedSq (s : State) (n : Nat) : State :=
  { s with ring := { s.ring with rr := sset 0 s.ring.rr (s.get (Fld.SQ_CFG_PRIO n)) ((n + 1) % 64) } }

theorem get_servedSq (s : State) (n : Nat) (f : Field) : (servedSq s n).get f = s.get f := rfl

theorem frame_servedSq (s : State) (n : Nat) (p : Bits) : Frame [.flight, .ring] p s (servedSq s n) :=
  frame_part .ring (by simp) rfl fun r hr => by cases r <;> first | exact absurd rfl hr | simp [Part.same, servedSq]

section
variable {s : State} (hrun : s.pwr.hold = .running)
include hrun

theorem exec_descriptorFetch {n : Nat} (hd : s.canDma = true) (hr : s.ready 1 = true) (hn : s.nextSq = some n) (read : FetchRead) :
    exec (.descriptorFetch read) s = .next (match read with
      | .entries l => fetchMany (servedSq s n) n (l.take 8)
      | .failed => (servedSq s n).sqHalt n 4
      | .cut => servedSq s n) := by
  show execDescriptorFetch read s = _
  rw [execDescriptorFetch, act_running s _ hrun]
  simp only [hd, hr, hn, Bool.and_self, Bool.not_true, Bool.false_eq_true, if_false]
  cases read <;> rfl

theorem exec_descriptorDispatch {sq : Fin 64} {seq : BitVec 16} {d : Desc} (h : s.findDesc sq seq.toNat = some d) :
    exec (.descriptorDispatch sq seq) s = .next (if d.stage = .ready ∧ s.mayGo d = true ∧ s.halted = false then
      { s.setDesc d { d with stage := .dispatched, order := s.ring.sent + 1 } with
        ring.sent := s.ring.sent + 1 } else s) := by
  show execDescriptorDispatch sq seq s = _
  rw [execDescriptorDispatch, act_running s _ hrun]
  simp only [h, Bool.and_eq_true, decide_eq_true_eq, Bool.not_eq_true', and_assoc]

end

/-- What one good entry of the SQ served changes. -/
theorem frame_servedEntry {s : State} {n cq : Nat} (h : s.get (Fld.SQ_CFG_CQ n) = cq) (raw : List Byte) :
    Frame [.flight, .ring] (bits [Fld.SQ_HEAD_HEAD n, Fld.SQ_STATUS_INFLIGHT n, Fld.SQ_SEQ_NEXT n, Fld.CQ_STATUS_FREE cq,
      Fld.SQ_STATUS_ACTIVE n, Fld.CQ_STATUS_ACTIVE cq]) s (entryJoined (servedSq s n) n raw) := by
  have hserved := frame_servedSq s n (bits [Fld.SQ_HEAD_HEAD n, Fld.SQ_STATUS_INFLIGHT n, Fld.SQ_SEQ_NEXT n, Fld.CQ_STATUS_FREE cq,
      Fld.SQ_STATUS_ACTIVE n, Fld.CQ_STATUS_ACTIVE cq])
  have hcq : (servedSq s n).get (Fld.SQ_CFG_CQ n) = cq := h
  generalize servedSq s n = u at hserved hcq ⊢
  exact frame_trans hserved (frame_bits_mono (frame_fetched u n raw hcq) (by simp) (List.Subset.refl _))

/-- Settles O21: what a fetch reads, one good entry, and a dispatch. -/
theorem fetchAndDispatch : Obligations.FetchAndDispatch := by
  unfold Obligations.FetchAndDispatch
  intro s hrun
  refine ⟨fun n hd hr hn => ⟨fun l => exec_descriptorFetch hrun hd hr hn (.entries l), exec_descriptorFetch hrun hd hr hn .failed,
    exec_descriptorFetch hrun hd hr hn .cut, fun raw hflight hheld hseq hhead hpay hunit => ?_⟩, fun sq seq d hfind => ?_⟩
  · obtain ⟨hlt, hfetch⟩ := nextSq_fetchable hn
    have hfew : s.get (Fld.SQ_STATUS_INFLIGHT n) < 32 := of_decide_eq_true (Bool.and_eq_true_iff.1 hfetch).2
    obtain ⟨hhead', hseq', hinfl, hfree⟩ := entryJoined_meets (servedSq s n) n raw hlt hfew
    have hone : fetchMany (servedSq s n) n ([raw].take 8) = entryJoined (servedSq s n) n raw :=
      (fetchMany_one (s := servedSq s n) hfetch raw).trans (fetchOne_good hheld hseq hhead hpay hunit)
    have hexec := exec_descriptorFetch hrun hd hr hn (.entries [raw])
    dsimp only at hexec
    rw [hone] at hexec
    refine ⟨_, hexec,
      flight_entryJoined (servedSq s n) n raw hflight, hhead', hseq', hinfl, hfree, ?_⟩
    exact frame_servedEntry rfl raw
  · rw [exec_descriptorDispatch hrun hfind]
    refine ⟨fun ⟨hstage, hhalt, hmay⟩ => ?_, fun hnot => ?_⟩
    · rw [if_pos ⟨hstage, (mayGo_iff s d).2 hmay, hhalt⟩]
    · rw [if_neg fun ⟨hstage, hmay, hhalt⟩ => hnot ⟨hstage, hhalt, (mayGo_iff s d).1 hmay⟩]

end Sys2Proof.Proofs
end

section
/-!
PROOF. The pending bits beyond the last vector (O8 fails). The word `Reg.MSIX_PBA k` of a `k` above 1 is no pending word: for
`k = 7180` it is FEN_IRQ_STATUS itself, so "no pending bit changes", said of every `k`, says that the status bit does not rise.
-/

namespace Sys2Proof.Proofs
open Sys2Proof Sys2Proof.Machine Sys2Proof.Safety Sys2Proof.Laws

/-- The pending word that would stand at FEN_IRQ_STATUS. -/
theorem msixPba_eq_fenIrqStatus : Reg.MSIX_PBA 7180 = Reg.FEN_IRQ_STATUS := rfl

theorem reset_fenIrqStatus : State.reset.reg Reg.FEN_IRQ_STATUS = 0 := by decide +kernel

theorem reset_fenIrqEnable : State.reset.reg (Reg.FEN_IRQ_STATUS + 4) = 0 := by decide +kernel

/-- Refutes O8: the machine at reset, bit 0 of FEN_IRQ_STATUS set by hardware under a clear enable. -/
theorem not_statusBitSendsMessage : ¬ Obligations.StatusBitSendsMessage := by
  unfold Obligations.StatusBitSendsMessage
  intro h
  obtain ⟨hset, hquiet, -⟩ := h State.reset Reg.FEN_IRQ_STATUS (by decide) 0 (by decide)
  have hdisabled : ¬ ((State.reset.reg (Reg.FEN_IRQ_STATUS + 4)).getLsbD 0 = true ∧
      (State.reset.reg Reg.FEN_IRQ_STATUS).getLsbD 0 = false) := by
    simp [reset_fenIrqEnable]
  have hsame := (hquiet hdisabled).2 7180
  rw [msixPba_eq_fenIrqStatus, reset_fenIrqStatus] at hsame
  rw [hsame] at hset
  exact absurd hset (by decide)

end Sys2Proof.Proofs
end

section
/-!
PROOF. Aborts, timeouts and failed retries (O24: R69, R89, R92 to R100, R117, R449).
-/

namespace Sys2Proof.Proofs
open Sys2Proof Sys2Proof.Machine Sys2Proof.Safety Sys2Proof.Laws

/-! ### What the commands latch (R92, R98 to R100) -/

theorem frame_latch1 {ps : List Part} (s : State) (l : Latch) (h : .ring ∈ ps) (p : Bits) : Frame ps p s (s.latch1 l) :=
  frame_part .ring h rfl fun r hr => by cases r <;> first | exact absurd rfl hr | simp [Part.same, State.latch1]

/-- An abort of a whole SQ disables it at once, with ERR = 3 (R100). -/
theorem ringAbortAll_meets (s : State) {n : Nat} (hn : n < 64) :
    let t := ringAbortAll s n
    t.flag (Fld.SQ_CFG_EN n) = false ∧ t.get (Fld.SQ_STATUS_ERR n) = 3 ∧ t.ring.latched = s.ring.latched ++ [.all n] ∧
    (s.get (Fld.SQ_STATUS_ERR n) = 0 → t.flag Fld.RING_IRQ_STATUS_SQ_ERR = true) ∧
    Frame [.ring, .msix] (orBits pba (bits [Fld.SQ_CFG_EN n, Fld.SQ_STATUS_ERR n, Fld.RING_IRQ_STATUS_SQ_ERR])) s t := by
  let u := s.putB (Fld.SQ_CFG_EN n) false
  have hoff : u.flag (Fld.SQ_CFG_EN n) = false := flag_putB_self _ _ rfl rfl
  have hcfg : Reg.SQ_CFG n ≠ Reg.SQ_STATUS n ∧ Reg.SQ_CFG n ≠ Reg.RING_IRQ_STATUS ∧
      (Reg.SQ_CFG n < 0x29000 ∨ 0x29010 ≤ Reg.SQ_CFG n) := by
    refine ⟨?_, ?_, ?_⟩ <;> simp only [Reg.SQ_CFG, Reg.SQ_STATUS, Reg.RING_IRQ_STATUS] <;> omega
  obtain ⟨hstatus, hirq, hout⟩ := hcfg
  have herr : u.get (Fld.SQ_STATUS_ERR n) = s.get (Fld.SQ_STATUS_ERR n) :=
    get_put_apart s _ rfl (apart_of_off (f := Fld.SQ_STATUS_ERR n) (g := Fld.SQ_CFG_EN n) hstatus.symm)
  obtain ⟨hcode, hframe⟩ := sqError_meets u n 3 (by decide)
  have hen : (u.sqError n 3).get (Fld.SQ_CFG_EN n) = u.get (Fld.SQ_CFG_EN n) := get_of_frame_pba hframe hout
    (by simpa using ⟨apart_of_off (f := Fld.SQ_CFG_EN n) (g := Fld.SQ_STATUS_ERR n) hstatus,
      apart_of_off (f := Fld.SQ_CFG_EN n) (g := Fld.RING_IRQ_STATUS_SQ_ERR) hirq⟩)
  obtain ⟨-, -, -, -, hlatched, -⟩ := hframe.2 .ring (by simp)
  refine ⟨(decide_eq_decide.2 (by rw [← hen]; rfl)).trans hoff, hcode, ?_, fun h => flag_sqError_irq (herr.trans h), ?_⟩
  · exact congrArg (· ++ [Latch.all n]) hlatched
  · refine frame_trans (frame_trans (frame_putB _ _ (covers_right _ (covers_of_fits (by simp) rfl))) (frame_mono hframe (by simp) ?_))
      (frame_latch1 _ _ (by simp) _)
    exact fun o b h => h.imp_right (bits_mono (List.subset_cons_self _ _) o b)

section
variable {s : State} (hrun : s.pwr.hold = .running) (n : Fin 64) (seq : BitVec 16)
include hrun

theorem exec_ringAbort (h : s.served Reg.RING_ABORT = true) :
    exec (.ringAbort n seq) s = .next (s.latch1 (.one n seq.toNat)) := by
  show execRingAbort n seq s = _
  rw [execRingAbort, act_running s _ hrun, if_pos h]
  rfl

theorem exec_ringAbortAll (h : s.served Reg.RING_ABORT = true) : exec (.ringAbortAll n) s = .next (ringAbortAll s n) := by
  show execRingAbortAll n s = _
  rw [execRingAbortAll, act_running s _ hrun, if_pos h]

/-- An expiry is latched outside a retry episode and a halt, once the deadline is past (R92, R93, R522). -/
theorem exec_descriptorTimeout {d : Desc} (h : s.findDesc n seq.toNat = some d) :
    exec (.descriptorTimeout n seq) s = .next
      (if d.timeout ≠ 0 ∧ d.episode = false ∧ s.halted = false ∧ d.fetchedAt + d.deadline ≤ s.cyc then
        s.latch1 (.expiry n seq.toNat)
      else s) := by
  show execDescriptorTimeout n seq s = _
  rw [execDescriptorTimeout, act_running s _ hrun]
  simp only [h, Bool.and_eq_true, decide_eq_true_eq, Bool.not_eq_true', and_assoc]

/-- A descriptor in a retry episode, or one that awaits external memory, stops with LINK_LOST (R69, R94, R449). -/
theorem exec_pcieRetriesExhausted {d : Desc} (h : s.findDesc n seq.toNat = some d) :
    exec (.pcieRetriesExhausted n seq) s = .next (if (d.episode = true ∧ d.opcode ≠ 0x0C) ∨ s.awaitsMemory d = true then
      serveNext (stopDesc s d stLinkLost true) else s) := by
  show execPcieRetriesExhausted n seq s = _
  rw [execPcieRetriesExhausted, act_running s _ hrun]
  simp only [h, Bool.or_eq_true, Bool.and_eq_true, decide_eq_true_eq]

end

/-! ### The status that stops a descriptor (R96, R97) -/

/-- A descriptor that no unit has begun completes with the status, and nothing else is undone. -/
theorem stopDesc_unbegun (s : State) {d : Desc} (h : d.stage ≠ .active) (status : Nat) (now : Bool) :
    stopDesc s d status now = s.complete d status (stopDetail d status) 0 := if_pos h

/-- An abort is latched that names a number of an SQ. -/
def abortNamed (s : State) (sq seq : Nat) : Prop := Latch.one sq seq ∈ s.ring.latched ∨ Latch.all sq ∈ s.ring.latched

theorem aborts_iff (l : Latch) (sq seq : Nat) : l.aborts sq seq = true ↔ l = .one sq seq ∨ l = .all sq := by
  cases l <;> simp [Latch.aborts]

theorem any_aborts_iff (s : State) (sq seq : Nat) : s.ring.latched.any (·.aborts sq seq) = true ↔ abortNamed s sq seq := by
  simp only [List.any_eq_true, aborts_iff, abortNamed]
  exact ⟨fun ⟨l, hl, h⟩ => h.imp (fun e => by rwa [← e]) (fun e => by rwa [← e]),
    fun h => h.elim (⟨_, ·, .inl rfl⟩) (⟨_, ·, .inr rfl⟩)⟩

/-- An abort wins over an expiry (R96). -/
theorem latchStatus_meets (s : State) (d : Desc) :
    (abortNamed s d.sq d.seq → s.latchStatus d = some stAborted) ∧
    (¬ abortNamed s d.sq d.seq → Latch.expiry d.sq d.seq ∈ s.ring.latched → s.latchStatus d = some stTimeout) ∧
    (¬ abortNamed s d.sq d.seq → Latch.expiry d.sq d.seq ∉ s.ring.latched → s.latchStatus d = none) := by
  rw [State.latchStatus, ← any_aborts_iff]
  refine ⟨fun h => if_pos h, fun h k => ?_, fun h k => ?_⟩
  · rw [if_neg h, if_pos (List.contains_iff_mem.2 k)]
  · rw [if_neg h, if_neg fun c => k (List.contains_iff_mem.1 c)]

/-! ### What is reported of an abort (R98 to R100, Table 3.11) -/

/-- The record of what `l` names is late, unless `l` has stopped its descriptor. -/
def lateBy (stopped : List (Nat × Nat)) (l : Latch) (r : Rec) : Bool := l.aborts r.sq r.seq && !stopped.contains (r.sq, r.seq)

/-- The records that an abort marks late. -/
def lateRecs (stopped : List (Nat × Nat)) (l : Latch) (recs : List Rec) : List Rec :=
  recs.map fun r => if lateBy stopped l r then { r with late := true } else r

/-- An abort is reported: its late records are marked, and it is the last one, not held. -/
def lateMarked (stopped : List (Nat × Nat)) (s : State) (l : Latch) : State :=
  { s with ring := { s.ring with recs := lateRecs stopped l s.ring.recs, lastHeld := none } }

section
variable (s : State)

/-- RING_ABORT_STS shows what it is given. -/
theorem abortStatus_meets {result : Nat} (matched : Nat) (held : Bool) (hr : result < 4) :
    let t := abortStatus s result matched held
    t.get Fld.RING_ABORT_STS_RESULT = result ∧ t.get Fld.RING_ABORT_STS_MATCHED = matched % 2 ^ 16 ∧
    t.flag Fld.RING_ABORT_STS_HELD = held ∧
    Frame [] (bits [Fld.RING_ABORT_STS_RESULT, Fld.RING_ABORT_STS_MATCHED, Fld.RING_ABORT_STS_HELD]) s t := by
  refine ⟨?_, ?_, flag_putB_self _ _ rfl rfl, ?_⟩
  · exact (get_put_apart _ _ rfl rfl).trans ((get_put_apart _ _ rfl rfl).trans ((get_put_self _ _ rfl).trans (Nat.mod_eq_of_lt hr)))
  · exact (get_put_apart _ _ rfl rfl).trans (get_put_self _ _ rfl)
  · exact frame_then_putB (frame_then_put (frame_put _ _ (covers_of_fits (by simp) rfl)) _ _ (covers_of_fits (by simp) rfl)) _ _
      (covers_of_fits (by simp) rfl)

variable (stopped : List (Nat × Nat))

theorem abortReport_all (n : Nat) :
    let count := (stopped.filter fun x => (Latch.all n).aborts x.1 x.2).length + (s.ring.recs.filter (lateBy stopped (.all n))).length
    abortReport stopped s (.all n) = abortStatus ((lateMarked stopped s (.all n)).ringStatus n (s.get (Fld.SQ_CFG_CQ n)))
      (if count = 0 then 3 else 1) count false := rfl

theorem frame_lateMarked (l : Latch) (p : Bits) : Frame [.ring, .recs] p s (lateMarked stopped s l) :=
  ⟨fun _ _ _ => rfl, fun q hq => by cases q <;> simp_all [Part.same, lateMarked]⟩

/-- An abort of a number not fetched yet is held (R99). -/
def heldFor (s : State) (n seq : Nat) : State :=
  { s with ring := { s.ring with held := (n, seq) :: s.ring.held.filter fun h => h.1 ≠ n, lastHeld := some (n, seq) } }

theorem frame_heldFor (n seq : Nat) (p : Bits) : Frame [.ring, .recs] p s (heldFor s n seq) :=
  frame_part .ring (by simp) rfl fun r hr => by cases r <;> first | exact absurd rfl hr | simp [Part.same, heldFor]

theorem heldIs_heldFor (n seq : Nat) : (heldFor s n seq).heldIs n seq = true := by simp [State.heldIs, heldFor]

/-- A record of the descriptor with that number is queued. -/
def pastOf (s : State) (n seq : Nat) : Prop := ∃ r ∈ s.ring.recs, r.sq = n ∧ r.seq = seq

theorem lateBy_one_iff (n seq : Nat) (r : Rec) :
    lateBy stopped (.one n seq) r = true ↔ (n, seq) ∉ stopped ∧ r.sq = n ∧ r.seq = seq := by
  simp only [lateBy, Bool.and_eq_true, aborts_iff, Bool.not_eq_true', List.contains_eq_mem, decide_eq_false_iff_not, reduceCtorEq,
    or_false, Latch.one.injEq]
  exact ⟨fun ⟨⟨h, k⟩, hs⟩ => ⟨by rwa [h, k], h.symm, k.symm⟩, fun ⟨hs, h, k⟩ => ⟨⟨h.symm, k.symm⟩, by rwa [h, k]⟩⟩

section
variable {s stopped} {n seq : Nat}

theorem hits_one_iff : (stopped.filter fun x => (Latch.one n seq).aborts x.1 x.2).length ≠ 0 ↔ (n, seq) ∈ stopped := by
  rw [← Nat.pos_iff_ne_zero, List.length_filter_pos_iff]
  simp only [aborts_iff, reduceCtorEq, or_false, Latch.one.injEq, Prod.exists]
  exact ⟨fun ⟨_, _, h, e, k⟩ => e ▸ k ▸ h, fun h => ⟨_, _, h, rfl, rfl⟩⟩

theorem lates_one_iff (h : (n, seq) ∉ stopped) : (s.ring.recs.filter (lateBy stopped (.one n seq))).length ≠ 0 ↔ pastOf s n seq := by
  rw [← Nat.pos_iff_ne_zero, List.length_filter_pos_iff]
  simp only [lateBy_one_iff, pastOf, h, not_false_eq_true, true_and]

/-- An abort that stopped its descriptor (Table 3.11). -/
theorem abortReport_stopped (h : (n, seq) ∈ stopped) :
    abortReport stopped s (.one n seq) = abortStatus (lateMarked stopped s (.one n seq)) 1 1 false := if_pos (hits_one_iff.2 h)

/-- An abort whose descriptor was past its point of no return. -/
theorem abortReport_past (h : (n, seq) ∉ stopped) (k : pastOf s n seq) :
    abortReport stopped s (.one n seq) = abortStatus (lateMarked stopped s (.one n seq)) 2 1 false :=
  (if_neg fun c => h (hits_one_iff.1 c)).trans (if_pos ((lates_one_iff h).2 k))

/-- An abort of neither: it is held where the number is not fetched yet, and names nothing else. -/
theorem abortReport_other (h : (n, seq) ∉ stopped) (k : ¬ pastOf s n seq) : abortReport stopped s (.one n seq) =
    if (seq + 2 ^ 16 - s.get (Fld.SQ_SEQ_NEXT n)) % 2 ^ 16 < s.sqCount n then
      abortStatus (heldFor (lateMarked stopped s (.one n seq)) n seq) 0 0 true
    else abortStatus (lateMarked stopped s (.one n seq)) 3 0 false :=
  (if_neg fun c => h (hits_one_iff.1 c)).trans (if_neg fun c => k ((lates_one_iff h).1 c))

/-- What is late has the number of the abort; all of it is. -/
theorem late_of_mem (h : (n, seq) ∉ stopped) {r : Rec} (hr : r ∈ lateRecs stopped (.one n seq) s.ring.recs) (hsq : r.sq = n)
    (hseq : r.seq = seq) : r.late = true := by
  obtain ⟨x, -, rfl⟩ := List.mem_map.1 hr
  by_cases hx : lateBy stopped (.one n seq) x = true
  · rw [if_pos hx]
  · rw [if_neg hx] at hsq hseq
    exact absurd ((lateBy_one_iff stopped n seq x).2 ⟨h, hsq, hseq⟩) hx

theorem lateRecs_none (k : ¬ pastOf s n seq) : lateRecs stopped (.one n seq) s.ring.recs = s.ring.recs := by
  refine (List.map_congr_left fun r hr => if_neg fun c => k ⟨r, hr, ?_⟩).trans (List.map_id _)
  exact ((lateBy_one_iff stopped n seq r).1 c).2

end

/-- The fields of RING_ABORT_STS. -/
def abortFields : List Field := [Fld.RING_ABORT_STS_RESULT, Fld.RING_ABORT_STS_MATCHED, Fld.RING_ABORT_STS_HELD]

theorem frame_abortReport_one (n seq : Nat) : Frame [.ring, .recs] (bits abortFields) s (abortReport stopped s (.one n seq)) := by
  have hmarked := frame_lateMarked s stopped (.one n seq) (bits abortFields)
  have hstatus (u : State) {result : Nat} (matched : Nat) (held : Bool) (hr : result < 4) :
      Frame [.ring, .recs] (bits abortFields) u (abortStatus u result matched held) :=
    frame_bits_mono (abortStatus_meets u matched held hr).2.2.2 (by simp) (List.Subset.refl _)
  by_cases hstop : (n, seq) ∈ stopped
  · rw [abortReport_stopped hstop]
    exact frame_trans hmarked (hstatus _ _ _ (by decide))
  by_cases hpast : pastOf s n seq
  · rw [abortReport_past hstop hpast]
    exact frame_trans hmarked (hstatus _ _ _ (by decide))
  rw [abortReport_other hstop hpast]
  exact frame_ite (fun _ => frame_trans hmarked (frame_trans (frame_heldFor _ n seq _) (hstatus _ _ _ (by decide))))
    fun _ => frame_trans hmarked (hstatus _ _ _ (by decide))

/-- What the abort of one number reports (R98, R99). -/
theorem abortReport_one_meets (n seq : Nat) :
    let t := abortReport stopped s (.one n seq)
    let ahead := (seq + 2 ^ 16 - s.get (Fld.SQ_SEQ_NEXT n)) % 2 ^ 16 < s.sqCount n
    ((n, seq) ∈ stopped → t.get Fld.RING_ABORT_STS_RESULT = 1 ∧ t.flag Fld.RING_ABORT_STS_HELD = false) ∧
    ((n, seq) ∉ stopped → pastOf s n seq → t.get Fld.RING_ABORT_STS_RESULT = 2 ∧ t.get Fld.RING_ABORT_STS_MATCHED = 1 ∧
      ∀ r ∈ t.ring.recs, r.sq = n → r.seq = seq → r.late = true) ∧
    ((n, seq) ∉ stopped → ¬ pastOf s n seq → ahead → t.get Fld.RING_ABORT_STS_RESULT = 0 ∧ t.flag Fld.RING_ABORT_STS_HELD = true ∧
      t.heldIs n seq = true) ∧
    ((n, seq) ∉ stopped → ¬ pastOf s n seq → ¬ ahead → t.get Fld.RING_ABORT_STS_RESULT = 3 ∧ t.ring.recs = s.ring.recs) := by
  intro t ahead
  let m := lateMarked stopped s (.one n seq)
  refine ⟨fun h => ?_, fun h k => ?_, fun h k a => ?_, fun h k a => ?_⟩
  · obtain ⟨hres, -, hheld, -⟩ := abortStatus_meets m 1 false (show 1 < 4 by decide)
    rw [show t = _ from abortReport_stopped h]
    exact ⟨hres, hheld⟩
  · obtain ⟨hres, hmatched, -, -⟩ := abortStatus_meets m 1 false (show 2 < 4 by decide)
    rw [show t = _ from abortReport_past h k]
    exact ⟨hres, hmatched, fun r hr => late_of_mem h hr⟩
  · obtain ⟨hres, -, hheld, -⟩ := abortStatus_meets (heldFor m n seq) 0 true (show 0 < 4 by decide)
    rw [show t = _ from (abortReport_other h k).trans (if_pos a)]
    exact ⟨hres, hheld, heldIs_heldFor m n seq⟩
  · obtain ⟨hres, -, -, -⟩ := abortStatus_meets m 0 false (show 3 < 4 by decide)
    rw [show t = _ from (abortReport_other h k).trans (if_neg a)]
    exact ⟨hres, lateRecs_none k⟩

/-- What the abort of a whole SQ reports (R100). -/
theorem abortReport_all_meets (n : Nat) :
    let u := abortReport stopped s (.all n)
    let count := (stopped.filter fun x => x.1 = n).length +
      (s.ring.recs.filter fun r => r.sq = n && !stopped.contains (r.sq, r.seq)).length
    u.get Fld.RING_ABORT_STS_RESULT = (if count = 0 then 3 else 1) ∧ u.get Fld.RING_ABORT_STS_MATCHED = count % 2 ^ 16 ∧
    u.flag Fld.RING_ABORT_STS_HELD = false := by
  intro u count
  have hnames (q seq : Nat) : (Latch.all n).aborts q seq = decide (q = n) := decide_eq_decide.2 eq_comm
  have hlate : lateBy stopped (.all n) = fun r => decide (r.sq = n) && !stopped.contains (r.sq, r.seq) :=
    funext fun r => congrArg (· && _) (hnames r.sq r.seq)
  have hcount : (stopped.filter fun x => (Latch.all n).aborts x.1 x.2).length + (s.ring.recs.filter (lateBy stopped (.all n))).length =
      count := by
    simp only [count, hlate, hnames]
  have hreport := abortReport_all s stopped n
  dsimp only at hreport
  rw [hcount] at hreport
  obtain ⟨hres, hmatched, hheld, -⟩ := abortStatus_meets ((lateMarked stopped s (.all n)).ringStatus n (s.get (Fld.SQ_CFG_CQ n))) count
    false (show (if count = 0 then 3 else 1) < 4 by split <;> decide)
  rw [show u = _ from hreport]
  exact ⟨hres, hmatched, hheld⟩

end

/-- Settles O24: the three commands that latch, the two statuses of a stop, and the report of each kind of abort. -/
theorem abortsAndTimeouts : Obligations.AbortsAndTimeouts := by
  unfold Obligations.AbortsAndTimeouts
  intro s n seq hrun
  refine ⟨fun hserved => ⟨exec_ringAbort hrun n seq hserved, _, exec_ringAbortAll hrun n hserved, ringAbortAll_meets s n.isLt⟩,
    fun d hfind => ?_, fun d => ⟨fun h => ⟨?_, ?_, ?_⟩, latchStatus_meets s d⟩, fun stopped => ?_⟩
  · rw [exec_descriptorTimeout hrun n seq hfind, exec_pcieRetriesExhausted hrun n seq hfind]
    exact ⟨fun h => congrArg _ (if_pos h), fun h => congrArg _ (if_neg h), fun h => congrArg _ (if_pos h), fun h => congrArg _ (if_neg h)⟩
  · exact stopDesc_unbegun s h _ _
  · exact stopDesc_unbegun s h _ _
  · exact stopDesc_unbegun s h _ _
  · obtain ⟨hstopped, hpast, hahead, hnone⟩ := abortReport_one_meets s stopped n seq.toNat
    exact ⟨hstopped, hpast, hahead, hnone, frame_abortReport_one s stopped n seq.toNat, abortReport_all_meets s stopped n⟩

end Sys2Proof.Proofs
end

section
/-!
PROOF. Errors, scrubbing and temperature of external memory (O26: R93 to R95, R453, R455 to R459, R462, R518).
-/

namespace Sys2Proof.Proofs
open Sys2Proof Sys2Proof.Machine Sys2Proof.Safety Sys2Proof.Laws

/-! ### Frames of fields beside the pending bits -/

theorem frame_pba_mono {ps qs : List Part} {fs gs : List Field} {s t : State} (h : Frame ps (orBits pba (bits fs)) s t) (hp : ps ⊆ qs)
    (hf : fs ⊆ gs) : Frame qs (orBits pba (bits gs)) s t :=
  frame_mono h (fun _ h => hp h) fun o b h => h.imp_right (bits_mono hf o b)

theorem frame_pba_of_bits {ps qs : List Part} {fs gs : List Field} {s t : State} (h : Frame ps (bits fs) s t) (hp : ps ⊆ qs)
    (hf : fs ⊆ gs) : Frame qs (orBits pba (bits gs)) s t :=
  frame_mono h (fun _ h => hp h) fun o b h => .inr (bits_mono hf o b h)

/-- A flag reads 1 once hardware has set it. -/
theorem flag_setBit_self (s : State) {f : Field} (k : fits f = true) (h : f.hi = f.lo) : (s.setBit f 0).flag f = true := by
  have hbit := bitF_setBit_self s (i := 0) k (by omega)
  rwa [bitF_eq_getLsbD _ _ _ (by omega), Nat.add_zero, ← flag_eq_getLsbD _ _ h] at hbit

/-! ### The registers of an error (Table 19.3) -/

/-- MEM_ERRADDR names an address with its source. -/
def errNames (t : State) (a src : Nat) : Prop := t.get Fld.MEM_ERRADDR_LO_ADDR = a / 8 % 2 ^ 29 ∧
  t.get Fld.MEM_ERRADDR_HI_ADDR = a / 2 ^ 32 % 4 ∧ t.get Fld.MEM_ERRSRC_SRC = src ∧ t.flag Fld.MEM_ERRSRC_VALID = true

/-- The fields that do. -/
def errFields : List Field := [Fld.MEM_ERRADDR_LO_ADDR, Fld.MEM_ERRADDR_HI_ADDR, Fld.MEM_ERRSRC_SRC, Fld.MEM_ERRSRC_VALID]

theorem memErr_meets (s : State) (a : Nat) {src : Nat} (h : src < 8) :
    errNames (s.memErr a src) a src ∧ Frame [] (bits errFields) s (s.memErr a src) := by
  let u := (s.put Fld.MEM_ERRADDR_LO_ADDR (a / 8)).put Fld.MEM_ERRADDR_HI_ADDR (a / 2 ^ 32)
  let v := u.put Fld.MEM_ERRSRC_SRC src
  have hvalid : Frame [] (bits [Fld.MEM_ERRSRC_VALID]) v (s.memErr a src) := frame_setBit _ _ (covers_of_fits (by simp) rfl)
  have hkeep {f : Field} (hf : apart f Fld.MEM_ERRSRC_VALID = true) : (s.memErr a src).get f = v.get f :=
    get_of_frame_bits hvalid (by simpa using hf)
  refine ⟨⟨?_, ?_, ?_, ?_⟩, ?_⟩
  · exact (hkeep rfl).trans ((get_put_apart u _ rfl rfl).trans ((get_put_apart _ _ rfl rfl).trans (get_put_self s _ rfl)))
  · exact (hkeep rfl).trans ((get_put_apart u _ rfl rfl).trans (get_put_self _ _ rfl))
  · exact (hkeep rfl).trans ((get_put_self u _ rfl).trans (Nat.mod_eq_of_lt h))
  · exact flag_setBit_self v rfl rfl
  · refine frame_trans (frame_then_put (frame_then_put (frame_put _ _ ?_) _ _ ?_) _ _ ?_)
      (frame_bits_mono hvalid (by simp) (by simp [errFields]))
    all_goals exact covers_of_fits (by simp [errFields]) rfl

/-- An error is counted at `cnt`, its address recorded, and `irq` raised (R458, R459). -/
def errReported (s : State) (cnt irq : Field) (a src : Nat) : State := ((s.incSat cnt).memErr a src).irqF irq

/-- The two counters of uncorrectable errors, each with its interrupt. -/
def errCounters : List (Field × Field) :=
  [(Fld.MEM_CNT2_UNCORR, Fld.MEM_IRQ_STATUS_UNCORR), (Fld.MEM_CNT3_SCRUB_UNCORR, Fld.MEM_IRQ_STATUS_SCRUB_UNCORR)]

theorem errCounters_apart : ∀ p ∈ errCounters, fits p.1 = true ∧ fits p.2 = true ∧ p.1.width = 16 ∧ p.2.hi = p.2.lo ∧
    0x29010 ≤ p.1.off ∧ 0x29010 ≤ p.2.off ∧ p.2.lo < 32 ∧ apart p.1 p.2 = true ∧
    ∀ g ∈ errFields, apart p.1 g = true ∧ apart g p.2 = true := by decide

theorem errFields_outside : ∀ g ∈ errFields, g.off < 0x29000 ∨ 0x29010 ≤ g.off := by decide

theorem errReported_meets (s : State) {cnt irq : Field} (h : (cnt, irq) ∈ errCounters) (a : Nat) {src : Nat} (hs : src < 8) :
    let t := errReported s cnt irq a src
    t.get cnt = min 0xFFFF (s.get cnt + 1) ∧ t.flag irq = true ∧ errNames t a src ∧
    Frame [.msix] (orBits pba (bits (cnt :: irq :: errFields))) s t := by
  obtain ⟨hc, hi, hw, h1, hcnt, hirq, hlow, hci, hapart⟩ := errCounters_apart _ h
  dsimp only at hc hi hw h1 hcnt hirq hlow hci hapart
  obtain ⟨⟨hlo, hhi, hsrc, hvalid⟩, hframe⟩ := memErr_meets (s.incSat cnt) a hs
  have hkeep {g : Field} (hg : g ∈ errFields) : (errReported s cnt irq a src).get g = ((s.incSat cnt).memErr a src).get g :=
    get_irqF_apart _ hi (hapart g hg).2 (errFields_outside g hg)
  refine ⟨?_, ?_, ⟨?_, ?_, ?_, ?_⟩, ?_⟩
  · refine (get_irqF_apart _ hi hci (.inr hcnt)).trans ((get_of_frame_bits hframe fun g hg => (hapart g hg).1).trans ?_)
    rw [get_incSat_self s hc, hw]
    rfl
  · exact flag_irqF _ _ h1 hlow (not_pba_of_outside (.inr hirq))
  · exact (hkeep (by simp [errFields])).trans hlo
  · exact (hkeep (by simp [errFields])).trans hhi
  · exact (hkeep (by simp [errFields])).trans hsrc
  · exact (decide_eq_decide.2 (by rw [hkeep (by simp [errFields])])).trans hvalid
  · have hinc : Frame [] (bits [cnt]) s (s.incSat cnt) := frame_incSat cnt 1 (covers_of_fits (by simp) hc)
    exact frame_trans (frame_trans (frame_pba_of_bits hinc (by simp) (by simp)) (frame_pba_of_bits hframe (by simp) (by simp)))
      (frame_irqF_listed _ (by simp) hi (by simp))

/-! ### Corrected errors (R455) -/

theorem get_memCorrected (s : State) (found : Ecc) :
    (s.memCorrected found).get Fld.MEM_CNT_CORR =
      min 0xFFFF (s.get Fld.MEM_CNT_CORR + if (found == .corrected && s.flag Fld.MEM_STATUS_IECC_ON) = true then 1 else 0) ∧
    (s.memCorrected found).get Fld.MEM_CNT_LINK_CORR = min 0xFFFF (s.get Fld.MEM_CNT_LINK_CORR + if found = .link then 1 else 0) := by
  have hcorr : s.get Fld.MEM_CNT_CORR = min 0xFFFF (s.get Fld.MEM_CNT_CORR) :=
    (Nat.min_eq_right (Nat.le_of_lt_succ (get_lt s Fld.MEM_CNT_CORR))).symm
  have hlink : s.get Fld.MEM_CNT_LINK_CORR = min 0xFFFF (s.get Fld.MEM_CNT_LINK_CORR) :=
    (Nat.min_eq_right (Nat.le_of_lt_succ (get_lt s Fld.MEM_CNT_LINK_CORR))).symm
  cases found with
  | clean => exact ⟨hcorr, hlink⟩
  | uncorrectable k => exact ⟨hcorr, hlink⟩
  | link => exact ⟨(get_incSat_apart s rfl rfl).trans hcorr, get_incSat_self s rfl⟩
  | corrected =>
    cases hon : s.flag Fld.MEM_STATUS_IECC_ON with
    | false =>
      rw [show s.memCorrected .corrected = s from if_neg (by rw [hon]; decide)]
      exact ⟨hcorr, hlink⟩
    | true =>
      rw [show s.memCorrected .corrected = (s.incSat Fld.MEM_CNT_CORR).irqF Fld.MEM_IRQ_STATUS_CORR from if_pos hon]
      exact ⟨(get_irqF_apart _ rfl rfl (by decide)).trans (get_incSat_self s rfl),
        (get_irqF_apart _ rfl rfl (by decide)).trans ((get_incSat_apart s rfl rfl).trans hlink)⟩

/-! ### The retry episode of a read (R93 to R95, R458) -/

/-- The last re-read succeeds: neither the stored word nor what its check bits show is in error. -/
def rereads (s : State) (a : Nat) (found : Ecc) : Bool := !s.memFlawed a 1 && (match found with
  | .uncorrectable _ => false
  | _ => true)

theorem rereads_iff (s : State) (a : Nat) (found : Ecc) :
    rereads s a found = true ↔ s.memFlawed a 1 = false ∧ ∀ h, found ≠ .uncorrectable h := by
  cases found <;> simp [rereads]

/-- It is counted and reported, with the corrected errors it found. -/
def retryCounted (s : State) (found : Ecc) : State :=
  ((s.memCorrected found).incSat Fld.MEM_CNT2_RETRY_OK).irqF Fld.MEM_IRQ_STATUS_RETRY

/-- The fields that a successful retry changes. -/
def retryFields : List Field :=
  [Fld.MEM_CNT2_RETRY_OK, Fld.MEM_CNT_CORR, Fld.MEM_CNT_LINK_CORR, Fld.MEM_IRQ_STATUS_RETRY, Fld.MEM_IRQ_STATUS_CORR]

/-- What `t` shows of a retry that succeeded from `s` on (R455, R458). -/
def retryShown (s t : State) (found : Ecc) : Prop :=
  t.get Fld.MEM_CNT2_RETRY_OK = min 0xFFFF (s.get Fld.MEM_CNT2_RETRY_OK + 1) ∧ t.flag Fld.MEM_IRQ_STATUS_RETRY = true ∧
  t.get Fld.MEM_CNT_CORR =
    min 0xFFFF (s.get Fld.MEM_CNT_CORR + if (found == .corrected && s.flag Fld.MEM_STATUS_IECC_ON) = true then 1 else 0) ∧
  t.get Fld.MEM_CNT_LINK_CORR = min 0xFFFF (s.get Fld.MEM_CNT_LINK_CORR + if found = .link then 1 else 0)

theorem retryCounted_meets (s : State) (found : Ecc) :
    retryShown s (retryCounted s found) found ∧ Frame [.msix] (orBits pba (bits retryFields)) s (retryCounted s found) := by
  obtain ⟨hcorr, hlink⟩ := get_memCorrected s found
  have hframe := frame_memCorrected s found
  have hok : (s.memCorrected found).get Fld.MEM_CNT2_RETRY_OK = s.get Fld.MEM_CNT2_RETRY_OK :=
    get_of_frame_pba hframe (by decide) (by decide)
  have hkeep {g : Field} (h1 : apart g Fld.MEM_CNT2_RETRY_OK = true) (h2 : apart g Fld.MEM_IRQ_STATUS_RETRY = true)
      (hout : g.off < 0x29000 ∨ 0x29010 ≤ g.off) : (retryCounted s found).get g = (s.memCorrected found).get g :=
    (get_irqF_apart _ rfl h2 hout).trans (get_incSat_apart _ rfl h1)
  refine ⟨⟨?_, flag_irqF _ _ rfl (by decide) (not_pba_of_outside (by decide)), (hkeep rfl rfl (by decide)).trans hcorr,
    (hkeep rfl rfl (by decide)).trans hlink⟩, ?_⟩
  · rw [← hok]
    exact (get_irqF_apart _ rfl rfl (by decide)).trans (get_incSat_self _ rfl)
  · have hinc : Frame [] (bits [Fld.MEM_CNT2_RETRY_OK]) (s.memCorrected found) ((s.memCorrected found).incSat Fld.MEM_CNT2_RETRY_OK) :=
      frame_incSat _ 1 (covers_of_fits (by simp) rfl)
    exact frame_trans (frame_trans (frame_pba_mono hframe (by simp) (by simp [retryFields]))
      (frame_pba_of_bits hinc (by simp) (by simp [retryFields]))) (frame_irqF_listed _ (by simp [retryFields]) rfl (by simp))

/-- A read that stays in error is counted at UNCORR, with its address and its source. -/
def retryFailed (s : State) (a src : Nat) : State := errReported s Fld.MEM_CNT2_UNCORR Fld.MEM_IRQ_STATUS_UNCORR a src

/-- What `t` shows of it. -/
def failShown (s t : State) (a src : Nat) : Prop := t.get Fld.MEM_CNT2_UNCORR = min 0xFFFF (s.get Fld.MEM_CNT2_UNCORR + 1) ∧
  t.flag Fld.MEM_IRQ_STATUS_UNCORR = true ∧ errNames t a src

/-- The fields that a failed retry changes. -/
def failFields : List Field := Fld.MEM_CNT2_UNCORR :: Fld.MEM_IRQ_STATUS_UNCORR :: errFields

theorem retryFailed_meets (s : State) (a : Nat) {src : Nat} (hs : src < 8) :
    failShown s (retryFailed s a src) a src ∧ Frame [.msix] (orBits pba (bits failFields)) s (retryFailed s a src) := by
  obtain ⟨hcnt, hirq, hnames, hframe⟩ := errReported_meets s (cnt := Fld.MEM_CNT2_UNCORR) (irq := Fld.MEM_IRQ_STATUS_UNCORR)
    (by simp [errCounters]) a hs
  exact ⟨⟨hcnt, hirq, hnames⟩, hframe⟩

theorem findDesc_retryFailed (s : State) (a : Nat) {src : Nat} (hs : src < 8) (sq seq : Nat) :
    (retryFailed s a src).findDesc sq seq = s.findDesc sq seq :=
  congrArg (List.find? _) ((retryFailed_meets s a hs).2.2 .flight (by simp))

/-! ### The descriptor whose read it is -/

/-- The descriptor with a number, once it is replaced by one of the same number. -/
theorem findDesc_setDesc {s : State} {sq seq : Nat} {d e : Desc} (h : s.findDesc sq seq = some d) (hsq : e.sq = d.sq)
    (hseq : e.seq = d.seq) : (s.setDesc d e).findDesc sq seq = some e := by
  have hmap : (s.setDesc d e).findDesc sq seq =
      (s.ring.flight.find? ((fun x => x.sq = sq && x.seq = seq) ∘ fun x => if x = d then e else x)).map fun x => if x = d then e else x :=
    List.find?_map ..
  have hkey : ((fun x : Desc => decide (x.sq = sq) && decide (x.seq = seq)) ∘ fun x => if x = d then e else x) =
      fun x => decide (x.sq = sq) && decide (x.seq = seq) := by
    funext x
    by_cases hx : x = d <;> simp [hx, hsq, hseq]
  rw [hmap, hkey, show s.ring.flight.find? _ = some d from h, Option.map_some, if_pos rfl]

/-- The read of descriptor `d` is answered: its deadline moves, and it is RETRIED where the read succeeded (R93, R97). -/
def rereadBy (s : State) (d : Desc) (ok : Bool) : State := s.setDesc d { d with allow := d.allow + 3, retried := d.retried || ok }

theorem rereadBy_ok (s : State) (d : Desc) : (rereadBy s d true).ring.flight =
    s.ring.flight.map (fun x => if x = d then { d with allow := d.allow + 3, retried := true } else x) := by
  simp [rereadBy, State.setDesc]

theorem rereadBy_failed (s : State) (d : Desc) : rereadBy s d false = s.setDesc d { d with allow := d.allow + 3 } := by
  simp [rereadBy]

theorem frame_poisoned (s : State) (l : List Byte) {p : Bits} :
    Frame [.rdata, .mem, .msix] p s { s with rdata := l, mem := { s.mem with poisonSent := true } } :=
  ⟨fun _ _ _ => rfl, fun q hq => by cases q <;> simp_all [Part.same]⟩

section
variable {s : State} (hrun : s.pwr.hold = .running)
include hrun

theorem exec_memReadRetry_notReady (h : s.ready 16 = false) (who : Reader) (address : BitVec 34) (found : Ecc) :
    exec (.memReadRetry who address found) s = .next s := by
  show execMemReadRetry who address found s = _
  unfold execMemReadRetry
  rw [act_running s _ hrun, if_pos (by rw [h]; rfl)]

section
variable (hready : s.ready 16 = true) (address : BitVec 34) (found : Ecc)
include hready

theorem exec_memReadRetry_bar4 (n : Nat) : exec (.memReadRetry (.bar4 n) address found) s = .next
    (if rereads s address.toNat found = true then
      { retryCounted s found with rdata := bytesAt (retryCounted s found).mem.ram address.toNat n }
    else s.memPoisoned address.toNat n) := by
  show execMemReadRetry (.bar4 n) address found s = _
  unfold execMemReadRetry
  rw [act_running s _ hrun, if_neg (by rw [hready]; decide)]
  rfl

theorem exec_memReadRetry_descriptor (sq : Fin 64) (seq : BitVec 16) :
    exec (.memReadRetry (.descriptor sq seq) address found) s = .next
    (let u := match s.findDesc sq seq.toNat with
      | some d => rereadBy s d (rereads s address.toNat found)
      | none => s
    if rereads s address.toNat found = true then retryCounted u found
    else match (retryFailed u address.toNat 0).findDesc sq seq.toNat with
      | some d => memoryEcc (retryFailed u address.toNat 0) d address.toNat
      | none => retryFailed u address.toNat 0) := by
  show execMemReadRetry (.descriptor sq seq) address found s = _
  unfold execMemReadRetry
  rw [act_running s _ hrun, if_neg (by rw [hready]; decide)]
  rfl

/-- A read through BAR4 that succeeds in the end answers the bytes. -/
theorem retry_bar4_ok (h : rereads s address.toNat found = true) (n : Nat) :
    ∃ t, exec (.memReadRetry (.bar4 n) address found) s = .next t ∧ retryShown s t found ∧ t.rdata = bytesAt s.mem.ram address.toNat n ∧
      Frame [.rdata, .msix] (orBits pba (bits retryFields)) s t := by
  obtain ⟨hshown, hframe⟩ := retryCounted_meets s found
  have hmem : (retryCounted s found).mem = s.mem := hframe.2 .mem (by simp)
  refine ⟨_, (exec_memReadRetry_bar4 hrun hready address found n).trans (congrArg _ (if_pos h)), hshown,
    congrArg (fun m : Mem => bytesAt m.ram address.toNat n) hmem, ?_⟩
  exact frame_trans (frame_pba_mono hframe (by simp) (List.Subset.refl _)) (frame_rdata _ _ (by simp))

/-- One that does not is answered with all ones and poison. -/
theorem retry_bar4_failed (h : rereads s address.toNat found ≠ true) (n : Nat) :
    ∃ t, exec (.memReadRetry (.bar4 n) address found) s = .next t ∧ failShown s t address.toNat 1 ∧ t.rdata = List.replicate n 0xFF ∧
      t.mem = { s.mem with poisonSent := true } ∧ Frame [.rdata, .mem, .msix] (orBits pba (bits failFields)) s t := by
  obtain ⟨hshown, hframe⟩ := retryFailed_meets s address.toNat (show 1 < 8 by decide)
  have hmem : (retryFailed s address.toNat 1).mem = s.mem := hframe.2 .mem (by simp)
  refine ⟨_, (exec_memReadRetry_bar4 hrun hready address found n).trans (congrArg _ (if_neg h)), hshown, rfl,
    congrArg (fun m : Mem => { m with poisonSent := true }) hmem, ?_⟩
  exact frame_trans (frame_pba_mono hframe (by simp) (List.Subset.refl _)) (frame_poisoned _ _)

section
variable {sq : Fin 64} {seq : BitVec 16}

/-- The read of a descriptor that is no longer there is reported alone. -/
theorem retry_noDesc (hfind : s.findDesc sq seq.toNat = none) :
    (rereads s address.toNat found = true → ∃ t, exec (.memReadRetry (.descriptor sq seq) address found) s = .next t ∧
      retryShown s t found ∧ Frame [.msix] (orBits pba (bits retryFields)) s t) ∧
    (rereads s address.toNat found ≠ true → ∃ t, exec (.memReadRetry (.descriptor sq seq) address found) s = .next t ∧
      failShown s t address.toNat 0 ∧ Frame [.msix] (orBits pba (bits failFields)) s t) := by
  have hexec := exec_memReadRetry_descriptor hrun hready address found sq seq
  simp only [hfind, findDesc_retryFailed _ _ (show 0 < 8 by decide)] at hexec
  exact ⟨fun h => ⟨_, hexec.trans (congrArg _ (if_pos h)), retryCounted_meets s found⟩,
    fun h => ⟨_, hexec.trans (congrArg _ (if_neg h)), retryFailed_meets s _ (by decide)⟩⟩

/-- The read of a descriptor that succeeds in the end marks it RETRIED. -/
theorem retry_desc_ok {d : Desc} (hfind : s.findDesc sq seq.toNat = some d) (h : rereads s address.toNat found = true) :
    ∃ t, exec (.memReadRetry (.descriptor sq seq) address found) s = .next t ∧ retryShown s t found ∧
      t.ring.flight = s.ring.flight.map (fun x => if x = d then { d with allow := d.allow + 3, retried := true } else x) ∧
      Frame [.flight, .msix] (orBits pba (bits retryFields)) s t := by
  have hexec := exec_memReadRetry_descriptor hrun hready address found sq seq
  simp only [hfind, h, if_true] at hexec
  obtain ⟨hshown, hframe⟩ := retryCounted_meets (rereadBy s d true) found
  have hflight : (retryCounted (rereadBy s d true) found).ring.flight = (rereadBy s d true).ring.flight := hframe.2 .flight (by simp)
  exact ⟨_, hexec, hshown, hflight.trans (rereadBy_ok s d),
    frame_trans (frame_setDesc d _ (by simp)) (frame_pba_mono hframe (by simp) (List.Subset.refl _))⟩

/-- One that does not ends the descriptor with MEMORY_ECC. -/
theorem retry_desc_failed {d : Desc} (hfind : s.findDesc sq seq.toNat = some d) (h : rereads s address.toNat found ≠ true) :
    let e := { d with allow := d.allow + 3 }
    ∃ u, exec (.memReadRetry (.descriptor sq seq) address found) s = .next (memoryEcc u e address.toNat) ∧
      failShown s u address.toNat 0 ∧ u.ring.flight = s.ring.flight.map (fun x => if x = d then e else x) ∧
      Frame [.flight, .msix] (orBits pba (bits failFields)) s u := by
  intro e
  have hexec := exec_memReadRetry_descriptor hrun hready address found sq seq
  have hset : (s.setDesc d e).findDesc sq seq.toNat = some e := findDesc_setDesc hfind rfl rfl
  simp only [hfind, Bool.eq_false_iff.2 h, rereadBy_failed, findDesc_retryFailed _ _ (show 0 < 8 by decide), hset, e,
    Bool.false_eq_true, if_false] at hexec
  obtain ⟨hshown, hframe⟩ := retryFailed_meets (s.setDesc d e) address.toNat (show 0 < 8 by decide)
  have hflight : (retryFailed (s.setDesc d e) address.toNat 0).ring.flight = (s.setDesc d e).ring.flight := hframe.2 .flight (by simp)
  exact ⟨_, hexec, hshown, hflight, frame_trans (frame_setDesc d e (by simp)) (frame_pba_mono hframe (by simp) (List.Subset.refl _))⟩

end
end
end

/-! ### The scrubber (R456, R459) -/

/-- The scrubber is on: enabled, with inline ECC, and the memory ready. -/
def scrubOn (s : State) : Bool := s.flag Fld.MEM_SCRUB_EN && s.flag Fld.MEM_STATUS_IECC_ON && s.ready 16

theorem scrubOn_iff (s : State) : scrubOn s = true ↔
    s.flag Fld.MEM_SCRUB_EN = true ∧ s.flag Fld.MEM_STATUS_IECC_ON = true ∧ s.ready 16 = true := by
  simp only [scrubOn, Bool.and_eq_true, and_assoc]

/-- What its read shows: a word found in error before is in error (log entry 42). -/
def scrubShows (s : State) (found : Ecc) : Ecc := if s.memFlawed s.mem.scrubAt scrubStep then .uncorrectable 0 else found

/-- What it reports of the word. -/
def scrubFound (s : State) (shown : Ecc) : State :=
  match shown with
  | .corrected => (s.incSat Fld.MEM_CNT3_SCRUB_CORR).irqF Fld.MEM_IRQ_STATUS_CORR
  | .uncorrectable _ => errReported (s.memFlaw (s.mem.scrubAt / 8)) Fld.MEM_CNT3_SCRUB_UNCORR Fld.MEM_IRQ_STATUS_SCRUB_UNCORR s.mem.scrubAt 2
  | .link => s.incSat Fld.MEM_CNT_LINK_CORR
  | .clean => s

/-- The scrubber's next word is at address `a`. -/
def scrubPlaced (s : State) (a : Nat) : State := { s with mem := { s.mem with scrubAt := a } }

theorem frame_scrubPlaced (s : State) (a : Nat) (p : Bits) : Frame [.mem] p s (scrubPlaced s a) :=
  frame_part .mem (by simp) rfl fun r hr => by cases r <;> first | exact absurd rfl hr | simp [Part.same, scrubPlaced]

/-- It moves on from address `a`; at the end of the memory a pass is counted. -/
def scrubMoved (s : State) (a : Nat) : State :=
  let last := decide (s.usable ≤ a + scrubStep)
  let u := scrubPlaced s (if last then 0 else a + scrubStep)
  if last then u.incWrap Fld.MEM_SCRUBPASS_PASS else u

theorem scrubMoved_last {s : State} {a : Nat} (h : s.usable ≤ a + 8) :
    scrubMoved s a = (scrubPlaced s 0).incWrap Fld.MEM_SCRUBPASS_PASS := by simp [scrubMoved, scrubStep, h]

theorem scrubMoved_next {s : State} {a : Nat} (h : ¬ s.usable ≤ a + 8) : scrubMoved s a = scrubPlaced s (a + 8) := by
  simp [scrubMoved, scrubStep, h]

theorem exec_memScrubRead {s : State} (hrun : s.pwr.hold = .running) (found : Ecc) : exec (.memScrubRead found) s = .next
    (if !scrubOn s then s else scrubMoved (scrubFound s (scrubShows s found)) s.mem.scrubAt) := by
  show execMemScrubRead found s = _
  unfold execMemScrubRead
  rw [act_running s _ hrun]
  rfl

theorem scrubMoved_meets (s : State) (a : Nat) :
    let t := scrubMoved s a
    t.mem = { s.mem with scrubAt := if s.usable ≤ a + 8 then 0 else a + 8 } ∧
    t.get Fld.MEM_SCRUBPASS_PASS = (s.get Fld.MEM_SCRUBPASS_PASS + if s.usable ≤ a + 8 then 1 else 0) % 2 ^ 32 ∧
    Frame [.mem] (bits [Fld.MEM_SCRUBPASS_PASS]) s t := by
  dsimp only
  by_cases hlast : s.usable ≤ a + 8
  · rw [scrubMoved_last hlast, if_pos hlast, if_pos hlast]
    exact ⟨rfl, get_incWrap_self _ rfl, frame_then_incWrap (frame_scrubPlaced s 0 _) _ 1 (covers_of_fits (by simp) rfl)⟩
  · rw [scrubMoved_next hlast, if_neg hlast, if_neg hlast, Nat.add_zero]
    exact ⟨rfl, (Nat.mod_eq_of_lt (get_lt s Fld.MEM_SCRUBPASS_PASS)).symm, frame_scrubPlaced s (a + 8) _⟩

/-- The fields in which the scrubber reports. -/
def scrubFields : List Field := errFields ++ [Fld.MEM_CNT3_SCRUB_CORR, Fld.MEM_CNT3_SCRUB_UNCORR, Fld.MEM_CNT_LINK_CORR,
  Fld.MEM_IRQ_STATUS_CORR, Fld.MEM_IRQ_STATUS_SCRUB_UNCORR]

theorem frame_memFlaw (s : State) (w : Nat) (p : Bits) : Frame [.mem] p s (s.memFlaw w) :=
  frame_ite (fun _ => frame_part .mem (by simp) rfl fun r hr => by cases r <;> first | exact absurd rfl hr | simp [Part.same])
    fun _ => frame_refl s

theorem frame_scrubFound (s : State) (shown : Ecc) : Frame [.mem, .msix] (orBits pba (bits scrubFields)) s (scrubFound s shown) := by
  have hinc {f : Field} (hf : f ∈ scrubFields) (k : fits f = true) :
      Frame [.mem, .msix] (orBits pba (bits scrubFields)) s (s.incSat f) :=
    frame_pba_of_bits (ps := []) (frame_incSat (p := bits scrubFields) f 1 (covers_of_fits hf k)) (by simp) (List.Subset.refl _)
  cases shown with
  | clean => exact frame_refl s
  | link => exact hinc (by simp [scrubFields]) rfl
  | corrected => exact frame_trans (hinc (by simp [scrubFields]) rfl) (frame_irqF_listed _ (by simp [scrubFields]) rfl (by simp))
  | uncorrectable h =>
    obtain ⟨-, -, -, hframe⟩ := errReported_meets (s.memFlaw (s.mem.scrubAt / 8))
      (cnt := Fld.MEM_CNT3_SCRUB_UNCORR) (irq := Fld.MEM_IRQ_STATUS_SCRUB_UNCORR) (by simp [errCounters]) s.mem.scrubAt (show 2 < 8 by decide)
    exact frame_trans (frame_mono (frame_memFlaw s _ _) (by simp) fun _ _ h => h)
      (frame_pba_mono hframe (by simp) (by simp [scrubFields, errFields]))

/-- A word that the scrubber finds in error is marked and reported; any other is counted for what it shows. -/
theorem scrubFound_meets {s : State} (hon : s.flag Fld.MEM_STATUS_IECC_ON = true) (shown : Ecc) :
    let t := scrubFound s shown
    t.mem.ram = s.mem.ram ∧
    ((∀ h, shown ≠ .uncorrectable h) → t.mem.flaws = s.mem.flaws ∧
      t.get Fld.MEM_CNT3_SCRUB_CORR = min 0xFFFF (s.get Fld.MEM_CNT3_SCRUB_CORR + if shown = .corrected then 1 else 0) ∧
      t.get Fld.MEM_CNT_LINK_CORR = min 0xFFFF (s.get Fld.MEM_CNT_LINK_CORR + if shown = .link then 1 else 0) ∧
      (shown = .corrected → t.flag Fld.MEM_IRQ_STATUS_CORR = true)) ∧
    ((∃ h, shown = .uncorrectable h) → t.memFlawed s.mem.scrubAt 1 = true ∧ t.flag Fld.MEM_IRQ_STATUS_SCRUB_UNCORR = true ∧
      errNames t s.mem.scrubAt 2 ∧ t.get Fld.MEM_CNT3_SCRUB_UNCORR = min 0xFFFF (s.get Fld.MEM_CNT3_SCRUB_UNCORR + 1)) := by
  have hcorr : s.get Fld.MEM_CNT3_SCRUB_CORR = min 0xFFFF (s.get Fld.MEM_CNT3_SCRUB_CORR) :=
    (Nat.min_eq_right (Nat.le_of_lt_succ (get_lt s Fld.MEM_CNT3_SCRUB_CORR))).symm
  have hlink : s.get Fld.MEM_CNT_LINK_CORR = min 0xFFFF (s.get Fld.MEM_CNT_LINK_CORR) :=
    (Nat.min_eq_right (Nat.le_of_lt_succ (get_lt s Fld.MEM_CNT_LINK_CORR))).symm
  cases shown with
  | clean => exact ⟨rfl, fun _ => ⟨rfl, hcorr, hlink, nofun⟩, nofun⟩
  | link => exact ⟨rfl, fun _ => ⟨rfl, (get_incSat_apart s rfl rfl).trans hcorr, get_incSat_self s rfl, nofun⟩, nofun⟩
  | corrected =>
    let u := s.incSat Fld.MEM_CNT3_SCRUB_CORR
    have hmem : (u.irqF Fld.MEM_IRQ_STATUS_CORR).mem = u.mem :=
      (frame_irqF_listed (ps := [.msix]) u (List.mem_singleton_self _) rfl (by simp)).2 .mem (by simp)
    exact ⟨congrArg Mem.ram hmem, fun _ => ⟨congrArg Mem.flaws hmem, (get_irqF_apart u rfl rfl (by decide)).trans (get_incSat_self s rfl),
      (get_irqF_apart u rfl rfl (by decide)).trans ((get_incSat_apart s rfl rfl).trans hlink),
      fun _ => flag_irqF u _ rfl (by decide) (not_pba_of_outside (by decide))⟩, nofun⟩
  | uncorrectable h =>
    let u := s.memFlaw (s.mem.scrubAt / 8)
    obtain ⟨hcnt, hirq, hnames, hframe⟩ := errReported_meets u
      (cnt := Fld.MEM_CNT3_SCRUB_UNCORR) (irq := Fld.MEM_IRQ_STATUS_SCRUB_UNCORR) (by simp [errCounters]) s.mem.scrubAt (show 2 < 8 by decide)
    have hmem : (scrubFound s (.uncorrectable h)).mem = u.mem := hframe.2 .mem (by simp)
    have hget : u.get Fld.MEM_CNT3_SCRUB_UNCORR = s.get Fld.MEM_CNT3_SCRUB_UNCORR :=
      get_of_frame_bits (fs := []) (frame_memFlaw s _ _) (by simp)
    have hflawed := memFlawed_memFlaw hon s.mem.scrubAt Nat.one_pos
    refine ⟨(congrArg Mem.ram hmem).trans ?_, fun hgood => absurd rfl (hgood h), fun _ => ⟨?_, hirq, hnames, hget ▸ hcnt⟩⟩
    · simp only [u, State.memFlaw, hon, if_true]
    · rw [State.memFlawed, hmem]
      exact hflawed

theorem scrubShows_bad_iff (s : State) (found : Ecc) : (∃ h, scrubShows s found = .uncorrectable h) ↔
    s.memFlawed s.mem.scrubAt 8 = true ∨ ∃ h, found = .uncorrectable h := by
  by_cases hf : s.memFlawed s.mem.scrubAt 8 = true <;> simp [scrubShows, scrubStep, hf]

theorem scrubShows_good {s : State} {found : Ecc} (h : ¬ s.memFlawed s.mem.scrubAt 8 = true) : scrubShows s found = found := if_neg h

/-- What a read of the scrubber leaves behind (R456, R459). -/
theorem scrub_meets {s : State} (hrun : s.pwr.hold = .running) (hon : scrubOn s = true) (found : Ecc) :
    let a := s.mem.scrubAt
    let bad := s.memFlawed a 8 = true ∨ ∃ h, found = .uncorrectable h
    ∃ t, exec (.memScrubRead found) s = .next t ∧ t.mem.ram = s.mem.ram ∧
      t.mem.scrubAt = (if s.usable ≤ a + 8 then 0 else a + 8) ∧
      t.get Fld.MEM_SCRUBPASS_PASS = (s.get Fld.MEM_SCRUBPASS_PASS + if s.usable ≤ a + 8 then 1 else 0) % 2 ^ 32 ∧
      (¬ bad → t.mem.flaws = s.mem.flaws ∧
        t.get Fld.MEM_CNT3_SCRUB_CORR = min 0xFFFF (s.get Fld.MEM_CNT3_SCRUB_CORR + if found = .corrected then 1 else 0) ∧
        t.get Fld.MEM_CNT_LINK_CORR = min 0xFFFF (s.get Fld.MEM_CNT_LINK_CORR + if found = .link then 1 else 0) ∧
        (found = .corrected → t.flag Fld.MEM_IRQ_STATUS_CORR = true)) ∧
      (bad → t.memFlawed a 1 = true ∧ t.flag Fld.MEM_IRQ_STATUS_SCRUB_UNCORR = true ∧ errNames t a 2 ∧
        t.get Fld.MEM_CNT3_SCRUB_UNCORR = min 0xFFFF (s.get Fld.MEM_CNT3_SCRUB_UNCORR + 1)) ∧
      Frame [.mem, .msix] (orBits pba (bits (Fld.MEM_SCRUBPASS_PASS :: scrubFields))) s t := by
  intro a bad
  let u := scrubFound s (scrubShows s found)
  have hframe := frame_scrubFound s (scrubShows s found)
  have husable : u.usable = s.usable := congrArg (· * 2 ^ 20) (get_of_frame_pba hframe (by decide) (by decide))
  have hpassed : u.get Fld.MEM_SCRUBPASS_PASS = s.get Fld.MEM_SCRUBPASS_PASS := get_of_frame_pba hframe (by decide) (by decide)
  obtain ⟨hram, hgood, hbad⟩ := scrubFound_meets ((scrubOn_iff s).1 hon).2.1 (scrubShows s found)
  obtain ⟨hmem, hpass, hmoved⟩ := scrubMoved_meets u a
  rw [husable] at hmem hpass
  rw [hpassed] at hpass
  have hkeep {f : Field} (h : apart f Fld.MEM_SCRUBPASS_PASS = true) : (scrubMoved u a).get f = u.get f :=
    get_of_frame_bits hmoved (by simpa using h)
  have hflag {f : Field} (h : apart f Fld.MEM_SCRUBPASS_PASS = true) : (scrubMoved u a).flag f = u.flag f :=
    flag_of_frame_bits hmoved (by simpa using h)
  refine ⟨scrubMoved u a, (exec_memScrubRead hrun found).trans (congrArg _ (if_neg (by rw [hon]; decide))),
    (congrArg Mem.ram hmem).trans hram, congrArg Mem.scrubAt hmem, hpass, fun h => ?_, fun h => ?_, ?_⟩
  · have hshows : scrubShows s found = found := scrubShows_good fun hf => h (.inl hf)
    obtain ⟨hflaws, hcorr, hlink, hirq⟩ := hgood fun k e => h ((scrubShows_bad_iff s found).1 ⟨k, e⟩)
    rw [hshows, ← show u = scrubFound s found from congrArg (scrubFound s) hshows] at hcorr hlink hirq
    exact ⟨(congrArg Mem.flaws hmem).trans hflaws, (hkeep rfl).trans hcorr, (hkeep rfl).trans hlink, fun e => (hflag rfl).trans (hirq e)⟩
  · obtain ⟨hflawed, hirq, ⟨hlo, hhi, hsrc, hvalid⟩, hcnt⟩ := hbad ((scrubShows_bad_iff s found).2 h)
    refine ⟨?_, (hflag rfl).trans hirq, ⟨(hkeep rfl).trans hlo, (hkeep rfl).trans hhi, (hkeep rfl).trans hsrc, (hflag rfl).trans hvalid⟩,
      (hkeep rfl).trans hcnt⟩
    rw [State.memFlawed, hmem]
    exact hflawed
  · exact frame_trans (frame_pba_mono hframe (by simp) (List.subset_cons_self _ _)) (frame_pba_of_bits hmoved (by simp) (by simp))

/-! ### Temperature and counters (R453, R462) -/

theorem exec_memTempHigh {s : State} (hrun : s.pwr.hold = .running) (code : BitVec 3) : exec (.memTempHigh code) s = .next
    (if 4 ≤ code.toNat ∧ s.get Fld.MEM_TEMP_TEMP < 4 then (s.put Fld.MEM_TEMP_TEMP code.toNat).irqF Fld.MEM_IRQ_STATUS_TEMP_HI
    else s.put Fld.MEM_TEMP_TEMP code.toNat) := by
  show execMemTempHigh code s = _
  rw [execMemTempHigh, act_running s _ hrun]
  simp only [Bool.not_eq_true', decide_eq_false_iff_not, not_le]

/-- A refresh code is shown, and one of 4 reached from below reported (R453). -/
theorem temp_meets {s : State} (hrun : s.pwr.hold = .running) (code : BitVec 3) :
    ∃ t, exec (.memTempHigh code) s = .next t ∧ t.get Fld.MEM_TEMP_TEMP = code.toNat ∧
      (4 ≤ code.toNat → s.get Fld.MEM_TEMP_TEMP < 4 → t.flag Fld.MEM_IRQ_STATUS_TEMP_HI = true) ∧
      (code.toNat < 4 ∨ 4 ≤ s.get Fld.MEM_TEMP_TEMP → Frame [] (bits [Fld.MEM_TEMP_TEMP]) s t) ∧
      Frame [.msix] (orBits pba (bits [Fld.MEM_TEMP_TEMP, Fld.MEM_IRQ_STATUS_TEMP_HI])) s t := by
  have hshown : (s.put Fld.MEM_TEMP_TEMP code.toNat).get Fld.MEM_TEMP_TEMP = code.toNat :=
    (get_put_self s _ rfl).trans (Nat.mod_eq_of_lt code.isLt)
  have hframe : Frame [] (bits [Fld.MEM_TEMP_TEMP]) s (s.put Fld.MEM_TEMP_TEMP code.toNat) :=
    frame_put _ _ (covers_of_fits (by simp) rfl)
  rw [exec_memTempHigh hrun]
  refine ⟨_, rfl, ?_⟩
  by_cases hhot : 4 ≤ code.toNat ∧ s.get Fld.MEM_TEMP_TEMP < 4
  · rw [if_pos hhot]
    exact ⟨(get_irqF_apart _ rfl rfl (by decide)).trans hshown, fun _ _ => flag_irqF _ _ rfl (by decide) (not_pba_of_outside (by decide)),
      fun h => absurd h (by omega), frame_trans (frame_pba_of_bits hframe (by simp) (by simp)) (frame_irqF_listed _ (by simp) rfl (by simp))⟩
  · rw [if_neg hhot]
    exact ⟨hshown, fun h k => absurd ⟨h, k⟩ hhot, fun _ => hframe, frame_pba_of_bits hframe (by simp) (by simp)⟩

/-- The counters of a word clear, but for what they counted in this cycle (R462, R518). -/
theorem exec_memCntClr {s : State} (hrun : s.pwr.hold = .running) (h : s.served Reg.MEM_CNT_CLR = true) :
    exec .memCntClr s = .next (clrAll s [Reg.MEM_CNT, Reg.MEM_CNT2, Reg.MEM_CNT3]) := by
  show execMemCntClr s = _
  rw [execMemCntClr, act_running s _ hrun, if_pos h]
  rfl

/-- Settles O26: a retry of the host and of a descriptor, a scrub read, the temperature, the counters. -/
theorem memoryErrorsAndScrub : Obligations.MemoryErrorsAndScrub := by
  unfold Obligations.MemoryErrorsAndScrub
  intro s hrun
  refine ⟨fun who address found h => exec_memReadRetry_notReady hrun h who address found, fun hready address found => ?_,
    fun found => ⟨fun hoff => ?_, fun hon => ?_⟩, temp_meets hrun,
    fun h => ⟨_, exec_memCntClr hrun h, reg_clrAll s, frame_clrAll s _⟩⟩
  · have hok := rereads_iff s address.toNat found
    refine ⟨fun n => ⟨fun h => retry_bar4_ok hrun hready address found (hok.2 h) n,
      fun h => retry_bar4_failed hrun hready address found (h ∘ hok.1) n⟩, fun sq seq => ⟨fun hfind => ?_, fun d hfind => ?_⟩⟩
    · obtain ⟨hyes, hno⟩ := retry_noDesc hrun hready address found hfind
      exact ⟨fun h => hyes (hok.2 h), fun h => hno (h ∘ hok.1)⟩
    · exact ⟨fun h => retry_desc_ok hrun hready address found hfind (hok.2 h),
        fun h => retry_desc_failed hrun hready address found hfind (h ∘ hok.1)⟩
  · exact (exec_memScrubRead hrun found).trans (congrArg _ (if_pos (by
      rw [Bool.not_eq_true', Bool.eq_false_iff]
      exact fun h => hoff ((scrubOn_iff s).1 h))))
  · obtain ⟨t, hexec, hram, hat, hpass, hgood, hbad, hframe⟩ := scrub_meets hrun ((scrubOn_iff s).2 hon) found
    exact ⟨t, hexec, hram, hat, hpass, hgood, hbad, frame_pba_mono hframe (by simp) (by simp [scrubFields, errFields])⟩

end Sys2Proof.Proofs
end

section
/-!
PROOF. The requests that a fence keeps of a cycle, and the stale count (O9: R110, R113, R123, R124).
-/

namespace Sys2Proof.Proofs
open Sys2Proof Sys2Proof.Machine Sys2Proof.Safety Sys2Proof.Laws

/-! ### Reports of a request -/

/-- The requests of the cycle and the stale count stand as they did: what the reports of a request leave alone. -/
def SameLedger (s t : State) : Prop :=
  t.seen.reqs = s.seen.reqs ∧ t.get Fld.FEN_STALE_COUNT = s.get Fld.FEN_STALE_COUNT

section
variable {s t u : State}

theorem sameLedger_refl (s : State) : SameLedger s s := ⟨rfl, rfl⟩

theorem sameLedger_trans (h : SameLedger s t) (k : SameLedger t u) : SameLedger s u :=
  ⟨k.1.trans h.1, k.2.trans h.2⟩

theorem sameLedger_ite {c : Prop} [Decidable c] (h : c → SameLedger s t) (k : ¬ c → SameLedger s u) :
    SameLedger s (if c then t else u) := by
  split
  case isTrue hc => exact h hc
  case isFalse hc => exact k hc

theorem sameLedger_put (s : State) {f : Field} (v : Nat) (k : fits f = true) (h : f.off ≠ Reg.FEN_STALE) :
    SameLedger s (s.put f v) := ⟨rfl, get_put_apart s v k (apart_of_off h.symm)⟩

theorem sameLedger_setBit (s : State) {f : Field} (i : Nat) (k : fits f = true) (h : f.off ≠ Reg.FEN_STALE) :
    SameLedger s (s.setBit f i) := sameLedger_put s _ k h

/-- Messages are no part of what a cycle has seen. -/
theorem sendMsgs_seen (v : Nat) : ∀ (k : Nat) (s : State), (s.sendMsgs v k).seen = s.seen
  | 0, _ => rfl
  | k + 1, s => (sendMsgs_seen v k (s.sendMsg v)).trans (by simp only [State.sendMsg]; split <;> rfl)

/-- An interrupt of the fence block is a report. -/
theorem sameLedger_irqBit (s : State) {f : Field} (i : Nat) (h : f.off = Reg.FEN_IRQ_STATUS) : SameLedger s (s.irqBit f i) := by
  refine ⟨?_, get_of_frame (frame_irqBit (ps := [.msix]) (p := orBits pba (words [Reg.FEN_IRQ_STATUS])) f i (.inr (by simp [words, h]))
    (fun _ _ h => .inl h) (by simp)) fun b _ _ => ?_⟩
  · show (State.sendMsgs _ _ _).seen.reqs = s.seen.reqs
    rw [sendMsgs_seen]
    rfl
  · simp [orBits, pba, Safety.range, words, Fld.FEN_STALE_COUNT, Reg.FEN_STALE, Reg.FEN_IRQ_STATUS]

theorem sameLedger_irqF (s : State) {f : Field} (h : f.off = Reg.FEN_IRQ_STATUS) : SameLedger s (s.irqF f) := sameLedger_irqBit s 0 h

theorem sameLedger_watchesFire (s : State) (n v : Nat) (po : Bool) : SameLedger s (watchesFire s n v po) :=
  List.foldlRecOn (motive := SameLedger s) _ _ (sameLedger_refl s) fun t h w _ =>
    sameLedger_ite (fun _ => sameLedger_trans h (sameLedger_irqBit t w rfl)) fun _ => h

theorem sameLedger_notePoison (s : State) (n : Nat) : SameLedger s (notePoison s n) := by
  have hindex (t : State) (v : Nat) : SameLedger t (t.put Fld.FEN_POISON_FIRST_INDEX v) := sameLedger_put t v rfl (by decide)
  have hvalid (t : State) : SameLedger t (t.setBit Fld.FEN_POISON_FIRST_VALID 0) := sameLedger_setBit t 0 rfl (by decide)
  have hfirst (t : State) : SameLedger t { t with seen := { t.seen with first := true } } := ⟨rfl, rfl⟩
  unfold notePoison
  exact sameLedger_trans (sameLedger_irqF s rfl) (sameLedger_ite
    (fun _ => sameLedger_trans (sameLedger_trans (hvalid _) (hindex _ n)) (hfirst _)) fun _ =>
    sameLedger_ite (fun _ => hindex _ _) fun _ => sameLedger_refl _)

end

/-! ### The requests of the cycle (R113) -/

section
variable (s : State) (n : Nat) (sigs : List Nat) (po un : Bool)

/-- The requests that have reached fence `n` in this cycle, those that reach it now among them. -/
def requested : FenReq :=
  { s.fenReq n with sigs := (s.fenReq n).sigs ++ sigs, poison := (s.fenReq n).poison || po, unpoison := (s.fenReq n).unpoison || un }

/-- How many of the values signalled lie below the value that the fence had at the cycle's start (R110). -/
def staleSignals : Nat := (sigs.filter (· < (s.fenReq n).value)).length

/-- The requests noted and VALUE raised, before anything is counted or reported. -/
def fenceRaised : State :=
  ({ s with seen := { s.seen with reqs := requested s n sigs po un :: s.seen.reqs.filter fun x => x.n ≠ n } } : State).setWide 64
    (Reg.FEN_VALUE_LO n) (sigs.foldl max (s.fenceValue n))

/-- Stale signals counted (R110). -/
def fenceCounted : State :=
  if staleSignals s n sigs = 0 then fenceRaised s n sigs po un
  else (fenceRaised s n sigs po un).incSat Fld.FEN_STALE_COUNT (staleSignals s n sigs)

/-- Once the stale signals are counted a request only reports, and sets POISONED. -/
theorem fenceApply_reports : SameLedger (fenceCounted s n sigs po un) (fenceApply s n sigs po un) := by
  have hstate (t : State) (b : Bool) : SameLedger t (t.putB (Fld.FEN_STATE_POISONED n) b) :=
    sameLedger_put t _ rfl (by simp only [Fld.FEN_STATE_POISONED, Reg.FEN_STATE, Reg.FEN_STALE]; omega)
  have hstale : SameLedger (fenceCounted s n sigs po un) (if staleSignals s n sigs = 0 then fenceRaised s n sigs po un
      else ((fenceRaised s n sigs po un).incSat Fld.FEN_STALE_COUNT (staleSignals s n sigs)).irqF Fld.FEN_IRQ_STATUS_STALE) := by
    unfold fenceCounted
    split
    · exact sameLedger_refl _
    · exact sameLedger_irqF _ rfl
  unfold fenceApply
  refine sameLedger_trans (sameLedger_trans hstale (hstate _ (poisonedAfter s n po un)))
    (sameLedger_trans (sameLedger_ite (fun _ => ?_) fun _ => ?_) (sameLedger_watchesFire _ n _ _))
  · exact sameLedger_notePoison _ n
  · exact sameLedger_refl _

theorem reqs_fenceApply :
    (fenceApply s n sigs po un).seen.reqs = requested s n sigs po un :: s.seen.reqs.filter fun x => x.n ≠ n := by
  rw [(fenceApply_reports s n sigs po un).1]
  unfold fenceCounted
  split <;> rfl

/-- A request is noted under the fence it reached. -/
theorem fenReq_n : (s.fenReq n).n = n := by
  unfold State.fenReq
  cases h : s.seen.reqs.find? fun r => r.n = n with
  | none => rfl
  | some r => simpa using List.find?_some h

theorem requested_n : (requested s n sigs po un).n = n := fenReq_n s n

/-- The first requests of a cycle find the fence as the cycle did (R113). -/
theorem fenReq_first (h : ∀ r ∈ s.seen.reqs, r.n ≠ n) : s.fenReq n = ⟨n, s.fenceValue n, s.poisoned n, [], false, false⟩ := by
  have hnone : (s.seen.reqs.find? fun r => r.n = n) = none := List.find?_eq_none.2 fun r hr => by simpa using h r hr
  rw [State.fenReq, hnone]
  rfl

theorem fenReq_fenceApply : (fenceApply s n sigs po un).fenReq n = requested s n sigs po un := by
  rw [State.fenReq, reqs_fenceApply, List.find?_cons_of_pos (by simp [requested_n])]
  rfl

/-! ### The other fences -/

/-- A request changes VALUE and POISONED of its own fence, and the reports. -/
theorem frame_fenceApply_own : Frame [.msix] (orBits fenceReports (words [Reg.FEN_VALUE_LO n, Reg.FEN_VALUE_LO n + 4, Reg.FEN_STATE n]))
    s (fenceApply s n sigs po un) := by
  obtain ⟨x, hx⟩ := fenceApply_valued s n sigs po un
  refine frame_trans (frame_trans (frame_seen x) (frame_setWide _ _ _ (fun _ => .inr (by simp [words])) fun _ => .inr (by simp [words])))
    (frame_mono hx (fun _ h => h) ?_)
  rintro o b (h | ⟨f, hf, rfl, -⟩)
  · exact .inl h
  · rw [List.mem_singleton.1 hf]
    exact .inr (by simp [words, Fld.FEN_STATE_POISONED])

section
variable {n} {m : Nat} (hn : n < 1024) (hm : m < 1024) (hne : m ≠ n)
include hn hm hne

theorem fenceValue_fenceApply_ne : (fenceApply s n sigs po un).fenceValue m = s.fenceValue m := by
  refine wide_of_frame (frame_fenceApply_own s n sigs po un) (fun b _ => ?_) fun b _ => ?_ <;>
    simp only [fenceReports, orBits, pba, Safety.range, words, List.mem_cons, List.not_mem_nil, or_false, Reg.FEN_VALUE_LO,
      Reg.FEN_STATE] <;> omega

theorem poisoned_fenceApply_ne : (fenceApply s n sigs po un).poisoned m = s.poisoned m := by
  refine flag_of_frame (frame_fenceApply_own s n sigs po un) fun b _ _ => ?_
  simp only [fenceReports, orBits, pba, Safety.range, words, List.mem_cons, List.not_mem_nil, or_false, Reg.FEN_VALUE_LO,
    Fld.FEN_STATE_POISONED, Reg.FEN_STATE]
  omega

theorem fenReq_fenceApply_ne : (fenceApply s n sigs po un).fenReq m = s.fenReq m := by
  have hown : ¬ (requested s n sigs po un).n = m := (requested_n s n sigs po un).trans_ne hne.symm
  have hkept : ((s.seen.reqs.filter fun x => x.n ≠ n).find? fun r => r.n = m) = s.seen.reqs.find? fun r => r.n = m := by
    rw [List.find?_filter]
    refine congrArg (List.find? · _) (funext fun r => ?_)
    by_cases h : r.n = m <;> simp [h, hne]
  rw [State.fenReq, reqs_fenceApply, List.find?_cons_of_neg (by simpa using hown), hkept, fenceValue_fenceApply_ne s sigs po un hn hm hne,
    poisoned_fenceApply_ne s sigs po un hn hm hne, State.fenReq]

end

/-! ### The stale count (R110) -/

/-- A saturating counter that counts `k` more (R518). -/
theorem get_incSat (t : State) {f : Field} (k : Nat) (h : fits f = true) :
    (t.incSat f k).get f = min (2 ^ f.width - 1) (t.get f + k) := by
  have hpos := Nat.two_pow_pos f.width
  have hget : (t.incSat f k).get f = satU f.width (t.get f + k) % 2 ^ f.width := get_put_self t _ h
  rw [hget, satU, Nat.mod_eq_of_lt (by omega), Nat.min_comm]

/-- VALUE raised, the stale count is as it was. -/
theorem staleCount_fenceRaised : (fenceRaised s n sigs po un).get Fld.FEN_STALE_COUNT = s.get Fld.FEN_STALE_COUNT := by
  have hne : Reg.FEN_STALE ≠ Reg.FEN_VALUE_LO n ∧ Reg.FEN_STALE ≠ Reg.FEN_VALUE_LO n + 4 := by
    simp only [Reg.FEN_STALE, Reg.FEN_VALUE_LO]; omega
  exact congrArg (Field.get _) ((reg_setReg_ne _ _ _ _ hne.2).trans (reg_setReg_ne _ _ _ _ hne.1))

theorem staleCount_fenceApply : (fenceApply s n sigs po un).get Fld.FEN_STALE_COUNT =
    min 0xFFFF (s.get Fld.FEN_STALE_COUNT + staleSignals s n sigs) := by
  rw [(fenceApply_reports s n sigs po un).2, fenceCounted]
  split
  case isTrue hnone =>
    have hlt : s.get Fld.FEN_STALE_COUNT < 2 ^ 16 := get_lt s _
    rw [staleCount_fenceRaised, hnone, Nat.add_zero, Nat.min_eq_right (by omega)]
  case isFalse => rw [get_incSat _ _ rfl, staleCount_fenceRaised]; rfl

end

/-- The largest of numbers of 64 bits has 64 bits. -/
theorem foldl_max_lt {b : Nat} {l : List Nat} {a : Nat} (ha : a < b) (hl : ∀ v ∈ l, v < b) : l.foldl max a < b :=
  List.foldlRecOn (motive := (· < b)) l max ha fun _ h v hv => max_lt h (hl v hv)

/-- Settles O9: the requests noted, VALUE, POISONED and the stale count, then the other fences and the rest. -/
theorem fenceRequests : Obligations.FenceRequests := by
  unfold Obligations.FenceRequests
  intro s n sigs poison unpoison hn hsigs
  exact ⟨fenReq_first s n, fenReq_fenceApply s n sigs poison unpoison,
    fenceValue_fenceApply s n sigs poison unpoison hn (foldl_max_lt (wide_lt s _) hsigs),
    poisoned_fenceApply s n sigs poison unpoison, staleCount_fenceApply s n sigs poison unpoison,
    fun m hm hne => ⟨fenceValue_fenceApply_ne s sigs poison unpoison hn hm hne, poisoned_fenceApply_ne s sigs poison unpoison hn hm hne,
      fenReq_fenceApply_ne s sigs poison unpoison hn hm hne⟩,
    frame_fenceApply n hn sigs poison unpoison (fun _ _ h => h) (by simp)⟩

end Sys2Proof.Proofs
end

section
/-!
PROOF. The waits that a cycle resolves (O11: R113 to R115, R120).
-/

namespace Sys2Proof.Proofs
open Sys2Proof Sys2Proof.Machine Sys2Proof.Safety Sys2Proof.Laws

/-! ### How a wait stands (R114, R120) -/

theorem foldl_orBit_eq_zero : ∀ {l : List Nat} {a : Nat}, l.foldl orBit a = 0 ↔ a = 0 ∧ l = []
  | [], _ => by simp
  | i :: l, a => by
    have hbit : orBit a i ≠ 0 := fun h => absurd (Nat.or_eq_zero_iff.1 h).2 (by simp)
    simp [foldl_orBit_eq_zero, hbit]

/-- No entry is marked where the test holds for none. -/
theorem entryMask_eq_zero {p : Nat × Nat → Bool} {l : List (Nat × Nat)} : entryMask p l = 0 ↔ ∀ e ∈ l, p e = false := by
  rw [entryMask, foldl_orBit_eq_zero]
  simp only [true_and, List.filter_eq_nil_iff, List.mem_range, List.forall_mem_iff_getElem]
  exact forall₂_congr fun i hi => by simp [hi]

theorem entryMask_congr {p q : Nat × Nat → Bool} {l : List (Nat × Nat)} (h : ∀ e ∈ l, p e = q e) :
    entryMask p l = entryMask q l := by
  refine congrArg (List.foldl orBit 0) (List.filter_congr fun i hi => ?_)
  have hlt : i < l.length := List.mem_range.1 hi
  simpa [hlt] using h _ (List.getElem_mem hlt)

/-- A descriptor waits on the 1024 fences. -/
theorem waits_fence_lt (d : Desc) : ∀ e ∈ d.waits, e.1 < 1024 := by
  intro e he
  rcases List.mem_cons.1 he with rfl | he
  · exact Nat.mod_lt _ (by decide)
  · split at he
    · obtain ⟨i, -, rfl⟩ := List.mem_map.1 he
      exact Nat.mod_lt _ (by decide)
    · cases he

section
variable (s : State) (d : Desc)

/-- The entries whose fence is poisoned. -/
def poisonedEntries : Nat := entryMask (fun e => s.poisoned e.1) d.waits

/-- The entries that the present fence state satisfies. -/
def metEntries : Nat := entryMask (fun e => !s.poisoned e.1 && decide (e.2 ≤ s.fenceValue e.1)) d.waits

/-- One satisfied entry is enough: a WAIT in ANY mode (R120). -/
def anyMode : Bool := d.opcode = 0x08 && bitOf (d.pay 32 1) 4

/-- The result of a wait from its poisoned and its satisfied entries (R114, R120). -/
def waitResult (poi sat : Nat) : WaitRes :=
  let first := match bitList 4 poi with
    | i :: _ => (d.waits[i]?.map (·.1)).getD 0
    | [] => 0
  if anyMode d then
    if sat ≠ 0 then .sat sat else if poi = 2 ^ d.waits.length - 1 then .fail first sat else .open_ sat
  else if poi ≠ 0 then .fail first sat
  else if sat = 2 ^ d.waits.length - 1 then .sat sat
  else .open_ sat

theorem waitStatus_eq : s.waitStatus d = waitResult d (poisonedEntries s d) (d.sat ||| metEntries s d) := rfl

/-- A wait fails on its poisoned fences: in ANY mode only where all are poisoned and no entry was satisfied (R114, R120). -/
def WaitFails : Prop :=
  if anyMode d then d.sat ||| metEntries s d = 0 ∧ poisonedEntries s d = 2 ^ d.waits.length - 1 else poisonedEntries s d ≠ 0

theorem waitStatus_fail_iff : (∃ f m, s.waitStatus d = .fail f m) ↔ WaitFails s d := by
  rw [waitStatus_eq, waitResult, WaitFails]
  split_ifs <;> simp_all

end

/-- An unresolved wait reports the entries satisfied so far. -/
theorem open_of_waitStatus {s : State} {d : Desc} {m : Nat} (h : s.waitStatus d = .open_ m) : m = d.sat ||| metEntries s d := by
  rw [waitStatus_eq, waitResult] at h
  split_ifs at h <;> simp_all

/-! ### A cycle's signals only raise fences (R110) -/

/-- From `s` to `t` no fence is poisoned or freed, and none falls. -/
def FencesRise (s t : State) : Prop := ∀ m < 1024, t.poisoned m = s.poisoned m ∧ s.fenceValue m ≤ t.fenceValue m

theorem fencesRise_signal (s : State) {n v : Nat} (hn : n < 1024) (hv : v < 2 ^ 64) : FencesRise s (fenceApply s n [v] false false) := by
  intro m hm
  by_cases h : m = n
  · subst h
    have hvalue := fenceValue_fenceApply s m [v] false false hn (max_lt (wide_lt s _) hv)
    exact ⟨poisoned_fenceApply s m [v] false false, hvalue ▸ le_max_left _ _⟩
  · exact ⟨poisoned_fenceApply_ne s [v] false false hn hm h, (fenceValue_fenceApply_ne s [v] false false hn hm h).ge⟩

/-- The value that a descriptor signals has 64 bits. -/
theorem signalValue_lt (d : Desc) : d.signalValue < 2 ^ 64 :=
  (leNat_lt _).trans_le (Nat.pow_le_pow_right (by decide : 0 < 256) (List.length_take_le 8 (d.raw.drop 24)))

theorem fencesRise_completeOk (s : State) (d : Desc) (detail result : Nat) : FencesRise s (complete1 s d stOK detail result) := by
  have hsame : FencesRise s (retired s d stOK detail result) := fun _ _ => ⟨rfl, Nat.le_refl _⟩
  rw [complete1_eq, if_pos rfl]
  split_ifs
  · exact hsame
  · exact hsame
  · exact fencesRise_signal (retired s d stOK detail result) (Nat.mod_lt _ (by decide)) (signalValue_lt d)

section
variable {s t : State} (h : FencesRise s t) (d : Desc)
include h

theorem poisonedEntries_of_rise : poisonedEntries t d = poisonedEntries s d :=
  entryMask_congr fun e he => (h e.1 (waits_fence_lt d e he)).1

/-- Where no entry is satisfied now, none was before. -/
theorem metEntries_of_rise (hnone : metEntries t d = 0) : metEntries s d = 0 := by
  refine entryMask_eq_zero.2 fun e he => ?_
  obtain ⟨hpoi, hval⟩ := h e.1 (waits_fence_lt d e he)
  have hunmet := entryMask_eq_zero.1 hnone e he
  rw [hpoi] at hunmet
  simp only [Bool.and_eq_false_iff, decide_eq_false_iff_not] at hunmet ⊢
  exact hunmet.imp_right fun hlow => by omega

/-- Signals make no wait fail (R114). -/
theorem waitFails_of_rise (hfail : WaitFails t d) : WaitFails s d := by
  simp only [WaitFails, poisonedEntries_of_rise h, Nat.or_eq_zero_iff] at hfail ⊢
  split_ifs at hfail ⊢
  · obtain ⟨⟨hsat, hmet⟩, hall⟩ := hfail
    exact ⟨⟨hsat, metEntries_of_rise h d hmet⟩, hall⟩
  · exact hfail

end

/-! ### The descriptors that wait -/

/-- How many descriptors in flight wait on a fence. -/
def waitingCount (s : State) : Nat := s.ring.flight.countP fun d => d.stage = .waiting

section
variable {s : State}

theorem failing_none : s.failing = none ↔ ∀ d ∈ s.ring.flight, d.stage = .waiting → ¬ WaitFails s d := by
  simp only [State.failing, List.findSome?_eq_none_iff, ← waitStatus_fail_iff]
  refine forall₂_congr fun d _ => ?_
  split_ifs with hw
  · simp [hw]
  · cases s.waitStatus d <;> simp_all

theorem satisfied_none : s.satisfied = none ↔ ∀ d ∈ s.ring.flight, d.stage = .waiting → ∀ m, s.waitStatus d ≠ .sat m := by
  simp only [State.satisfied, List.findSome?_eq_none_iff]
  refine forall₂_congr fun d _ => ?_
  split_ifs with hw
  · simp [hw]
  · cases s.waitStatus d <;> simp_all

theorem waiting_of_failing {d : Desc} {f m : Nat} (h : s.failing = some (d, f, m)) : d ∈ s.ring.flight ∧ d.stage = .waiting := by
  obtain ⟨e, he, hstatus⟩ := List.exists_of_findSome?_eq_some h
  split_ifs at hstatus with hstage
  split at hstatus <;> cases hstatus
  exact ⟨he, not_not.1 hstage⟩

theorem waiting_of_satisfied {d : Desc} {m : Nat} (h : s.satisfied = some (d, m)) : d ∈ s.ring.flight ∧ d.stage = .waiting := by
  obtain ⟨e, he, hstatus⟩ := List.exists_of_findSome?_eq_some h
  split_ifs at hstatus with hstage
  split at hstatus <;> cases hstatus
  exact ⟨he, not_not.1 hstage⟩

/-- Where no descriptor waits none is resolved. -/
theorem not_waiting_of_count (h : waitingCount s = 0) : ∀ d ∈ s.ring.flight, d.stage ≠ .waiting := by
  simpa [waitingCount, List.countP_eq_zero] using h

theorem flight_complete1 (s : State) (d : Desc) (status detail result : Nat) :
    (complete1 s d status detail result).ring.flight = s.ring.flight.erase d :=
  (frame_retired_complete1 s d status detail result).2 .flight (by simp)

section
variable {d : Desc} (hd : d ∈ s.ring.flight) (hw : d.stage = .waiting)
include hd hw

/-- A waiting descriptor among the others. -/
theorem waitingCount_erase : waitingCount s = ((s.ring.flight.erase d).countP fun d => d.stage = .waiting) + 1 :=
  ((List.perm_cons_erase hd).countP_eq _).trans (List.countP_cons_of_pos (by simpa using hw))

/-- One that completes waits no more. -/
theorem waitingCount_complete1 (status detail result : Nat) :
    waitingCount (complete1 s d status detail result) < waitingCount s := by
  rw [waitingCount_erase hd hw, waitingCount, flight_complete1]
  exact Nat.lt_succ_self _

/-- One that becomes ready waits no more. -/
theorem waitingCount_setDesc {e : Desc} (he : e.stage ≠ .waiting) : waitingCount (s.setDesc d e) < waitingCount s := by
  have hmap := ((List.perm_cons_erase hd).map fun x => if x = d then e else x).countP_eq fun d => decide (d.stage = .waiting)
  rw [List.map_cons, if_pos rfl, List.countP_cons_of_neg (by simpa using he)] at hmap
  rw [waitingCount_erase hd hw]
  refine Nat.lt_succ_of_le (hmap.trans_le (List.countP_map.trans_le (List.countP_mono_left fun x _ hx => ?_)))
  simp only [Function.comp_apply] at hx
  split_ifs at hx with h
  · exact absurd (of_decide_eq_true hx) he
  · exact hx

end

/-! ### The rounds (R113 to R115) -/

/-- A round lets only waiting descriptors wait on. -/
theorem waiting_setDesc {d e x : Desc} (he : e.stage ≠ .waiting) (hx : x ∈ (s.setDesc d e).ring.flight) (hw : x.stage = .waiting) :
    x ∈ s.ring.flight := by
  obtain ⟨y, hy, rfl⟩ := List.mem_map.1 hx
  split_ifs at hw ⊢
  · exact absurd hw he
  · exact hy

/-- Rounds enough for the descriptors that wait leave no wait that fails (R115). -/
theorem failing_failWaits : ∀ {n : Nat} {s : State}, waitingCount s ≤ n → (failWaits n s).failing = none
  | 0, s, h => failing_none.2 fun d hd hw => absurd hw (not_waiting_of_count (Nat.le_zero.1 h) d hd)
  | n + 1, s, h => by
    rw [failWaits]
    cases hfail : s.failing with
    | none => exact hfail
    | some x =>
      obtain ⟨d, f, m⟩ := x
      obtain ⟨hd, hw⟩ := waiting_of_failing hfail
      exact failing_failWaits (Nat.le_of_lt_succ ((waitingCount_complete1 hd hw _ _ _).trans_le h))

/-- A round of the satisfied waits: one descriptor waits no more, signals are all that reaches the fences, and no other descriptor
begins to wait (R114, R115). -/
theorem satWaits_round {n : Nat} {d : Desc} {m : Nat} (h : s.satisfied = some (d, m)) : ∃ t, satWaits (n + 1) s = satWaits n t ∧
    waitingCount t < waitingCount s ∧ FencesRise s t ∧ ∀ x ∈ t.ring.flight, x.stage = .waiting → x ∈ s.ring.flight := by
  obtain ⟨hd, hw⟩ := waiting_of_satisfied h
  have hready : ({ d with stage := .ready, sat := m } : Desc).stage ≠ .waiting := by simp
  rw [satWaits, h]
  dsimp only
  split_ifs
  · exact ⟨_, rfl, waitingCount_complete1 hd hw _ _ _, fencesRise_completeOk s d 0 m, fun x hx _ =>
      List.mem_of_mem_erase (flight_complete1 s d stOK 0 m ▸ hx)⟩
  · exact ⟨_, rfl, waitingCount_setDesc hd hw hready, fun _ _ => ⟨rfl, Nat.le_refl _⟩,
      fun x hx hwx => waiting_setDesc hready hx hwx⟩

/-- Rounds enough leave no wait that is satisfied, and signals make none fail (R114). -/
theorem resolved_satWaits : ∀ {n : Nat} {s : State}, waitingCount s ≤ n → s.failing = none →
    (satWaits n s).failing = none ∧ (satWaits n s).satisfied = none
  | 0, s, h, hfail => ⟨hfail, satisfied_none.2 fun d hd hw => absurd hw (not_waiting_of_count (Nat.le_zero.1 h) d hd)⟩
  | n + 1, s, h, hfail => by
    cases hsat : s.satisfied with
    | none => rw [satWaits_self hsat]; exact ⟨hfail, hsat⟩
    | some x =>
      obtain ⟨t, heq, hcount, hrise, hold⟩ := satWaits_round (n := n) hsat
      rw [heq]
      exact resolved_satWaits (Nat.le_of_lt_succ (hcount.trans_le h)) <| failing_none.2 fun d hd hw hfails =>
        failing_none.1 hfail d (hold d hd hw) hw (waitFails_of_rise hrise d hfails)

/-! ### What is left waiting -/

theorem waitingCount_le (s : State) : waitingCount s ≤ s.ring.flight.length := List.countP_le_length

/-- A wait that is neither failed nor satisfied is open. -/
theorem waitStatus_open {d : Desc} (hfail : ¬ WaitFails s d) (hsat : ∀ m, s.waitStatus d ≠ .sat m) :
    s.waitStatus d = .open_ (d.sat ||| metEntries s d) := by
  cases h : s.waitStatus d with
  | open_ m => rw [open_of_waitStatus h]
  | sat m => exact absurd h (hsat m)
  | fail f m => exact absurd ((waitStatus_fail_iff s d).1 ⟨f, m, h⟩) hfail

/-- An open wait that notes its satisfied entries has noted all of them (R120). -/
theorem waitStatus_noteWait {d : Desc} (hw : d.stage = .waiting) (hopen : s.waitStatus d = .open_ (d.sat ||| metEntries s d)) :
    s.waitStatus (s.noteWait d) = .open_ (s.noteWait d).sat := by
  have hnote : s.noteWait d = { d with sat := d.sat ||| metEntries s d } := by rw [State.noteWait, if_pos hw, hopen]
  have hsame : s.waitStatus { d with sat := d.sat ||| metEntries s d } =
      waitResult d (poisonedEntries s d) (d.sat ||| metEntries s d ||| metEntries s d) := rfl
  rw [hnote, hsame, Nat.or_assoc, Nat.or_self, ← waitStatus_eq, hopen]

theorem noteWait_stage (s : State) (d : Desc) : (s.noteWait d).stage = d.stage := by
  unfold State.noteWait
  split_ifs
  · split <;> rfl
  · rfl

end

/-- Settles O11: the rounds of the failed waits and of the satisfied ones end with neither left, and what waits on is noted. -/
theorem noResolvedWaitIsLeft : Obligations.NoResolvedWaitIsLeft := by
  unfold Obligations.NoResolvedWaitIsLeft
  intro s
  refine ⟨fun d hd hw => ?_, frame_settle (fun _ _ h => h) (by simp) (by simp) (by simp)⟩
  let t := failWaits s.ring.flight.length s
  obtain ⟨hfail, hsat⟩ := resolved_satWaits (waitingCount_le t) (failing_failWaits (waitingCount_le s))
  obtain ⟨e, he, rfl⟩ := List.mem_map.1 hd
  rw [noteWait_stage] at hw
  exact waitStatus_noteWait hw (waitStatus_open (failing_none.1 hfail e he hw) (satisfied_none.1 hsat e he hw))

end Sys2Proof.Proofs
end

section
/-!
PROOF. Host commands to a fence, and the SIGNAL, UNPOISON and WAIT descriptors (O16, O18: R111, R119 to R124, R518).
-/

namespace Sys2Proof.Proofs
open Sys2Proof Sys2Proof.Machine Sys2Proof.Safety Sys2Proof.Laws

/-! ### FEN_HSIG_CMD (R111, R123, R124) -/

/-- A field of one bit is set where that bit of the word is. -/
theorem field_get_eq_one {f : Field} (h : f.hi = f.lo) (w : Word) : decide (f.get w = 1) = w.getLsbD f.lo := by
  simp [Field.get, bitsOf, h, BitVec.getLsbD, Nat.testBit_eq_decide_div_mod_eq, Nat.shiftRight_eq_div_pow]

/-- A write of FEN_HSIG_CMD by its request bits. -/
theorem fenHsigCmd_eq (s : State) (w : Word) : fenHsigCmd s w =
    if w.getLsbD 16 || w.getLsbD 17 || w.getLsbD 18 then
      s.fence (w.toNat % 1024) (if w.getLsbD 16 || w.getLsbD 17 then [s.wide Reg.FEN_HSIG_LO] else []) (w.getLsbD 18) (w.getLsbD 17)
    else s := by
  have hsig : decide (Fld.FEN_HSIG_CMD_SIGNAL.get w = 1) = w.getLsbD 16 := field_get_eq_one rfl w
  have hunp : decide (Fld.FEN_HSIG_CMD_UNPOISON.get w = 1) = w.getLsbD 17 := field_get_eq_one rfl w
  have hpoi : decide (Fld.FEN_HSIG_CMD_POISON.get w = 1) = w.getLsbD 18 := field_get_eq_one rfl w
  have hindex : Fld.FEN_HSIG_CMD_INDEX.get w = w.toNat % 1024 := by simp [Field.get, bitsOf, Fld.FEN_HSIG_CMD_INDEX]
  simp only [fenHsigCmd, hsig, hunp, hpoi, hindex]

/-- INDEX lies below the request bits. -/
theorem index_or_request (v : Word) {r : Word} (h : r.toNat % 1024 = 0) : (v ||| r).toNat % 1024 = v.toNat % 1024 := by
  rw [BitVec.toNat_or, Nat.or_mod_two_pow (n := 10), h, Nat.or_zero]

section
variable {s : State} (v : Word)

theorem fenHsigCmd_signal : fenHsigCmd s (v ||| 0x10000) =
    s.fence (v.toNat % 1024) [s.wide Reg.FEN_HSIG_LO] (v.getLsbD 18) (v.getLsbD 17) := by
  rw [fenHsigCmd_eq, index_or_request v rfl]
  simp

theorem fenHsigCmd_unpoison : fenHsigCmd s (v ||| 0x20000) =
    s.fence (v.toNat % 1024) [s.wide Reg.FEN_HSIG_LO] (v.getLsbD 18) true := by
  rw [fenHsigCmd_eq, index_or_request v rfl]
  simp

theorem fenHsigCmd_poison : fenHsigCmd s (v ||| 0x40000) =
    s.fence (v.toNat % 1024) (if v.getLsbD 16 || v.getLsbD 17 then [s.wide Reg.FEN_HSIG_LO] else []) true (v.getLsbD 17) := by
  rw [fenHsigCmd_eq, index_or_request v rfl]
  simp

variable (hrun : s.pwr.hold = .running)
include hrun

section
variable (h : s.served Reg.FEN_HSIG_CMD = true)
include h

theorem exec_fenHsigSignal : exec (.fenHsigSignal v) s = .next (fenHsigCmd s (v ||| 0x10000)) :=
  (act_running s _ hrun).trans (by rw [if_pos h])

theorem exec_fenHsigUnpoison : exec (.fenHsigUnpoison v) s = .next (fenHsigCmd s (v ||| 0x20000)) :=
  (act_running s _ hrun).trans (by rw [if_pos h])

theorem exec_fenHsigPoison : exec (.fenHsigPoison v) s = .next (fenHsigCmd s (v ||| 0x40000)) :=
  (act_running s _ hrun).trans (by rw [if_pos h])

theorem exec_fenStaleClr : exec .fenStaleClr s = .next (s.clrField Fld.FEN_STALE_COUNT) :=
  (act_running s _ hrun).trans (by rw [if_pos ((served_fen s Reg.FEN_STALE (by decide) (by decide)).trans h)])

end

end

/-! ### The descriptors (R119 to R122) -/

/-- A SIGNAL descriptor signals its fence, is noted among the signals of the cycle, and completes with the value of the fence after it
(R122). -/
def signalDone (s : State) (d : Desc) (sq seq : Nat) (unp : Bool) : State :=
  let n := d.signalFence % 1024
  let t := fenceApply s n [d.signalValue] false unp
  complete1 { t with seen := { t.seen with signals := (sq, seq, n) :: t.seen.signals } } d stOK 0 (t.fenceValue n)
    (if bitOf (d.pay 33 1) 0 then some (d.pay 40 8, leBytes 8 (t.fenceValue n)) else none)

/-- A dispatched SIGNAL descriptor acts by its OP (R121). -/
theorem signalDesc_eq {s : State} {d : Desc} {sq seq op : Nat} (h : s.takeDispatched sq seq 0x07 = some d) (hop : d.pay 32 1 = op) :
    signalDesc s sq seq op = signalDone s d sq seq (decide (op = 1)) := by
  rw [signalDesc, h]
  exact if_neg (not_not.2 hop)

section
variable {s : State} (hrun : s.pwr.hold = .running) (sq : Fin 64) (seq : BitVec 16)
include hrun

theorem exec_signal : exec (.signal sq seq) s = .next (signalDesc s sq seq.toNat 0) :=
  act_running s (signalDesc · sq seq.toNat 0) hrun

theorem exec_unpoison : exec (.unpoison sq seq) s = .next (signalDesc s sq seq.toNat 1) :=
  act_running s (signalDesc · sq seq.toNat 1) hrun

theorem exec_wait {d : Desc} (h : s.takeDispatched sq seq.toNat 0x08 = some d) :
    exec (.wait sq seq) s = .next (s.complete d stOK 0 d.sat) := by
  show execWait sq seq s = _
  rw [execWait, act_running s _ hrun, h]

end

/-- Settles O16: the three request bits of FEN_HSIG_CMD, then the CLR of the stale count. -/
theorem hostFenceCommands : Obligations.HostFenceCommands := by
  unfold Obligations.HostFenceCommands
  intro s v hrun h
  rw [exec_fenHsigSignal v hrun h, exec_fenHsigUnpoison v hrun h, exec_fenHsigPoison v hrun h, fenHsigCmd_signal, fenHsigCmd_unpoison,
    fenHsigCmd_poison]
  exact ⟨rfl, rfl, rfl, _, exec_fenStaleClr hrun h, get_clrField s rfl, frame_put _ _ (covers_of_fits (by simp) rfl)⟩

/-- Settles O18: a SIGNAL descriptor by its OP, and a WAIT descriptor. -/
theorem fenceDescriptors : Obligations.FenceDescriptors := by
  unfold Obligations.FenceDescriptors
  intro s sq seq d hrun
  refine ⟨fun h => ⟨fun hop => ?_, fun hop => ?_⟩, exec_wait hrun sq seq⟩
  · rw [exec_signal hrun, signalDesc_eq h hop]
    rfl
  · rw [exec_unpoison hrun, signalDesc_eq h hop]
    rfl

end Sys2Proof.Proofs
end

section
/-!
PROOF. What the operations on a marver change: its interrupts, its points, its fence, the end of its reheat, a word in error
(R149, R150, R156, R175, R180).
-/

namespace Sys2Proof.Proofs
open Sys2Proof Sys2Proof.Machine Sys2Proof.Safety Sys2Proof.Laws

/-! ### Reach -/

/-- The parts of the state that a fence and the end of a reheat change. -/
def marverParts : List Part := [.tel, .msix, .mrv, .runs, .jobs, .recs, .flight]

/-- The bits of some fields of the marvers, and those that a completion and a record reach. -/
def marverReach (fs : List Field) : Bits := fun o b => fenceReach o b ∨ tellBits o b ∨ bits fs o b

theorem covers_marverReach {fs : List Field} {f : Field} (h : f ∈ fs) (k : fits f = true) : Covers (marverReach fs) f :=
  ⟨(fits_iff.1 k).1, (fits_iff.1 k).2, fun _ h1 h2 => .inr (.inr ⟨f, h, rfl, h1, h2⟩)⟩

theorem marverReach_of_pba (fs : List Field) (o b : Nat) (h : pba o b) : marverReach fs o b := .inl (.inl h)

theorem marverReach_mono {fs gs : List Field} (h : fs ⊆ gs) (o b : Nat) (k : marverReach fs o b) : marverReach gs o b :=
  k.imp_right (.imp_right (bits_mono h o b))

section
variable {ps : List Part} {s t : State} {fs : List Field}

/-- A bit of the gaffer or the marvers beside the fields named. -/
theorem not_marverReach {o b : Nat} (ho : o / 0x10000 = 1 ∨ o / 0x10000 = 4) (hf : ∀ g ∈ fs, g.off = o → b < g.lo ∨ g.hi < b) :
    ¬ marverReach fs o b := by
  rintro ((k | k) | (k | ⟨g, hg, hgo, -⟩) | ⟨g, hg, hgo, h3, h4⟩)
  · simp only [pba, Safety.range] at k; omega
  · simp only [fences, Safety.range] at k; omega
  · simp only [pba, Safety.range] at k; omega
  · have hlog : ∀ g ∈ [Fld.LOG_LOSS_QLOST, Fld.LOG_IRQ_STATUS_QLOST], g.off / 0x10000 = 20 := by decide
    have := hlog g hg
    omega
  · have := hf g hg hgo
    omega

/-- A field of the gaffer or the marvers apart from those named is as it was. -/
theorem get_of_marverReach (h : Frame ps (marverReach fs) s t) {f : Field} (hb : f.off / 0x10000 = 1 ∨ f.off / 0x10000 = 4)
    (hf : ∀ g ∈ fs, apart f g = true) : t.get f = s.get f := by
  refine get_of_frame h fun b h1 h2 => not_marverReach hb fun g hg ho => ?_
  have := hf g hg
  simp only [apart, ne_eq, Bool.or_eq_true, decide_eq_true_eq] at this
  omega

theorem reg_of_marverReach (h : Frame ps (marverReach fs) s t) {o : Nat} (ho : o / 0x10000 = 1 ∨ o / 0x10000 = 4)
    (hf : ∀ g ∈ fs, g.off ≠ o) : t.reg o = s.reg o :=
  reg_of_frame h fun _ _ => not_marverReach ho fun g hg e => absurd e (hf g hg)

theorem flag_of_marverReach (h : Frame ps (marverReach fs) s t) {f : Field} (hb : f.off / 0x10000 = 1 ∨ f.off / 0x10000 = 4)
    (hf : ∀ g ∈ fs, apart f g = true) : t.flag f = s.flag f := by simp only [State.flag, get_of_marverReach h hb hf]

theorem mrvAt_of_frame {p : Bits} (h : Frame ps p s t) (hm : .mrv ∉ ps) (m : Nat) : t.mrvAt m = s.mrvAt m :=
  congrArg (fun l : List Mrv => l.getD m Mrv.init) (h.2 .mrv hm)

end

@[simp] theorem mrvAt_putB (s : State) (f : Field) (b : Bool) (m : Nat) : (s.putB f b).mrvAt m = s.mrvAt m := rfl

/-! ### Interrupts (Table 5.11) -/

section
variable (s : State) (m : Nat) {f : Field}

theorem frame_mrvIrq {ps : List Part} {p : Bits} (hs : Covers p Fld.MRV_IRQ_SRC_SRC) (hf : p f.off f.lo)
    (hp : ∀ o b, pba o b → p o b) (hm : .msix ∈ ps) : Frame ps p s (s.mrvIrq m f) :=
  frame_then_irqF (frame_putBit Fld.MRV_IRQ_SRC_SRC m true hs) f hf hp hm

/-- An interrupt of a marver, with its status bit and MRV_IRQ_SRC among the fields that a frame names. -/
theorem frame_mrvIrq_listed {ps : List Part} {fs : List Field} (hs : Fld.MRV_IRQ_SRC_SRC ∈ fs) (hf : f ∈ fs) (k : fits f = true)
    (hm : .msix ∈ ps) : Frame ps (orBits pba (bits fs)) s (s.mrvIrq m f) :=
  frame_mrvIrq s m (covers_right _ (covers_of_fits hs rfl)) (.inr ⟨f, hf, rfl, Nat.le_refl _, (fits_iff.1 k).1⟩) (fun _ _ => .inl) hm

theorem frame_marverReach_mrvIrq {ps : List Part} {fs : List Field} (hs : Fld.MRV_IRQ_SRC_SRC ∈ fs) (hf : f ∈ fs) (k : fits f = true)
    (hm : .msix ∈ ps) : Frame ps (marverReach fs) s (s.mrvIrq m f) :=
  frame_mono (frame_mrvIrq_listed (ps := ps) s m hs hf k hm) (fun _ h => h) fun o b h =>
    h.elim (marverReach_of_pba fs o b) fun h => .inr (.inr h)

@[simp] theorem mrvAt_mrvIrq (k : Nat) : (s.mrvIrq m f).mrvAt k = s.mrvAt k :=
  mrvAt_of_frame (frame_mrvIrq (ps := [.msix]) (p := fun _ _ => True) s m ⟨by decide, by decide, fun _ _ _ => trivial⟩ trivial
    (fun _ _ _ => trivial) (by simp)) (by simp) k

theorem flag_mrvIrq (h : f.hi = f.lo) (h32 : f.lo < 32) (ho : f.off / 0x10000 = 4) : (s.mrvIrq m f).flag f = true :=
  flag_irqF _ f h h32 (not_pba_of_outside (by omega))

theorem bitF_mrvIrq_src (hm : m < 16) (k : fits f = true) (h : f.off ≠ Reg.MRV_IRQ_SRC) :
    (s.mrvIrq m f).bitF Fld.MRV_IRQ_SRC_SRC m = true := by
  have hset : (s.putBit Fld.MRV_IRQ_SRC_SRC m true).bitF Fld.MRV_IRQ_SRC_SRC m = true :=
    bitF_setBit_self s rfl (by simp only [Fld.MRV_IRQ_SRC_SRC]; omega)
  rw [State.bitF, State.mrvIrq, get_irqF_apart _ k (apart_of_off (Ne.symm h)) (.inr (by decide))]
  exact hset

end

/-! ### Points and ramps (R156) -/

/-- What a point that takes effect sets. -/
def pointFields (m : Nat) : List Field := [Fld.MRV_STATE_DVFS_CUR m, Fld.MRV_IRQ_SRC_SRC, Fld.MRV_IRQ_STATUS_DVFS_DONE]

/-- POINT and RAMP are apart from it. -/
theorem pointFields_apart : ∀ m < 16, ∀ g ∈ pointFields m,
    apart (Fld.MRV_DVFS_POINT m) g = true ∧ apart (Fld.MRV_STATE_RAMP m) g = true := by decide

section
variable (s : State) {m p : Nat}

/-- A point that takes effect is the current one (R156). -/
theorem dvfsApply_meets (hp : p < 4) : let t := dvfsApply s m p
    t.mrvAt m = { s.mrvAt m with due := none } ∧ t.get (Fld.MRV_STATE_DVFS_CUR m) = p ∧
      Frame [.mrv, .msix] (orBits pba (bits (pointFields m))) s t := by
  let u := s.setMrv m { s.mrvAt m with due := none }
  have hu : u.mrvAt m = { s.mrvAt m with due := none } := mrvAt_setMrv_same s m _
  have hset : Frame [.mrv, .msix] (orBits pba (bits (pointFields m))) s u := frame_setMrv s m _ (by simp)
  by_cases h : u.get (Fld.MRV_STATE_DVFS_CUR m) = p
  · rw [show dvfsApply s m p = u from if_pos h]
    exact ⟨hu, h, hset⟩
  · let w := u.put (Fld.MRV_STATE_DVFS_CUR m) p
    rw [show dvfsApply s m p = w.mrvIrq m Fld.MRV_IRQ_STATUS_DVFS_DONE from if_neg h]
    have hirq : Frame [.mrv, .msix] (orBits pba (bits [Fld.MRV_IRQ_SRC_SRC, Fld.MRV_IRQ_STATUS_DVFS_DONE])) w
        (w.mrvIrq m Fld.MRV_IRQ_STATUS_DVFS_DONE) := frame_mrvIrq_listed w m (by simp) (by simp) rfl (by simp)
    refine ⟨(mrvAt_mrvIrq w m m).trans hu, ?_, frame_trans (frame_then_put hset _ p (covers_right _ (covers_of_fits
      (by simp [pointFields]) rfl))) (frame_pba_mono hirq (fun _ h => h) (by simp [pointFields]))⟩
    have hcur : ∀ g ∈ [Fld.MRV_IRQ_SRC_SRC, Fld.MRV_IRQ_STATUS_DVFS_DONE], (Fld.MRV_STATE_DVFS_CUR m).off ≠ g.off := by
      simp [Fld.MRV_STATE_DVFS_CUR, Reg.MRV_STATE, Fld.MRV_IRQ_SRC_SRC, Fld.MRV_IRQ_STATUS_DVFS_DONE, Reg.MRV_IRQ_SRC, Reg.MRV_IRQ_STATUS]
      omega
    rw [get_of_frame_pba hirq (.inr (by simp only [Fld.MRV_STATE_DVFS_CUR, Reg.MRV_STATE]; omega)) fun g hg => apart_of_off (hcur g hg)]
    exact (get_put_self u p rfl).trans (Nat.mod_eq_of_lt hp)

/-- A point waits for the tick edge while the gaffer runs, and takes effect at once while it does not (R156). -/
theorem dvfsDue_meets (hp : p < 4) : let t := dvfsDue s m p
    (s.running = true → t.mrvAt m = { s.mrvAt m with due := some p }) ∧
      (s.running = false → t.mrvAt m = { s.mrvAt m with due := none } ∧ t.get (Fld.MRV_STATE_DVFS_CUR m) = p) ∧
      Frame [.mrv, .msix] (orBits pba (bits (pointFields m))) s t := by
  cases hr : s.running with
  | true =>
    rw [show dvfsDue s m p = s.setMrv m { s.mrvAt m with due := some p } from if_pos hr]
    exact ⟨fun _ => mrvAt_setMrv_same s m _, fun h => by simp at h, frame_setMrv s m _ (by simp)⟩
  | false =>
    rw [show dvfsDue s m p = dvfsApply s m p from if_neg (by simp [hr])]
    obtain ⟨hmrv, hcur, hframe⟩ := dvfsApply_meets s (m := m) hp
    exact ⟨fun h => by simp at h, fun _ => ⟨hmrv, hcur⟩, hframe⟩

theorem setRamp_meets (x : Option Nat) : let t := s.setRamp m x
    t.mrvAt m = { s.mrvAt m with ramp := x } ∧ t.flag (Fld.MRV_STATE_RAMP m) = x.isSome ∧
      Frame [.mrv] (bits [Fld.MRV_STATE_RAMP m]) s t :=
  ⟨mrvAt_setMrv_same s m _, flag_putB_self _ _ rfl rfl,
    frame_then_putB (frame_setMrv s m _ (by simp)) _ _ (covers_of_fits (by simp) rfl)⟩

theorem point_setRamp (x : Option Nat) : (s.setRamp m x).get (Fld.MRV_DVFS_POINT m) = s.get (Fld.MRV_DVFS_POINT m) :=
  get_of_frame_bits (setRamp_meets s (m := m) x).2.2 fun g hg => by
    rw [List.mem_singleton.1 hg]
    exact apart_of_off (by simp only [Fld.MRV_DVFS_POINT, Fld.MRV_STATE_RAMP, Reg.MRV_DVFS, Reg.MRV_STATE]; omega)

/-- A ramp ends, or is given up, for a point (R156). -/
theorem rampEnds_meets (hm : m < 16) (hp : p < 4) : let t := dvfsDue (s.setRamp m none) m p
    t.flag (Fld.MRV_STATE_RAMP m) = false ∧ t.get (Fld.MRV_DVFS_POINT m) = s.get (Fld.MRV_DVFS_POINT m) ∧
      (s.running = true → t.mrvAt m = { s.mrvAt m with ramp := none, due := some p }) ∧
      (s.running = false → t.mrvAt m = { s.mrvAt m with ramp := none, due := none } ∧ t.get (Fld.MRV_STATE_DVFS_CUR m) = p) := by
  obtain ⟨hmrv, hramp, hframe⟩ := setRamp_meets s (m := m) none
  have hrun : (s.setRamp m none).running = s.running := flag_of_frame_bits hframe fun g hg => by
    rw [List.mem_singleton.1 hg]
    exact apart_of_off (by simp only [Fld.GAF_STATUS_RUNNING, Fld.MRV_STATE_RAMP, Reg.GAF_STATUS, Reg.MRV_STATE]; omega)
  obtain ⟨hwaits, happlies, hdue⟩ := dvfsDue_meets (s.setRamp m none) (m := m) hp
  have hflag := get_of_frame_pba hdue (g := Fld.MRV_STATE_RAMP m) (.inr (by simp only [Fld.MRV_STATE_RAMP, Reg.MRV_STATE]; omega))
    fun g hg => (pointFields_apart m hm g hg).2
  have hpoint := get_of_frame_pba hdue (g := Fld.MRV_DVFS_POINT m) (.inr (by simp only [Fld.MRV_DVFS_POINT, Reg.MRV_DVFS]; omega))
    fun g hg => (pointFields_apart m hm g hg).1
  rw [hrun, hmrv] at hwaits happlies
  exact ⟨by rw [State.flag, hflag]; exact hramp, hpoint.trans (point_setRamp s none), hwaits, happlies⟩

end

/-! ### A fence (R175, R176) -/

/-- What a fence sets, its FENCED flag with it. -/
def fencedFields (m : Nat) : List Field := Fld.MRV_STATE_FENCED m :: fenceFields m

/-- What it sets after the cause, in that order. -/
def fenceCountFields (m : Nat) : List Field := [Fld.MRV_FENCE_COUNT m, Fld.MRV_PIRQ_STATUS_FENCED]

theorem fenceFields_tail : ∀ m < 16,
    (∀ g ∈ [Fld.MRV_FENCE_CAUSE m], apart Fld.MRV_FENCED_FENCED g = true) ∧
    (∀ g ∈ fenceCountFields m, apart Fld.MRV_FENCED_FENCED g = true ∧ apart (Fld.MRV_FENCE_CAUSE m) g = true) ∧
    ∀ g ∈ [Fld.MRV_JOB_JOB_VALID m], apart Fld.MRV_FENCED_FENCED g = true ∧ apart (Fld.MRV_FENCE_CAUSE m) g = true ∧
      apart Fld.MRV_PIRQ_STATUS_FENCED g = true := by decide

section
variable (s : State) (m cause : Nat)

/-- A marver's FENCED flag and its bit in MRV_FENCED. -/
def fenceFlagged : State := (s.putB (Fld.MRV_STATE_FENCED m) true).putBit Fld.MRV_FENCED_FENCED m true

/-- The fence with its cause. -/
def fenceCaused : State := (fenceFlagged s m).put (Fld.MRV_FENCE_CAUSE m) cause

/-- The fence counted, with its interrupt. -/
def fenceNoted : State := ((fenceCaused s m cause).incSat (Fld.MRV_FENCE_COUNT m)).irqF Fld.MRV_PIRQ_STATUS_FENCED

/-- The fence recorded, and the marver's selected job no longer shown. -/
def fenceTold : State :=
  ((fenceNoted s m cause).tell 0x09 4 m (leBytes 1 cause ++ [0, 0, 0] ++
    leBytes 4 (if cause = 1 then ((fenceNoted s m cause).reg (Reg.MRV_ECC_ADDR m)).toNat else 0))).clearJob m

theorem fenceMarver_fenced (h : s.fenced m = true) : fenceMarver s m cause = s := if_pos h

theorem frame_fenceNoted : Frame [.msix] (marverReach (fenceCountFields m)) (fenceCaused s m cause) (fenceNoted s m cause) :=
  frame_then_irqF (frame_incSat _ 1 (covers_marverReach (by simp [fenceCountFields]) rfl)) _
    (.inr (.inr ⟨_, by simp [fenceCountFields], rfl, by decide, by decide⟩)) (marverReach_of_pba _) (by simp)

theorem frame_fenceTold : Frame [.tel, .msix, .mrv] (marverReach [Fld.MRV_JOB_JOB_VALID m]) (fenceNoted s m cause) (fenceTold s m cause) :=
  frame_then_putB (frame_trans (frame_tell _ _ _ _ _ (fun _ _ h => .inr (.inl h)) (by simp) (by simp)) (frame_setMrv _ m _ (by simp)))
    _ _ (covers_marverReach (by simp) rfl)

theorem mrvAt_fenceTold : (fenceTold s m cause).mrvAt m = { s.mrvAt m with job := none } := by
  have hnoted : (fenceNoted s m cause).mrvAt m = s.mrvAt m := mrvAt_of_frame (frame_fenceNoted s m cause) (by simp) m
  have htell (t : State) (l : List Byte) : (t.tell 0x09 4 m l).mrvAt m = t.mrvAt m :=
    mrvAt_of_frame (frame_tell (ps := [.tel, .msix]) (p := fun _ _ => True) _ _ _ _ _ (fun _ _ _ => trivial) (by simp) (by simp))
      (by simp) m
  rw [fenceTold, State.clearJob, mrvAt_putB, mrvAt_setMrv_same, htell, hnoted]

variable {s m}

/-- A marver that was not fenced: what ran on it is gone, and the jobs placed on it must restart (R175, R176). -/
theorem fenceMarver_unfenced (h : s.fenced m = false) : fenceMarver s m cause =
    { (fenceTold s m cause).setMrv m { s.mrvAt m with job := none, chunk := none, fenceDue := false } with
      runs := s.runs.filter fun r => r.marver ≠ m
      jobs := s.jobs.map fun j => if s.jobUses j m then { j with restart := true } else j } := by
  have hnoted := frame_fenceNoted s m cause
  have htold := frame_fenceTold s m cause
  have hruns : (fenceTold s m cause).runs = s.runs := (htold.2 .runs (by simp)).trans (hnoted.2 .runs (by simp))
  have hjobs : (fenceTold s m cause).jobs = s.jobs := (htold.2 .jobs (by simp)).trans (hnoted.2 .jobs (by simp))
  have hslots : (fenceTold s m cause).slots = s.slots := (htold.2 .slots (by simp)).trans (hnoted.2 .slots (by simp))
  have huses (j : Job) (x : Mrv) : ((fenceTold s m cause).setMrv m x).jobUses j m = s.jobUses j m := by
    simp only [State.jobUses, State.slotAt, setMrv_slots, hslots]
  have hx : ({ (fenceTold s m cause).mrvAt m with chunk := none, fenceDue := false } : Mrv) =
    { s.mrvAt m with job := none, chunk := none, fenceDue := false } := by rw [mrvAt_fenceTold]
  have heq : fenceMarver s m cause = (
      let t := (fenceTold s m cause).setMrv m { (fenceTold s m cause).mrvAt m with chunk := none, fenceDue := false }
      { t with runs := t.runs.filter fun r => r.marver ≠ m
               jobs := t.jobs.map fun j => if t.jobUses j m then { j with restart := true } else j }) := by
    rw [fenceMarver, if_neg (by simp [h])]
    rfl
  rw [heq, hx]
  simp only [huses, setMrv_runs, setMrv_jobs, hruns, hjobs]

/-- What such a fence shows (R175). -/
theorem fenceMarver_shows (hm : m < 16) (h : s.fenced m = false) (hc : cause < 4) : let t := fenceMarver s m cause
    t.bitF Fld.MRV_FENCED_FENCED m = true ∧ t.get (Fld.MRV_FENCE_CAUSE m) = cause ∧ t.flag Fld.MRV_PIRQ_STATUS_FENCED = true := by
  obtain ⟨hcaused, hnoted, htold⟩ := fenceFields_tail m hm
  have hlast (f : Field) : (fenceMarver s m cause).get f = (fenceTold s m cause).get f := by rw [fenceMarver_unfenced cause h]; rfl
  have hblock : (Fld.MRV_FENCE_CAUSE m).off / 0x10000 = 4 := by simp only [Fld.MRV_FENCE_CAUSE, Reg.MRV_FENCE]; omega
  have hbit : (fenceFlagged s m).bitF Fld.MRV_FENCED_FENCED m = true :=
    bitF_setBit_self (s.putB (Fld.MRV_STATE_FENCED m) true) rfl (by simp only [Fld.MRV_FENCED_FENCED]; omega)
  have hmask : (fenceTold s m cause).get Fld.MRV_FENCED_FENCED = (fenceFlagged s m).get Fld.MRV_FENCED_FENCED :=
    ((get_of_marverReach (frame_fenceTold s m cause) (.inr rfl) fun g hg => (htold g hg).1).trans
      (get_of_marverReach (frame_fenceNoted s m cause) (.inr rfl) fun g hg => (hnoted g hg).1)).trans
      (get_put_apart _ _ rfl (hcaused _ (by simp)))
  have hcause : (fenceTold s m cause).get (Fld.MRV_FENCE_CAUSE m) = cause :=
    ((get_of_marverReach (frame_fenceTold s m cause) (.inr hblock) fun g hg => (htold g hg).2.1).trans
      (get_of_marverReach (frame_fenceNoted s m cause) (.inr hblock) fun g hg => (hnoted g hg).2)).trans
      ((get_put_self _ cause rfl).trans (Nat.mod_eq_of_lt hc))
  refine ⟨by rw [State.bitF, hlast, hmask]; exact hbit, (hlast _).trans hcause, ?_⟩
  rw [State.flag, hlast, get_of_marverReach (frame_fenceTold s m cause) (.inr rfl) fun g hg => (htold g hg).2.2]
  exact flag_irqF _ _ rfl (by decide) (not_pba_of_outside (by decide))

end

section
variable (s : State) {m : Nat} (cause : Nat)

/-- A fence, on a marver fenced or not, sets its fields and its record (R175). -/
theorem frame_fence_marver (hm : m < 16) : Frame marverParts (marverReach (fencedFields m)) s (fenceMarver s m cause) := by
  cases h : s.fenced m with
  | true => rw [fenceMarver_fenced s m cause h]; exact frame_refl s
  | false =>
    have hset : Frame marverParts (marverReach (fencedFields m)) s (s.putB (Fld.MRV_STATE_FENCED m) true) :=
      frame_putB _ true (covers_marverReach (by simp [fencedFields]) rfl)
    refine frame_trans hset (frame_mono (frame_fenceMarver hm h cause) (by simp [marverParts]) ?_)
    rintro o b (k | k)
    · exact .inr (.inl k)
    · exact .inr (.inr (bits_mono (by simp [fencedFields]) o b k))

theorem fenced_fenceMarver (hm : m < 16) : (fenceMarver s m cause).fenced m = true :=
  (fenceMarver_meets s hm cause (f := ⟨Reg.PWR_PLL, 0, 0⟩) rfl).1

/-- A fence keeps the marver's words in error, the place of its scrubber and its reheat. -/
theorem mrvAt_fenceMarver : ∃ j c d, (fenceMarver s m cause).mrvAt m = { s.mrvAt m with job := j, chunk := c, fenceDue := d } := by
  cases h : s.fenced m with
  | true => rw [fenceMarver_fenced s m cause h]; exact ⟨_, _, _, rfl⟩
  | false => rw [fenceMarver_unfenced cause h]; exact ⟨none, none, false, mrvAt_setMrv_same _ m _⟩

end

/-! ### A reheat ends (R180) -/

/-- What the end of a reheat sets. -/
def reheatFields (m : Nat) : List Field := [Fld.MRV_RHST_PHASE m, Fld.MRV_PIRQ_STATUS_RH_FAIL]

section
variable (s : State) (m st de : Nat)

theorem frame_reheatEnd : Frame marverParts (marverReach (reheatFields m)) s (reheatEnd s m st de) := by
  unfold reheatEnd
  split
  · exact frame_refl s
  · next r _ =>
    have hshown := frame_then_irqF (frame_then_put (frame_setMrv (ps := marverParts) (p := marverReach (reheatFields m)) s m
      { s.mrvAt m with reheat := none } (by simp [marverParts])) (Fld.MRV_RHST_PHASE m) 0 (covers_marverReach (by simp [reheatFields]) rfl))
      Fld.MRV_PIRQ_STATUS_RH_FAIL (.inr (.inr ⟨_, by simp [reheatFields], rfl, by decide, by decide⟩)) (marverReach_of_pba _)
      (by simp [marverParts])
    dsimp only
    split
    · exact frame_then_complete hshown _ _ _ _ (fun _ _ h => .inl h) (by simp [marverParts]) (by simp [marverParts])
        (by simp [marverParts])
    · exact hshown

/-- No reheat is left on the marver; the rest of it is as it was. -/
theorem mrvAt_reheatEnd : (reheatEnd s m st de).mrvAt m = { s.mrvAt m with reheat := none } := by
  have hirq (t : State) : (t.irqF Fld.MRV_PIRQ_STATUS_RH_FAIL).mrvAt m = t.mrvAt m :=
    mrvAt_of_frame (frame_irqF_listed (ps := [.msix]) t (List.mem_singleton.2 rfl) rfl (by simp)) (by simp) m
  unfold reheatEnd
  split
  · next h => simp only [← h]
  · next r _ =>
    have hshown (v : Nat) : ((((s.setMrv m { s.mrvAt m with reheat := none }).put (Fld.MRV_RHST_PHASE m) v).irqF
        Fld.MRV_PIRQ_STATUS_RH_FAIL).mrvAt m) = { s.mrvAt m with reheat := none } :=
      (hirq _).trans (mrvAt_setMrv_same s m _)
    dsimp only
    split
    · exact (mrvAt_complete _ _ _ _ _ m).trans (hshown 0)
    · exact hshown 0

end

/-! ### A word in error (R150) -/

/-- What the error itself shows. -/
def errorFields (m : Nat) : List Field := [Fld.MRV_ECC_UNCORR_ECC_UNCORR m, Fld.MRV_ECC_ADDR_ECC_ADDR m, Fld.MRV_IRQ_SRC_SRC,
  Fld.MRV_IRQ_STATUS_ECC_UNCORR]

/-- What it can show, the fence and the end of a reheat with it. -/
def uncorrFields (m : Nat) : List Field := errorFields m ++ fencedFields m ++ reheatFields m

theorem uncorrFields_apart : ∀ m < 16,
    (∀ g ∈ fencedFields m ++ reheatFields m, ∀ f ∈ errorFields m, apart f g = true) ∧
    (∀ g ∈ errorFields m, apart (Fld.MRV_STATE_FENCED m) g = true ∧ apart (Fld.MRV_RHST_PHASE m) g = true) ∧
    (∀ g ∈ reheatFields m, apart (Fld.MRV_STATE_FENCED m) g = true ∧ apart (Fld.MRV_FENCE_CAUSE m) g = true) ∧
    (∀ g ∈ fencedFields m, apart (Fld.MRV_RHST_PHASE m) g = true) ∧
    ∀ g ∈ uncorrFields m, apart (Fld.MRV_ECC_CORR_ECC_CORR m) g = true ∧ apart Fld.MRV_IRQ_STATUS_ECC_CORR g = true := by decide

section
variable (s : State) (m w : Nat)

/-- The error is counted and shown. -/
def errorShown : State :=
  ((s.incSat (Fld.MRV_ECC_UNCORR_ECC_UNCORR m)).put (Fld.MRV_ECC_ADDR_ECC_ADDR m) w).mrvIrq m Fld.MRV_IRQ_STATUS_ECC_UNCORR

/-- Its marver is fenced. -/
def errorFenced : State := fenceMarver (errorShown s m w) m 1

theorem sramUncorrectable_eq : sramUncorrectable s m w = if 2 ≤ (errorFenced s m w).rhPhase m then
    reheatEnd (errorFenced s m w) m stUnitFenced (w % 2 ^ 18 * 8) else errorFenced s m w := rfl

theorem frame_errorShown : Frame [.msix] (marverReach (errorFields m)) s (errorShown s m w) :=
  frame_trans (frame_then_put (frame_incSat _ 1 (covers_marverReach (by simp [errorFields]) rfl)) _ w
    (covers_marverReach (by simp [errorFields]) rfl)) (frame_marverReach_mrvIrq _ m (by simp [errorFields]) (by simp [errorFields])
    rfl (by simp))

theorem mrvAt_errorShown : (errorShown s m w).mrvAt m = s.mrvAt m := mrvAt_of_frame (frame_errorShown s m w) (by simp) m

theorem frame_errorEnds : Frame marverParts (marverReach (reheatFields m)) (errorFenced s m w) (sramUncorrectable s m w) := by
  rw [sramUncorrectable_eq]
  exact frame_ite (fun _ => frame_reheatEnd _ m _ _) fun _ => frame_refl _

variable {m} (hm : m < 16)
include hm

theorem frame_errorFences :
    Frame marverParts (marverReach (fencedFields m ++ reheatFields m)) (errorShown s m w) (sramUncorrectable s m w) :=
  frame_trans (frame_mono (frame_fence_marver (errorShown s m w) 1 hm) (fun _ h => h) (marverReach_mono (by simp)))
    (frame_mono (frame_errorEnds s m w) (fun _ h => h) (marverReach_mono (by simp)))

theorem frame_sramUncorrectable : Frame marverParts (marverReach (uncorrFields m)) s (sramUncorrectable s m w) :=
  frame_trans (frame_mono (frame_errorShown s m w) (by simp [marverParts]) (marverReach_mono (by simp [uncorrFields])))
    (frame_mono (frame_errorFences s w hm) (fun _ h => h) (marverReach_mono (by simp [uncorrFields])))

theorem rhPhase_errorFenced : (errorFenced s m w).rhPhase m = s.rhPhase m := by
  obtain ⟨-, hshown, -, hfenced, -⟩ := uncorrFields_apart m hm
  have hblock : (Fld.MRV_RHST_PHASE m).off / 0x10000 = 4 := by simp only [Fld.MRV_RHST_PHASE, Reg.MRV_RHST]; omega
  exact (get_of_marverReach (frame_fence_marver (errorShown s m w) 1 hm) (.inr hblock) hfenced).trans
    (get_of_marverReach (frame_errorShown s m w) (.inr hblock) fun g hg => (hshown g hg).2)

/-- An uncorrectable error is counted and shown, and its marver is fenced (R150). -/
theorem sramUncorrectable_shows : let t := sramUncorrectable s m w
    t.get (Fld.MRV_ECC_ADDR_ECC_ADDR m) = w % 2 ^ 18 ∧
      t.get (Fld.MRV_ECC_UNCORR_ECC_UNCORR m) = min 0xFFFF (s.get (Fld.MRV_ECC_UNCORR_ECC_UNCORR m) + 1) ∧
      t.flag Fld.MRV_IRQ_STATUS_ECC_UNCORR = true := by
  have hblocks : ∀ f ∈ errorFields m, f.off / 0x10000 = 4 := by
    simp [errorFields, Fld.MRV_ECC_UNCORR_ECC_UNCORR, Reg.MRV_ECC_UNCORR, Fld.MRV_ECC_ADDR_ECC_ADDR, Reg.MRV_ECC_ADDR,
      Fld.MRV_IRQ_SRC_SRC, Reg.MRV_IRQ_SRC, Fld.MRV_IRQ_STATUS_ECC_UNCORR, Reg.MRV_IRQ_STATUS]
    omega
  have hkeeps (f : Field) (hf : f ∈ errorFields m) : (sramUncorrectable s m w).get f = (errorShown s m w).get f :=
    get_of_marverReach (frame_errorFences s w hm) (.inr (hblocks f hf)) fun g hg => (uncorrFields_apart m hm).1 g hg f hf
  let u := s.incSat (Fld.MRV_ECC_UNCORR_ECC_UNCORR m)
  let v := u.put (Fld.MRV_ECC_ADDR_ECC_ADDR m) w
  have hirq : Frame [.msix] (orBits pba (bits [Fld.MRV_IRQ_SRC_SRC, Fld.MRV_IRQ_STATUS_ECC_UNCORR])) v (errorShown s m w) :=
    frame_mrvIrq_listed v m (by simp) (by simp) rfl (by simp)
  have hirqs : ∀ m < 16, ∀ g ∈ [Fld.MRV_IRQ_SRC_SRC, Fld.MRV_IRQ_STATUS_ECC_UNCORR], apart (Fld.MRV_ECC_ADDR_ECC_ADDR m) g = true ∧
      apart (Fld.MRV_ECC_UNCORR_ECC_UNCORR m) g = true := by decide
  have hblock (f : Field) (hf : f ∈ errorFields m) : f.off < 0x29000 ∨ 0x29010 ≤ f.off := by have := hblocks f hf; omega
  refine ⟨?_, ?_, ?_⟩
  · rw [hkeeps _ (by simp [errorFields]), get_of_frame_pba hirq (hblock _ (by simp [errorFields])) fun g hg => (hirqs m hm g hg).1]
    exact get_put_self u w rfl
  · rw [hkeeps _ (by simp [errorFields]), get_of_frame_pba hirq (hblock _ (by simp [errorFields])) fun g hg => (hirqs m hm g hg).2]
    have hcount : u.get (Fld.MRV_ECC_UNCORR_ECC_UNCORR m) = _ := get_incSat_self s rfl
    exact (get_put_apart u w rfl (apart_of_off (by
      simp only [Fld.MRV_ECC_UNCORR_ECC_UNCORR, Fld.MRV_ECC_ADDR_ECC_ADDR, Reg.MRV_ECC_UNCORR, Reg.MRV_ECC_ADDR]; omega))).trans hcount
  · rw [State.flag, hkeeps _ (by simp [errorFields])]
    exact flag_mrvIrq v m rfl (by decide) rfl

/-- Its marver is fenced, for ECC if it was not before (R150, R175). -/
theorem sramUncorrectable_fences : let t := sramUncorrectable s m w
    t.fenced m = true ∧ (s.fenced m = false → t.get (Fld.MRV_FENCE_CAUSE m) = 1) := by
  obtain ⟨-, hshown, hends, -, -⟩ := uncorrFields_apart m hm
  have hblocks : (Fld.MRV_STATE_FENCED m).off / 0x10000 = 4 ∧ (Fld.MRV_FENCE_CAUSE m).off / 0x10000 = 4 := by
    simp only [Fld.MRV_STATE_FENCED, Reg.MRV_STATE, Fld.MRV_FENCE_CAUSE, Reg.MRV_FENCE]; omega
  have hframe := frame_errorEnds s m w
  refine ⟨(flag_of_marverReach hframe (.inr hblocks.1) fun g hg => (hends g hg).1).trans (fenced_fenceMarver _ 1 hm), fun h => ?_⟩
  have hbefore : (errorShown s m w).fenced m = false :=
    (flag_of_marverReach (frame_errorShown s m w) (.inr hblocks.1) fun g hg => (hshown g hg).1).trans h
  exact (get_of_marverReach hframe (.inr hblocks.2) fun g hg => (hends g hg).2).trans (fenceMarver_shows 1 hm hbefore (by decide)).2.1

/-- The words in error and the place of the scrubber stay; a reheat past its scrub ends (R180). -/
theorem mrvAt_sramUncorrectable : let x := (sramUncorrectable s m w).mrvAt m
    x.flaws = (s.mrvAt m).flaws ∧ x.scrubAt = (s.mrvAt m).scrubAt ∧ (2 ≤ s.rhPhase m → x.reheat = none) := by
  obtain ⟨j, c, d, hfence⟩ := mrvAt_fenceMarver (errorShown s m w) (m := m) 1
  rw [mrvAt_errorShown] at hfence
  rw [sramUncorrectable_eq, rhPhase_errorFenced s w hm]
  split
  · rw [mrvAt_reheatEnd, errorFenced, hfence]
    exact ⟨rfl, rfl, fun _ => rfl⟩
  · next h =>
    rw [errorFenced, hfence]
    exact ⟨rfl, rfl, fun k => absurd k h⟩

end

end Sys2Proof.Proofs
end

section
/-!
PROOF. DVFS, fences and the SRAM of the marvers (O41: R149 to R151, R156, R157, R159, R175, R176, R180, R530).
-/

namespace Sys2Proof.Proofs
open Sys2Proof Sys2Proof.Machine Sys2Proof.Safety Sys2Proof.Laws

/-! ### A write of MRV_DVFS (R156, R157) -/

/-- A higher point is asked for: its ramp starts, or the ramp under way takes it for its target. -/
def rampAsked (s : State) (m p : Nat) : State :=
  match (s.mrvAt m).ramp with
  | some t => if t = p then s else s.setRamp m (some p)
  | none => if (s.mrvAt m).due = some p then s else (s.setMrv m { s.mrvAt m with due := none }).setRamp m (some p)

section
variable (s : State) (m : Nat)

theorem point_get (v : Word) : (Fld.MRV_DVFS_POINT m).get v = v.toNat % 4 := by
  simp [Field.get, bitsOf, Fld.MRV_DVFS_POINT]

theorem rampAsked_meets (p : Nat) : let t := rampAsked s m p
    t.get (Fld.MRV_DVFS_POINT m) = s.get (Fld.MRV_DVFS_POINT m) ∧
      ((s.mrvAt m).ramp = none → (s.mrvAt m).due ≠ some p →
        t.mrvAt m = { s.mrvAt m with due := none, ramp := some p } ∧ t.flag (Fld.MRV_STATE_RAMP m) = true) ∧
      ((s.mrvAt m).ramp = none → (s.mrvAt m).due = some p → t.mrvAt m = s.mrvAt m) ∧
      ((s.mrvAt m).ramp ≠ none → t.mrvAt m = { s.mrvAt m with ramp := some p }) := by
  cases hramp : (s.mrvAt m).ramp with
  | some q =>
    by_cases hq : q = p
    · rw [show rampAsked s m p = s by simp [rampAsked, hramp, hq]]
      exact ⟨rfl, by simp, by simp, fun _ => by rw [← hq, ← hramp]⟩
    · rw [show rampAsked s m p = s.setRamp m (some p) by simp [rampAsked, hramp, hq]]
      exact ⟨point_setRamp s _, by simp, by simp, fun _ => (setRamp_meets s _).1⟩
  | none =>
    by_cases hdue : (s.mrvAt m).due = some p
    · rw [show rampAsked s m p = s by simp [rampAsked, hramp, hdue]]
      exact ⟨rfl, fun _ h => absurd hdue h, fun _ _ => rfl, fun h => absurd rfl h⟩
    · let u := s.setMrv m { s.mrvAt m with due := none }
      rw [show rampAsked s m p = u.setRamp m (some p) by simp [rampAsked, hramp, hdue, u]]
      obtain ⟨hmrv, hflag, -⟩ := setRamp_meets u (m := m) (some p)
      rw [show u.mrvAt m = _ from mrvAt_setMrv_same s m _] at hmrv
      exact ⟨point_setRamp u _, fun _ _ => ⟨hmrv, hflag⟩, fun _ h => absurd h hdue, fun h => absurd rfl h⟩

theorem mrvDvfsWrite_refused (v : Word) (hp : s.pinned m = true) (hf : s.fenced m = false) :
    mrvDvfsWrite s m v = s.mrvIrq m Fld.MRV_IRQ_STATUS_DVFS_ERR := if_pos (by simp [hp, hf])

theorem mrvDvfsWrite_taken (v : Word) (h : s.pinned m = false ∨ s.fenced m = true) : mrvDvfsWrite s m v =
    let u := s.put (Fld.MRV_DVFS_POINT m) (v.toNat % 4)
    if v.toNat % 4 < s.get (Fld.MRV_STATE_DVFS_CUR m) then rampAsked u m (v.toNat % 4)
    else dvfsDue (u.setRamp m none) m (v.toNat % 4) := by
  have hcur : (s.put (Fld.MRV_DVFS_POINT m) (v.toNat % 4)).get (Fld.MRV_STATE_DVFS_CUR m) = s.get (Fld.MRV_STATE_DVFS_CUR m) :=
    get_put_apart s _ rfl rfl
  rw [mrvDvfsWrite, if_neg (by rcases h with h | h <;> simp [h]), point_get]
  simp only [hcur]
  rfl

end

section
variable {s : State} {m : Fin 16} (hrun : s.pwr.hold = .running)
include hrun

section
variable (v : Word) (hs : s.served (Reg.MRV_DVFS m) = true)
include hs

theorem exec_mrvDvfsWrite : exec (.mrvDvfsWrite m v) s = .next (mrvDvfsWrite s m v) := by
  show execMrvDvfsWrite m v s = _
  rw [execMrvDvfsWrite, act_running _ _ hrun, if_pos hs]

theorem dvfsWrite_refused (hp : s.pinned m = true) (hf : s.fenced m = false) : ∃ t, exec (.mrvDvfsWrite m v) s = .next t ∧
    t.flag Fld.MRV_IRQ_STATUS_DVFS_ERR = true ∧ t.bitF Fld.MRV_IRQ_SRC_SRC m = true ∧
    Frame [.msix] (orBits pba (bits [Fld.MRV_IRQ_SRC_SRC, Fld.MRV_IRQ_STATUS_DVFS_ERR])) s t :=
  ⟨_, (exec_mrvDvfsWrite hrun v hs).trans (congrArg _ (mrvDvfsWrite_refused s m v hp hf)), flag_mrvIrq s m rfl (by decide) rfl,
    bitF_mrvIrq_src s m m.isLt rfl (by decide), frame_mrvIrq_listed s m (by simp) (by simp) rfl (by simp)⟩

theorem dvfsWrite_taken (h : s.pinned m = false ∨ s.fenced m = true) :
    let p := v.toNat % 4
    let cur := s.get (Fld.MRV_STATE_DVFS_CUR m)
    ∃ t, exec (.mrvDvfsWrite m v) s = .next t ∧ t.get (Fld.MRV_DVFS_POINT m) = p ∧
      (p < cur → (s.mrvAt m).ramp = none → (s.mrvAt m).due ≠ some p →
        t.mrvAt m = { s.mrvAt m with due := none, ramp := some p } ∧ t.flag (Fld.MRV_STATE_RAMP m) = true) ∧
      (p < cur → (s.mrvAt m).ramp = none → (s.mrvAt m).due = some p → t.mrvAt m = s.mrvAt m) ∧
      (p < cur → (s.mrvAt m).ramp ≠ none → t.mrvAt m = { s.mrvAt m with ramp := some p }) ∧
      (cur ≤ p → t.flag (Fld.MRV_STATE_RAMP m) = false ∧
        (s.running = true → t.mrvAt m = { s.mrvAt m with ramp := none, due := some p }) ∧
        (s.running = false → t.mrvAt m = { s.mrvAt m with ramp := none, due := none } ∧
          t.get (Fld.MRV_STATE_DVFS_CUR m) = p)) := by
  intro p cur
  have hp : p < 4 := Nat.mod_lt _ (by decide)
  let u := s.put (Fld.MRV_DVFS_POINT m) p
  have hpoint : u.get (Fld.MRV_DVFS_POINT m) = p := (get_put_self s p rfl).trans (Nat.mod_eq_of_lt hp)
  have hrunning : u.running = s.running := flag_put_apart s p rfl (apart_of_off (by
    simp only [Fld.GAF_STATUS_RUNNING, Reg.GAF_STATUS, Fld.MRV_DVFS_POINT, Reg.MRV_DVFS]; omega))
  have hexec := (exec_mrvDvfsWrite hrun v hs).trans (congrArg _ (mrvDvfsWrite_taken s m v h))
  by_cases hlt : p < cur
  · obtain ⟨hkeeps, hstarts, hsame, hredirects⟩ := rampAsked_meets u m p
    exact ⟨rampAsked u m p, hexec.trans (congrArg _ (if_pos hlt)), hkeeps.trans hpoint, fun _ => hstarts, fun _ => hsame,
      fun _ => hredirects, fun h => absurd hlt (Nat.not_lt.2 h)⟩
  · obtain ⟨hramp, hkeeps, hwaits, happlies⟩ := rampEnds_meets u m.isLt hp
    rw [hrunning] at hwaits happlies
    exact ⟨_, hexec.trans (congrArg _ (if_neg hlt)), hkeeps.trans hpoint, fun h => absurd h hlt, fun h => absurd h hlt,
      fun h => absurd h hlt, fun _ => ⟨hramp, hwaits, happlies⟩⟩

end

/-! ### The end of a ramp (R156) -/

theorem exec_dvfsRampDone_none (h : (s.mrvAt m).ramp = none) : exec (.dvfsRampDone m) s = .next s := by
  show execDvfsRampDone m s = _
  rw [execDvfsRampDone, act_running _ _ hrun]
  simp only [h]

theorem exec_dvfsRampDone {p : Nat} (h : (s.mrvAt m).ramp = some p) :
    exec (.dvfsRampDone m) s = .next (dvfsDue (s.setRamp m none) m p) := by
  show execDvfsRampDone m s = _
  rw [execDvfsRampDone, act_running _ _ hrun]
  simp only [h]

/-! ### A fence command (R175, R180) -/

section
variable (hs : s.served (Reg.MRV_FENCE m) = true)
include hs

theorem exec_mrvFenceCmd : exec (.mrvFenceCmd m) s = .next (mrvFenceWrite s m) := by
  show execMrvFenceCmd m s = _
  rw [execMrvFenceCmd, act_running _ _ hrun, if_pos hs]

theorem exec_mrvFenceCmd_reheat (h : (s.mrvAt m).reheat ≠ none) : exec (.mrvFenceCmd m) s = .next s := by
  rw [exec_mrvFenceCmd hrun hs, mrvFenceWrite, if_pos (Option.isSome_iff_ne_none.2 h)]

theorem exec_mrvFenceCmd_waits (h : (s.mrvAt m).reheat = none) (hr : s.running = true) :
    exec (.mrvFenceCmd m) s = .next (s.setMrv m { s.mrvAt m with fenceDue := true }) := by
  rw [exec_mrvFenceCmd hrun hs, mrvFenceWrite, if_neg (by simp [h]), if_pos hr]

theorem exec_mrvFenceCmd_now (h : (s.mrvAt m).reheat = none) (hr : s.running = false) :
    exec (.mrvFenceCmd m) s = .next (fenceMarver s m 2) := by
  rw [exec_mrvFenceCmd hrun hs, mrvFenceWrite, if_neg (by simp [h]), if_neg (by simp [hr])]

theorem fenceCmd_fences (h : (s.mrvAt m).reheat = none) (hr : s.running = false) (hf : s.fenced m = false) :
    ∃ t, exec (.mrvFenceCmd m) s = .next t ∧ t.fenced m = true ∧
      t.bitF Fld.MRV_FENCED_FENCED m = true ∧ t.get (Fld.MRV_FENCE_CAUSE m) = 2 ∧ (t.mrvAt m).chunk = none ∧
      t.runs = s.runs.filter (fun r => r.marver ≠ m.val) ∧
      t.jobs = s.jobs.map (fun j => if s.jobUses j m then { j with restart := true } else j) ∧
      t.flag Fld.MRV_PIRQ_STATUS_FENCED = true := by
  obtain ⟨hbit, hcause, hflag⟩ := fenceMarver_shows 2 m.isLt hf (by decide)
  have heq := fenceMarver_unfenced 2 hf
  refine ⟨_, exec_mrvFenceCmd_now hrun hs h hr, fenced_fenceMarver s 2 m.isLt, hbit, hcause, ?_, by rw [heq], by rw [heq], hflag⟩
  rw [heq]
  exact congrArg Mrv.chunk (mrvAt_setMrv_same _ _ _)

end

/-! ### An uncorrectable error (R150) -/

theorem exec_sramUncorrectable (w : BitVec 18) : exec (.sramUncorrectable m w) s = .next
    (sramUncorrectable ((s.free 2).2.setMrv m ((s.mrvAt m).flaw (2 * w.toNat + (s.free 2).1))) m w.toNat) := by
  show execSramUncorrectable m w s = _
  rw [execSramUncorrectable, act_running _ _ hrun]
  rfl

theorem uncorrectable_meets (w : BitVec 18) : ∃ t, exec (.sramUncorrectable m w) s = .next t ∧
    t.get (Fld.MRV_ECC_ADDR_ECC_ADDR m) = w.toNat ∧
    t.get (Fld.MRV_ECC_UNCORR_ECC_UNCORR m) = min 0xFFFF (s.get (Fld.MRV_ECC_UNCORR_ECC_UNCORR m) + 1) ∧
    t.fenced m = true ∧ t.flag Fld.MRV_IRQ_STATUS_ECC_UNCORR = true ∧ (s.fenced m = false → t.get (Fld.MRV_FENCE_CAUSE m) = 1) ∧
    (2 ≤ s.rhPhase m → (t.mrvAt m).reheat = none) ∧
    ∃ h < 2, (t.mrvAt m).flaws = ((s.mrvAt m).flaw (2 * w.toNat + h)).flaws := by
  let u := (s.free 2).2.setMrv m ((s.mrvAt m).flaw (2 * w.toNat + (s.free 2).1))
  obtain ⟨haddr, hcount, hflag⟩ := sramUncorrectable_shows u w.toNat m.isLt
  obtain ⟨hfenced, hcause⟩ := sramUncorrectable_fences u w.toNat m.isLt
  obtain ⟨hflaws, -, hreheat⟩ := mrvAt_sramUncorrectable u w.toNat m.isLt
  have hu : u.mrvAt m = (s.mrvAt m).flaw (2 * w.toNat + (s.free 2).1) := mrvAt_setMrv_same _ _ _
  refine ⟨_, exec_sramUncorrectable hrun w, haddr.trans (Nat.mod_eq_of_lt w.isLt), hcount, hfenced, hflag, hcause, hreheat,
    (s.free 2).1, Nat.mod_lt _ (by decide), hflaws.trans (by rw [hu])⟩

end

/-! ### The scrubber (R149, R151) -/

theorem orBit_ne_zero (v i : Nat) : orBit v i ≠ 0 := by
  rw [orBit, ne_eq, Nat.or_eq_zero_iff, Nat.one_shiftLeft]
  exact fun e => absurd e.2 (Nat.two_pow_pos i).ne'

/-- A half found in error puts its word among those in error. -/
theorem bad_flaw (x : Mrv) {a n h : Nat} (hn : h < n / 4) (ha : a % 8 = 0) : (x.flaw (a / 4 + h)).bad a n ≠ [] := by
  have hword : (a / 4 + h) / 2 = (a + 4 * h) / 8 := by omega
  refine List.ne_nil_of_mem (a := (a + 4 * h) / 8) (List.mem_filter.2 ⟨mem_wordsOf (by omega), decide_eq_true ?_⟩)
  rw [Mrv.flaw, hword, sget_sset_same]
  exact orBit_ne_zero _ _

/-- One more half in error leaves the words in error that were. -/
theorem bad_flaw_of_bad {x : Mrv} {a n : Nat} (k : Nat) (h : x.bad a n ≠ []) : (x.flaw k).bad a n ≠ [] := by
  obtain ⟨w, hw⟩ := List.exists_mem_of_ne_nil _ h
  obtain ⟨hin, hbad⟩ := List.mem_filter.1 hw
  refine List.ne_nil_of_mem (List.mem_filter.2 ⟨hin, decide_eq_true ?_⟩)
  by_cases hk : w = k / 2
  · rw [hk, Mrv.flaw, sget_sset_same]
    exact orBit_ne_zero _ _
  · rw [Mrv.flaw, sget_sset_ne _ _ _ _ _ hk]
    exact of_decide_eq_true hbad

/-- The fields that corrected errors are shown in. -/
def correctedFields (m : Nat) : List Field := [Fld.MRV_ECC_CORR_ECC_CORR m, Fld.MRV_IRQ_SRC_SRC, Fld.MRV_IRQ_STATUS_ECC_CORR]

/-- Words in error, one after another (R150). -/
def wordsFail (s : State) (m : Nat) (l : List Nat) : State := l.foldl (fun s w => sramUncorrectable s m w) s

section
variable (s : State) {m : Nat}

theorem frame_eccCorr (n : Nat) : Frame [.msix] (marverReach (correctedFields m)) s (s.eccCorr m n) :=
  frame_ite (fun _ => frame_refl s) fun _ => frame_trans (frame_incSat _ n (covers_marverReach (by simp [correctedFields]) rfl))
    (frame_marverReach_mrvIrq _ m (by simp [correctedFields]) (by simp [correctedFields]) rfl (by simp))

@[simp] theorem mrvAt_eccCorr (n k : Nat) : (s.eccCorr m n).mrvAt k = s.mrvAt k := mrvAt_of_frame (frame_eccCorr s n) (by simp) k

/-- Corrected errors are counted (R149). -/
theorem get_eccCorr (n : Nat) :
    (s.eccCorr m n).get (Fld.MRV_ECC_CORR_ECC_CORR m) = min 0xFFFF (s.get (Fld.MRV_ECC_CORR_ECC_CORR m) + n) := by
  unfold State.eccCorr
  split
  · next h =>
    have : s.get (Fld.MRV_ECC_CORR_ECC_CORR m) < 2 ^ 16 := get_lt s _
    omega
  · have hirq := frame_mrvIrq_listed (ps := [.msix]) (s.incSat (Fld.MRV_ECC_CORR_ECC_CORR m) n) m
      (f := Fld.MRV_IRQ_STATUS_ECC_CORR) (List.mem_cons_self (l := [Fld.MRV_IRQ_STATUS_ECC_CORR])) (by simp) rfl (by simp)
    have hoff : (Fld.MRV_ECC_CORR_ECC_CORR m).off = 0x41008 + 0x200 * m := rfl
    refine (get_of_frame_pba hirq (.inr (by omega)) fun g hg => apart_of_off ?_).trans (get_incSat s n rfl)
    have hg' : g.off ≤ 0x40018 := by
      revert g
      decide
    omega

variable (hm : m < 16)
include hm

theorem frame_wordsFail (l : List Nat) : Frame marverParts (marverReach (uncorrFields m)) s (wordsFail s m l) :=
  frame_foldl_mem fun w _ s => frame_sramUncorrectable s w hm

theorem scrubAt_wordsFail (l : List Nat) : ((wordsFail s m l).mrvAt m).scrubAt = (s.mrvAt m).scrubAt := by
  induction l generalizing s with
  | nil => rfl
  | cons w r ih => exact (ih (sramUncorrectable s m w)).trans (mrvAt_sramUncorrectable s w hm).2.1

/-- The last of them leaves the marver fenced and the error shown. -/
theorem wordsFail_shows {l : List Nat} (h : l ≠ []) :
    (wordsFail s m l).fenced m = true ∧ (wordsFail s m l).flag Fld.MRV_IRQ_STATUS_ECC_UNCORR = true := by
  obtain ⟨r, w, rfl⟩ := (List.eq_nil_or_concat l).resolve_left h
  rw [wordsFail, List.concat_eq_append, List.foldl_append]
  exact ⟨(sramUncorrectable_fences _ w hm).1, (sramUncorrectable_shows _ w hm).2.2⟩

end

/-- What the check bits of a read newly show (R148, R149). -/
def checkShown (s : State) (m off n : Nat) (found : Ecc) : State :=
  match found with
  | .corrected => s.eccCorr m 1
  | .uncorrectable h => if off / 4 + h ≤ (off + n - 1) / 4 then s.setMrv m ((s.mrvAt m).flaw (off / 4 + h)) else s
  | _ => s

theorem sramCheck_eq (s : State) (m off n : Nat) (found : Ecc) :
    sramCheck s m off n found = wordsFail (checkShown s m off n found) m (((checkShown s m off n found).mrvAt m).bad off n) := rfl

/-- A check keeps the place of the scrubber and the words known to be in error, and finds a half within its reach. -/
theorem mrvAt_checkShown (s : State) (m off n : Nat) (found : Ecc) : let x := (checkShown s m off n found).mrvAt m
    x.scrubAt = (s.mrvAt m).scrubAt ∧ ((s.mrvAt m).bad off n ≠ [] → x.bad off n ≠ []) ∧
      (off % 8 = 0 → ∀ h < n / 4, found = .uncorrectable h → x.bad off n ≠ []) := by
  cases found with
  | clean => exact ⟨rfl, fun h => h, fun _ _ _ h => by cases h⟩
  | link => exact ⟨rfl, fun h => h, fun _ _ _ h => by cases h⟩
  | corrected => simp [checkShown]
  | uncorrectable k =>
    by_cases hk : off / 4 + k ≤ (off + n - 1) / 4
    · rw [checkShown, if_pos hk, mrvAt_setMrv_same]
      exact ⟨rfl, bad_flaw_of_bad _, fun ha h hh e => by cases e; exact bad_flaw _ hh ha⟩
    · rw [checkShown, if_neg hk]
      exact ⟨rfl, fun h => h, fun ha h hh e => by cases e; omega⟩

/-- The scrubber goes on to its next line. -/
def scrubStepped (s : State) (m : Nat) : State := s.setMrv m { s.mrvAt m with scrubAt := ((s.mrvAt m).scrubAt + 1) % 32768 }

section
variable {s : State} {m : Fin 16} (hrun : s.pwr.hold = .running) (found : Ecc)
include hrun

theorem exec_sramScrub_stops (h : s.fenced m = true ∨ s.flag Fld.MRV_SCRUB_EN = false ∨ s.halted = true) :
    exec (.sramScrub m found) s = .next s := by
  show execSramScrub m found s = _
  rw [execSramScrub, act_running _ _ hrun, if_pos]
  rcases h with h | h | h <;> simp [h]

theorem exec_sramScrub (h : ¬ (s.fenced m = true ∨ s.flag Fld.MRV_SCRUB_EN = false ∨ s.halted = true)) :
    exec (.sramScrub m found) s = .next (sramCheck (scrubStepped s m) m (64 * (s.mrvAt m).scrubAt) 64 found) := by
  show execSramScrub m found s = _
  rw [execSramScrub, act_running _ _ hrun, if_neg (by simpa [and_assoc] using h)]
  rfl

theorem scrub_goes (h : ¬ (s.fenced m = true ∨ s.flag Fld.MRV_SCRUB_EN = false ∨ s.halted = true)) :
    let line := (s.mrvAt m).scrubAt
    let known := (s.mrvAt m).bad (64 * line) 64
    ∃ t, exec (.sramScrub m found) s = .next t ∧ (t.mrvAt m).scrubAt = (line + 1) % 32768 ∧
      (found = .clean → known = [] → Frame [.mrv] (bits []) s t) ∧
      (found = .corrected → t.flag Fld.MRV_IRQ_STATUS_ECC_CORR = true ∧
        t.get (Fld.MRV_ECC_CORR_ECC_CORR m) = min 0xFFFF (s.get (Fld.MRV_ECC_CORR_ECC_CORR m) + 1)) ∧
      (known ≠ [] ∨ (∃ h < 16, found = .uncorrectable h) → t.fenced m = true ∧ t.flag Fld.MRV_IRQ_STATUS_ECC_UNCORR = true) := by
  intro line known
  let u := scrubStepped s m
  let c := checkShown u m (64 * line) 64 found
  let bad := (c.mrvAt m).bad (64 * line) 64
  have hu : u.mrvAt m = { s.mrvAt m with scrubAt := (line + 1) % 32768 } := mrvAt_setMrv_same _ _ _
  have hknown : (u.mrvAt m).bad (64 * line) 64 = known := by rw [hu]; rfl
  obtain ⟨hplace, hold, hnew⟩ := mrvAt_checkShown u m (64 * line) 64 found
  rw [hknown] at hold
  refine ⟨_, exec_sramScrub hrun found h, ?_, fun hclean hnone => ?_, fun hcorr => ?_, fun hfound => ?_⟩
  · rw [sramCheck_eq, scrubAt_wordsFail _ m.isLt, hplace, hu]
  · subst hclean
    rw [sramCheck_clean (hknown.trans hnone)]
    exact frame_setMrv _ _ _ (by simp)
  · subst hcorr
    have hframe := frame_wordsFail c m.isLt bad
    have hapart := (uncorrFields_apart m m.isLt).2.2.2.2
    rw [sramCheck_eq]
    refine ⟨(flag_of_marverReach hframe (.inr rfl) fun g hg => (hapart g hg).2).trans (flag_mrvIrq _ _ rfl (by decide) rfl),
      (get_of_marverReach hframe (.inr ?_) fun g hg => (hapart g hg).1).trans (get_eccCorr u 1)⟩
    simp only [Fld.MRV_ECC_CORR_ECC_CORR, Reg.MRV_ECC_CORR]; omega
  · rw [sramCheck_eq]
    refine wordsFail_shows c m.isLt ?_
    rcases hfound with hfound | ⟨h, hh, hfound⟩
    · exact hold hfound
    · exact hnew (by omega) h hh hfound

end

/-! ### CLR and MRV_IRQ_SRC (R159, R530) -/

theorem seen_clrAll (l : List Nat) : ∀ s : State, (clrAll s l).seen = s.seen := by
  induction l with
  | nil => exact fun _ => rfl
  | cons o r ih => exact fun s => ih (s.clrReg o)

/-- Counters are cleared before and after another word is set (R518). -/
theorem clrAround_meets (s : State) {l r : List Nat} {o : Nat} (v : Word) (h : o ∉ l ++ r) :
    let t := clrAll ((clrAll s l).setReg o v) r
    (∀ a ∈ l ++ r, t.reg a = sget 0 s.seen.sets a) ∧ t.reg o = v ∧ Frame [] (words (o :: (l ++ r))) s t := by
  intro t
  let u := (clrAll s l).setReg o v
  have hlast {a : Nat} (ha : a ∉ r) : t.reg a = u.reg a := reg_of_frame (frame_clrAll u r) fun _ _ k => ha k
  refine ⟨fun a ha => ?_, (hlast fun k => h (by simp [k])).trans (reg_setReg_same _ o v), ?_⟩
  · by_cases hr : a ∈ r
    · rw [reg_clrAll u a hr, show u.seen = s.seen from seen_clrAll l s]
    · rw [hlast hr, reg_setReg_ne _ o a v (fun e => h (e ▸ ha))]
      exact reg_clrAll s a ((List.mem_append.1 ha).resolve_right hr)
  · have hwiden {k : List Nat} (hk : k ⊆ l ++ r) (w : State) : Frame [] (words (o :: (l ++ r))) w (clrAll w k) :=
      frame_mono (frame_clrAll w k) (fun _ h => h) fun _ _ hw => List.mem_cons_of_mem o (hk hw)
    exact frame_trans (frame_then_setReg (hwiden (by simp) s) o v fun _ => List.mem_cons_self) (hwiden (by simp) u)

section
variable {s : State} (hrun : s.pwr.hold = .running)
include hrun

theorem counterClr_meets {m : Fin 16} (hs : s.served (Reg.MRV_CNT_CLR m) = true) : ∃ t, exec (.mrvCounterClr m) s = .next t ∧
    (∀ r ∈ [Reg.MRV_ECC_CORR m, Reg.MRV_ECC_UNCORR m, Reg.MRV_ACC_SAT m, Reg.MRV_BUSYCYC m],
      t.reg r = sget 0 s.seen.sets r) ∧ t.reg (Reg.MRV_ECC_ADDR m) = 0 ∧
    Frame [] (words [Reg.MRV_ECC_CORR m, Reg.MRV_ECC_UNCORR m, Reg.MRV_ECC_ADDR m, Reg.MRV_ACC_SAT m, Reg.MRV_BUSYCYC m]) s t := by
  have haddr : Reg.MRV_ECC_ADDR m ∉ [Reg.MRV_ECC_CORR m, Reg.MRV_ECC_UNCORR m] ++ [Reg.MRV_ACC_SAT m, Reg.MRV_BUSYCYC m] := by
    simp [Reg.MRV_ECC_ADDR, Reg.MRV_ECC_CORR, Reg.MRV_ECC_UNCORR, Reg.MRV_ACC_SAT, Reg.MRV_BUSYCYC]
  obtain ⟨hcount, hclear, hframe⟩ := clrAround_meets s 0 haddr
  refine ⟨mrvCntClr s m, ?_, hcount, hclear, frame_mono hframe (fun _ h => h) fun o _ h => ?_⟩
  · show execMrvCounterClr m s = _
    rw [execMrvCounterClr, act_running _ _ hrun, if_pos hs]
  · simp only [words, List.cons_append, List.nil_append, List.mem_cons] at h ⊢
    tauto

theorem irqSrcRead_meets (hs : s.served Reg.MRV_IRQ_SRC = true) : ∃ t, exec .mrvIrqSrcRead s = .next t ∧
    t.rdata = leBytes 4 (s.reg Reg.MRV_IRQ_SRC).toNat ∧ t.reg Reg.MRV_IRQ_SRC = 0 ∧ Frame [.rdata] (words [Reg.MRV_IRQ_SRC]) s t := by
  refine ⟨{ s.setReg Reg.MRV_IRQ_SRC 0 with rdata := leBytes 4 (s.reg Reg.MRV_IRQ_SRC).toNat }, ?_, rfl, reg_setReg_same _ _ _,
    frame_trans (frame_setReg _ _ fun _ => by simp [words]) (frame_rdata _ _ (by simp))⟩
  show execMrvIrqSrcRead s = _
  rw [execMrvIrqSrcRead, act_running _ _ hrun, if_pos hs]

end

/-- Settles O41: each command through what its operation sets and keeps, the scrubber through the words that its line finds in error. -/
theorem marverCommands : Obligations.MarverCommands := by
  intro s m hrun
  refine ⟨fun v hs => ⟨dvfsWrite_refused hrun v hs, dvfsWrite_taken hrun v hs⟩, exec_dvfsRampDone_none hrun, fun p hp => ?_,
    exec_mrvFenceCmd_reheat hrun, fun hs hn => ⟨fun hr hf => ?_, exec_mrvFenceCmd_waits hrun hs hn, fenceCmd_fences hrun hs hn⟩,
    uncorrectable_meets hrun, fun found => ⟨exec_sramScrub_stops hrun found, scrub_goes hrun found⟩, counterClr_meets hrun,
    irqSrcRead_meets hrun⟩
  · obtain ⟨hramp, -, hwaits, happlies⟩ := rampEnds_meets s m.isLt p.isLt
    exact ⟨_, exec_dvfsRampDone hrun hp, hramp, hwaits, fun h => (happlies h).2⟩
  · rw [exec_mrvFenceCmd_now hrun hs hn hr, fenceMarver_fenced s m 2 hf]

end Sys2Proof.Proofs
end

section
/-!
PROOF. What the work on jobs leaves as it was: the gaffer with its active plan, and DTIME (for O49: R172, R174, R176).
-/

namespace Sys2Proof.Proofs
open Sys2Proof Sys2Proof.Machine Sys2Proof.Safety Sys2Proof.Laws

/-- Every part of the state but DTIME and the gaffer. -/
def jobParts : List Part := stopParts.filter (· ≠ .gaf)

theorem mem_jobParts {q : Part} (h : q ≠ .dtime) (hg : q ≠ .gaf) : q ∈ jobParts :=
  List.mem_filter.2 ⟨mem_stopParts h, decide_eq_true hg⟩

/-- From `s` to `t` only what the work on jobs reaches has changed. -/
abbrev JobWork (s t : State) : Prop := Frame jobParts stopReach s t

section
variable {s t : State}

theorem jobWork_of_stop (h : Stop s t) (hg : t.gaf = s.gaf) : JobWork s t := by
  refine ⟨h.1, fun q hq => ?_⟩
  by_cases hgaf : q = .gaf
  · exact hgaf ▸ hg
  · exact h.2 q fun hs => hq (List.mem_filter.2 ⟨hs, decide_eq_true hgaf⟩)

theorem gaf_of_jobWork (h : JobWork s t) : t.gaf = s.gaf := h.2 .gaf (by decide)

theorem dtime_of_jobWork (h : JobWork s t) : t.dtime = s.dtime := h.2 .dtime (by decide)

/-- The registers of the gaffer are out of its reach. -/
theorem flag_of_jobWork (h : JobWork s t) {f : Field} (hf : f.off / 0x10000 = 1) : t.flag f = s.flag f := by
  refine flag_of_frame h fun b _ _ => ?_
  rintro ((k | k) | k | ⟨n, g, hg, ho, -⟩)
  · simp only [pba, Safety.range] at k; omega
  · simp only [fences, Safety.range] at k; omega
  · exact absurd (hf ▸ k) (by decide)
  · rw [List.mem_singleton.1 hg] at ho
    simp only [Fld.MRV_SLOT_FLAGS_JOBS, Reg.MRV_SLOT_FLAGS] at ho
    omega

theorem plan_of_jobWork (h : JobWork s t) : t.plan = s.plan := by
  have hrun : t.running = s.running := flag_of_jobWork h rfl
  have hbank : t.activeBank = s.activeBank := flag_of_jobWork h rfl
  simp only [State.plan, State.bank, hrun, hbank, gaf_of_jobWork h]

theorem jobWork_irqF {f : Field} (h : stopField f = true) : JobWork s (s.irqF f) :=
  frame_irqF f (stopReach_of_field h _) stopReach_of_pba (mem_jobParts (by decide) (by decide))

theorem jobWork_incSat {f : Field} (n : Nat) (h : stopField f = true) : JobWork s (s.incSat f n) :=
  jobWork_of_stop (stop_incSat n h) rfl

theorem jobWork_complete (d : Desc) (st de re : Nat) : JobWork s (s.complete d st de re) :=
  jobWork_of_stop (stop_complete d st de re) ((frame_completed s d st de re).2 .gaf (by simp))

end

section
variable (s : State) (j : Job)

theorem jobWork_setJobs (l : List Job) (x : List Mrv) : JobWork s { s with jobs := l, mrv := x } :=
  jobWork_of_stop (stop_setJobs s l x) rfl

theorem jobWork_putJobs (n v : Nat) : JobWork s (s.put (Fld.MRV_SLOT_FLAGS_JOBS n) v) := jobWork_of_stop (stop_putJobs s n v) rfl

theorem jobWork_setDesc (d e : Desc) : JobWork s (s.setDesc d e) := jobWork_of_stop (stop_of_regs rfl rfl) rfl

theorem jobWork_setMem (x : Mem) : JobWork s { s with mem := x } := jobWork_of_stop (stop_setMem s x) rfl

theorem jobWork_memErr (a n : Nat) : JobWork s (s.memErr a n) := jobWork_of_stop (stop_memErr s a n) rfl

theorem jobWork_freeBytes (k : Nat) : JobWork s (s.freeBytes k).2 := jobWork_of_stop (stop_freeBytes s k) rfl

theorem jobWork_setHostMem (x : Store Byte) : JobWork s { s with hostMem := x } := jobWork_of_stop (stop_setHostMem s x) rfl

theorem jobWork_unselect : JobWork s (unselect s j) :=
  frame_range fun _ hm s => frame_ite_right (frame_refl s) fun _ => jobWork_of_stop (stop_clearJob s hm) rfl

theorem jobWork_dropJob : JobWork s (dropJob s j) :=
  frame_trans (frame_trans (jobWork_unselect s j) (jobWork_setJobs _ _ _)) (jobWork_putJobs _ j.slot _)

theorem jobWork_endJob (st de : Nat) : JobWork s (endJob s j st de) := by
  have hdrop := jobWork_dropJob s j
  unfold endJob
  generalize dropJob s j = t at hdrop
  dsimp only
  split
  · exact frame_trans hdrop (jobWork_complete _ _ _ _)
  · exact hdrop

theorem jobWork_memRefuse (a : Nat) : JobWork s (s.memRefuse a) :=
  jobWork_of_stop (stop_memRefuse s a) ((frame_memRefuse s a).2 .gaf (by simp))

theorem jobWork_memWrite (a : Nat) (l : List Byte) : JobWork s (memWrite s a l) := by
  refine frame_ite (fun _ => frame_refl s) fun _ => frame_ite (fun _ => ?_) fun _ => jobWork_memRefuse s a
  refine frame_trans (jobWork_setMem s _) (frame_foldl_mem fun e _ t => ?_)
  exact frame_trans (frame_trans (jobWork_incSat 1 (by decide)) (jobWork_memErr _ _ _)) (jobWork_irqF (by decide))

theorem jobWork_freeOutput : JobWork s (freeOutput s j) := by
  unfold freeOutput
  split
  · exact frame_refl s
  · exact frame_range fun b _ s => frame_trans (jobWork_freeBytes s _) (frame_ite
      (fun _ => frame_ite_right (frame_refl _) fun _ => jobWork_setHostMem _ _)
      fun _ => frame_ite_right (frame_refl _) fun _ => jobWork_memWrite _ _ _)

theorem jobWork_stopJob (st de : Nat) : JobWork s (stopJob s j st de) :=
  frame_trans (jobWork_freeOutput s j) (jobWork_endJob _ j st de)

/-- A job whose access is refused is gone, and its descriptor fails (R451). -/
theorem jobWork_refused (d : Desc) : JobWork s ((dropJob s j).rangeFail d) :=
  frame_trans (jobWork_dropJob s j) (jobWork_complete d _ _ _)

theorem jobWork_hostEpisode (d : Desc) : JobWork s (s.hostEpisode d) :=
  frame_ite (fun _ => frame_refl s) fun _ => frame_trans (jobWork_setDesc s d _) (jobWork_incSat (f := Fld.LOG_RETRY_REPLAY) 1 (by decide))

theorem jobWork_episodeDone (d : Desc) : JobWork s (s.episodeDone d).2 := by
  unfold State.episodeDone
  split
  · exact jobWork_setDesc s d _
  · exact frame_refl s

/-- The point of no return of a job (R174). -/
theorem jobWork_finishJob : JobWork s (finishJob s j) := by
  have hwrites (l : List (List Byte × Nat)) (a : Nat) (k : Nat) (t : State) :
      JobWork t (l.foldl (fun s e => memWrite s (a + e.2 * k) e.1) t) := frame_foldl_mem fun e _ s => jobWork_memWrite s _ _
  unfold finishJob
  split
  · exact jobWork_dropJob s j
  · next d _ =>
    refine frame_ite (fun _ => frame_ite (fun _ => jobWork_hostEpisode s d) fun _ => ?_) fun _ => frame_ite (fun _ => frame_refl s)
      fun _ => frame_ite (fun _ => frame_trans (hwrites _ _ _ s) (jobWork_endJob _ j _ _))
        fun _ => frame_trans (hwrites _ _ _ s) (jobWork_refused _ j d)
    exact frame_trans (frame_trans (jobWork_episodeDone s d) (jobWork_setHostMem _ _)) (jobWork_endJob _ j stOK 0)

end

/-! ### What a SLICE does first (R174, R176, R451) -/

section
variable (s : State)

theorem jobWork_jobRestarts : JobWork s (jobRestarts s) := by
  refine frame_foldl_mem fun j _ s => ?_
  dsimp only
  split
  · exact jobWork_dropJob s j
  · next d _ =>
    split
    · exact jobWork_stopJob s j _ _
    · refine frame_ite (fun _ => frame_refl s) fun _ => ?_
      split
      · exact frame_trans (frame_trans (jobWork_memRefuse s _) (jobWork_freeOutput _ j)) (jobWork_refused _ j d)
      · exact frame_trans (frame_trans (jobWork_freeOutput s j) (jobWork_unselect _ j)) (jobWork_setJobs _ _ _)

theorem jobWork_copyRefused : JobWork s (copyRefused s) := by
  refine frame_foldl_mem fun j _ s => frame_trans (jobWork_memRefuse s (((s.slotAt j.slot).map (·.dest)).getD 0)) ?_
  dsimp only
  split
  · exact frame_trans (jobWork_freeOutput _ j) (jobWork_refused _ j _)
  · exact jobWork_dropJob _ j

theorem jobWork_misfits (i m : Nat) : JobWork s (misfits s i m) := by
  refine frame_foldl_mem fun j _ s => ?_
  dsimp only
  split
  · exact jobWork_stopJob s j _ _
  · exact frame_refl s

end

end Sys2Proof.Proofs
end

section
/-!
PROOF. Stream jobs, slices and chunks (O49: R149, R153, R159, R169 to R174, R176, R449, R451).
-/

namespace Sys2Proof.Proofs
open Sys2Proof Sys2Proof.Machine Sys2Proof.Safety Sys2Proof.Laws

/-! ### A job starts (R169) -/

/-- A descriptor in flight once `d` has begun. -/
def begun (d x : Desc) : Desc := if x = d then { d with stage := .active } else x

theorem begun_keeps (d x : Desc) : (begun d x).sq = x.sq ∧ (begun d x).seq = x.seq ∧ (begun d x).order = x.order := by
  by_cases hx : x = d
  · rw [begun, if_pos hx, hx]
    exact ⟨rfl, rfl, rfl⟩
  · rw [begun, if_neg hx]
    exact ⟨rfl, rfl, rfl⟩

/-- A descriptor that begins keeps the order of dispatch. -/
theorem orderOf_begin (s : State) (d : Desc) (sq seq : Nat) : (s.begin d).orderOf sq seq = s.orderOf sq seq := by
  have hkey : ((fun x : Desc => decide (x.sq = sq) && decide (x.seq = seq)) ∘ begun d) =
      fun x => decide (x.sq = sq) && decide (x.seq = seq) :=
    funext fun x => by simp only [Function.comp_apply, (begun_keeps d x).1, (begun_keeps d x).2.1]
  have horder : Desc.order ∘ begun d = Desc.order := funext fun x => (begun_keeps d x).2.2
  have hfind : (s.begin d).findDesc sq seq = (s.findDesc sq seq).map (begun d) :=
    (List.find?_map (f := begun d) ..).trans (congrArg (fun q => (s.ring.flight.find? q).map (begun d)) hkey)
  rw [State.orderOf, hfind, Option.map_map, horder, State.orderOf]

/-- The job that an INFER asks for, with its placement and its input. -/
def jobAsked (s : State) (d : Desc) (place : Nat) (input : List Byte) : Job :=
  ⟨d.sq, d.seq, d.pay 32 1, d.pay 33 1 % 4, d.pay 34 1, d.pay 36 2, input, place, s.dtime, none, false, false, false, [], [], none⟩

theorem frame_jobs {ps : List Part} {p : Bits} (s : State) (l : List Job) (h : .jobs ∈ ps) : Frame ps p s { s with jobs := l } :=
  frame_part .jobs h rfl fun r hr => by cases r <;> first | exact absurd rfl hr | simp [Part.same]

/-- It takes its place among the jobs by the order of dispatch, and its slot's JOBS counts it (R169, Table 6.10). -/
theorem startJob_meets (s : State) (d : Desc) (place : Nat) (input : List Byte) : let t := startJob s d place input
    t.jobs = insertBy (fun k : Job => s.orderOf k.sq k.seq) (jobAsked s d place input) s.jobs ∧
      t.get (Fld.MRV_SLOT_FLAGS_JOBS (d.pay 32 1)) = min 0xFFFF (s.get (Fld.MRV_SLOT_FLAGS_JOBS (d.pay 32 1)) + 1) ∧
      Frame [.jobs, .flight] (bits [Fld.MRV_SLOT_FLAGS_JOBS (d.pay 32 1)]) s t := by
  let u := s.begin d
  refine ⟨?_, get_incSat_self u rfl, ?_⟩
  · have horder : (fun k : Job => (u.incSat (Fld.MRV_SLOT_FLAGS_JOBS (d.pay 32 1))).orderOf k.sq k.seq) = fun k => s.orderOf k.sq k.seq :=
      funext fun k => orderOf_begin s d k.sq k.seq
    exact congrArg (insertBy · (jobAsked s d place input) s.jobs) horder
  · exact frame_trans (frame_then_incSat (frame_setDesc d { d with stage := .active } (by simp)) _ 1 (covers_of_fits (by simp) rfl))
      (frame_jobs _ _ (by simp))

/-! ### INFER (R169, R170, R449, R451) -/

/-- An INFER with its placement selected: its input is read, and its job starts. -/
def inferPlaced (s : State) (p : Par) (d : Desc) (input : HostRead) (place : Nat) : State :=
  if bitOf (d.pay 35 1) 0 then
    s.withHost d input fun e l s => startJob s e place (slice l 0 (d.pay 34 1 * parIn p.image))
  else if !s.inputAnswers p.image d then s
  else match s.jobInput p.image d with
    | none => (s.memRefuse (d.pay 40 8)).rangeFail d
    | some bytes => startJob s d place bytes

/-- An INFER that passes its checks, by what the selection of its placement gives (R170). -/
def inferSelected (s : State) (p : Par) (d : Desc) (input : HostRead) : Nat ⊕ Option Nat → State
  | .inr (some m) => s.complete d stUnitFenced (jobDetail m 0) 0
  | .inr none => s.complete d stBadSequence 0 0
  | .inl place => inferPlaced s p d input place

section
variable {s : State} (p : Par) {d : Desc} (h : HostRead) (place : Nat)

theorem inferPlaced_host (hbit : bitOf (d.pay 35 1) 0 = true) (hdma : s.canDma = true) (he : d.episode = false) (l : List Byte) :
    inferPlaced s p d (.bytes l) place = startJob s d place (slice l 0 (d.pay 34 1 * parIn p.image)) := by
  rw [inferPlaced, if_pos hbit, withHost_bytes hdma he]

variable {p} (hbit : bitOf (d.pay 35 1) 0 = false)
include hbit

theorem inferPlaced_waits (hwait : s.inputAnswers p.image d = false) : inferPlaced s p d h place = s := by
  simp only [inferPlaced, hbit, hwait, Bool.false_eq_true, if_false, Bool.not_false, if_true]

variable (hready : s.inputAnswers p.image d = true)
include hready

theorem inferPlaced_refused (hout : s.jobInput p.image d = none) :
    inferPlaced s p d h place = (s.memRefuse (d.pay 40 8)).rangeFail d := by
  simp only [inferPlaced, hbit, hready, hout, Bool.false_eq_true, if_false, Bool.not_true]

theorem inferPlaced_memory {input : List Byte} (hin : s.jobInput p.image d = some input) :
    inferPlaced s p d h place = startJob s d place input := by
  simp only [inferPlaced, hbit, hready, hin, Bool.false_eq_true, if_false, Bool.not_true]

end

section
variable {s : State} {sq : Fin 64} {seq : BitVec 16} (hrun : s.pwr.hold = .running)
include hrun

section
variable {d : Desc} (htake : s.takeDispatched sq seq.toNat 0x02 = some d) (h : HostRead)
include htake

theorem exec_infer_noSlot (hslot : s.slotAt (d.pay 32 1) = none) :
    exec (.infer sq seq h) s = .next (s.complete d stBadDescriptor 32 0) := by
  show execInfer sq seq h s = _
  rw [execInfer, act_running _ _ hrun]
  simp only [htake, hslot, State.badDesc]

section
variable {p : Par} (hslot : s.slotAt (d.pay 32 1) = some p)
include hslot

theorem exec_infer_pinned (hk : parKind p.image ≠ 0) : exec (.infer sq seq h) s = .next (s.complete d stBadDescriptor 32 0) := by
  show execInfer sq seq h s = _
  rw [execInfer, act_running _ _ hrun]
  simp only [htake, hslot, if_pos hk, State.badDesc]

variable (hk : parKind p.image = 0)
include hk

theorem exec_infer_batch (hb : d.pay 34 1 = 0 ∨ parMaxBatch p.image < d.pay 34 1) :
    exec (.infer sq seq h) s = .next (s.complete d stBadDescriptor 34 0) := by
  show execInfer sq seq h s = _
  rw [execInfer, act_running _ _ hrun]
  simp only [htake, hslot, hk, ne_eq, not_true_eq_false, if_false, if_pos hb, State.badDesc]

variable (hb : ¬ (d.pay 34 1 = 0 ∨ parMaxBatch p.image < d.pay 34 1))
include hb

theorem exec_infer_placeReq (hq : d.pay 38 1 ≠ 0xFF) (hq' : parPlaces p.image ≤ d.pay 38 1) :
    exec (.infer sq seq h) s = .next (s.complete d stBadDescriptor 38 0) := by
  show execInfer sq seq h s = _
  rw [execInfer, act_running _ _ hrun]
  simp only [htake, hslot, hk, ne_eq, not_true_eq_false, if_false, if_neg hb, if_pos (And.intro hq hq'), State.badDesc]

theorem exec_infer_selected (hq : d.pay 38 1 = 0xFF ∨ d.pay 38 1 < parPlaces p.image) {r : Nat ⊕ Option Nat}
    (hsel : s.selectPlace p.image (d.pay 38 1) = r) : exec (.infer sq seq h) s = .next (inferSelected s p d h r) := by
  have hq' : ¬ (¬ d.pay 38 1 = 0xFF ∧ parPlaces p.image ≤ d.pay 38 1) := by omega
  show execInfer sq seq h s = _
  rw [execInfer, act_running _ _ hrun]
  simp only [htake, hslot, hk, ne_eq, not_true_eq_false, if_false, if_neg hb, if_neg hq', hsel]
  rcases r with place | _ | m <;> rfl

end
end

/-! ### INFER of a job that restarted (R176) -/

section
variable (l : List Byte) {j : Job} {d : Desc} (htake : s.takeDispatched sq seq.toNat 0x02 = none)
  (hjob : s.jobOf sq seq.toNat = some j) (hdesc : s.findDesc sq seq.toNat = some d)
include htake hjob hdesc

theorem exec_infer_noReread (hr : j.reread = false) : exec (.infer sq seq (.bytes l)) s = .next s := by
  show execInfer sq seq (.bytes l) s = _
  rw [execInfer, act_running _ _ hrun]
  simp only [htake, inferReread, hjob, hdesc, hr, Bool.not_false, if_true]

theorem exec_infer_reread (hr : j.reread = true) (hdma : s.canDma = true) (he : d.episode = false) :
    let new := { j with reread := false, input := slice l 0 (j.batch * parIn (s.jobImage j)) }
    exec (.infer sq seq (.bytes l)) s =
      .next { s with jobs := s.jobs.map fun k : Job => if k.sq = j.sq ∧ k.seq = j.seq then new else k } := by
  show execInfer sq seq (.bytes l) s = _
  rw [execInfer, act_running _ _ hrun]
  simp only [htake, inferReread, hjob, hdesc, hr, Bool.not_true, Bool.false_eq_true, if_false, withHost_bytes hdma he,
    Bool.and_eq_true, decide_eq_true_eq]

end
end

/-! ### SLICE_START (R172 to R174, R176) -/

/-- The slice of an action starts on a marver. -/
def sliceBegun (i : Nat) (s : State) (m : Nat) : State := s.setMrv m { s.mrvAt m with slice := some (i, s.dtime), chunk := none }

/-- Each marver of a list is in the slice that starts, with no chunk. -/
theorem slice_foldl_sliceBegun (i : Nat) {m : Nat} : ∀ (l : List Nat) (s : State),
    m ∈ l ∨ ((s.mrvAt m).slice = some (i, s.dtime) ∧ (s.mrvAt m).chunk = none) → let t := l.foldl (sliceBegun i) s
    (t.mrvAt m).slice = some (i, s.dtime) ∧ (t.mrvAt m).chunk = none
  | [], _, h => h.resolve_left List.not_mem_nil
  | k :: r, s, h => by
    refine slice_foldl_sliceBegun i r (sliceBegun i s k) ?_
    by_cases hk : m = k
    · subst hk
      rw [sliceBegun, mrvAt_setMrv_same]
      exact .inr ⟨rfl, rfl⟩
    · rw [sliceBegun, mrvAt_setMrv_ne s _ hk]
      exact h.imp_left fun hm => (List.mem_cons.1 hm).resolve_left hk

theorem gaf_foldl_sliceBegun (i : Nat) : ∀ (l : List Nat) (s : State), (l.foldl (sliceBegun i) s).gaf = s.gaf
  | [], _ => rfl
  | k :: r, s => gaf_foldl_sliceBegun i r (sliceBegun i s k)

/-- The jobs as a SLICE finds them: those that must restart have, and those whose copy is out of reach have failed. -/
def sliceJobs (s : State) (i : Nat) : State := copyRefused (jobRestarts (s.startAction i))

/-- The unfenced marvers that it targets. -/
def sliceTargets (s : State) (i : Nat) : List Nat :=
  (bitList 16 (actTarget (sliceJobs s i).plan i)).filter fun m => !(sliceJobs s i).fenced m

/-- Jobs that cannot fit its window have ended, and those whose layers are complete have finished. -/
def sliceReady (s : State) (i : Nat) : State :=
  let t := (sliceTargets s i).foldl (fun s m => misfits s i m) (sliceJobs s i)
  (t.jobs.filter fun j => j.stop.isNone && t.jobAll j).foldl finishJob t

theorem jobWork_sliceJobs (s : State) (i : Nat) : JobWork (s.startAction i) (sliceJobs s i) :=
  frame_trans (jobWork_jobRestarts _) (jobWork_copyRefused _)

theorem jobWork_sliceReady (s : State) (i : Nat) : JobWork (s.startAction i) (sliceReady s i) :=
  frame_trans (frame_trans (jobWork_sliceJobs s i) (frame_foldl_mem fun m _ s => jobWork_misfits s i m))
    (frame_foldl_mem fun j _ s => jobWork_finishJob s j)

section
variable {s : State} (hrun : s.pwr.hold = .running) {i : Fin 64}
include hrun

theorem exec_sliceStart_idle (h : s.mayStart i 8 = false) : exec (.sliceStart i) s = .next s := by
  show execSliceStart i s = _
  rw [execSliceStart, act_running _ _ hrun, if_pos (by simp [h])]

theorem exec_sliceStart (h : s.mayStart i 8 = true) : exec (.sliceStart i) s =
    .next (slicesEnd (marversNext ((sliceTargets s i).foldl (sliceBegun i) (sliceReady s i)))) := by
  show execSliceStart i s = _
  rw [execSliceStart, act_running _ _ hrun, if_neg (by simp [h])]
  rfl

theorem sliceStart_meets (h : s.mayStart i 8 = true) : let u := copyRefused (jobRestarts (s.startAction i))
    ∃ v, exec (.sliceStart i) s = .next (slicesEnd (marversNext v)) ∧ i.val ∈ v.gaf.started ∧
      ∀ m < 16, bitOf (actTarget s.plan i) m = true → u.fenced m = false →
        (v.mrvAt m).slice = some (i.val, s.dtime) ∧ (v.mrvAt m).chunk = none := by
  intro u
  refine ⟨_, exec_sliceStart hrun h, ?_, fun m hm htarget hfenced => ?_⟩
  · rw [gaf_foldl_sliceBegun, gaf_of_jobWork (jobWork_sliceReady s i)]
    exact List.mem_cons_self
  · have hplan : (sliceJobs s i).plan = s.plan := (plan_of_jobWork (jobWork_sliceJobs s i) :)
    have hdtime : (sliceReady s i).dtime = s.dtime := (dtime_of_jobWork (jobWork_sliceReady s i) :)
    have hin : m ∈ sliceTargets s i := by
      rw [sliceTargets, hplan, List.mem_filter, bitList, List.mem_filter, List.mem_range]
      exact ⟨⟨hm, htarget⟩, by rw [show (sliceJobs s i).fenced m = false from hfenced]; rfl⟩
    have hslice := slice_foldl_sliceBegun i (sliceTargets s i) (sliceReady s i) (.inl hin)
    rwa [hdtime] at hslice

end

/-! ### CHUNK_DONE (R149, R171, R172, R174, R176) -/

/-- A marver's chunk has ended: the errors that it corrected are counted. -/
def chunkFreed (s : State) (m n : Nat) : State := (s.setMrv m { s.mrvAt m with chunk := none }).eccCorr m n

/-- The NCLK cycles in which a chunk of a job kept arrays active: only one of a MATMUL or CONV layer does (Table 5.15). -/
def chunkBusy (s : State) (j : Job) (c : Chunk) : Nat :=
  if layOp (parLayer (s.jobImage j) c.layer) ≤ 2 then chunkCycles (parLayer (s.jobImage j) c.layer) j.batch c.ix else 0

/-- Such cycles are counted, if the job is still there. -/
def chunkOver (s : State) (m n : Nat) (c : Chunk) : State :=
  match s.jobOf c.sq c.seq with
  | none => chunkFreed s m n
  | some j => if layOp (parLayer (s.jobImage j) c.layer) ≤ 2 then
      (chunkFreed s m n).incWrap (Fld.MRV_BUSYCYC_BUSYCYC m) (chunkCycles (parLayer (s.jobImage j) c.layer) j.batch c.ix)
    else chunkFreed s m n

section
variable (s : State) (m n : Nat) (c : Chunk)

/-- Job or no job, BUSYCYC is all that can have changed since the marver was freed. -/
theorem chunkOver_cases : chunkOver s m n c = chunkFreed s m n ∨
    ∃ k, chunkOver s m n c = (chunkFreed s m n).incWrap (Fld.MRV_BUSYCYC_BUSYCYC m) k := by
  unfold chunkOver
  split
  · exact .inl rfl
  · split
    · exact .inr ⟨_, rfl⟩
    · exact .inl rfl

theorem frame_chunkFreed : Frame [.mrv, .msix] (marverReach (correctedFields m)) s (chunkFreed s m n) :=
  frame_trans (frame_setMrv s m _ (by simp)) (frame_mono (frame_eccCorr _ n) (by simp) fun _ _ h => h)

theorem frame_chunkOver : Frame [.mrv] (bits [Fld.MRV_BUSYCYC_BUSYCYC m]) s (chunkOver s m 0 c) := by
  have hfree : Frame [.mrv] (bits [Fld.MRV_BUSYCYC_BUSYCYC m]) s (chunkFreed s m 0) := frame_setMrv s m _ (by simp)
  rcases chunkOver_cases s m 0 c with h | ⟨k, h⟩ <;> rw [h]
  · exact hfree
  · exact frame_then_incWrap hfree _ k (covers_of_fits (by simp) rfl)

theorem chunk_chunkOver : ((chunkOver s m n c).mrvAt m).chunk = none := by
  have hfree : ((chunkFreed s m n).mrvAt m).chunk = none := by rw [chunkFreed, mrvAt_eccCorr, mrvAt_setMrv_same]
  rcases chunkOver_cases s m n c with h | ⟨k, h⟩ <;> rw [h] <;> exact hfree

theorem eccCorr_chunkOver : (chunkOver s m n c).get (Fld.MRV_ECC_CORR_ECC_CORR m) =
    min 0xFFFF (s.get (Fld.MRV_ECC_CORR_ECC_CORR m) + n) := by
  have hfree := get_eccCorr (m := m) (s.setMrv m { s.mrvAt m with chunk := none }) n
  have hapart : apart (Fld.MRV_ECC_CORR_ECC_CORR m) (Fld.MRV_BUSYCYC_BUSYCYC m) = true :=
    apart_of_off (by simp only [Fld.MRV_ECC_CORR_ECC_CORR, Fld.MRV_BUSYCYC_BUSYCYC, Reg.MRV_ECC_CORR, Reg.MRV_BUSYCYC]; omega)
  rcases chunkOver_cases s m n c with h | ⟨k, h⟩ <;> rw [h]
  · exact hfree
  · exact (get_put_apart (chunkFreed s m n) _ rfl hapart).trans hfree

variable {m} (hm : m < 16)
include hm

theorem busy_chunkFreed : (chunkFreed s m n).reg (Reg.MRV_BUSYCYC m) = s.reg (Reg.MRV_BUSYCYC m) := by
  refine reg_of_marverReach (frame_chunkFreed s m n) (.inr (by simp only [Reg.MRV_BUSYCYC]; omega)) ?_
  simp [correctedFields, Fld.MRV_ECC_CORR_ECC_CORR, Fld.MRV_IRQ_SRC_SRC, Fld.MRV_IRQ_STATUS_ECC_CORR, Reg.MRV_ECC_CORR,
    Reg.MRV_IRQ_SRC, Reg.MRV_IRQ_STATUS, Reg.MRV_BUSYCYC]
  omega

theorem busy_chunkOver {c : Chunk} {j : Job} (hj : s.jobOf c.sq c.seq = some j) :
    (chunkOver s m n c).get (Fld.MRV_BUSYCYC_BUSYCYC m) = (s.get (Fld.MRV_BUSYCYC_BUSYCYC m) + chunkBusy s j c) % 2 ^ 32 := by
  have hfree : (chunkFreed s m n).get (Fld.MRV_BUSYCYC_BUSYCYC m) = s.get (Fld.MRV_BUSYCYC_BUSYCYC m) :=
    congrArg (Field.get _) (busy_chunkFreed s n hm)
  have hlt : s.get (Fld.MRV_BUSYCYC_BUSYCYC m) < 2 ^ 32 := get_lt s _
  simp only [chunkOver, hj, chunkBusy]
  split
  · exact (get_put_self (chunkFreed s m n) _ rfl).trans (by rw [hfree]; rfl)
  · rw [hfree, Nat.add_zero, Nat.mod_eq_of_lt hlt]

end

/-- The jobs and the images of the slots are as they were. -/
theorem jobOf_chunkFreed (s : State) (m n a b : Nat) : (chunkFreed s m n).jobOf a b = s.jobOf a b :=
  congrArg (List.find? fun j : Job => j.sq = a && j.seq = b) ((frame_chunkFreed s m n).2 .jobs (by simp))

theorem jobImage_chunkFreed (s : State) (m n : Nat) (j : Job) : (chunkFreed s m n).jobImage j = s.jobImage j :=
  congrArg (fun l : List (Option Par) => (((l[j.slot]?).getD none).map Par.image).getD []) ((frame_chunkFreed s m n).2 .slots (by simp))

/-- A job whose last chunk this was reaches its point of no return (R174). -/
def jobFinished (s : State) (c : Chunk) : State :=
  match s.jobOf c.sq c.seq with
  | some j => if s.jobAll j then finishJob s j else s
  | none => s

theorem jobFinished_none {s : State} {c : Chunk} (h : s.jobOf c.sq c.seq = none) : jobFinished s c = s := by
  simp only [jobFinished, h]

theorem jobFinished_some {s : State} {c : Chunk} {j : Job} (h : s.jobOf c.sq c.seq = some j) :
    jobFinished s c = if s.jobAll j then finishJob s j else s := by
  simp only [jobFinished, h]

/-- What a chunk gives its job. -/
def chunkGiven (s : State) (m n : Nat) (c : Chunk) : State :=
  match s.jobOf c.sq c.seq with
  | none => chunkOver s m n c
  | some j => if j.restart || j.stop.isSome then chunkOver s m n c else jobFinished (chunkResult (chunkOver s m n c) m j c) c

section
variable {s : State} {m : Fin 16} (n : Nat) {c : Chunk} (hrun : s.pwr.hold = .running)
include hrun

theorem exec_chunkDone_idle (h : (s.mrvAt m).chunk = none) : exec (.chunkDone m n) s = .next s := by
  show execChunkDone m n s = _
  rw [execChunkDone, act_running _ _ hrun]
  simp only [h]

theorem exec_chunkDone (hc : (s.mrvAt m).chunk = some c) :
    exec (.chunkDone m n) s = .next (slicesEnd (marversNext (chunkGiven s m n c))) := by
  have hfreed : (s.setMrv m { s.mrvAt m with chunk := none }).eccCorr m n = chunkFreed s m n := rfl
  show execChunkDone m n s = _
  rw [execChunkDone, act_running _ _ hrun]
  simp only [hc, hfreed, jobOf_chunkFreed, chunkGiven, chunkOver]
  cases s.jobOf c.sq c.seq with
  | none => rfl
  | some j =>
    simp only [jobImage_chunkFreed]
    cases j.restart || j.stop.isSome with
    | true => simp only [if_true]
    | false =>
      simp only [Bool.false_eq_true, if_false]
      generalize chunkResult _ m j c = w
      cases hk : w.jobOf c.sq c.seq with
      | none => simp only [jobFinished_none hk]
      | some k => simp only [jobFinished_some hk]

end

theorem chunkDone_meets {s : State} (hrun : s.pwr.hold = .running) (m : Fin 16) (n : Nat) {c : Chunk} (hc : (s.mrvAt m).chunk = some c) :
    let u := chunkOver s m n c
    (s.jobOf c.sq c.seq = none → u.reg (Reg.MRV_BUSYCYC m) = s.reg (Reg.MRV_BUSYCYC m) ∧
      exec (.chunkDone m n) s = .next (slicesEnd (marversNext u))) ∧
    ∀ j, s.jobOf c.sq c.seq = some j →
      u.get (Fld.MRV_BUSYCYC_BUSYCYC m) = (s.get (Fld.MRV_BUSYCYC_BUSYCYC m) + chunkBusy s j c) % 2 ^ 32 ∧
      (j.restart = true ∨ j.stop ≠ none → exec (.chunkDone m n) s = .next (slicesEnd (marversNext u))) ∧
      (j.restart = false → j.stop = none →
        exec (.chunkDone m n) s = .next (slicesEnd (marversNext (jobFinished (chunkResult u m j c) c)))) := by
  intro u
  rw [exec_chunkDone n hrun hc]
  refine ⟨fun hj => ⟨?_, ?_⟩, fun j hj => ⟨busy_chunkOver s n m.isLt hj, fun hstop => ?_, fun hr hs => ?_⟩⟩
  · rw [show u = chunkFreed s m n by simp only [u, chunkOver, hj]]
    exact busy_chunkFreed s n m.isLt
  · simp only [chunkGiven, hj, u]
  · have hends : (j.restart || j.stop.isSome) = true := by simpa [Option.isSome_iff_ne_none] using hstop
    simp only [chunkGiven, hj, hends, if_true, u]
  · simp only [chunkGiven, hj, hr, hs, Option.isSome_none, Bool.or_false, Bool.false_eq_true, if_false, u]

/-- Settles O49: an INFER by its checks and the placement selected, a slice by the list of marvers that it starts on, a chunk by
what is left of its job. -/
theorem streamJobs : Obligations.StreamJobs := by
  intro s hrun
  refine ⟨fun sq seq h d htake => ⟨exec_infer_noSlot hrun htake h, fun p hslot => ⟨exec_infer_pinned hrun htake h hslot,
    exec_infer_batch hrun htake h hslot, fun hk hpos hmax => ?_⟩⟩, fun sq seq l j d htake hjob hdesc =>
    ⟨exec_infer_noReread hrun l htake hjob hdesc, exec_infer_reread hrun l htake hjob hdesc⟩,
    fun i => ⟨exec_sliceStart_idle hrun, sliceStart_meets hrun⟩, fun m n => ⟨exec_chunkDone_idle n hrun, fun c hc => ?_⟩⟩
  · have hbatch : ¬ (d.pay 34 1 = 0 ∨ parMaxBatch p.image < d.pay 34 1) := by omega
    have hselected := fun h => exec_infer_selected hrun htake h hslot hk hbatch
    refine ⟨exec_infer_placeReq hrun htake h hslot hk hbatch, fun hreq => ⟨fun m hsel => ?_, hselected h hreq,
      fun place hsel => ⟨fun hbit => ⟨fun hwait => ?_, fun hready hout => ?_, fun input hready hin => ?_⟩, fun hbit hdma he l => ?_⟩⟩⟩
    · have hdetail : jobDetail m 0 = m * 65536 := by simp only [jobDetail, Nat.zero_mod, Nat.add_zero]
      rw [hselected h hreq hsel, inferSelected, hdetail]
    · rw [hselected h hreq hsel, inferSelected, inferPlaced_waits h place hbit hwait]
    · rw [hselected h hreq hsel, inferSelected, inferPlaced_refused h place hbit hready hout]
    · exact ⟨_, (hselected h hreq hsel).trans (congrArg _ (inferPlaced_memory h place hbit hready hin)), startJob_meets s d place input⟩
    · exact ⟨_, (hselected _ hreq hsel).trans (congrArg _ (inferPlaced_host p place hbit hdma he l)), startJob_meets s d place _⟩
  · obtain ⟨hgone, hthere⟩ := chunkDone_meets hrun m n hc
    refine ⟨chunkOver s m n c, chunk_chunkOver s m n c, eccCorr_chunkOver s m n c, fun hn => hn ▸ frame_chunkOver s m c, hgone,
      fun j hj => ?_⟩
    obtain ⟨hbusy, hstopped, hgoes⟩ := hthere j hj
    refine ⟨hbusy, hstopped, fun hr hs => (hgoes hr hs).trans ?_⟩
    generalize chunkResult _ m j c = w
    cases hk : w.jobOf c.sq c.seq with
    | none => simp only [jobFinished_none hk]
    | some k => simp only [jobFinished_some hk]

end Sys2Proof.Proofs
end

section
/-!
PROOF. Interrupts by the bits of their status fields, and counters cleared (for O42, O43, O45: R23, R103, R518).
-/

namespace Sys2Proof.Proofs
open Sys2Proof Sys2Proof.Machine Sys2Proof.Safety Sys2Proof.Laws

section
variable {ps : List Part} {p : Bits} (s : State) {f g : Field}

/-- An interrupt of bit `i` with its status field among those that a frame names. -/
theorem frame_irqBit_listed {fs : List Field} {i : Nat} (h : f ∈ fs) (hi : f.lo + i ≤ f.hi) (hm : .msix ∈ ps) :
    Frame ps (orBits pba (bits fs)) s (s.irqBit f i) :=
  frame_irqBit f i (.inr ⟨f, h, rfl, Nat.le_add_right _ _, hi⟩) (fun _ _ h => .inl h) hm

/-- A field that the interrupt of a bit does not reach is as it was. -/
theorem get_irqBit_apart {i : Nat} (hi : f.lo + i ≤ f.hi) (h : apart g f = true) (hp : g.off < 0x29000 ∨ 0x29010 ≤ g.off) :
    (s.irqBit f i).get g = s.get g :=
  get_of_frame_pba (frame_irqBit_listed (ps := [.msix]) (fs := [f]) s (by simp) hi (by simp)) hp (by simpa using h)

theorem bitF_irqBit_apart {i j : Nat} (hi : f.lo + i ≤ f.hi) (h : apart g f = true) (hp : g.off < 0x29000 ∨ 0x29010 ≤ g.off) :
    (s.irqBit f i).bitF g j = s.bitF g j := by simp only [State.bitF, get_irqBit_apart s hi h hp]

theorem flag_irqBit_apart {i : Nat} (hi : f.lo + i ≤ f.hi) (h : apart g f = true) (hp : g.off < 0x29000 ∨ 0x29010 ≤ g.off) :
    (s.irqBit f i).flag g = s.flag g := by simp only [State.flag, get_irqBit_apart s hi h hp]

end

/-- A counter register cleared (R518). -/
theorem clrReg_meets (s : State) (o : Nat) : (s.clrReg o).reg o = sget 0 s.seen.sets o ∧ Frame [] (words [o]) s (s.clrReg o) :=
  ⟨reg_setReg_same _ _ _, frame_setReg o _ fun _ => List.mem_singleton.2 rfl⟩

theorem bitF_of_get {s t : State} {f : Field} (h : t.get f = s.get f) (i : Nat) : t.bitF f i = s.bitF f i := by
  simp only [State.bitF, h]

end Sys2Proof.Proofs
end

section
/-!
PROOF. The filter of a modulator input: its restart, a bit that it takes, an output that it delivers (for O43: R192 to R194).
-/

namespace Sys2Proof.Proofs
open Sys2Proof Sys2Proof.Machine Sys2Proof.Safety Sys2Proof.Laws

@[simp] theorem modAt_setMod_same (s : State) (k : Nat) (x : Mod) : (s.setMod k x).modAt k = x := getD_lput_same _ _ _ _ _

theorem modAt_of_frame {ps : List Part} {p : Bits} {s t : State} (h : Frame ps p s t) (hm : .mods ∉ ps) (k : Nat) :
    t.modAt k = s.modAt k := congrArg (fun l : List Mod => l.getD k Mod.init) (h.2 .mods hm)

@[simp] theorem modAt_irqBit (s : State) (f : Field) (i k : Nat) : (s.irqBit f i).modAt k = s.modAt k :=
  modAt_of_frame (frame_irqBit (ps := [.msix]) (p := fun _ _ => True) f i trivial (fun _ _ _ => trivial) (by simp)) (by simp) k

@[simp] theorem get_setMod (s : State) (k : Nat) (x : Mod) (f : Field) : (s.setMod k x).get f = s.get f := rfl

/-! ### A restart (R192) -/

/-- The input as a restart leaves it: what it has shown, its start and its last edge stay. -/
def restarted (m : Mod) : Mod :=
  { Mod.init with q := m.q, qAt := m.qAt, good := m.good, startDue := m.startDue, divAt := m.divAt, last := m.last }

theorem modRestart_meets (s : State) (k : Nat) : let t := modRestart s k
    t.modAt k = restarted (s.modAt k) ∧ t.get (Fld.MOD_STATUS_STATE k) = 1 ∧ t.get (Fld.MOD_OUT_COUNT k) = 0 ∧
      t.get (Fld.MOD_STATUS_PERIOD k) = s.get (Fld.MOD_STATUS_PERIOD k) ∧
      Frame [.mods] (bits [Fld.MOD_STATUS_STATE k, Fld.MOD_OUT_COUNT k]) s t := by
  let u := s.setMod k (restarted (s.modAt k))
  have hu : modRestart s k = (u.put (Fld.MOD_STATUS_STATE k) 1).put (Fld.MOD_OUT_COUNT k) 0 := rfl
  refine ⟨modAt_setMod_same s k _, ?_, get_put_self _ _ rfl, ?_, ?_⟩
  · exact (get_put_apart _ _ rfl rfl).trans (get_put_self u _ rfl)
  · exact (get_put_apart _ _ rfl rfl).trans (get_put_apart u _ rfl rfl)
  · exact frame_then_put (frame_then_put (frame_setMod s k _ (by simp)) _ _ (covers_of_fits (by simp) rfl)) _ _
      (covers_of_fits (by simp) rfl)

/-! ### A bit (R192) -/

/-- The integrators after a bit. -/
def integrated (m : Mod) (b : Bool) : Mod :=
  let i1 := m.i1 + (if b then 1 else -1)
  let i2 := m.i2 + i1
  { m with i1 := i1, i2 := i2, i3 := m.i3 + i2 }

/-- The input after the boundary that delivers an output, from its integrators. -/
def delivered (s : State) (k : Nat) (m : Mod) : Mod :=
  { m with
    p3 := m.i3, p1 := m.i3 - m.p3, p2 := m.i3 - m.p3 - m.p1, edges := 0, outs := m.outs + 1
    q := satS 16 (rsh (m.i3 - m.p3 - m.p1 - m.p2) (3 * (5 + s.get (Fld.MOD_CFG_OSR k)) - 15))
    qValid := decide (3 ≤ m.outs + 1) && !m.bad && !decide (s.get (Fld.MOD_STATUS_STATE k) = 3), qAt := s.cyc, bad := false }

/-- The state with an output delivered, but for STATE. -/
def outputShown (s : State) (k : Nat) (x : Mod) : State :=
  modAmend ((s.setMod k x).setReg (Reg.MOD_OUT k) (halves x.outs x.q)) k

section
variable (s : State) (k : Nat) (b : Bool)

theorem modEdge_within (h : (s.modAt k).edges + 1 < s.osr k) :
    modEdge s k b = s.setMod k { integrated (s.modAt k) b with edges := (s.modAt k).edges + 1 } := if_pos h

theorem modEdge_boundary (h : s.osr k ≤ (s.modAt k).edges + 1) : let x := delivered s k (integrated (s.modAt k) b)
    modEdge s k b = if 3 ≤ x.outs && !decide (s.get (Fld.MOD_STATUS_STATE k) = 3) then (outputShown s k x).put (Fld.MOD_STATUS_STATE k) 2
      else outputShown s k x := if_neg (Nat.not_lt.2 h)

theorem frame_modAmend : Frame [.sns] (bits []) s (modAmend s k) :=
  frame_part .sns (by simp) rfl fun r hr => by cases r <;> first | exact absurd rfl hr | simp [Part.same, modAmend]

theorem frame_outputShown (x : Mod) : Frame [.mods, .sns] (words [Reg.MOD_OUT k]) s (outputShown s k x) :=
  frame_trans (frame_then_setReg (frame_setMod s k x (by simp)) _ _ fun _ => List.mem_singleton.2 rfl)
    (frame_mono (frame_modAmend _ k) (by simp) fun _ _ h => by simp [bits] at h)

theorem modAt_outputShown (x : Mod) : (outputShown s k x).modAt k = x := modAt_setMod_same s k x

/-- MOD_OUT shows the output and the low bits of its number. -/
theorem get_outputShown (x : Mod) : (outputShown s k x).get (Fld.MOD_OUT_Q k) = lowBits 16 x.q ∧
    (outputShown s k x).get (Fld.MOD_OUT_COUNT k) = x.outs % 2 ^ 16 := by
  have hreg : (outputShown s k x).reg (Reg.MOD_OUT k) = halves x.outs x.q := reg_setReg_same (s.setMod k x) _ _
  have hlow (y : Int) : lowBits 16 y < 2 ^ 16 := by
    simp only [lowBits]
    omega
  have hq := hlow x.q
  have hcount : lowBits 16 (x.outs : Int) = x.outs % 2 ^ 16 := by
    simp only [lowBits]
    omega
  constructor
  · show Field.get _ ((outputShown s k x).reg (Reg.MOD_OUT k)) = _
    simp only [hreg, Field.get, bitsOf, Fld.MOD_OUT_Q, toNat_halves, Nat.shiftRight_eq_div_pow]
    omega
  · show Field.get _ ((outputShown s k x).reg (Reg.MOD_OUT k)) = _
    simp only [hreg, Field.get, bitsOf, Fld.MOD_OUT_COUNT, toNat_halves, Nat.shiftRight_eq_div_pow, ← hcount]
    have := hlow x.outs
    omega

end

/-- What a bit can change. -/
def bitReach (k : Nat) : Bits := orBits (words [Reg.MOD_OUT k]) (bits [Fld.MOD_STATUS_STATE k])

section
variable (s : State) (k : Nat) (b : Bool)

theorem frame_outputShown_reach (x : Mod) : Frame [.mods, .sns] (bitReach k) s (outputShown s k x) :=
  frame_mono (frame_outputShown s k x) (fun _ h => h) fun _ _ h => .inl h

/-- STATE apart from what MOD_OUT shows. -/
theorem state_outputShown (x : Mod) : (outputShown s k x).get (Fld.MOD_STATUS_STATE k) = s.get (Fld.MOD_STATUS_STATE k) :=
  get_of_frame (frame_outputShown s k x) fun _ _ _ h => by
    simp [words, Fld.MOD_STATUS_STATE, Reg.MOD_STATUS, Reg.MOD_OUT] at h

/-- A boundary delivers its output (R192). -/
theorem modEdge_delivers (h : s.osr k ≤ (s.modAt k).edges + 1) :
    let x := delivered s k (integrated (s.modAt k) b)
    let u := modEdge s k b
    u.modAt k = x ∧ u.get (Fld.MOD_OUT_Q k) = lowBits 16 x.q ∧ u.get (Fld.MOD_OUT_COUNT k) = x.outs % 2 ^ 16 ∧
      u.get (Fld.MOD_STATUS_STATE k) =
        (if 3 ≤ x.outs ∧ decide (s.get (Fld.MOD_STATUS_STATE k) = 3) = false then 2 else s.get (Fld.MOD_STATUS_STATE k)) ∧
      Frame [.mods, .sns] (bitReach k) s u := by
  intro x u
  have hu : u = _ := modEdge_boundary s k b h
  obtain ⟨hq, hcount⟩ := get_outputShown s k x
  have hmod : (outputShown s k x).modAt k = x := modAt_outputShown s k x
  have hreach : Frame [.mods, .sns] (bitReach k) s (outputShown s k x) := frame_outputShown_reach s k x
  have hcond : (3 ≤ x.outs && !decide (s.get (Fld.MOD_STATUS_STATE k) = 3)) = true ↔
      3 ≤ x.outs ∧ decide (s.get (Fld.MOD_STATUS_STATE k) = 3) = false := by simp
  by_cases hc : (3 ≤ x.outs && !decide (s.get (Fld.MOD_STATUS_STATE k) = 3)) = true
  · rw [hu, if_pos hc, if_pos (hcond.1 hc)]
    refine ⟨hmod, ?_, ?_, get_put_self _ 2 rfl, frame_then_put hreach _ 2 (covers_right _ (covers_of_fits (by simp) rfl))⟩
    · have hword : (Fld.MOD_OUT_Q k).off ≠ (Fld.MOD_STATUS_STATE k).off := by
        simp [Fld.MOD_OUT_Q, Fld.MOD_STATUS_STATE, Reg.MOD_OUT, Reg.MOD_STATUS]
      exact (get_put_word _ _ _ _ hword).trans hq
    · exact (get_put_apart _ 2 rfl rfl).trans hcount
  · rw [hu, if_neg hc, if_neg fun h => hc (hcond.2 h)]
    exact ⟨hmod, hq, hcount, state_outputShown s k x, hreach⟩

theorem frame_modEdge : Frame [.mods, .sns] (bitReach k) s (modEdge s k b) := by
  rcases Nat.lt_or_ge ((s.modAt k).edges + 1) (s.osr k) with h | h
  · rw [modEdge_within s k b h]
    exact frame_setMod s k _ (by simp)
  · exact (modEdge_delivers s k b h).2.2.2.2

/-- Whatever a bit does, it moves the first integrator, and the clock's supervision stays. -/
theorem modAt_modEdge : let x := (modEdge s k b).modAt k
    let m := s.modAt k
    x.i1 = (integrated m b).i1 ∧ x.i2 = (integrated m b).i2 ∧ x.i3 = (integrated m b).i3 ∧
      x.last = m.last ∧ x.outside = m.outside ∧ x.within = m.within := by
  rcases Nat.lt_or_ge ((s.modAt k).edges + 1) (s.osr k) with h | h
  · rw [modEdge_within s k b h, modAt_setMod_same]
    exact ⟨rfl, rfl, rfl, rfl, rfl, rfl⟩
  · rw [(modEdge_delivers s k b h).1]
    exact ⟨rfl, rfl, rfl, rfl, rfl, rfl⟩

/-- What the statement says of a bit (R192). -/
theorem modEdge_meets : let m := s.modAt k
    let i1 := m.i1 + (if b then 1 else -1)
    let i2 := m.i2 + i1
    let i3 := m.i3 + i2
    let osr := 32 * 2 ^ s.get (Fld.MOD_CFG_OSR k)
    let lost : Bool := decide (s.get (Fld.MOD_STATUS_STATE k) = 3)
    let u := modEdge s k b
    (u.modAt k).i1 = i1 ∧ (u.modAt k).i2 = i2 ∧ (u.modAt k).i3 = i3 ∧
    (m.edges + 1 < osr → (u.modAt k).edges = m.edges + 1 ∧ Frame [.mods] (bits []) s u) ∧
    (osr ≤ m.edges + 1 → (u.modAt k).edges = 0 ∧ (u.modAt k).outs = m.outs + 1 ∧ (u.modAt k).qAt = s.cyc ∧
      (u.modAt k).q = satS 16 (rsh (i3 - m.p3 - m.p1 - m.p2) (3 * (5 + s.get (Fld.MOD_CFG_OSR k)) - 15)) ∧
      (u.modAt k).qValid = (decide (3 ≤ m.outs + 1) && !m.bad && !lost) ∧
      u.get (Fld.MOD_OUT_Q k) = lowBits 16 (u.modAt k).q ∧ u.get (Fld.MOD_OUT_COUNT k) = (m.outs + 1) % 2 ^ 16 ∧
      u.get (Fld.MOD_STATUS_STATE k) = (if 3 ≤ m.outs + 1 ∧ lost = false then 2 else s.get (Fld.MOD_STATUS_STATE k)) ∧
      Frame [.mods, .sns] (orBits (words [Reg.MOD_OUT k]) (bits [Fld.MOD_STATUS_STATE k])) s u) := by
  intro m i1 i2 i3 osr lost u
  obtain ⟨h1, h2, h3, -⟩ := modAt_modEdge s k b
  refine ⟨h1, h2, h3, fun h => ?_, fun h => ?_⟩
  · have hu : u = _ := modEdge_within s k b h
    rw [hu, modAt_setMod_same]
    exact ⟨rfl, frame_setMod s k _ (by simp)⟩
  · obtain ⟨hmod, hq, hcount, hstate, hframe⟩ := modEdge_delivers s k b h
    refine ⟨?_, ?_, ?_, ?_, ?_, ?_, hcount, hstate, hframe⟩ <;> rw [hmod]
    exacts [rfl, rfl, rfl, rfl, rfl, hq]

end

end Sys2Proof.Proofs
end

section
/-!
PROOF. The clock of a modulator input in input mode: edges, glitches, changes of rate, losses (for O43: R195, Table 7.1).
-/

namespace Sys2Proof.Proofs
open Sys2Proof Sys2Proof.Machine Sys2Proof.Safety Sys2Proof.Laws

/-- What an edge can change. -/
def edgeReach (k : Nat) : Bits := orBits pba (orBits (words [Reg.MOD_STATUS k, Reg.MOD_OUT k])
  (bits [Fld.MOD_CNT_GLITCH k, Fld.SNS_IRQ_STATUS_MGLITCH, Fld.SNS_IRQ_STATUS_MRATE]))

/-- A part of what an edge does: the time of the edge and its interval stay. -/
def EdgeWork (k : Nat) (s t : State) : Prop :=
  (t.modAt k).last = (s.modAt k).last ∧ t.get (Fld.MOD_STATUS_PERIOD k) = s.get (Fld.MOD_STATUS_PERIOD k) ∧
    Frame [.mods, .sns, .msix] (edgeReach k) s t

section
variable {k : Nat} {s t u : State}

theorem edgeWork_trans (h : EdgeWork k s t) (h' : EdgeWork k t u) : EdgeWork k s u :=
  ⟨h'.1.trans h.1, h'.2.1.trans h.2.1, frame_trans h.2.2 h'.2.2⟩

theorem edgeReach_of_word {o : Nat} (h : o ∈ [Reg.MOD_STATUS k, Reg.MOD_OUT k]) (b : Nat) : edgeReach k o b := .inr (.inl h)

theorem edgeReach_of_irq (hk : k < 4) {f : Field} (h : f ∈ [Fld.SNS_IRQ_STATUS_MGLITCH, Fld.SNS_IRQ_STATUS_MRATE]) :
    edgeReach k f.off (f.lo + k) := by
  have hw : ∀ f ∈ [Fld.SNS_IRQ_STATUS_MGLITCH, Fld.SNS_IRQ_STATUS_MRATE], f.hi = f.lo + 3 := by decide
  have := hw f h
  exact .inr (.inr ⟨f, .tail _ h, rfl, Nat.le_add_right _ _, by omega⟩)

theorem edgeWork_setMod {x : Mod} (h : x.last = (s.modAt k).last) : EdgeWork k s (s.setMod k x) :=
  ⟨by rw [modAt_setMod_same, h], rfl, frame_setMod s k x (by simp)⟩

theorem edgeWork_modRestart (s : State) (k : Nat) : EdgeWork k s (modRestart s k) := by
  obtain ⟨hmod, -, -, hperiod, hframe⟩ := modRestart_meets s k
  refine ⟨by rw [hmod]; rfl, hperiod, frame_mono hframe (by simp) ?_⟩
  rintro o b ⟨f, hf, rfl, -⟩
  refine edgeReach_of_word ?_ b
  simp only [List.mem_cons, List.not_mem_nil, or_false] at hf
  rcases hf with rfl | rfl <;> simp [Fld.MOD_STATUS_STATE, Fld.MOD_OUT_COUNT]

theorem edgeWork_modEdge (s : State) (k : Nat) (b : Bool) : EdgeWork k s (modEdge s k b) := by
  obtain ⟨-, -, -, hlast, -⟩ := modAt_modEdge s k b
  refine ⟨hlast, get_of_frame (frame_modEdge s k b) fun i h1 h2 h => ?_, frame_mono (frame_modEdge s k b) (by simp) fun o i h => ?_⟩
  · rcases h with h | ⟨f, hf, -, h3, h4⟩
    · simp [words, Fld.MOD_STATUS_PERIOD, Reg.MOD_STATUS, Reg.MOD_OUT] at h
    · obtain rfl := List.mem_singleton.1 hf
      simp only [Fld.MOD_STATUS_PERIOD, Fld.MOD_STATUS_STATE] at h1 h4
      omega
  · rcases h with h | ⟨f, hf, rfl, -⟩
    · exact edgeReach_of_word (.tail _ h) i
    · obtain rfl := List.mem_singleton.1 hf
      exact edgeReach_of_word (.head _) i

/-- The interrupt of an input. -/
theorem edgeWork_irqBit (hk : k < 4) {f : Field} (h : f ∈ [Fld.SNS_IRQ_STATUS_MGLITCH, Fld.SNS_IRQ_STATUS_MRATE]) :
    EdgeWork k s (s.irqBit f k) := by
  have hframe : Frame [.msix] (edgeReach k) s (s.irqBit f k) :=
    frame_irqBit f k (edgeReach_of_irq hk h) (fun _ _ h => .inl h) (by simp)
  have hw : ∀ f ∈ [Fld.SNS_IRQ_STATUS_MGLITCH, Fld.SNS_IRQ_STATUS_MRATE], f.off = Reg.SNS_IRQ_STATUS ∧ f.hi = f.lo + 3 := by decide
  obtain ⟨hoff, hhi⟩ := hw f h
  refine ⟨congrArg Mod.last (modAt_of_frame hframe (by simp) k), get_irqBit_apart s (by omega) (apart_of_off ?_) ?_,
    frame_mono hframe (by simp) fun _ _ h => h⟩
  · simp only [hoff, Fld.MOD_STATUS_PERIOD, Reg.MOD_STATUS, Reg.SNS_IRQ_STATUS]; omega
  · simp only [Fld.MOD_STATUS_PERIOD, Reg.MOD_STATUS]; omega

end

section
variable (s : State) (k : Nat) (mdat : Bool) (t : Nat)

/-- A glitch is counted and spoils the output (Table 7.1). -/
theorem modGlitched_meets (hk : k < 4) : let u := modGlitched s k
    (u.modAt k).bad = true ∧ u.bitF Fld.SNS_IRQ_STATUS_MGLITCH k = true ∧
      u.get (Fld.MOD_CNT_GLITCH k) = min 0xFFFF (s.get (Fld.MOD_CNT_GLITCH k) + 1) ∧ (u.modAt k).edges = (s.modAt k).edges ∧
      EdgeWork k s u := by
  let a := s.setMod k { s.modAt k with bad := true, outside := 0, within := 0 }
  let c := a.incSat (Fld.MOD_CNT_GLITCH k)
  have hirq : EdgeWork k c (modGlitched s k) := edgeWork_irqBit hk (by simp)
  have hi : Fld.SNS_IRQ_STATUS_MGLITCH.lo + k ≤ Fld.SNS_IRQ_STATUS_MGLITCH.hi := by simp only [Fld.SNS_IRQ_STATUS_MGLITCH]; omega
  have hset : EdgeWork k s a := edgeWork_setMod rfl
  have hmod : (modGlitched s k).modAt k = { s.modAt k with bad := true, outside := 0, within := 0 } :=
    (modAt_irqBit c _ k k).trans (modAt_setMod_same s k _)
  have hcount : EdgeWork k a c := ⟨rfl, get_incSat_apart a rfl (apart_of_off (by
      simp [Fld.MOD_STATUS_PERIOD, Fld.MOD_CNT_GLITCH, Reg.MOD_STATUS, Reg.MOD_CNT])),
    frame_incSat _ 1 (covers_right _ (covers_right _ (covers_of_fits (by simp) rfl)))⟩
  refine ⟨by rw [hmod], bitF_irqBit c _ k hi (by decide) (not_pba_of_outside (.inr (by decide))), ?_, by rw [hmod],
    edgeWork_trans (edgeWork_trans hset hcount) hirq⟩
  refine (get_irqBit_apart c hi (apart_of_off ?_) (.inr ?_)).trans (get_incSat_self a rfl) <;>
    simp only [Fld.MOD_CNT_GLITCH, Reg.MOD_CNT, Fld.SNS_IRQ_STATUS_MGLITCH, Reg.SNS_IRQ_STATUS] <;> omega

/-- The rate has changed (Table 7.1). -/
theorem modRateOff_meets (hk : k < 4) : let u := modRateOff s k
    u.modAt k = { s.modAt k with off := true, outside := 0, within := 0 } ∧ u.get (Fld.MOD_STATUS_STATE k) = 3 ∧
      u.bitF Fld.SNS_IRQ_STATUS_MRATE k = true ∧ EdgeWork k s u := by
  let a := s.setMod k { s.modAt k with off := true, outside := 0, within := 0 }
  let c := a.put (Fld.MOD_STATUS_STATE k) 3
  have hirq : EdgeWork k c (modRateOff s k) := edgeWork_irqBit hk (by simp)
  have hi : Fld.SNS_IRQ_STATUS_MRATE.lo + k ≤ Fld.SNS_IRQ_STATUS_MRATE.hi := by simp only [Fld.SNS_IRQ_STATUS_MRATE]; omega
  have hstate : EdgeWork k a c := ⟨rfl, get_put_apart a 3 rfl rfl,
    frame_put _ 3 (covers_right _ (covers_left _ (covers_words_of_fits (.head _) rfl)))⟩
  have hset : EdgeWork k s a := edgeWork_setMod rfl
  refine ⟨(modAt_irqBit c _ k k).trans (modAt_setMod_same s k _), ?_,
    bitF_irqBit c _ k hi (by decide) (not_pba_of_outside (.inr (by decide))), edgeWork_trans (edgeWork_trans hset hstate) hirq⟩
  refine (get_irqBit_apart c hi (apart_of_off ?_) (.inr ?_)).trans (get_put_self a 3 rfl) <;>
    simp only [Fld.MOD_STATUS_STATE, Reg.MOD_STATUS, Fld.SNS_IRQ_STATUS_MRATE, Reg.SNS_IRQ_STATUS] <;> omega

/-- An edge takes its time and its interval before anything else (R192, Table 7.9). -/
def edgeNoted (s : State) (k t : Nat) : State := (s.setMod k { s.modAt k with last := s.cyc }).modInterval k t

theorem edgeNoted_meets : (edgeNoted s k t).modAt k = { s.modAt k with last := s.cyc } ∧
    (edgeNoted s k t).get (Fld.MOD_STATUS_PERIOD k) = min 0xFF t ∧ Frame [.mods, .sns, .msix] (edgeReach k) s (edgeNoted s k t) := by
  refine ⟨modAt_setMod_same s k _, (get_put_self _ _ rfl).trans ?_, frame_then_put (frame_setMod s k _ (by simp)) _ _
    (covers_right _ (covers_left _ (covers_words_of_fits (.head _) rfl)))⟩
  simp only [satU, Field.width, Fld.MOD_STATUS_PERIOD]
  omega

/-- The expected interval is no part of what an edge sets. -/
theorem mexp_edgeNoted : (edgeNoted s k t).mexp k = s.mexp k :=
  get_put_word _ _ _ _ (by simp [Fld.MOD_CFG_PERIOD, Fld.MOD_STATUS_PERIOD, Reg.MOD_CFG, Reg.MOD_STATUS])

theorem modGlitchy_edgeNoted : (edgeNoted s k t).modGlitchy k t = s.modGlitchy k t := by
  simp only [State.modGlitchy, mexp_edgeNoted]

theorem modNear_edgeNoted : (edgeNoted s k t).modNear k t = s.modNear k t := by
  simp only [State.modNear, mexp_edgeNoted]

/-! ### The cases of an edge (Table 7.1) -/

/-- The interval is judged before the edge is noted as after it. -/
theorem modInEdge_eq : modInEdge s k mdat t =
    if (s.modAt k).lost then modRestart (edgeNoted s k t) k
    else if s.modGlitchy k t then modGlitched (edgeNoted s k t) k
    else if s.modNear k t then
      if (s.modAt k).off && decide (8 ≤ (s.modAt k).within + 1) then modRestart (edgeNoted s k t) k
      else modEdge ((edgeNoted s k t).setMod k
        { (edgeNoted s k t).modAt k with outside := 0, within := (s.modAt k).within + 1 }) k mdat
    else
      let u := modEdge (edgeNoted s k t) k mdat
      if !(s.modAt k).off && decide (8 ≤ (s.modAt k).outside + 1) then modRateOff u k
      else u.setMod k { u.modAt k with outside := (s.modAt k).outside + 1, within := 0 } := by
  rw [← modGlitchy_edgeNoted s k t, ← modNear_edgeNoted s k t]
  rfl

/-- The filter has restarted. -/
def Restarts (k : Nat) (u : State) : Prop := u.get (Fld.MOD_STATUS_STATE k) = 1 ∧ u.get (Fld.MOD_OUT_COUNT k) = 0 ∧
  (u.modAt k).outs = 0 ∧ (u.modAt k).lost = false ∧ (u.modAt k).off = false

theorem restarts_modRestart (s : State) (k : Nat) : Restarts k (modRestart s k) := by
  obtain ⟨hmod, hstate, hcount, -⟩ := modRestart_meets s k
  refine ⟨hstate, hcount, ?_, ?_, ?_⟩ <;> rw [hmod] <;> rfl

/-- What every edge of an input does (R192, Table 7.9). -/
theorem modInEdge_notes (hk : k < 4) : let u := modInEdge s k mdat t
    (u.modAt k).last = s.cyc ∧ u.get (Fld.MOD_STATUS_PERIOD k) = min 0xFF t ∧ Frame [.mods, .sns, .msix] (edgeReach k) s u := by
  obtain ⟨hmod, hperiod, hframe⟩ := edgeNoted_meets s k t
  have hwork : EdgeWork k (edgeNoted s k t) (modInEdge s k mdat t) := by
    rw [modInEdge_eq]
    split
    · exact edgeWork_modRestart _ k
    split
    · exact (modGlitched_meets _ k hk).2.2.2.2
    split
    · split
      · exact edgeWork_modRestart _ k
      · exact edgeWork_trans (edgeWork_setMod (by rfl)) (edgeWork_modEdge _ k mdat)
    · dsimp only
      split
      · exact edgeWork_trans (edgeWork_modEdge _ k mdat) (modRateOff_meets _ k hk).2.2.2
      · exact edgeWork_trans (edgeWork_modEdge _ k mdat) (edgeWork_setMod rfl)
  exact ⟨hwork.1.trans (by rw [hmod]), hwork.2.1.trans hperiod, frame_trans hframe hwork.2.2⟩

/-- The first edge after a loss. -/
theorem modInEdge_lost (h : (s.modAt k).lost = true) : Restarts k (modInEdge s k mdat t) := by
  rw [modInEdge_eq, if_pos h]
  exact restarts_modRestart _ k

section
variable {s k t} (hk : k < 4) (h : (s.modAt k).lost = false)

include h hk in
/-- A glitch. -/
theorem modInEdge_glitch (hs : s.modGlitchy k t = true) : let u := modInEdge s k mdat t
    (u.modAt k).bad = true ∧ u.bitF Fld.SNS_IRQ_STATUS_MGLITCH k = true ∧
      u.get (Fld.MOD_CNT_GLITCH k) = min 0xFFFF (s.get (Fld.MOD_CNT_GLITCH k) + 1) ∧ (u.modAt k).edges = (s.modAt k).edges := by
  obtain ⟨hbad, hirq, hcount, hedges, -⟩ := modGlitched_meets (edgeNoted s k t) k hk
  have hcnt : (edgeNoted s k t).get (Fld.MOD_CNT_GLITCH k) = s.get (Fld.MOD_CNT_GLITCH k) :=
    get_put_word _ _ _ _ (by simp [Fld.MOD_CNT_GLITCH, Fld.MOD_STATUS_PERIOD, Reg.MOD_CNT, Reg.MOD_STATUS])
  have hmod := (edgeNoted_meets s k t).1
  rw [modInEdge_eq, if_neg (by simp [h]), if_pos hs]
  exact ⟨hbad, hirq, by rw [hcount, hcnt], by rw [hedges, hmod]⟩

section
variable (hs : s.modGlitchy k t = false)

include h hs in
/-- An interval within the tolerance. -/
theorem modInEdge_near (hn : s.modNear k t = true) : let u := modInEdge s k mdat t
    ((s.modAt k).off = true → 7 ≤ (s.modAt k).within → Restarts k u) ∧
    ((s.modAt k).off = false ∨ (s.modAt k).within < 7 → (u.modAt k).within = (s.modAt k).within + 1 ∧ (u.modAt k).outside = 0 ∧
      (u.modAt k).i1 = (s.modAt k).i1 + (if mdat then 1 else -1)) := by
  intro u
  have hu : u = _ := modInEdge_eq s k mdat t
  rw [if_neg (by simp [h]), if_neg (by simp [hs]), if_pos hn] at hu
  refine ⟨fun hoff hw => ?_, fun hc => ?_⟩
  · rw [hu, if_pos (by simp [hoff]; omega)]
    exact restarts_modRestart _ k
  · have hnot : ¬ ((s.modAt k).off && decide (8 ≤ (s.modAt k).within + 1)) = true := by
      rcases hc with hc | hc
      · simp [hc]
      · simp; omega
    obtain ⟨h1, -, -, -, hout, hin⟩ := modAt_modEdge ((edgeNoted s k t).setMod k
      { (edgeNoted s k t).modAt k with outside := 0, within := (s.modAt k).within + 1 }) k mdat
    rw [modAt_setMod_same] at h1 hout hin
    rw [hu, if_neg hnot]
    exact ⟨hin, hout, h1.trans (by rw [(edgeNoted_meets s k t).1]; rfl)⟩

include h hs hk in
/-- An interval outside it. -/
theorem modInEdge_far (hn : s.modNear k t = false) : let u := modInEdge s k mdat t
    (u.modAt k).i1 = (s.modAt k).i1 + (if mdat then 1 else -1) ∧
    ((s.modAt k).off = false → 7 ≤ (s.modAt k).outside → u.get (Fld.MOD_STATUS_STATE k) = 3 ∧ (u.modAt k).off = true ∧
      u.bitF Fld.SNS_IRQ_STATUS_MRATE k = true) ∧
    ((s.modAt k).off = true ∨ (s.modAt k).outside < 7 →
      (u.modAt k).outside = (s.modAt k).outside + 1 ∧ (u.modAt k).within = 0) := by
  intro u
  have hu : u = _ := modInEdge_eq s k mdat t
  rw [if_neg (by simp [h]), if_neg (by simp [hs]), if_neg (by simp [hn])] at hu
  dsimp only at hu
  have h1 : ((modEdge (edgeNoted s k t) k mdat).modAt k).i1 = (s.modAt k).i1 + (if mdat then 1 else -1) :=
    (modAt_modEdge _ k mdat).1.trans (by rw [(edgeNoted_meets s k t).1]; rfl)
  by_cases hc : (!(s.modAt k).off && decide (8 ≤ (s.modAt k).outside + 1)) = true
  · rw [if_pos hc] at hu
    obtain ⟨hmod, hstate, hirq, -⟩ := modRateOff_meets (modEdge (edgeNoted s k t) k mdat) k hk
    simp only [Bool.and_eq_true, Bool.not_eq_true', decide_eq_true_eq] at hc
    rw [hu, hmod]
    refine ⟨h1, fun _ _ => ⟨hstate, rfl, hirq⟩, fun hor => ?_⟩
    rcases hor with hor | hor
    · rw [hc.1] at hor; simp at hor
    · omega
  · rw [if_neg hc] at hu
    rw [hu, modAt_setMod_same]
    refine ⟨h1, fun hoff ho => absurd ?_ hc, fun _ => ⟨rfl, rfl⟩⟩
    simp only [hoff, Bool.not_false, Bool.true_and, decide_eq_true_eq]
    omega

end
end
end
end Sys2Proof.Proofs
end

section
/-!
PROOF. Modulator inputs (O43: R192 to R195, Table 7.1).
-/

namespace Sys2Proof.Proofs
open Sys2Proof Sys2Proof.Machine Sys2Proof.Safety Sys2Proof.Laws

/-! ### A write of MOD_CFG (R193 to R195) -/

/-- Bits that a mask lets through spell what they spelt. -/
theorem bitsOf_masked (x : Nat) {m hi lo : Nat} (h : bitsOf m hi lo = 2 ^ (hi + 1 - lo) - 1) : bitsOf (x &&& m) hi lo = bitsOf x hi lo := by
  have hand : bitsOf (x &&& m) hi lo = bitsOf x hi lo &&& bitsOf m hi lo := by
    simp only [bitsOf, Nat.shiftRight_and_distrib, Nat.and_mod_two_pow]
  rw [hand, h, Nat.and_two_pow_sub_one_eq_mod]
  exact Nat.mod_mod _ _

/-- The fields of MOD_CFG read what was written. -/
theorem modCfg_get (k : Nat) (v : Word) : (Fld.MOD_CFG_AXIS k).get (v &&& 0x0037FF37) = v.toNat / 2 ^ 16 % 8 ∧
    (Fld.MOD_CFG_CHAN k).get (v &&& 0x0037FF37) = v.toNat / 2 ^ 20 % 4 ∧
    (Fld.MOD_CFG_PERIOD k).get (v &&& 0x0037FF37) = v.toNat / 2 ^ 8 % 2 ^ 8 ∧
    decide ((Fld.MOD_CFG_EN k).get (v &&& 0x0037FF37) = 1) = v.getLsbD 0 ∧
    decide ((Fld.MOD_CFG_CLKOUT k).get (v &&& 0x0037FF37) = 1) = v.getLsbD 1 := by
  have hfield (f : Field) (h : ∃ hi lo, f.hi = hi ∧ f.lo = lo ∧ bitsOf 0x0037FF37 hi lo = 2 ^ (hi + 1 - lo) - 1) :
      f.get (v &&& 0x0037FF37) = f.get v := by
    obtain ⟨_, _, rfl, rfl, h⟩ := h
    simp only [Field.get, BitVec.toNat_and]
    exact bitsOf_masked _ h
  rw [hfield _ ⟨18, 16, rfl, rfl, by decide⟩, hfield _ ⟨21, 20, rfl, rfl, by decide⟩, hfield _ ⟨15, 8, rfl, rfl, by decide⟩,
    hfield _ ⟨0, 0, rfl, rfl, by decide⟩, hfield _ ⟨1, 1, rfl, rfl, by decide⟩]
  refine ⟨?_, ?_, ?_, field_get_eq_one (f := Fld.MOD_CFG_EN k) rfl v, field_get_eq_one (f := Fld.MOD_CFG_CLKOUT k) rfl v⟩ <;>
    simp only [Field.get, bitsOf, Nat.shiftRight_eq_div_pow, Fld.MOD_CFG_AXIS, Fld.MOD_CFG_CHAN, Fld.MOD_CFG_PERIOD] <;> rfl

/-- The write names a channel that another input feeds (R193). -/
def chanTaken (s : State) (k : Nat) (v : Word) : Bool := (List.range 4).any fun j => decide (j ≠ k) &&
  s.modRouted j (v.toNat / 2 ^ 16 % 8) && decide (s.get (Fld.MOD_CFG_CHAN j) = v.toNat / 2 ^ 20 % 4)

/-- The divider runs on as it does (log entry 43). -/
def dividerKept (s : State) (k : Nat) (v : Word) : Bool := s.flag (Fld.MOD_CFG_EN k) && s.flag (Fld.MOD_CFG_CLKOUT k) &&
  decide (s.get (Fld.MOD_CFG_PERIOD k) = v.toNat / 2 ^ 8 % 2 ^ 8)

/-- The input is switched off. -/
def modOff (s : State) (k : Nat) : State :=
  (s.put (Fld.MOD_STATUS_STATE k) 0).setMod k { s.modAt k with startDue := false, qValid := false }

/-- The divider of an output-mode input starts: at the edge while the gaffer runs, else in the next cycle (R194). -/
def dividerStarts (s : State) (k : Nat) : State :=
  if s.running then (modRestart s k).setMod k { (modRestart s k).modAt k with startDue := true } else modStart s k (s.cyc + 1)

/-- The filter alone restarts. -/
def filterRestarts (s : State) (k : Nat) (clkout : Bool) : State :=
  (modRestart s k).setMod k
    { (modRestart s k).modAt k with startDue := clkout && ((modRestart s k).modAt k).startDue, last := (modRestart s k).cyc }

section
variable (s : State) (k : Nat) (v : Word)

/-- A write of MOD_CFG, case by case. -/
theorem modCfgWrite_eq : modCfgWrite s k v =
    let u := s.setReg (Reg.MOD_CFG k) (v &&& 0x0037FF37)
    if 5 < v.toNat / 2 ^ 16 % 8 || !modPeriodOk (v.getLsbD 1) (v.toNat / 2 ^ 8 % 2 ^ 8) || (v.getLsbD 0 && chanTaken s k v) then s
    else if !v.getLsbD 0 then modOff u k
    else if s.reg (Reg.MOD_CFG k) = v &&& 0x0037FF37 then u
    else if v.getLsbD 1 && !dividerKept s k v then dividerStarts u k
    else filterRestarts u k (v.getLsbD 1) := by
  obtain ⟨haxis, hchan, hperiod, hen, hclk⟩ := modCfg_get k v
  unfold modCfgWrite
  simp only [haxis, hchan, hperiod, hen, hclk]
  rfl

/-- The filter restarts and the input is then set to `x`. -/
theorem restartedAs_meets (x : Mod) : let t := (modRestart s k).setMod k x
    t.modAt k = x ∧ t.get (Fld.MOD_STATUS_STATE k) = 1 ∧ t.get (Fld.MOD_OUT_COUNT k) = 0 ∧
      Frame [.mods] (words [Reg.MOD_STATUS k, Reg.MOD_OUT k]) s t := by
  obtain ⟨-, hstate, hcount, -, hframe⟩ := modRestart_meets s k
  refine ⟨modAt_setMod_same _ k x, (get_setMod _ k x _).trans hstate, (get_setMod _ k x _).trans hcount,
    frame_trans (frame_mono hframe (fun _ h => h) ?_) (frame_setMod _ k x (by simp))⟩
  rintro o b ⟨f, hf, rfl, -⟩
  simp only [List.mem_cons, List.not_mem_nil, or_false] at hf
  rcases hf with rfl | rfl <;> simp [words, Fld.MOD_STATUS_STATE, Fld.MOD_OUT_COUNT]

/-- What an enabled input is set to when its configuration changes (R194, log entry 43). -/
theorem reconfigured_eq (clkout same : Bool) : ∃ x : Mod,
    (if clkout && !same then dividerStarts s k else filterRestarts s k clkout) = (modRestart s k).setMod k x ∧
    x.outs = 0 ∧ x.edges = 0 ∧ (clkout = true → same = false → s.running = true → x.startDue = true) ∧
    (clkout = true → same = false → s.running = false → x.startDue = false ∧ x.divAt = s.cyc + 1) ∧
    (clkout = false → x.startDue = false ∧ x.last = s.cyc) := by
  obtain ⟨hmod, -, -, -, hframe⟩ := modRestart_meets s k
  have hcyc : (modRestart s k).cyc = s.cyc := hframe.2 .cyc (by simp)
  by_cases hc : (clkout && !same) = true
  · simp only [Bool.and_eq_true, Bool.not_eq_true'] at hc
    obtain ⟨rfl, rfl⟩ := hc
    rw [if_pos (by rfl)]
    cases hr : s.running with
    | true => exact ⟨_, if_pos hr, by rw [hmod]; rfl, by rw [hmod]; rfl, fun _ _ _ => rfl, by simp, by simp⟩
    | false => exact ⟨_, (if_neg (by simp [hr])).trans rfl, by rw [hmod]; rfl, by rw [hmod]; rfl, by simp, fun _ _ _ => ⟨rfl, rfl⟩, by simp⟩
  · rw [if_neg hc]
    refine ⟨_, rfl, by rw [hmod]; rfl, by rw [hmod]; rfl, fun h1 h2 => ?_, fun h1 h2 => ?_, fun h => ⟨by rw [h]; rfl, hcyc⟩⟩
    all_goals exact absurd (by simp [h1, h2]) hc

/-- The configuration word alone is set. -/
theorem frame_modCfg_set (x : Word) :
    Frame [.mods] (words [Reg.MOD_CFG k, Reg.MOD_STATUS k, Reg.MOD_OUT k]) s (s.setReg (Reg.MOD_CFG k) x) :=
  frame_setReg _ _ fun _ => .head _

/-- A write that is taken (R193 to R195). -/
theorem modCfgWrite_meets (haxis : v.toNat / 2 ^ 16 % 8 ≤ 5) (hp : modPeriodOk (v.getLsbD 1) (v.toNat / 2 ^ 8 % 2 ^ 8) = true)
    (hfree : v.getLsbD 0 = true → chanTaken s k v = false) :
    let t := modCfgWrite s k v
    t.reg (Reg.MOD_CFG k) = v &&& 0x0037FF37 ∧
    (v.getLsbD 0 = false → t.get (Fld.MOD_STATUS_STATE k) = 0 ∧ (t.modAt k).qValid = false ∧ (t.modAt k).startDue = false) ∧
    (v.getLsbD 0 = true → s.reg (Reg.MOD_CFG k) = v &&& 0x0037FF37 → Frame [] (bits []) s t) ∧
    (v.getLsbD 0 = true → s.reg (Reg.MOD_CFG k) ≠ v &&& 0x0037FF37 → t.get (Fld.MOD_STATUS_STATE k) = 1 ∧
      t.get (Fld.MOD_OUT_COUNT k) = 0 ∧ (t.modAt k).outs = 0 ∧ (t.modAt k).edges = 0 ∧
      (v.getLsbD 1 = true → dividerKept s k v = false → s.running = true → (t.modAt k).startDue = true) ∧
      (v.getLsbD 1 = true → dividerKept s k v = false → s.running = false →
        (t.modAt k).startDue = false ∧ (t.modAt k).divAt = s.cyc + 1) ∧
      (v.getLsbD 1 = false → (t.modAt k).startDue = false ∧ (t.modAt k).last = s.cyc)) ∧
    Frame [.mods] (words [Reg.MOD_CFG k, Reg.MOD_STATUS k, Reg.MOD_OUT k]) s t := by
  intro t
  have ht : t = _ := modCfgWrite_eq s k v
  clear_value t
  dsimp only at ht
  obtain ⟨u, hus⟩ : ∃ u, s.setReg (Reg.MOD_CFG k) (v &&& 0x0037FF37) = u := ⟨_, rfl⟩
  have hu : u.reg (Reg.MOD_CFG k) = v &&& 0x0037FF37 := hus ▸ reg_setReg_same s _ _
  have hset : Frame [.mods] (words [Reg.MOD_CFG k, Reg.MOD_STATUS k, Reg.MOD_OUT k]) s u := hus ▸ frame_modCfg_set s k _
  have htaken : (v.getLsbD 0 && chanTaken s k v) = false := by
    cases hen : v.getLsbD 0 with
    | false => rfl
    | true => exact hfree hen
  rw [decide_eq_false (Nat.not_lt.2 haxis), hp, htaken, if_neg (by decide), hus] at ht
  have hcfg (x : State) (h : Frame [.mods] (words [Reg.MOD_STATUS k, Reg.MOD_OUT k]) u x) : x.reg (Reg.MOD_CFG k) = v &&& 0x0037FF37 := by
    refine (reg_of_frame h fun _ _ h => ?_).trans hu
    simp [words, Reg.MOD_CFG, Reg.MOD_STATUS, Reg.MOD_OUT] at h
  have hwider {x : State} (h : Frame [.mods] (words [Reg.MOD_STATUS k, Reg.MOD_OUT k]) u x) :
      Frame [.mods] (words [Reg.MOD_CFG k, Reg.MOD_STATUS k, Reg.MOD_OUT k]) u x := frame_mono h (fun _ h => h) fun _ _ h => .tail _ h
  cases hen : v.getLsbD 0 with
  | false =>
    have hoff : t = modOff u k := ht.trans (if_pos (by rw [hen]; rfl))
    have hframe : Frame [.mods] (words [Reg.MOD_STATUS k, Reg.MOD_OUT k]) u (modOff u k) :=
      frame_trans (frame_put _ 0 (covers_words_of_fits (.head _) rfl)) (frame_setMod _ k _ (by simp))
    rw [hoff]
    refine ⟨hcfg _ hframe, fun _ => ⟨(get_setMod _ k _ _).trans (get_put_self u 0 rfl), ?_, ?_⟩,
      fun h => absurd h (by decide), fun h => absurd h (by decide), frame_trans hset (hwider hframe)⟩ <;>
      rw [modOff, modAt_setMod_same]
  | true =>
    rw [if_neg (by rw [hen]; decide)] at ht
    by_cases hsame : s.reg (Reg.MOD_CFG k) = v &&& 0x0037FF37
    · rw [show t = u from ht.trans (if_pos hsame)]
      refine ⟨hu, fun h => absurd h (by decide), fun _ _ => frame_regs (fun o b _ => ?_) (hus ▸ rfl), fun _ h => absurd hsame h, hset⟩
      rw [← hus, ← hsame, reg_setReg_self]
    · obtain ⟨x, hx, houts, hedges, hdue, hstart, hlast⟩ := reconfigured_eq u k (v.getLsbD 1) (dividerKept s k v)
      obtain ⟨hmod, hstate, hcount, hframe⟩ := restartedAs_meets u k x
      have hrun : u.running = s.running := flag_of_frame hset fun b _ _ h => by
        simp [words, Fld.GAF_STATUS_RUNNING, Reg.GAF_STATUS, Reg.MOD_CFG, Reg.MOD_STATUS, Reg.MOD_OUT] at h
        omega
      have hcyc : u.cyc = s.cyc := hset.2 .cyc (by simp)
      rw [if_neg hsame, hx] at ht
      rw [ht, hmod, ← hrun, ← hcyc]
      exact ⟨hcfg _ hframe, fun h => absurd h (by decide), fun _ h => absurd h hsame, fun _ _ => ⟨hstate, hcount, houts, hedges, hdue, hstart, hlast⟩,
        frame_trans hset (hwider hframe)⟩

end

/-! ### A loss of the clock (Table 7.1) -/

/-- An enabled input-mode input has seen no sampling edge for more than 4 MEXP cycles. -/
def clockLost (s : State) (k : Nat) : Bool :=
  s.modInput k && !(s.modAt k).lost && decide ((s.modAt k).last + 4 * s.get (Fld.MOD_CFG_PERIOD k) < s.cyc)

/-- The loss is shown, reported and counted. -/
def clockLostShown (s : State) (k : Nat) : State :=
  let u := s.setMod k { s.modAt k with lost := true, off := false, outside := 0, within := 0 }
  ((u.put (Fld.MOD_STATUS_STATE k) 3).irqBit Fld.SNS_IRQ_STATUS_MLOST k).incSat (Fld.MOD_CNT_LOST k)

theorem clockLostShown_meets (s : State) {k : Nat} (hk : k < 4) : let t := clockLostShown s k
    t.get (Fld.MOD_STATUS_STATE k) = 3 ∧ (t.modAt k).lost = true ∧ t.bitF Fld.SNS_IRQ_STATUS_MLOST k = true ∧
      t.get (Fld.MOD_CNT_LOST k) = min 0xFFFF (s.get (Fld.MOD_CNT_LOST k) + 1) ∧
      Frame [.mods, .msix] (orBits pba (bits [Fld.MOD_STATUS_STATE k, Fld.SNS_IRQ_STATUS_MLOST, Fld.MOD_CNT_LOST k])) s t := by
  let u := s.setMod k { s.modAt k with lost := true, off := false, outside := 0, within := 0 }
  let a := u.put (Fld.MOD_STATUS_STATE k) 3
  let c := a.irqBit Fld.SNS_IRQ_STATUS_MLOST k
  have hi : Fld.SNS_IRQ_STATUS_MLOST.lo + k ≤ Fld.SNS_IRQ_STATUS_MLOST.hi := by simp only [Fld.SNS_IRQ_STATUS_MLOST]; omega
  have hword : ∀ k < 4, ∀ f ∈ [Fld.MOD_STATUS_STATE k, Fld.MOD_CNT_LOST k], apart f Fld.SNS_IRQ_STATUS_MLOST = true ∧
      0x29010 ≤ f.off := by decide
  have hkeep {f : Field} (hf : f ∈ [Fld.MOD_STATUS_STATE k, Fld.MOD_CNT_LOST k]) : c.get f = a.get f :=
    get_irqBit_apart a hi (hword k hk f hf).1 (.inr (hword k hk f hf).2)
  have hcount : (clockLostShown s k).get (Fld.MOD_CNT_LOST k) = min 0xFFFF (c.get (Fld.MOD_CNT_LOST k) + 1) := get_incSat_self c rfl
  have hmlost : apart Fld.SNS_IRQ_STATUS_MLOST (Fld.MOD_CNT_LOST k) = true := apart_of_off (by
    simp only [Fld.SNS_IRQ_STATUS_MLOST, Fld.MOD_CNT_LOST, Reg.SNS_IRQ_STATUS, Reg.MOD_CNT]; omega)
  refine ⟨(get_incSat_apart c rfl rfl).trans ((hkeep (by simp)).trans (get_put_self u 3 rfl)), ?_, ?_, ?_, ?_⟩
  · have hmod : (clockLostShown s k).modAt k = u.modAt k := modAt_irqBit a _ k k
    rw [hmod, modAt_setMod_same]
  · exact (bitF_of_get (get_incSat_apart c rfl hmlost) k).trans
      (bitF_irqBit a _ k hi (by decide) (not_pba_of_outside (.inr (by decide))))
  · rw [hcount, hkeep (by simp)]
    exact congrArg (fun x => min 0xFFFF (x + 1)) (get_put_word u _ _ 3 (by
      simp [Fld.MOD_CNT_LOST, Fld.MOD_STATUS_STATE, Reg.MOD_CNT, Reg.MOD_STATUS]))
  · have hput : Frame [.mods, .msix] (orBits pba (bits [Fld.MOD_STATUS_STATE k, Fld.SNS_IRQ_STATUS_MLOST, Fld.MOD_CNT_LOST k])) s a :=
      frame_then_put (frame_setMod s k _ (by simp)) _ 3 (covers_right _ (covers_of_fits (by simp) rfl))
    exact frame_then_incSat (frame_trans hput (frame_irqBit_listed a (by simp) hi (by simp))) _ 1
      (covers_right _ (covers_of_fits (by simp) rfl))

/-! ### The commands -/

section
variable {s : State} (hrun : s.pwr.hold = .running) (k : Fin 4)
include hrun

theorem exec_modCfgWrite (v : Word) (h : s.served (Reg.MOD_CFG k) = true) : exec (.modCfgWrite k v) s = .next (modCfgWrite s k v) := by
  show execModCfgWrite k v s = _
  rw [execModCfgWrite, act_running _ _ hrun, if_pos h]

theorem exec_modClockLost : exec (.modClockLost k) s = .next (if clockLost s k then clockLostShown s k else s) :=
  act_running s _ hrun

/-- The commands of an edge: each does what an edge does, where its condition holds. -/
theorem exec_modEdges (e : ModEdge) : let m := s.modAt k
    let t := modInEdge s k e.mdat e.interval
    let samples : Bool := s.modInput k && (e.rising != s.flag (Fld.MOD_CFG_EDGE k))
    let short := s.modGlitchy k e.interval
    let near := s.modNear k e.interval
    exec (.modGlitch k e) s = .next (if samples && (!m.lost && short) then t else s) ∧
    exec (.modRateChange k e) s =
      .next (if samples && (!m.lost && !m.off && decide (m.outside = 7) && !short && !near) then t else s) ∧
    exec (.modClockRecovery k e) s =
      .next (if samples && (m.lost || (m.off && decide (m.within = 7) && !short && near)) then t else s) :=
  ⟨act_running s _ hrun, act_running s _ hrun, act_running s _ hrun⟩

theorem exec_modDecimation (es : List ModEdge) : exec (.modDecimation k es) s = .next
    (let m := s.modAt k
    let taken := es.filter fun e => e.rising != s.flag (Fld.MOD_CFG_EDGE k)
    if s.modInput k then taken.foldl (fun s e => modInEdge s k e.mdat e.interval) s
    else if s.flag (Fld.MOD_CFG_EN k) && !m.startDue && !taken.isEmpty && decide (s.edgesBy k (s.cyc - 1) < s.edgesBy k s.cyc) &&
        decide (s.edgesBy k m.last + taken.length = s.edgesBy k s.cyc) then
      (taken.foldl (fun s e => modEdge s k e.mdat) (s.setMod k { m with last := s.cyc })).modInterval k (s.get (Fld.MOD_CFG_PERIOD k))
    else s) := by
  show execModDecimation k es s = _
  rw [execModDecimation, act_running _ _ hrun]
  rfl

end

/-- What the statement says of an edge (R195, Table 7.1). -/
theorem modInEdge_meets (s : State) {k : Nat} (hk : k < 4) (e : ModEdge) : let m := s.modAt k
    let short := s.modGlitchy k e.interval
    let near := s.modNear k e.interval
    let t := modInEdge s k e.mdat e.interval
    (t.modAt k).last = s.cyc ∧ t.get (Fld.MOD_STATUS_PERIOD k) = min 0xFF e.interval ∧
    (m.lost = true → Restarts k t) ∧
    (m.lost = false → short = true → (t.modAt k).bad = true ∧ t.bitF Fld.SNS_IRQ_STATUS_MGLITCH k = true ∧
      t.get (Fld.MOD_CNT_GLITCH k) = min 0xFFFF (s.get (Fld.MOD_CNT_GLITCH k) + 1) ∧ (t.modAt k).edges = m.edges) ∧
    (m.lost = false → short = false → near = true →
      (m.off = true → 7 ≤ m.within → Restarts k t) ∧
      (m.off = false ∨ m.within < 7 → (t.modAt k).within = m.within + 1 ∧ (t.modAt k).outside = 0 ∧
        (t.modAt k).i1 = m.i1 + (if e.mdat then 1 else -1))) ∧
    (m.lost = false → short = false → near = false →
      (t.modAt k).i1 = m.i1 + (if e.mdat then 1 else -1) ∧
      (m.off = false → 7 ≤ m.outside → t.get (Fld.MOD_STATUS_STATE k) = 3 ∧ (t.modAt k).off = true ∧
        t.bitF Fld.SNS_IRQ_STATUS_MRATE k = true) ∧
      (m.off = true ∨ m.outside < 7 → (t.modAt k).outside = m.outside + 1 ∧ (t.modAt k).within = 0)) ∧
    Frame [.mods, .sns, .msix] (edgeReach k) s t := by
  obtain ⟨hlast, hperiod, hframe⟩ := modInEdge_notes s k e.mdat e.interval hk
  exact ⟨hlast, hperiod, modInEdge_lost s k e.mdat e.interval, fun h hs => modInEdge_glitch e.mdat hk h hs,
    fun h hs hn => modInEdge_near e.mdat h hs hn, fun h hs hn => modInEdge_far e.mdat hk h hs hn, hframe⟩

/-- Settles O43: MOD_CFG by what the write changes, an edge by the interval it ends, a bit by whether it completes an output. -/
theorem modulatorInputs : Obligations.ModulatorInputs := by
  intro s k hrun
  refine ⟨fun v hserved => ⟨fun hbad => ?_, fun haxis hp hfree => ⟨_, exec_modCfgWrite hrun k v hserved,
    modCfgWrite_meets s k v haxis hp hfree⟩⟩, ⟨fun hlost => ?_, fun hlost => ⟨_, ?_, clockLostShown_meets s k.isLt⟩⟩, fun e => ?_,
    fun es => ⟨fun h => ?_, fun h hdue => ?_, fun h hdue => ?_⟩, modEdge_meets s k⟩
  · refine (exec_modCfgWrite hrun k v hserved).trans (congrArg _ ((modCfgWrite_eq s k v).trans (if_pos ?_)))
    rcases hbad with haxis | hp | ⟨hen, htaken⟩
    · rw [decide_eq_true haxis]; rfl
    · rw [hp, Bool.not_false, Bool.or_true]; rfl
    · rw [hen, show chanTaken s k v = true from htaken, Bool.and_true, Bool.or_true]
  · rw [exec_modClockLost hrun k, show clockLost s k = false from hlost]; rfl
  · rw [exec_modClockLost hrun k, show clockLost s k = true from hlost]; rfl
  · obtain ⟨hglitch, hrate, hrecovery⟩ := exec_modEdges hrun k e
    refine ⟨hglitch.trans ?_, hrate.trans ?_, hrecovery, modInEdge_meets s k.isLt e⟩
    · rw [← Bool.and_assoc]; rfl
    · rw [← Bool.and_assoc, ← Bool.and_assoc, ← Bool.and_assoc, ← Bool.and_assoc]; rfl
  · exact (exec_modDecimation hrun k es).trans (congrArg _ (if_pos h))
  · exact (exec_modDecimation hrun k es).trans (congrArg _ ((if_neg (by simp [h])).trans (if_neg (by simp [hdue]))))
  · exact (exec_modDecimation hrun k es).trans (congrArg _ ((if_neg (by simp [h])).trans (if_pos hdue)))

end Sys2Proof.Proofs
end

section
/-!
PROOF. Disables of PWM modules and of valve channels, and the trip inputs (for O45: R196, R271 to R273, R290).
-/

namespace Sys2Proof.Proofs
open Sys2Proof Sys2Proof.Machine Sys2Proof.Safety Sys2Proof.Laws

/-- What each element of a list brings about, and none undoes, stands after all of them. -/
theorem foldl_brings {α : Type} {P : α → State → Prop} {f : State → α → State} : ∀ {l : List α} {s : State},
    (∀ a ∈ l, ∀ s, P a (f s a)) → (∀ a ∈ l, ∀ b ∈ l, ∀ s, P b s → P b (f s a)) → ∀ a ∈ l, P a (l.foldl f s)
  | [], _, _, _, a, h => absurd h (by simp)
  | b :: l, s, hset, hkeep, a, h => by
    have hk : ∀ (r : List α) (t : State), r ⊆ b :: l → P a t → P a (r.foldl f t) := by
      intro r
      induction r with
      | nil => exact fun _ _ ht => ht
      | cons c r ih =>
        exact fun t hr ht => ih _ (fun x hx => hr (by simp [hx])) (hkeep c (hr (by simp)) a h t ht)
    rcases List.mem_cons.1 h with rfl | hl
    · exact hk l _ (by simp) (hset a (by simp) s)
    · exact foldl_brings (l := l) (s := f s b) (fun c hc => hset c (by simp [hc]))
        (fun c hc d hd => hkeep c (by simp [hc]) d (by simp [hd])) a hl

/-! ### Valve channels turned off (R290) -/

/-- A channel is turned off at once. -/
def channelOff (s : State) (c : Nat) : State :=
  (((if s.vState c = 2 then s.put (Fld.VLV_STATUS_RESULT c) stAborted else s).setVState c 0).put (Fld.VLV_STATUS_FAULT c) 0).valveLow c false

theorem valvesOff_eq (s : State) : valvesOff s =
    (List.range 4).foldl (fun s p => s.put (Fld.VLV_PSTAT_HSW p) 0) ((List.range 8).foldl channelOff s) := rfl

theorem frame_setVlv {ps : List Part} {p : Bits} (s : State) (c : Nat) (v : Valve) (h : .vlv ∈ ps) : Frame ps p s (s.setVlv c v) :=
  frame_part .vlv h rfl fun r hr => by cases r <;> first | exact absurd rfl hr | simp [Part.same, State.setVlv]

theorem frame_channelOff (s : State) (c : Nat) : Frame [.vlv] (words [Reg.VLV_STATUS c]) s (channelOff s c) := by
  have hw {f : Field} (k : fits f = true) (h : f.off = Reg.VLV_STATUS c) : Covers (words [Reg.VLV_STATUS c]) f :=
    covers_words_of_fits (by simp [h]) k
  refine frame_trans (frame_then_put (frame_then_put (frame_ite_right (frame_refl s) fun _ => ?_) _ _ (hw rfl rfl)) _ _ (hw rfl rfl))
    (frame_setVlv _ _ _ (by simp))
  exact frame_put _ _ (hw rfl rfl)

theorem vlvgOn_valveLow (s : State) (c : Nat) (b : Bool) : (s.valveLow c b).vlvgOn c = b := by
  rw [State.vlvgOn, State.vlvAt, State.valveLow, State.setVlv, getD_lput_same]

theorem vlvgOn_valveLow_ne (s : State) {c d : Nat} (b : Bool) (h : d ≠ c) : (s.valveLow c b).vlvgOn d = s.vlvgOn d :=
  congrArg Valve.low (getD_lput_ne _ _ _ _ _ h)

theorem channelOff_meets (s : State) (c : Nat) : (channelOff s c).vState c = 0 ∧ (channelOff s c).vlvgOn c = false := by
  refine ⟨?_, vlvgOn_valveLow _ _ _⟩
  change ((State.setVState _ c 0).put (Fld.VLV_STATUS_FAULT c) 0).get (Fld.VLV_STATUS_STATE c) = 0
  rw [get_put_apart _ _ rfl rfl, State.setVState, get_put_self _ _ rfl, Nat.zero_mod]

/-- Another channel is as it was. -/
theorem channelOff_apart (s : State) {c d : Nat} (h : d ≠ c) :
    (channelOff s c).vState d = s.vState d ∧ (channelOff s c).vlvgOn d = s.vlvgOn d := by
  refine ⟨get_of_frame (frame_channelOff s c) fun b _ _ hb => ?_, (vlvgOn_valveLow_ne _ _ h).trans ?_⟩
  · simp only [words, List.mem_singleton, Fld.VLV_STATUS_STATE, Reg.VLV_STATUS] at hb
    omega
  · by_cases h2 : s.vState c = 2 <;> simp only [h2, if_true, if_false] <;> rfl

theorem valvesOff_meets (s : State) : (∀ c < 8, (valvesOff s).vState c = 0 ∧ (valvesOff s).vlvgOn c = false) ∧
    ∀ p < 4, (valvesOff s).hswgOn p = false := by
  have hsw (t : State) : Frame [] (words ((List.range 4).map Reg.VLV_PSTAT)) t
      ((List.range 4).foldl (fun s p => s.put (Fld.VLV_PSTAT_HSW p) 0) t) :=
    frame_foldl_mem fun p hp s => frame_put _ _ (covers_words_of_fits (List.mem_map_of_mem hp) rfl)
  rw [valvesOff_eq]
  refine ⟨fun c hc => ?_, fun p hp => ?_⟩
  · have hoff := foldl_brings (P := fun c s => s.vState c = 0 ∧ s.vlvgOn c = false) (f := channelOff) (s := s)
      (fun c _ s => channelOff_meets s c) (fun c _ d _ s h => ?_) c (List.mem_range.2 hc)
    · refine ⟨(get_of_frame (hsw _) fun b _ _ hb => ?_).trans hoff.1, ?_⟩
      · simp only [words, List.mem_map, Fld.VLV_STATUS_STATE, Reg.VLV_STATUS, Reg.VLV_PSTAT] at hb
        omega
      · exact (congrArg (fun l => (List.getD l c Valve.init).low) ((hsw _).2 .vlv (by simp))).trans hoff.2
    · by_cases e : d = c
      · exact e ▸ channelOff_meets s d
      · rwa [(channelOff_apart s e).1, (channelOff_apart s e).2]
  · refine foldl_brings (P := fun p s => s.hswgOn p = false) (fun p _ s => flag_putB_self s false rfl rfl) (fun p _ q _ s h => ?_) p
      (List.mem_range.2 hp)
    by_cases e : q = p
    · exact e ▸ flag_putB_self s false rfl rfl
    · exact (flag_put_apart s 0 rfl (apart_of_off (by simp only [Fld.VLV_PSTAT_HSW, Reg.VLV_PSTAT]; omega))).trans h

theorem frame_valvesOff (s : State) :
    Frame [.vlv] (words ((List.range 8).map Reg.VLV_STATUS ++ (List.range 4).map Reg.VLV_PSTAT)) s (valvesOff s) := by
  rw [valvesOff_eq]
  refine frame_trans (frame_foldl_mem fun c hc s => frame_mono (frame_channelOff s c) (by simp) fun o b h => ?_)
    (frame_foldl_mem fun p hp s => frame_put _ _ (covers_words_of_fits (List.mem_append_right _ (List.mem_map_of_mem hp)) rfl))
  rw [words, List.mem_singleton.1 h]
  exact List.mem_append_left _ (List.mem_map_of_mem hc)

/-! ### Disables (R271) -/

@[simp] theorem pwmAt_setPwm_same (s : State) (m : Nat) (x : Pwm) : (s.setPwm m x).pwmAt m = x := getD_lput_same _ _ _ _ _

theorem pwmAt_of_frame {ps : List Part} {p : Bits} {s t : State} (h : Frame ps p s t) (hm : .pwm ∉ ps) (m : Nat) :
    t.pwmAt m = s.pwmAt m := congrArg (fun l : List Pwm => l.getD m Pwm.init) (h.2 .pwm hm)

theorem frame_setPwm {ps : List Part} {p : Bits} (s : State) (m : Nat) (x : Pwm) (h : .pwm ∈ ps) : Frame ps p s (s.setPwm m x) :=
  frame_part .pwm h rfl fun r hr => by cases r <;> first | exact absurd rfl hr | simp [Part.same]

theorem askedNow_of_frame {ps : List Part} {p : Bits} {s t : State} (h : Frame ps p s t) (hm : .pwm ∉ ps) (hc : .cyc ∉ ps) (m : Nat) :
    t.askedNow m = s.askedNow m := by
  have hcyc : t.cyc = s.cyc := h.2 .cyc hc
  rw [State.askedNow, State.askedNow, pwmAt_of_frame h hm, hcyc]

/-- The lowest code asked of module `m` in this cycle, `code` among them. -/
def lowestAsked (s : State) (m code : Nat) : Nat := min code ((s.askedNow m).getD code)

/-- A disable acts on the module: it is on, or a disable of this cycle turned it off; PWMX always. -/
def Acts (s : State) (m : Nat) : Prop := m = 6 ∨ s.flag (Fld.PWM_STATUS_EN m) = true ∨ (s.pwmAt m).cut = some s.cyc

/-- A disable is noted. -/
def disableAsked (s : State) (m code : Nat) (acts : Bool) : State :=
  s.setPwm m { s.pwmAt m with asked := some (s.cyc, lowestAsked s m code), cut := if acts then some s.cyc else (s.pwmAt m).cut }

/-- A disable acts. -/
def disabled (s : State) (m code : Nat) : State :=
  ((disableAsked s m code true).putB (Fld.PWM_STATUS_EN m) false).put (Fld.PWM_STATUS_DISCAUSE m) (lowestAsked s m code)

section
variable {s : State} {m code : Nat}

theorem pwmDisable_of_acts (h : Acts s m) : pwmDisable s m code = if m = 6 then valvesOff (disabled s m code) else disabled s m code := by
  have hacts : (m = 6 || s.flag (Fld.PWM_STATUS_EN m) || (s.pwmAt m).cut = some s.cyc) = true := by
    simpa [Acts, or_assoc] using h
  simp only [pwmDisable, hacts, if_true]
  rfl

theorem pwmDisable_of_not_acts (h : ¬ Acts s m) : pwmDisable s m code = disableAsked s m code false := by
  have hacts : (m = 6 || s.flag (Fld.PWM_STATUS_EN m) || (s.pwmAt m).cut = some s.cyc) = false := by
    rw [Bool.eq_false_iff]
    simpa [Acts, or_assoc] using h
  simp only [pwmDisable, hacts, Bool.false_eq_true, if_false, if_neg fun e => h (.inl e)]
  rfl

theorem askedNow_disableAsked (acts : Bool) : (disableAsked s m code acts).askedNow m = some (lowestAsked s m code) := by
  rw [State.askedNow, disableAsked, pwmAt_setPwm_same]
  exact if_pos rfl

theorem frame_disabled : Frame [] (bits [Fld.PWM_STATUS_EN m, Fld.PWM_STATUS_DISCAUSE m]) (disableAsked s m code true) (disabled s m code) :=
  frame_then_put (frame_putB _ _ (covers_of_fits (by simp) rfl)) _ _ (covers_of_fits (by simp) rfl)

theorem askedNow_disabled : (disabled s m code).askedNow m = some (lowestAsked s m code) :=
  (askedNow_of_frame frame_disabled (by simp) (by simp) m).trans (askedNow_disableAsked true)

/-- The lowest code asked in this cycle stays noted (R271). -/
theorem askedNow_pwmDisable : (pwmDisable s m code).askedNow m = some (lowestAsked s m code) := by
  by_cases h : Acts s m
  · rw [pwmDisable_of_acts h]
    by_cases h6 : m = 6
    · rw [if_pos h6, askedNow_of_frame (frame_valvesOff _) (by simp) (by simp), askedNow_disabled]
    · rw [if_neg h6, askedNow_disabled]
  · rw [pwmDisable_of_not_acts h, askedNow_disableAsked]

theorem disabled_meets (h : code < 16) : (disabled s m code).flag (Fld.PWM_STATUS_EN m) = false ∧
    (disabled s m code).get (Fld.PWM_STATUS_DISCAUSE m) = lowestAsked s m code := by
  have hlow : lowestAsked s m code < 16 := lt_of_le_of_lt (min_le_left _ _) h
  refine ⟨?_, (get_put_self _ _ rfl).trans (Nat.mod_eq_of_lt hlow)⟩
  rw [disabled, flag_put_apart _ _ rfl rfl, flag_putB_self _ _ rfl rfl]

/-- A disable of a module of an axis that is on, or was turned off in this cycle, records the lowest code (R271). -/
theorem pwmDisable_meets (hm : m < 6) (h : code < 16) (hacts : Acts s m) : (pwmDisable s m code).flag (Fld.PWM_STATUS_EN m) = false ∧
    (pwmDisable s m code).get (Fld.PWM_STATUS_DISCAUSE m) = lowestAsked s m code := by
  rw [pwmDisable_of_acts hacts, if_neg (by omega)]
  exact disabled_meets h

/-- A disable of PWMX records the lowest code and turns the valve channels off (R271). -/
theorem pwmDisable_six (h : code < 16) : (pwmDisable s 6 code).get (Fld.PWM_STATUS_DISCAUSE 6) = lowestAsked s 6 code ∧
    (∀ c < 8, (pwmDisable s 6 code).vState c = 0 ∧ (pwmDisable s 6 code).vlvgOn c = false) ∧
    ∀ p < 4, (pwmDisable s 6 code).hswgOn p = false := by
  rw [pwmDisable_of_acts (.inl rfl), if_pos rfl]
  refine ⟨(get_of_frame (frame_valvesOff _) fun b _ _ hb => ?_).trans (disabled_meets h).2, valvesOff_meets _⟩
  exact absurd hb (by simp only [words]; decide)

end

/-! ### Trip inputs (R196, R272, R273) -/

/-- The trip inputs that go high. -/
def risen (s : State) (n live : Nat) : List Nat := (List.range 4).filter fun i => bitOf live i && !s.bitF (Fld.PWM_TRIP_LIVE n) i

/-- The levels of the trip inputs as both blocks show them. -/
def levelsShown (s : State) (n live : Nat) : State := (s.put (Fld.PWM_TRIP_LIVE n) live).put (Fld.SNS_TRIPST_LIVE n) live

/-- A trip latches, in both blocks. -/
def tripLatched (n : Nat) (s : State) (i : Nat) : State := (s.setBit (Fld.PWM_TRIP_LATCH n) i).setBit (Fld.SNS_TRIPST_SEEN n) i

/-- Trips are counted and reported, before the disable. -/
def tripTold (s : State) (n k : Nat) : State :=
  (((s.putB (Fld.PWM_STATUS_TRIPPED n) true).incSat (Fld.PWM_CNT_TRIPS n) k).irqBit Fld.PWM_IRQ_STATUS_TRIP n).irqBit
    Fld.SNS_IRQ_STATUS_TRIP n

/-- The fields that a count and a report of trips change. -/
def tripFields (n : Nat) : List Field :=
  [Fld.PWM_STATUS_TRIPPED n, Fld.PWM_CNT_TRIPS n, Fld.PWM_IRQ_STATUS_TRIP, Fld.SNS_IRQ_STATUS_TRIP]

section
variable (s : State) {n live : Nat}

theorem tripLevels_none (h : risen s n live = []) : tripLevels s n live = levelsShown s n live := by
  have h' : (List.range 4).filter (fun i => bitOf live i && !bitOf (s.get (Fld.PWM_TRIP_LIVE n)) i) = [] := h
  simp only [tripLevels, h']
  rfl

theorem tripLevels_some (h : risen s n live ≠ []) : tripLevels s n live =
    pwmDisable (tripTold ((risen s n live).foldl (tripLatched n) (levelsShown s n live)) n (risen s n live).length) n 2 := by
  have h' : ((List.range 4).filter fun i => bitOf live i && !bitOf (s.get (Fld.PWM_TRIP_LIVE n)) i).isEmpty = false := by
    rw [Bool.eq_false_iff]
    exact fun e => h (List.isEmpty_iff.1 e)
  simp only [tripLevels, h']
  rfl

theorem levelsShown_meets (h : live < 16) : (levelsShown s n live).get (Fld.PWM_TRIP_LIVE n) = live ∧
    (levelsShown s n live).get (Fld.SNS_TRIPST_LIVE n) = live ∧
    Frame [] (bits [Fld.PWM_TRIP_LIVE n, Fld.SNS_TRIPST_LIVE n]) s (levelsShown s n live) := by
  have hmod : live % 2 ^ 4 = live := Nat.mod_eq_of_lt h
  refine ⟨?_, (get_put_self _ _ rfl).trans hmod, frame_then_put (frame_put _ _ (covers_of_fits (by simp) rfl)) _ _
    (covers_of_fits (by simp) rfl)⟩
  rw [levelsShown, get_put_apart _ _ rfl rfl]
  exact (get_put_self _ _ rfl).trans hmod

theorem frame_tripLatched (i : Nat) : Frame [] (bits [Fld.PWM_TRIP_LATCH n, Fld.SNS_TRIPST_SEEN n]) s (tripLatched n s i) :=
  frame_trans (frame_setBit _ i (covers_of_fits (by simp) rfl)) (frame_setBit _ i (covers_of_fits (by simp) rfl))

/-- Every input that rose is latched in both blocks. -/
theorem tripLatched_meets {l : List Nat} (hl : ∀ i ∈ l, i < 4) : ∀ i ∈ l,
    (l.foldl (tripLatched n) s).bitF (Fld.PWM_TRIP_LATCH n) i = true ∧
      (l.foldl (tripLatched n) s).bitF (Fld.SNS_TRIPST_SEEN n) i = true := by
  have hset (i : Nat) (hi : i < 4) (s : State) : (tripLatched n s i).bitF (Fld.PWM_TRIP_LATCH n) i = true ∧
      (tripLatched n s i).bitF (Fld.SNS_TRIPST_SEEN n) i = true := by
    refine ⟨?_, bitF_setBit_self _ rfl (by change 8 + i ≤ 11; omega)⟩
    have hself := bitF_setBit_self s (f := Fld.PWM_TRIP_LATCH n) (i := i) rfl (by change 0 + i ≤ 3; omega)
    exact (bitF_of_get (get_put_apart _ _ rfl rfl) i).trans hself
  refine foldl_brings (P := fun i s => s.bitF (Fld.PWM_TRIP_LATCH n) i = true ∧ s.bitF (Fld.SNS_TRIPST_SEEN n) i = true)
    (fun i hi s => hset i (hl i hi) s) fun i hi j hj s h => ?_
  by_cases e : j = i
  · exact e ▸ hset j (hl j hj) s
  · have hj4 := hl j hj
    have hlatch := bitF_putBit_ne s (f := Fld.PWM_TRIP_LATCH n) true (by rfl) (by change 0 + j ≤ 3; omega) e
    have hseen := bitF_putBit_ne (s.setBit (Fld.PWM_TRIP_LATCH n) i) (f := Fld.SNS_TRIPST_SEEN n) true (by rfl)
      (by change 8 + j ≤ 11; omega) e
    exact ⟨(bitF_of_get (get_put_apart _ _ rfl rfl) j).trans (hlatch.trans h.1),
      hseen.trans ((bitF_of_get (get_put_apart _ _ rfl rfl) j).trans h.2)⟩

theorem frame_tripTold (hn : n < 6) (k : Nat) : Frame [.msix] (orBits pba (bits (tripFields n))) s (tripTold s n k) := by
  refine frame_trans (frame_trans (frame_then_incSat (frame_putB _ _ ?_) _ k ?_) (frame_irqBit_listed _ ?_ ?_ (by simp)))
    (frame_irqBit_listed _ ?_ ?_ (by simp))
  · exact covers_right _ (covers_of_fits (by simp [tripFields]) rfl)
  · exact covers_right _ (covers_of_fits (by simp [tripFields]) rfl)
  · simp [tripFields]
  · change 0 + n ≤ 5; omega
  · simp [tripFields]
  · change 0 + n ≤ 5; omega

theorem tripTold_meets (hn : n < 6) (k : Nat) : (tripTold s n k).flag (Fld.PWM_STATUS_TRIPPED n) = true ∧
    (tripTold s n k).bitF Fld.PWM_IRQ_STATUS_TRIP n = true ∧ (tripTold s n k).bitF Fld.SNS_IRQ_STATUS_TRIP n = true ∧
    (tripTold s n k).get (Fld.PWM_CNT_TRIPS n) = min 0xFFFF (s.get (Fld.PWM_CNT_TRIPS n) + k) := by
  have hp : 0 + n ≤ 5 := by omega
  have hout : Reg.PWM_STATUS n < 0x29000 ∨ 0x29010 ≤ Reg.PWM_STATUS n := .inr (by simp only [Reg.PWM_STATUS]; omega)
  have hcnt : Reg.PWM_CNT n < 0x29000 ∨ 0x29010 ≤ Reg.PWM_CNT n := .inr (by simp only [Reg.PWM_CNT]; omega)
  have hoff {o : Nat} (h : Reg.PWM_IRQ_STATUS ≠ o) (h' : Reg.SNS_IRQ_STATUS ≠ o) {g : Field} (e : g.off = o) :
      apart g Fld.PWM_IRQ_STATUS_TRIP = true ∧ apart g Fld.SNS_IRQ_STATUS_TRIP = true :=
    ⟨apart_of_off (by rw [e]; exact h.symm), apart_of_off (by rw [e]; exact h'.symm)⟩
  have hst := hoff (o := Reg.PWM_STATUS n) (by simp only [Reg.PWM_STATUS, Reg.PWM_IRQ_STATUS]; omega)
    (by simp only [Reg.PWM_STATUS, Reg.SNS_IRQ_STATUS]; omega) (g := Fld.PWM_STATUS_TRIPPED n) rfl
  have hcn := hoff (o := Reg.PWM_CNT n) (by simp only [Reg.PWM_CNT, Reg.PWM_IRQ_STATUS]; omega)
    (by simp only [Reg.PWM_CNT, Reg.SNS_IRQ_STATUS]; omega) (g := Fld.PWM_CNT_TRIPS n) rfl
  refine ⟨?_, ?_, ?_, ?_⟩
  · rw [tripTold, flag_irqBit_apart _ hp hst.2 hout, flag_irqBit_apart _ hp hst.1 hout]
    exact (flag_put_apart _ _ rfl rfl).trans (flag_putB_self _ _ rfl rfl)
  · rw [tripTold, bitF_irqBit_apart _ hp rfl (by decide)]
    exact bitF_irqBit _ _ _ hp (by decide) (not_pba_of_outside (by decide))
  · exact bitF_irqBit _ _ _ hp (by decide) (not_pba_of_outside (by decide))
  · rw [tripTold, get_irqBit_apart _ hp hcn.2 hcnt, get_irqBit_apart _ hp hcn.1 hcnt, get_incSat _ _ rfl]
    exact congrArg (fun x => min 0xFFFF (x + k)) (get_put_apart _ _ rfl rfl)

end

/-- Trips latch, are counted and reported, before the disable. -/
def tripsTaken (s : State) (n : Nat) (l : List Nat) : State := tripTold (l.foldl (tripLatched n) s) n l.length

/-- The fields that trips change, beside those of the disable. -/
def takenFields (n : Nat) : List Field := [Fld.PWM_TRIP_LATCH n, Fld.SNS_TRIPST_SEEN n] ++ tripFields n

/-- The fields that a disable of a module of an axis changes. -/
def disableFields (m : Nat) : List Field := [Fld.PWM_STATUS_EN m, Fld.PWM_STATUS_DISCAUSE m]

def liveFields (n : Nat) : List Field := [Fld.PWM_TRIP_LIVE n, Fld.SNS_TRIPST_LIVE n]

theorem tripFields_apart : ∀ n < 6, (∀ g ∈ liveFields n, 0x29010 ≤ g.off ∧ ∀ f ∈ takenFields n, apart g f = true) ∧
    (∀ g ∈ [Fld.PWM_TRIP_LATCH n, Fld.SNS_TRIPST_SEEN n], 0x29010 ≤ g.off ∧ ∀ f ∈ tripFields n, apart g f = true) ∧
    (∀ g ∈ liveFields n ++ takenFields n, ∀ f ∈ disableFields n, apart g f = true) ∧
    (∀ g ∈ liveFields n, ∀ f ∈ [Fld.PWM_CNT_TRIPS n, Fld.PWM_STATUS_EN n], apart f g = true) ∧
    (∀ f ∈ [Fld.PWM_TRIP_LATCH n, Fld.SNS_TRIPST_SEEN n], apart (Fld.PWM_CNT_TRIPS n) f = true) ∧
    ∀ f ∈ takenFields n, apart (Fld.PWM_STATUS_EN n) f = true := by decide

theorem frame_tripsLatched (s : State) (n : Nat) (l : List Nat) :
    Frame [] (bits [Fld.PWM_TRIP_LATCH n, Fld.SNS_TRIPST_SEEN n]) s (l.foldl (tripLatched n) s) :=
  frame_foldl_mem fun i _ s => frame_tripLatched s i

theorem tripsTaken_meets (s : State) {n : Nat} (hn : n < 6) {l : List Nat} (hl : ∀ i ∈ l, i < 4) :
    (∀ i ∈ l, (tripsTaken s n l).bitF (Fld.PWM_TRIP_LATCH n) i = true ∧ (tripsTaken s n l).bitF (Fld.SNS_TRIPST_SEEN n) i = true) ∧
      (tripsTaken s n l).flag (Fld.PWM_STATUS_TRIPPED n) = true ∧ (tripsTaken s n l).bitF Fld.PWM_IRQ_STATUS_TRIP n = true ∧
      (tripsTaken s n l).bitF Fld.SNS_IRQ_STATUS_TRIP n = true ∧
      (tripsTaken s n l).get (Fld.PWM_CNT_TRIPS n) = min 0xFFFF (s.get (Fld.PWM_CNT_TRIPS n) + l.length) ∧
      Frame [.msix] (orBits pba (bits (takenFields n))) s (tripsTaken s n l) := by
  obtain ⟨-, hapart, -, -, hcntApart, -⟩ := tripFields_apart n hn
  have hfl := frame_tripsLatched s n l
  have hft := frame_tripTold (l.foldl (tripLatched n) s) hn l.length
  obtain ⟨htr, hpw, hsn, hcnt⟩ := tripTold_meets (l.foldl (tripLatched n) s) hn l.length
  have hkept (g : Field) (hg : g ∈ [Fld.PWM_TRIP_LATCH n, Fld.SNS_TRIPST_SEEN n]) :
      (tripsTaken s n l).get g = (l.foldl (tripLatched n) s).get g :=
    get_of_frame_pba hft (.inr (hapart g hg).1) (hapart g hg).2
  refine ⟨fun i hi => ?_, htr, hpw, hsn, ?_, frame_trans (frame_pba_of_bits hfl (by simp) (by simp [takenFields]))
    (frame_pba_mono hft (by simp) (by simp [takenFields]))⟩
  · obtain ⟨hlatch, hseen⟩ := tripLatched_meets s hl i hi
    exact ⟨(bitF_of_get (hkept _ (by simp)) i).trans hlatch, (bitF_of_get (hkept _ (by simp)) i).trans hseen⟩
  · rw [get_of_frame_bits hfl hcntApart] at hcnt
    exact hcnt

/-- Trips with the disable that they cause (R272). -/
theorem tripsDisable_meets (s : State) {n : Nat} (hn : n < 6) {l : List Nat} (hl : ∀ i ∈ l, i < 4) (t : State)
    (ht : t = pwmDisable (tripsTaken s n l) n 2) :
    (∀ g ∈ liveFields n, t.get g = s.get g) ∧ t.flag (Fld.PWM_STATUS_EN n) = false ∧ t.flag (Fld.PWM_STATUS_TRIPPED n) = true ∧
      (s.flag (Fld.PWM_STATUS_EN n) = true → t.get (Fld.PWM_STATUS_DISCAUSE n) = min 2 ((s.askedNow n).getD 2)) ∧
      (∀ i ∈ l, t.bitF (Fld.PWM_TRIP_LATCH n) i = true ∧ t.bitF (Fld.SNS_TRIPST_SEEN n) i = true) ∧
      t.bitF Fld.PWM_IRQ_STATUS_TRIP n = true ∧ t.bitF Fld.SNS_IRQ_STATUS_TRIP n = true ∧
      t.get (Fld.PWM_CNT_TRIPS n) = min 0xFFFF (s.get (Fld.PWM_CNT_TRIPS n) + l.length) := by
  obtain ⟨hlive, -, hdis, -, -, hen⟩ := tripFields_apart n hn
  obtain ⟨hbits, htr, hpw, hsn, hcnt, hfr⟩ := tripsTaken_meets s hn hl
  have hkept (g : Field) (hg : g ∈ liveFields n ++ takenFields n) : t.get g = (tripsTaken s n l).get g :=
    ht ▸ get_of_frame_bits (frame_pwmDisable _ hn 2) (hdis g hg)
  have htaken (g : Field) (hg : g ∈ takenFields n) : t.get g = (tripsTaken s n l).get g := hkept g (List.mem_append_right _ hg)
  refine ⟨fun g hg => ?_, ht ▸ en_pwmDisable_self _ hn 2, ?_, fun hon => ?_, fun i hi => ?_, ?_, ?_, ?_⟩
  · rw [hkept g (List.mem_append_left _ hg), get_of_frame_pba hfr (.inr (hlive g hg).1) (hlive g hg).2]
  · rwa [State.flag, htaken _ (by simp [takenFields, tripFields])]
  · have hon' : (tripsTaken s n l).flag (Fld.PWM_STATUS_EN n) = true := by
      rwa [State.flag, get_of_frame_pba hfr (.inr (by simp only [Fld.PWM_STATUS_EN, Reg.PWM_STATUS]; omega)) hen]
    rw [ht, (pwmDisable_meets hn (by omega) (.inr (.inl hon'))).2, lowestAsked, askedNow_of_frame hfr (by simp) (by simp)]
  · exact ⟨(bitF_of_get (htaken _ (by simp [takenFields])) i).trans (hbits i hi).1,
      (bitF_of_get (htaken _ (by simp [takenFields])) i).trans (hbits i hi).2⟩
  · exact (bitF_of_get (htaken _ (by simp [takenFields, tripFields])) n).trans hpw
  · exact (bitF_of_get (htaken _ (by simp [takenFields, tripFields])) n).trans hsn
  · rw [htaken _ (by simp [takenFields, tripFields]), hcnt]

/-- The trip inputs take levels (R272). -/
theorem tripLevels_meets (s : State) {n live : Nat} (hn : n < 6) (hl : live < 16) (t : State) (ht : t = tripLevels s n live) :
    t.get (Fld.PWM_TRIP_LIVE n) = live ∧ t.get (Fld.SNS_TRIPST_LIVE n) = live ∧
      (risen s n live = [] → Frame [] (bits [Fld.PWM_TRIP_LIVE n, Fld.SNS_TRIPST_LIVE n]) s t) ∧
      (risen s n live ≠ [] → t.flag (Fld.PWM_STATUS_EN n) = false ∧ t.flag (Fld.PWM_STATUS_TRIPPED n) = true ∧
        (s.flag (Fld.PWM_STATUS_EN n) = true → t.get (Fld.PWM_STATUS_DISCAUSE n) = min 2 ((s.askedNow n).getD 2)) ∧
        (∀ i ∈ risen s n live, t.bitF (Fld.PWM_TRIP_LATCH n) i = true ∧ t.bitF (Fld.SNS_TRIPST_SEEN n) i = true) ∧
        t.bitF Fld.PWM_IRQ_STATUS_TRIP n = true ∧ t.bitF Fld.SNS_IRQ_STATUS_TRIP n = true ∧
        t.get (Fld.PWM_CNT_TRIPS n) = min 0xFFFF (s.get (Fld.PWM_CNT_TRIPS n) + (risen s n live).length)) := by
  obtain ⟨hlive, hsns, hfr⟩ := levelsShown_meets s (n := n) hl
  by_cases hr : risen s n live = []
  · subst ht
    rw [tripLevels_none s hr]
    exact ⟨hlive, hsns, fun _ => hfr, fun h => absurd hr h⟩
  · obtain ⟨-, -, -, hapart, -, -⟩ := tripFields_apart n hn
    have hkept (f : Field) (h : f ∈ [Fld.PWM_CNT_TRIPS n, Fld.PWM_STATUS_EN n]) : (levelsShown s n live).get f = s.get f :=
      get_of_frame_bits hfr fun g hg => hapart g hg f h
    have hon : (levelsShown s n live).flag (Fld.PWM_STATUS_EN n) = s.flag (Fld.PWM_STATUS_EN n) :=
      flag_of_frame_bits hfr fun g hg => hapart g hg _ (by simp)
    have hlt : ∀ i ∈ risen s n live, i < 4 := fun i hi => List.mem_range.1 (List.mem_of_mem_filter hi)
    obtain ⟨hshown, htaken⟩ := tripsDisable_meets (levelsShown s n live) hn hlt t (ht.trans (tripLevels_some s hr))
    rw [hkept _ (by simp), hon, askedNow_of_frame hfr (by simp) (by simp)] at htaken
    exact ⟨(hshown _ (by simp [liveFields])).trans hlive, (hshown _ (by simp [liveFields])).trans hsns, fun h => absurd h hr,
      fun _ => htaken⟩

/-! ### The comparators (R196) -/

theorem fires_eq (th : Nat) (v : Int) : fires false th v = decide ((th : Int) * (Config.vref : Int) < 1024 * v) ∧
    fires true th v = decide ((th : Int) * (Config.vref : Int) ≤ 1024 * (v + 10000000)) := by
  refine ⟨rfl, ?_⟩
  rw [fires, if_pos rfl, decide_eq_decide]
  omega

/-- A mask of four bits spells them. -/
theorem maskOf_four (a b c d : Bool) : maskOf id [a, b, c, d] < 16 ∧ bitOf (maskOf id [a, b, c, d]) 0 = a ∧
    bitOf (maskOf id [a, b, c, d]) 1 = b ∧ bitOf (maskOf id [a, b, c, d]) 2 = c ∧ bitOf (maskOf id [a, b, c, d]) 3 = d := by
  revert a b c d
  decide

/-- The comparators of an axis that is ready give the levels of its trip inputs (R196). -/
theorem compare_ready (s : State) (n : Nat) (h : s.ready 5 = true) :
    let v (i : Nat) := (s.snsAt n).vin.getD i 0
    let was (i : Nat) := s.bitF (Fld.PWM_TRIP_LIVE n) i
    let oc := s.get (Fld.SNS_TRIPOC_TH n)
    ∃ live < 16, compare s n = tripLevels s n live ∧
      (∀ i < 3, bitOf live i = (fires (was i) oc (v i) || fires (was i) oc (-v i))) ∧
      bitOf live 3 = fires (was 3) (s.get (Fld.SNS_TRIPOV_TH n)) (v 3) := by
  intro v was oc
  let phase (i : Nat) : Bool := fires (was i) oc (v i) || fires (was i) oc (-v i)
  obtain ⟨hlt, h0, h1, h2, h3⟩ := maskOf_four (phase 0) (phase 1) (phase 2) (fires (was 3) (s.get (Fld.SNS_TRIPOV_TH n)) (v 3))
  refine ⟨_, hlt, if_pos h, fun i hi => ?_, h3⟩
  match i, hi with
  | 0, _ => exact h0
  | 1, _ => exact h1
  | 2, _ => exact h2

theorem compare_unready (s : State) (n : Nat) (h : s.ready 5 = false) : compare s n = s := if_neg (by simp [h])

/-! ### Trip latches cleared (R273) -/

/-- A latch bit is cleared where a 1 is written to it and its input is low. -/
def latchCleared (m w live : Nat) (s : State) (i : Nat) : State :=
  if bitOf w i && !bitOf live i then s.putBit (Fld.PWM_TRIP_LATCH m) i false else s

theorem bitF_latchCleared (s : State) (m w live : Nat) {i j : Nat} (hj : j < 4) : (latchCleared m w live s i).bitF (Fld.PWM_TRIP_LATCH m) j =
    (s.bitF (Fld.PWM_TRIP_LATCH m) j && !(decide (j = i) && (bitOf w i && !bitOf live i))) := by
  have hle : (Fld.PWM_TRIP_LATCH m).lo + j ≤ (Fld.PWM_TRIP_LATCH m).hi := by change 0 + j ≤ 3; omega
  by_cases hc : (bitOf w i && !bitOf live i) = true
  · rw [latchCleared, if_pos hc, hc]
    by_cases e : j = i
    · subst e
      simpa using bitF_putBit_false s j rfl
    · simpa [e] using bitF_putBit_ne s false rfl hle e
  · rw [latchCleared, if_neg hc, Bool.eq_false_iff.2 hc]
    simp

theorem bitF_foldl_latchCleared (m w live : Nat) {j : Nat} (hj : j < 4) : ∀ (l : List Nat) (s : State),
    (l.foldl (latchCleared m w live) s).bitF (Fld.PWM_TRIP_LATCH m) j =
      (s.bitF (Fld.PWM_TRIP_LATCH m) j && !(decide (j ∈ l) && (bitOf w j && !bitOf live j)))
  | [], s => by simp
  | i :: l, s => by
    rw [List.foldl_cons, bitF_foldl_latchCleared m w live hj l, bitF_latchCleared _ _ _ _ hj]
    by_cases e : j = i
    · subst e
      generalize (bitOf w j && !bitOf live j) = c
      cases c <;> simp
    · simp [e]

theorem tripLatchClear_meets (s : State) (m : Nat) (v : Word) (t : State) (ht : t = tripLatchClear s m v) :
    (∀ i < 4, t.bitF (Fld.PWM_TRIP_LATCH m) i =
      (s.bitF (Fld.PWM_TRIP_LATCH m) i && !(v.getLsbD i && !s.bitF (Fld.PWM_TRIP_LIVE m) i))) ∧
      t.flag (Fld.PWM_STATUS_TRIPPED m) = decide (t.get (Fld.PWM_TRIP_LATCH m) ≠ 0) ∧
      Frame [] (bits [Fld.PWM_TRIP_LATCH m, Fld.PWM_STATUS_TRIPPED m]) s t := by
  let u := (List.range 4).foldl (latchCleared m ((Fld.PWM_TRIP_LATCH m).get v) (s.get (Fld.PWM_TRIP_LIVE m))) s
  have hu : t = u.putB (Fld.PWM_STATUS_TRIPPED m) (decide (u.get (Fld.PWM_TRIP_LATCH m) ≠ 0)) := ht
  have hkept : t.get (Fld.PWM_TRIP_LATCH m) = u.get (Fld.PWM_TRIP_LATCH m) := by
    rw [hu]
    exact get_put_apart _ _ rfl (apart_of_off (by simp only [Fld.PWM_TRIP_LATCH, Fld.PWM_STATUS_TRIPPED, Reg.PWM_TRIP, Reg.PWM_STATUS]; omega))
  refine ⟨fun i hi => ?_, ?_, ?_⟩
  · have hw : bitOf ((Fld.PWM_TRIP_LATCH m).get v) i = v.getLsbD i := by
      have hget : (Fld.PWM_TRIP_LATCH m).get v = (v.toNat >>> 0) % 2 ^ 4 := rfl
      rw [bitOf_eq_testBit, hget, Nat.testBit_mod_two_pow, Nat.shiftRight_zero, decide_eq_true hi, Bool.true_and, BitVec.testBit_toNat]
    rw [bitF_of_get hkept, bitF_foldl_latchCleared _ _ _ hi, hw, decide_eq_true (List.mem_range.2 hi), Bool.true_and]
    rfl
  · rw [hkept, hu, flag_putB_self _ _ rfl rfl]
  · rw [hu]
    refine frame_then_putB (frame_foldl_mem fun i _ s => frame_ite (fun _ => ?_) fun _ => frame_refl s) _ _ (covers_of_fits (by simp) rfl)
    exact frame_putBit _ _ _ (covers_of_fits (by simp) rfl)

end Sys2Proof.Proofs
end

section
/-!
PROOF. Events and counter zeros of PWM modules (for O45: R260, R261, R265 to R267, R269, R274, R275).
-/

namespace Sys2Proof.Proofs
open Sys2Proof Sys2Proof.Machine Sys2Proof.Safety Sys2Proof.Laws

/-! ### Events (R274, R275) -/

/-- What an event output of module `m` can change beside a message: the sensing block, the event interrupt, the stamp. -/
def eventReach (m : Nat) : Bits := orBits pba (orBits (Safety.range 0x60000 0x70000)
  (words [Reg.PWM_IRQ_STATUS, Reg.PWM_EVSTAMP_LO m, Reg.PWM_EVSTAMP_LO m + 4]))

theorem frame_adcTriggers (s : State) (m v : Nat) : Frame [.sns, .msix] (eventReach m) s (adcTriggers s m v) := by
  have hcnt : ∀ n < 6, fits (Fld.SNS_CNT_TRIG_EXTRA n) = true ∧ 0x60000 ≤ Reg.SNS_CNT n ∧ Reg.SNS_CNT n < 0x70000 := by decide
  refine frame_range fun n hn s => frame_ite_right (frame_ite_right (frame_refl s) fun _ => ?_) fun _ => ?_
  · exact frame_ite (fun _ => frame_incSat _ 1 (covers_right _ (covers_left _ (covers_range (hcnt n hn))))) fun _ =>
      frame_setSns s n _ (by simp)
  · exact frame_ite (fun _ => frame_refl _) fun _ => frame_setSns _ n _ (by simp)

theorem frame_eventFires (s : State) (m v : Nat) : Frame [.sns, .msix] (eventReach m) s (eventFires s m v) :=
  frame_ite_right
    (frame_ite_right (frame_adcTriggers s m v) fun _ =>
      frame_setWide 64 _ _ (fun _ => .inr (.inr (by simp [words]))) fun _ => .inr (.inr (by simp [words])))
    fun _ => frame_irqBit _ m (.inr (.inr (List.mem_cons_self ..))) (fun _ _ h => .inl h) (by simp)

/-- A field of a PWM module that no event reaches. -/
def lapField (m : Nat) (f : Field) : Bool :=
  decide (0x70000 ≤ f.off) && decide (f.off ≠ Reg.PWM_IRQ_STATUS) && decide (f.off ≠ Reg.PWM_EVSTAMP_LO m) &&
    decide (f.off ≠ Reg.PWM_EVSTAMP_LO m + 4)

theorem get_of_eventReach {ps : List Part} {s t : State} {m : Nat} (h : Frame ps (eventReach m) s t) {f : Field} (hf : lapField m f = true) :
    t.get f = s.get f := by
  simp only [lapField, Bool.and_eq_true, decide_eq_true_eq] at hf
  obtain ⟨⟨⟨h7, hirq⟩, hlo⟩, hhi⟩ := hf
  refine get_of_frame h fun b _ _ hb => ?_
  rcases hb with hb | hb | hb
  · have := hb.2
    omega
  · have := hb.2
    omega
  · simp [words, hirq, hlo, hhi] at hb

theorem lapField_evout : ∀ m < 7, ∀ v < 6, lapField m (Fld.PWM_EVOUT_GAF m v) = true ∧ lapField m (Fld.PWM_EVOUT_IRQ m v) = true := by
  decide

/-- An event output stamps and interrupts as routed (R276). -/
theorem eventFires_meets (s : State) {m v : Nat} (hm : m < 7) (hv : v < 6) :
    (s.flag (Fld.PWM_EVOUT_GAF m v) = true → (eventFires s m v).wide (Reg.PWM_EVSTAMP_LO m) = s.dtime.toNat) ∧
    (s.flag (Fld.PWM_EVOUT_IRQ m v) = true → (eventFires s m v).bitF Fld.PWM_IRQ_STATUS_EVT m = true) := by
  obtain ⟨hgaf, hirq⟩ := lapField_evout m hm v hv
  have hadc := frame_adcTriggers s m v
  have hg : (adcTriggers s m v).flag (Fld.PWM_EVOUT_GAF m v) = s.flag (Fld.PWM_EVOUT_GAF m v) := by
    rw [State.flag, get_of_eventReach hadc hgaf, State.flag]
  have hd : (adcTriggers s m v).dtime = s.dtime := hadc.2 .dtime (by simp)
  let w := if (adcTriggers s m v).flag (Fld.PWM_EVOUT_GAF m v) then
    (adcTriggers s m v).setWide 64 (Reg.PWM_EVSTAMP_LO m) (adcTriggers s m v).dtime.toNat else adcTriggers s m v
  have hw : Frame [] (words [Reg.PWM_EVSTAMP_LO m, Reg.PWM_EVSTAMP_LO m + 4]) (adcTriggers s m v) w :=
    frame_ite_right (frame_refl _) fun _ => frame_setWide 64 _ _ (fun _ => by simp [words]) fun _ => by simp [words]
  have hq : w.flag (Fld.PWM_EVOUT_IRQ m v) = s.flag (Fld.PWM_EVOUT_IRQ m v) := by
    rw [State.flag, get_of_eventReach (frame_mono (qs := []) hw (by simp) fun o b h => .inr (.inr (List.mem_cons_of_mem _ h))) hirq,
      get_of_eventReach hadc hirq, State.flag]
  have he : eventFires s m v = if w.flag (Fld.PWM_EVOUT_IRQ m v) then w.irqBit Fld.PWM_IRQ_STATUS_EVT m else w := rfl
  have hle : Fld.PWM_IRQ_STATUS_EVT.lo + m ≤ Fld.PWM_IRQ_STATUS_EVT.hi := by change 24 + m ≤ 30; omega
  refine ⟨fun h => ?_, fun h => ?_⟩
  · have hkeep : (eventFires s m v).wide (Reg.PWM_EVSTAMP_LO m) = w.wide (Reg.PWM_EVSTAMP_LO m) := by
      refine wide_of_frame (p := orBits pba (bits [Fld.PWM_IRQ_STATUS_EVT])) (ps := [.msix]) ?_ ?_ ?_
      · rw [he]
        exact frame_ite_right (frame_refl _) fun _ => frame_irqBit_listed _ (by simp) hle (by simp)
      all_goals
        intro b _ hb
        simp only [orBits, pba, Safety.range, bits, List.mem_singleton, exists_eq_left, Fld.PWM_IRQ_STATUS_EVT, Reg.PWM_IRQ_STATUS,
          Reg.PWM_EVSTAMP_LO] at hb
        omega
    have hset : w = (adcTriggers s m v).setWide 64 (Reg.PWM_EVSTAMP_LO m) (adcTriggers s m v).dtime.toNat := if_pos (hg.trans h)
    rw [hkeep, hset, wide_setWide _ (by omega) (BitVec.isLt _), hd]
  · rw [he, if_pos (hq.trans h)]
    exact bitF_irqBit _ _ _ hle (by decide) (not_pba_of_outside (by decide))

theorem eventOccurs_below (s : State) {m v : Nat} (h : sget 0 (s.pwmAt m).occ v + 1 ≤ s.get (Fld.PWM_EVOUT_PRESC m v)) :
    eventOccurs s m v = s.setPwm m { s.pwmAt m with occ := sset 0 (s.pwmAt m).occ v (sget 0 (s.pwmAt m).occ v + 1) } :=
  if_neg (by omega)

theorem eventOccurs_fires (s : State) {m v : Nat} (h : s.get (Fld.PWM_EVOUT_PRESC m v) < sget 0 (s.pwmAt m).occ v + 1) :
    eventOccurs s m v = eventFires (s.setPwm m { s.pwmAt m with occ := sset 0 (s.pwmAt m).occ v 0 }) m v := if_pos h

theorem frame_eventOccurs (s : State) (m v : Nat) : Frame [.pwm, .sns, .msix] (eventReach m) s (eventOccurs s m v) :=
  frame_ite (fun _ => frame_trans (frame_setPwm _ _ _ (by simp)) (frame_mono (frame_eventFires _ m v) (by simp) fun _ _ => id)) fun _ =>
    frame_setPwm _ _ _ (by simp)

/-- An event counts, and leaves the laps of its module. -/
theorem pwmAt_eventOccurs (s : State) (m v : Nat) :
    ∃ l, (eventOccurs s m v).pwmAt m = { s.pwmAt m with occ := l } := by
  by_cases h : sget 0 (s.pwmAt m).occ v + 1 ≤ s.get (Fld.PWM_EVOUT_PRESC m v)
  · exact ⟨_, by rw [eventOccurs_below s h, pwmAt_setPwm_same]⟩
  · exact ⟨_, by rw [eventOccurs_fires s (by omega), pwmAt_of_frame (frame_eventFires _ m v) (by simp), pwmAt_setPwm_same]⟩

/-- An event output fires at every P-th occurrence of its source (R275). -/
theorem eventOccurs_meets (s : State) {m v : Nat} (hm : m < 7) (hv : v < 6) :
    let n := sget 0 (s.pwmAt m).occ v + 1
    let t := eventOccurs s m v
    (n ≤ s.get (Fld.PWM_EVOUT_PRESC m v) → sget 0 (t.pwmAt m).occ v = n ∧ Frame [.pwm] (bits []) s t) ∧
      (s.get (Fld.PWM_EVOUT_PRESC m v) < n → sget 0 (t.pwmAt m).occ v = 0 ∧
        (s.flag (Fld.PWM_EVOUT_GAF m v) = true → t.wide (Reg.PWM_EVSTAMP_LO m) = s.dtime.toNat) ∧
        (s.flag (Fld.PWM_EVOUT_IRQ m v) = true → t.bitF Fld.PWM_IRQ_STATUS_EVT m = true)) := by
  intro n t
  refine ⟨fun h => ?_, fun h => ?_⟩
  · have ht : t = _ := eventOccurs_below s h
    refine ⟨?_, ht ▸ frame_setPwm _ _ _ (by simp)⟩
    rw [ht, pwmAt_setPwm_same]
    exact sget_sset_same _ _ _ _
  · have ht : t = _ := eventOccurs_fires s h
    rw [ht]
    refine ⟨?_, eventFires_meets (s.setPwm m _) hm hv⟩
    rw [pwmAt_of_frame (frame_eventFires _ m v) (by simp), pwmAt_setPwm_same]
    exact sget_sset_same _ _ _ _

/-! ### Counter zeros (R261, R265 to R267, R269) -/

/-- The dead time and the event compares load. -/
def zeroLoads (s : State) (m : Nat) : State :=
  (List.range 4).foldl (fun s e => s.put (Fld.PWM_EVC_ACTIVE m e) (s.get (Fld.PWM_EVC_VALUE m e))) (s.loadReg (Reg.PWM_DT m))

/-- The compare of a duty at a counter zero. -/
def compareAt (s : State) (m : Nat) (f : Field) : Nat := compareOf (s.get (Fld.FUS_FMAX_FMAX m)) (s.pwmPeriod m) (s.get f)

/-- The compares of the three phases at a counter zero. -/
def comparesAt (s : State) (m : Nat) : List Nat :=
  [compareAt s m (Fld.PWM_DUTY_AB_DA m), compareAt s m (Fld.PWM_DUTY_AB_DB m), compareAt s m (Fld.PWM_DUTY_C_DC m)]

/-- The compares of a lap show. -/
def comparesShown (s w : State) (m : Nat) : State :=
  ((w.put (Fld.PWM_CMP_AB_CA m) (compareAt s m (Fld.PWM_DUTY_AB_DA m))).put (Fld.PWM_CMP_AB_CB m)
    (compareAt s m (Fld.PWM_DUTY_AB_DB m))).put (Fld.PWM_CMP_C_CC m) (compareAt s m (Fld.PWM_DUTY_C_DC m))

/-- A counter zero before its event. -/
def zeroDone (s : State) (m t : Nat) : State :=
  if m = 6 then holdTurnOn (pushLap (zeroLoads s m) m t false [])
  else pushLap (comparesShown (zeroLoads s m) (zeroLoads s m) m) m t false (comparesAt (zeroLoads s m) m)

theorem counterZero_eq {s : State} {m : Nat} (h : s.flag (Fld.PWM_CFG_CEN m) = true) (t : Nat) :
    counterZero s m t = eventOccurs (zeroDone s m t) m 0 := by
  by_cases h6 : m = 6
  · subst h6
    simp only [counterZero, h, zeroDone, if_true, Bool.not_true, Bool.false_eq_true, if_false, zeroLoads]
  · simp only [counterZero, h, zeroDone, if_neg h6, Bool.not_true, Bool.false_eq_true, if_false, zeroLoads, comparesAt, compareAt,
      comparesShown, List.getD_cons_zero, List.getD_cons_succ]

/-- The fields that a counter zero reads or sets, beside the event compares. -/
def zeroReads (m : Nat) : List Field := [Fld.PWM_PERIOD_ACTIVE m, Fld.FUS_FMAX_FMAX m, Fld.PWM_DUTY_AB_DA m, Fld.PWM_DUTY_AB_DB m,
  Fld.PWM_DUTY_C_DC m]

def cmpFields (m : Nat) : List Field := [Fld.PWM_CMP_AB_CA m, Fld.PWM_CMP_AB_CB m, Fld.PWM_CMP_C_CC m]

def evcFields (m : Nat) : List Field := (List.range 4).map (Fld.PWM_EVC_ACTIVE m)

theorem zeroFields_apart : ∀ m < 7,
    (∀ g ∈ zeroReads m ++ (List.range 4).map (Fld.PWM_EVC_VALUE m), ∀ f ∈ evcFields m, apart g f = true) ∧
    (∀ g ∈ zeroReads m ++ evcFields m, ∀ f ∈ cmpFields m, apart g f = true) ∧
    ∀ g ∈ Fld.PWM_PERIOD_ACTIVE m :: (evcFields m ++ cmpFields m), lapField m g = true := by decide

theorem frame_loadReg {ps : List Part} {p : Bits} (s : State) (o : Nat) (h : .act ∈ ps) : Frame ps p s (s.loadReg o) :=
  frame_part .act h rfl fun r hr => by cases r <;> first | exact absurd rfl hr | simp [Part.same]

theorem frame_evcLoads (m : Nat) (t : State) : Frame [] (bits (evcFields m)) t
    ((List.range 4).foldl (fun s e => s.put (Fld.PWM_EVC_ACTIVE m e) (s.get (Fld.PWM_EVC_VALUE m e))) t) :=
  frame_foldl_mem fun _ he _ => frame_put _ _ (covers_of_fits (List.mem_map_of_mem he) rfl)

theorem frame_zeroLoads (s : State) (m : Nat) : Frame [.act] (bits (evcFields m)) s (zeroLoads s m) :=
  frame_trans (frame_loadReg s (Reg.PWM_DT m) (by simp)) (frame_bits_mono (frame_evcLoads m _) (by simp) (by simp))

theorem zeroLoads_meets (s : State) {m : Nat} (hm : m < 7) : (zeroLoads s m).actReg (Reg.PWM_DT m) = s.reg (Reg.PWM_DT m) ∧
    ∀ e < 4, (zeroLoads s m).get (Fld.PWM_EVC_ACTIVE m e) = s.get (Fld.PWM_EVC_VALUE m e) := by
  have hset (e : Nat) (s : State) : (s.put (Fld.PWM_EVC_ACTIVE m e) (s.get (Fld.PWM_EVC_VALUE m e))).get (Fld.PWM_EVC_ACTIVE m e) =
      (s.put (Fld.PWM_EVC_ACTIVE m e) (s.get (Fld.PWM_EVC_VALUE m e))).get (Fld.PWM_EVC_VALUE m e) := by
    rw [get_put_self _ _ rfl, get_put_apart _ _ rfl rfl]
    exact Nat.mod_eq_of_lt (get_lt s _)
  refine ⟨?_, fun e he => ?_⟩
  · rw [State.actReg, zeroLoads, (frame_evcLoads m _).2 .act (by simp)]
    exact sget_sset_same _ _ _ _
  · have hmem : Fld.PWM_EVC_VALUE m e ∈ (List.range 4).map (Fld.PWM_EVC_VALUE m) := List.mem_map_of_mem (List.mem_range.2 he)
    have hval := get_of_frame_bits (frame_zeroLoads s m) ((zeroFields_apart m hm).1 _ (List.mem_append_right _ hmem))
    refine (foldl_brings (P := fun e s => s.get (Fld.PWM_EVC_ACTIVE m e) = s.get (Fld.PWM_EVC_VALUE m e)) (fun e _ s => hset e s)
      (fun e _ d _ s h => ?_) e (List.mem_range.2 he)).trans hval
    by_cases hde : d = e
    · exact hde ▸ hset d s
    · have hoff : Reg.PWM_EVC m d ≠ Reg.PWM_EVC m e := by simp only [Reg.PWM_EVC]; omega
      rw [get_put_word _ (Fld.PWM_EVC_ACTIVE m e) (Fld.PWM_EVC_ACTIVE m d) _ hoff,
        get_put_word _ (Fld.PWM_EVC_ACTIVE m e) (Fld.PWM_EVC_VALUE m d) _ hoff, h]

theorem compareAt_lt (s : State) (m : Nat) (f : Field) : compareAt s m f < 2 ^ 16 := by
  have hp : s.pwmPeriod m < 2 ^ 16 := get_lt s _
  have hf : s.get (Fld.FUS_FMAX_FMAX m) < 2 ^ 16 := get_lt s _
  refine lt_of_le_of_lt (min_le_right _ _) (Nat.div_lt_of_lt_mul ?_)
  nlinarith

theorem comparesShown_meets (s w : State) (m : Nat) :
    (comparesShown s w m).get (Fld.PWM_CMP_AB_CA m) = compareAt s m (Fld.PWM_DUTY_AB_DA m) ∧
    (comparesShown s w m).get (Fld.PWM_CMP_AB_CB m) = compareAt s m (Fld.PWM_DUTY_AB_DB m) ∧
    (comparesShown s w m).get (Fld.PWM_CMP_C_CC m) = compareAt s m (Fld.PWM_DUTY_C_DC m) ∧
    Frame [] (bits (cmpFields m)) w (comparesShown s w m) := by
  have hput (t : State) (f g : Field) (k : fits f = true) (h : f.width = 16) : (t.put f (compareAt s m g)).get f = compareAt s m g := by
    rw [get_put_self _ _ k, h, Nat.mod_eq_of_lt (compareAt_lt s m g)]
  have hc (f : Field) (h : f ∈ cmpFields m) (k : fits f = true) : Covers (bits (cmpFields m)) f := covers_of_fits h k
  refine ⟨?_, ?_, hput _ _ _ rfl rfl, frame_then_put (frame_then_put (frame_put _ _ (hc _ (by simp [cmpFields]) rfl)) _ _
    (hc _ (by simp [cmpFields]) rfl)) _ _ (hc _ (by simp [cmpFields]) rfl)⟩
  · rw [comparesShown, get_put_word _ _ _ _ (by simp [Fld.PWM_CMP_AB_CA, Fld.PWM_CMP_C_CC, Reg.PWM_CMP_AB, Reg.PWM_CMP_C]),
      get_put_apart _ _ rfl rfl, hput _ _ _ rfl rfl]
  · rw [comparesShown, get_put_word _ _ _ _ (by simp [Fld.PWM_CMP_AB_CB, Fld.PWM_CMP_C_CC, Reg.PWM_CMP_AB, Reg.PWM_CMP_C]),
      hput _ _ _ rfl rfl]

theorem frame_holdTurnOn (s : State) : Frame [.vlv] (bits []) s (holdTurnOn s) :=
  frame_range fun _ _ s => frame_ite_right (frame_refl s) fun _ => frame_setVlv _ _ _ (by simp)

theorem frame_pushLap (s : State) (m t : Nat) (held : Bool) (cmp : List Nat) : Frame [.pwm] (bits []) s (pushLap s m t held cmp) :=
  frame_setPwm _ _ _ (by simp)

theorem pwmAt_pushLap (s : State) (m t : Nat) (held : Bool) (cmp : List Nat) : (pushLap s m t held cmp).pwmAt m =
    { s.pwmAt m with laps := ⟨t, held, s.pwmPeriod m, cmp⟩ :: keepLaps t (s.pwmAt m).laps, matched := [] } := pwmAt_setPwm_same _ _ _

/-- What a counter zero of module `m` leaves, the loads being those of `s`. -/
def ZeroOf (s t : State) (m z : Nat) : Prop :=
  t.pwmPeriod m = s.pwmPeriod m ∧ t.actReg (Reg.PWM_DT m) = s.reg (Reg.PWM_DT m) ∧
    (∀ e < 4, t.get (Fld.PWM_EVC_ACTIVE m e) = s.get (Fld.PWM_EVC_VALUE m e)) ∧ (t.pwmAt m).matched = [] ∧
    (t.pwmAt m).laps.head? = some ⟨z, false, s.pwmPeriod m, if m = 6 then [] else comparesAt s m⟩ ∧
    (m ≠ 6 → t.get (Fld.PWM_CMP_AB_CA m) = compareAt s m (Fld.PWM_DUTY_AB_DA m) ∧
      t.get (Fld.PWM_CMP_AB_CB m) = compareAt s m (Fld.PWM_DUTY_AB_DB m) ∧
      t.get (Fld.PWM_CMP_C_CC m) = compareAt s m (Fld.PWM_DUTY_C_DC m))

/-- The loads leave what the compares are made of. -/
theorem compareAt_zeroLoads (s : State) {m : Nat} (hm : m < 7) : (zeroLoads s m).pwmPeriod m = s.pwmPeriod m ∧
    ∀ f ∈ [Fld.PWM_DUTY_AB_DA m, Fld.PWM_DUTY_AB_DB m, Fld.PWM_DUTY_C_DC m], compareAt (zeroLoads s m) m f = compareAt s m f := by
  have hkept (g : Field) (hg : g ∈ zeroReads m) : (zeroLoads s m).get g = s.get g :=
    get_of_frame_bits (frame_zeroLoads s m) ((zeroFields_apart m hm).1 g (List.mem_append_left _ hg))
  have hper : (zeroLoads s m).pwmPeriod m = s.pwmPeriod m := hkept _ (by simp [zeroReads])
  refine ⟨hper, fun f hf => ?_⟩
  rw [compareAt, hkept _ (by simp [zeroReads]), hper, hkept f (by simp [zeroReads] at hf ⊢; tauto), compareAt]

theorem comparesAt_zeroLoads (s : State) {m : Nat} (hm : m < 7) : comparesAt (zeroLoads s m) m = comparesAt s m := by
  have h := (compareAt_zeroLoads s hm).2
  rw [comparesAt, h _ (by simp), h _ (by simp), h _ (by simp), comparesAt]

theorem zeroDone_meets (s : State) {m : Nat} (hm : m < 7) (z : Nat) : ZeroOf s (zeroDone s m z) m z := by
  obtain ⟨hdt, hevc⟩ := zeroLoads_meets s hm
  obtain ⟨hper, hcmp⟩ := compareAt_zeroLoads s hm
  obtain ⟨-, hapart, -⟩ := zeroFields_apart m hm
  by_cases h6 : m = 6
  · subst h6
    have hz : zeroDone s 6 z = holdTurnOn (pushLap (zeroLoads s 6) 6 z false []) := if_pos rfl
    rw [hz]
    generalize zeroLoads s 6 = w at *
    have hfv := frame_holdTurnOn (pushLap w 6 z false [])
    have hfp := frame_pushLap w 6 z false []
    have hp := pwmAt_of_frame hfv (by simp) 6
    rw [pwmAt_pushLap] at hp
    generalize holdTurnOn (pushLap w 6 z false []) = t at *
    have hkept (g : Field) : t.get g = w.get g := (get_of_frame_bits hfv (by simp)).trans (get_of_frame_bits hfp (by simp))
    refine ⟨(hkept _).trans hper, ?_, fun e he => (hkept _).trans (hevc e he), by rw [hp], ?_, fun h => absurd rfl h⟩
    · rw [State.actReg, hfv.2 .act (by simp), hfp.2 .act (by simp)]
      exact hdt
    · rw [hp, hper, if_pos rfl, List.head?_cons]
  · obtain ⟨hca, hcb, hcc, hfc⟩ := comparesShown_meets (zeroLoads s m) (zeroLoads s m) m
    have hz : zeroDone s m z = pushLap (comparesShown (zeroLoads s m) (zeroLoads s m) m) m z false (comparesAt (zeroLoads s m) m) := if_neg h6
    generalize hw : comparesShown (zeroLoads s m) (zeroLoads s m) m = w at *
    have hf := frame_pushLap w m z false (comparesAt (zeroLoads s m) m)
    have hkept (g : Field) (hg : g ∈ zeroReads m ++ evcFields m) : (zeroDone s m z).get g = (zeroLoads s m).get g := by
      rw [hz, get_of_frame_bits hf (by simp), get_of_frame_bits hfc (hapart g hg)]
    have hcmpKept (g : Field) : (zeroDone s m z).get g = w.get g := hz ▸ get_of_frame_bits hf (by simp)
    have hp : (zeroDone s m z).pwmAt m = _ := (congrArg (State.pwmAt · m) hz).trans (pwmAt_pushLap w m z false _)
    have hwper : w.pwmPeriod m = s.pwmPeriod m := (get_of_frame_bits hfc (hapart _ (by simp [zeroReads]))).trans hper
    refine ⟨(hkept _ (by simp [zeroReads])).trans hper, ?_, fun e he => (hkept _ ?_).trans (hevc e he), ?_, ?_, fun _ => ⟨?_, ?_, ?_⟩⟩
    · rw [State.actReg, hz, hf.2 .act (by simp), hfc.2 .act (by simp)]
      exact hdt
    · exact List.mem_append_right _ (List.mem_map_of_mem (List.mem_range.2 he))
    · rw [hp]
    · rw [hp, hwper, comparesAt_zeroLoads s hm, if_neg h6]
      rfl
    · rw [hcmpKept, hca, hcmp _ (by simp)]
    · rw [hcmpKept, hcb, hcmp _ (by simp)]
    · rw [hcmpKept, hcc, hcmp _ (by simp)]

/-- A counter zero loads, starts a lap and makes its event (R265 to R269). -/
theorem counterZero_meets {s : State} {m : Nat} (hm : m < 7) (h : s.flag (Fld.PWM_CFG_CEN m) = true) (z : Nat) :
    ZeroOf s (counterZero s m z) m z := by
  obtain ⟨hper, hdt, hevc, hmatched, hhead, hcmp⟩ := zeroDone_meets s hm z
  have hf := frame_eventOccurs (zeroDone s m z) m 0
  obtain ⟨l, hp⟩ := pwmAt_eventOccurs (zeroDone s m z) m 0
  have hkept (g : Field) (hg : g ∈ Fld.PWM_PERIOD_ACTIVE m :: (evcFields m ++ cmpFields m)) :
      (eventOccurs (zeroDone s m z) m 0).get g = (zeroDone s m z).get g := get_of_eventReach hf ((zeroFields_apart m hm).2.2 g hg)
  have hevcMem (e : Nat) (he : e < 4) : Fld.PWM_EVC_ACTIVE m e ∈ evcFields m := List.mem_map_of_mem (List.mem_range.2 he)
  rw [counterZero_eq h]
  refine ⟨(hkept _ (by simp)).trans hper, ?_, fun e he => (hkept _ (by simp [hevcMem e he])).trans (hevc e he), ?_, ?_, fun h6 => ?_⟩
  · rw [State.actReg, hf.2 .act (by simp)]
    exact hdt
  · rw [hp]
    exact hmatched
  · rw [hp]
    exact hhead
  · rw [hkept _ (by simp [cmpFields]), hkept _ (by simp [cmpFields]), hkept _ (by simp [cmpFields])]
    exact hcmp h6

/-- The state whose values load at a counter zero that is no tick edge (R261). -/
def lapLoads (s : State) (m : Nat) : State := if s.flag (Fld.PWM_CFG_TICKLOCK m) && s.running then s else loadPeriod s m

/-- The period of the lap that begins. -/
def lapPeriod (s : State) (m : Nat) : Nat :=
  if s.flag (Fld.PWM_CFG_TICKLOCK m) && s.running then s.pwmPeriod m else s.get (Fld.PWM_PERIOD_PERIOD m)

theorem lapLoads_meets (s : State) (m : Nat) : (lapLoads s m).pwmPeriod m = lapPeriod s m ∧
    Frame [] (bits [Fld.PWM_PERIOD_ACTIVE m]) s (lapLoads s m) := by
  refine ⟨?_, frame_ite_left (frame_refl s) fun _ => frame_put _ _ (covers_of_fits (by simp) rfl)⟩
  by_cases h : (s.flag (Fld.PWM_CFG_TICKLOCK m) && s.running) = true
  · rw [lapLoads, if_pos h, lapPeriod, if_pos h]
  · rw [lapLoads, if_neg h, lapPeriod, if_neg h]
    exact (get_put_self _ _ rfl).trans (Nat.mod_eq_of_lt (get_lt s _))

theorem lapZero_held {s : State} {m : Nat} (h : s.flag (Fld.PWM_CFG_CEN m) = false) (z : Nat) : lapZero s m z = s := if_pos (by simp [h])

theorem lapReads_apart : ∀ m < 7, (∀ g ∈ [Fld.PWM_CFG_CEN m, Fld.FUS_FMAX_FMAX m, Fld.PWM_DUTY_AB_DA m, Fld.PWM_DUTY_AB_DB m,
    Fld.PWM_DUTY_C_DC m], apart g (Fld.PWM_PERIOD_ACTIVE m) = true) ∧ Reg.PWM_DT m ≠ Reg.PWM_PERIOD m := by decide

/-- A counter zero that is no tick edge loads the period, unless the module is tick-locked while ticks run (R261, R263). -/
theorem lapZero_meets {s : State} {m : Nat} (hm : m < 7) (h : s.flag (Fld.PWM_CFG_CEN m) = true) (z : Nat) :
    let p := lapPeriod s m
    let c (f : Field) := compareOf (s.get (Fld.FUS_FMAX_FMAX m)) p (s.get f)
    let t := lapZero s m z
    t.pwmPeriod m = p ∧ t.actReg (Reg.PWM_DT m) = s.reg (Reg.PWM_DT m) ∧
      (∀ e < 4, t.get (Fld.PWM_EVC_ACTIVE m e) = s.get (Fld.PWM_EVC_VALUE m e)) ∧ (t.pwmAt m).matched = [] ∧
      (t.pwmAt m).laps.head? = some ⟨z, false, p, if m = 6 then []
        else [c (Fld.PWM_DUTY_AB_DA m), c (Fld.PWM_DUTY_AB_DB m), c (Fld.PWM_DUTY_C_DC m)]⟩ ∧
      (m ≠ 6 → t.get (Fld.PWM_CMP_AB_CA m) = c (Fld.PWM_DUTY_AB_DA m) ∧
        t.get (Fld.PWM_CMP_AB_CB m) = c (Fld.PWM_DUTY_AB_DB m) ∧ t.get (Fld.PWM_CMP_C_CC m) = c (Fld.PWM_DUTY_C_DC m)) := by
  intro p c t
  obtain ⟨hper, hfr⟩ := lapLoads_meets s m
  obtain ⟨hapart, hdt⟩ := lapReads_apart m hm
  have hkept (g : Field) (hg : apart g (Fld.PWM_PERIOD_ACTIVE m) = true) : (lapLoads s m).get g = s.get g :=
    get_of_frame_bits hfr (by simpa using hg)
  have hcen : (lapLoads s m).flag (Fld.PWM_CFG_CEN m) = true := (flag_of_frame_bits hfr (by simpa using hapart _ (by simp))).trans h
  have hcmp (f : Field) (hf : f ∈ [Fld.PWM_DUTY_AB_DA m, Fld.PWM_DUTY_AB_DB m, Fld.PWM_DUTY_C_DC m]) : compareAt (lapLoads s m) m f = c f := by
    rw [compareAt, hkept _ (hapart _ (by simp)), hper, hkept f (hapart f (by simp at hf ⊢; tauto))]
  have hreg : (lapLoads s m).reg (Reg.PWM_DT m) = s.reg (Reg.PWM_DT m) :=
    reg_of_frame hfr fun b _ hb => by
      simp only [bits, List.mem_singleton, exists_eq_left] at hb
      exact hdt hb.1.symm
  have ht : t = counterZero (lapLoads s m) m z := if_neg (by simp [h])
  obtain ⟨hp, hd, hevc, hmatched, hhead, hshown⟩ := counterZero_meets hm hcen z
  rw [← ht] at hp hd hevc hmatched hhead hshown
  refine ⟨hp.trans hper, hd.trans hreg, fun e he => (hevc e he).trans (hkept _ rfl), hmatched, ?_, fun h6 => ?_⟩
  · rw [hhead, hper, comparesAt, hcmp _ (by simp), hcmp _ (by simp), hcmp _ (by simp)]
  · obtain ⟨ha, hb, hc⟩ := hshown h6
    exact ⟨ha.trans (hcmp _ (by simp)), hb.trans (hcmp _ (by simp)), hc.trans (hcmp _ (by simp))⟩

/-! ### The commands -/

section
variable {s : State} (hrun : s.pwr.hold = .running)
include hrun

theorem exec_pwmCounterZero (m : Fin 7) : (s.wraps m = none → exec (.pwmCounterZero m) s = .next s) ∧
    ∀ z, s.wraps m = some z → exec (.pwmCounterZero m) s = .next (lapZero s m z) := by
  constructor
  · intro h
    show execPwmCounterZero m s = _
    rw [execPwmCounterZero, act_running _ _ hrun, h]
  · intro z h
    show execPwmCounterZero m s = _
    rw [execPwmCounterZero, act_running _ _ hrun, h]

theorem exec_pwmDisableCmd (m : Fin 7) (h : s.served (Reg.PWM_CTRL m) = true) : exec (.pwmDisableCmd m) s = .next (pwmDisable s m 7) := by
  show execPwmDisableCmd m s = _
  rw [execPwmDisableCmd, act_running _ _ hrun, if_pos h]

theorem exec_trip (n : Fin 6) (volts : Vector Int 4) :
    exec (.trip n volts) s = .next (compare (s.setSns n { s.snsAt n with vin := volts.toList }) n) := by
  show execTrip n volts s = _
  rw [execTrip, act_running _ _ hrun]

theorem exec_tripLatchClear (m : Fin 7) (v : Word) (h : s.served (Reg.PWM_TRIP m) = true) :
    exec (.tripLatchClear m v) s = .next (tripLatchClear s m v) := by
  show execTripLatchClear m v s = _
  rw [execTripLatchClear, act_running _ _ hrun, if_pos h]

/-- An event takes place where its condition holds (R267, R274). -/
theorem exec_pwmEvent (m : Fin 7) (v : Fin 6) :
    let k := if v.val = 1 then s.pwmPeriod m - 1 else s.get (Fld.PWM_EVC_ACTIVE m (v.val - 2))
    let due : Bool := decide (v.val ≠ 0) && s.countsTo m k &&
      (v.val = 1 || (decide (k < s.pwmPeriod m) && !(s.pwmAt m).matched.contains v.val))
    let u := if v.val = 1 then s else s.setPwm m { s.pwmAt m with matched := v.val :: (s.pwmAt m).matched }
    (due = false → exec (.pwmEvent m v) s = .next s) ∧ (due = true → exec (.pwmEvent m v) s = .next (eventOccurs u m v)) := by
  intro k due u
  have he : exec (.pwmEvent m v) s = .next (if v.val = 0 then s
      else if v.val = 1 then (if s.countsTo m (s.pwmPeriod m - 1) then eventOccurs s m v else s)
      else if v.val ∈ (s.pwmAt m).matched ∨ s.pwmPeriod m ≤ s.get (Fld.PWM_EVC_ACTIVE m (v.val - 2)) ∨
        s.countsTo m (s.get (Fld.PWM_EVC_ACTIVE m (v.val - 2))) = false then s
      else eventOccurs (s.setPwm m { s.pwmAt m with matched := v.val :: (s.pwmAt m).matched }) m v) := by
    show execPwmEvent m v s = _
    rw [execPwmEvent, act_running _ _ hrun]
  rw [he]
  by_cases h0 : v.val = 0
  · simp [due, h0]
  by_cases h1 : v.val = 1
  · cases hc : s.countsTo m (s.pwmPeriod m - 1) <;> simp [due, k, u, h1, hc]
  · rw [if_neg h0, if_neg h1]
    have hdue : due = true ↔ ¬ (v.val ∈ (s.pwmAt m).matched ∨ s.pwmPeriod m ≤ k ∨ s.countsTo m k = false) := by
      simp only [due, h0, h1, decide_false, ne_eq, not_false_eq_true, decide_true, Bool.true_and, Bool.false_or, Bool.and_eq_true,
        decide_eq_true_eq, Bool.not_eq_true', List.contains_eq_mem, decide_eq_false_iff_not, not_or, not_le, Bool.not_eq_false]
      tauto
    have hk : s.get (Fld.PWM_EVC_ACTIVE m (v.val - 2)) = k := (if_neg h1).symm
    have hu : s.setPwm m { s.pwmAt m with matched := v.val :: (s.pwmAt m).matched } = u := (if_neg h1).symm
    rw [hk, hu]
    refine ⟨fun h => ?_, fun h => by rw [if_neg (hdue.1 h)]⟩
    rw [if_pos (not_not.1 fun hn => Bool.eq_false_iff.1 h (hdue.2 hn))]

end

/-- A disable of a module of an axis that is off, and was not turned off in this cycle, is only noted (R271). -/
theorem frame_pwmDisable_of_off {s : State} {m code : Nat} (h : ¬ Acts s m) : Frame [.pwm] (bits []) s (pwmDisable s m code) := by
  rw [pwmDisable_of_not_acts h]
  exact frame_setPwm _ _ _ (by simp)

/-- Settles O45: counter zeros by what the loads of a lap leave, events by the prescaler, disables by whether they act, the trips by what
rose among the comparators' levels. -/
theorem pwmLapsAndTrips : Obligations.PwmLapsAndTrips := by
  unfold Obligations.PwmLapsAndTrips
  intro s hrun
  refine ⟨fun m => ?_, fun m v => ?_, exec_pwmDisableCmd hrun, fun m code hcode => ?_, fun n volts => ?_, fires_eq,
    fun n live hl => tripLevels_meets s n.isLt hl _ rfl, fun m v hs =>
      ⟨_, exec_tripLatchClear hrun m v hs, tripLatchClear_meets s m v _ rfl⟩⟩
  · obtain ⟨hnone, hsome⟩ := exec_pwmCounterZero hrun m
    exact ⟨hnone, hsome, fun z h => lapZero_held h z, fun z h => lapZero_meets m.isLt h z⟩
  · obtain ⟨hnot, hdue⟩ := exec_pwmEvent hrun m v
    exact ⟨hnot, hdue, eventOccurs_meets s m.isLt v.isLt⟩
  · refine ⟨askedNow_pwmDisable, fun h6 hacts => ?_, fun h6 hoff hcut => ?_, fun h6 => ?_⟩
    · have hm : m.val < 6 := by omega
      obtain ⟨hen, hcause⟩ := pwmDisable_meets hm hcode (.inr hacts)
      exact ⟨hen, hcause, frame_pwmDisable s hm code⟩
    · exact frame_pwmDisable_of_off fun h => h.elim h6 fun h => h.elim (by simp [hoff]) hcut
    · obtain rfl : m = 6 := Fin.ext h6
      exact pwmDisable_six hcode
  · refine ⟨exec_trip hrun n volts, fun h => compare_unready _ _ h, fun h => ?_⟩
    have hv : (s.setSns n { s.snsAt n with vin := volts.toList }).snsAt n = _ := snsAt_setSns_same _ _ _
    have hc := compare_ready (s.setSns n { s.snsAt n with vin := volts.toList }) n h
    rw [hv] at hc
    exact hc

end Sys2Proof.Proofs
end

section
/-!
PROOF. Position sensing and trip thresholds (for O42: R183, R185, R186, R188 to R191, R197, R518).
-/

namespace Sys2Proof.Proofs
open Sys2Proof Sys2Proof.Machine Sys2Proof.Safety Sys2Proof.Laws

/-! ### Quadrature (R190, R191) -/

/-- The steps from the old levels to the new ones in the order in which QA leads QB. -/
def grayStep (a b qa qb : Bool) : Nat := (grayIx a b + 4 - grayIx qa qb) % 4

theorem grayStep_same : ∀ a b : Bool, grayStep a b a b = 0 := by decide

theorem grayStep_both : ∀ a b qa qb : Bool, a ≠ qa → b ≠ qb → grayStep a b qa qb = 2 := by decide

theorem grayStep_one : ∀ a b qa qb : Bool, (a ≠ qa ∧ b = qb) ∨ (a = qa ∧ b ≠ qb) →
    grayStep a b qa qb = if a != qb then 1 else 3 := by decide

/-- The sensing state of an axis after a change of both levels. -/
def quadErred (x : Sns) (now : Nat) (a b : Bool) : Sns :=
  { x with qa := a, qb := b, qerr := !(x.trigs.any fun g => g.at_ = now) }.amend now fun g => { g with qerr := true }

/-- The sensing state of an axis after a count. -/
def quadCounted (x : Sns) (now : Nat) (a b : Bool) (q : BitVec 32) : Sns :=
  { x with qa := a, qb := b, qpos := q }.amend now fun g => { g with qpos := q }

section
variable (s : State) {n : Nat} {a b : Bool}

theorem snsAt_setSns_ne {m : Nat} (x : Sns) (h : m ≠ n) : (s.setSns n x).snsAt m = s.snsAt m := getD_lput_ne _ _ _ _ _ h

theorem quadStep_same (ha : a = (s.snsAt n).qa) (hb : b = (s.snsAt n).qb) : quadStep s n a b = s := by
  have hd : (grayIx a b + 4 - grayIx (s.snsAt n).qa (s.snsAt n).qb) % 4 = 0 := ha ▸ hb ▸ grayStep_same a b
  simp only [quadStep, hd]

theorem quadStep_both (ha : a ≠ (s.snsAt n).qa) (hb : b ≠ (s.snsAt n).qb) : quadStep s n a b =
    ((s.incSat (Fld.SNS_CNT_QERR n)).irqBit Fld.SNS_IRQ_STATUS_QERR n).setSns n
      (quadErred (s.snsAt n) ((s.incSat (Fld.SNS_CNT_QERR n)).irqBit Fld.SNS_IRQ_STATUS_QERR n).cyc a b) := by
  have hd : (grayIx a b + 4 - grayIx (s.snsAt n).qa (s.snsAt n).qb) % 4 = 2 := grayStep_both a b _ _ ha hb
  simp only [quadStep, hd]
  rfl

theorem quadStep_one (h : (a ≠ (s.snsAt n).qa ∧ b = (s.snsAt n).qb) ∨ (a = (s.snsAt n).qa ∧ b ≠ (s.snsAt n).qb)) :
    quadStep s n a b = s.setSns n (quadCounted (s.snsAt n) s.cyc a b
      (if (a != (s.snsAt n).qb) != s.flag (Fld.SNS_QCFG_DIR n) then (s.snsAt n).qpos + 1 else (s.snsAt n).qpos - 1)) := by
  have hd : (grayIx a b + 4 - grayIx (s.snsAt n).qa (s.snsAt n).qb) % 4 = _ := grayStep_one a b _ _ h
  cases hq : (a != (s.snsAt n).qb) <;> cases hdir : s.flag (Fld.SNS_QCFG_DIR n) <;> rw [hq] at hd <;>
    simp [quadStep, hd, hdir, quadCounted]

theorem quadErr_meets (hn : n < 6) (t : State) (ht : t = (s.incSat (Fld.SNS_CNT_QERR n)).irqBit Fld.SNS_IRQ_STATUS_QERR n) :
    t.bitF Fld.SNS_IRQ_STATUS_QERR n = true ∧ t.get (Fld.SNS_CNT_QERR n) = min 0xFFFF (s.get (Fld.SNS_CNT_QERR n) + 1) ∧
      Frame [.msix] (orBits pba (bits [Fld.SNS_CNT_QERR n, Fld.SNS_IRQ_STATUS_QERR])) s t := by
  have hle : Fld.SNS_IRQ_STATUS_QERR.lo + n ≤ Fld.SNS_IRQ_STATUS_QERR.hi := by change 6 + n ≤ 11; omega
  subst ht
  refine ⟨bitF_irqBit _ _ _ hle (by decide) (not_pba_of_outside (by decide)), ?_, frame_trans
    (frame_incSat _ 1 (covers_right _ (covers_of_fits (by simp) rfl))) (frame_irqBit_listed _ (by simp) hle (by simp))⟩
  have hoff : Reg.SNS_CNT n ≠ Reg.SNS_IRQ_STATUS := by simp only [Reg.SNS_CNT, Reg.SNS_IRQ_STATUS]; omega
  rw [get_irqBit_apart _ hle (apart_of_off hoff) (.inr (by simp only [Fld.SNS_CNT_QERR, Reg.SNS_CNT]; omega))]
  exact get_incSat_self s rfl

theorem frame_quadStep (hn : n < 6) : Frame [.sns, .msix] (orBits pba (bits [Fld.SNS_CNT_QERR n, Fld.SNS_IRQ_STATUS_QERR])) s
    (quadStep s n a b) := by
  by_cases ha : a = (s.snsAt n).qa
  · by_cases hb : b = (s.snsAt n).qb
    · rw [quadStep_same s ha hb]
      exact frame_refl s
    · rw [quadStep_one s (.inr ⟨ha, hb⟩)]
      exact frame_setSns _ _ _ (by simp)
  · by_cases hb : b = (s.snsAt n).qb
    · rw [quadStep_one s (.inl ⟨ha, hb⟩)]
      exact frame_setSns _ _ _ (by simp)
    · rw [quadStep_both s ha hb]
      exact frame_trans (frame_mono (quadErr_meets s hn _ rfl).2.2 (by simp) fun _ _ => id) (frame_setSns _ _ _ (by simp))

/-- A change of both levels counts an error and leaves the count (R191). -/
theorem quadStep_both_meets (hn : n < 6) (ha : a ≠ (s.snsAt n).qa) (hb : b ≠ (s.snsAt n).qb) :
    (quadStep s n a b).bitF Fld.SNS_IRQ_STATUS_QERR n = true ∧
      (quadStep s n a b).get (Fld.SNS_CNT_QERR n) = min 0xFFFF (s.get (Fld.SNS_CNT_QERR n) + 1) ∧
      (quadStep s n a b).snsAt n = quadErred (s.snsAt n) s.cyc a b := by
  obtain ⟨hirq, hcnt, hfr⟩ := quadErr_meets s hn _ rfl
  have hc : ((s.incSat (Fld.SNS_CNT_QERR n)).irqBit Fld.SNS_IRQ_STATUS_QERR n).cyc = s.cyc := hfr.2 .cyc (by simp)
  rw [quadStep_both s ha hb, hc]
  exact ⟨hirq, hcnt, snsAt_setSns_same _ _ _⟩

/-- The other axes are as they were. -/
theorem snsAt_quadStep_ne (hn : n < 6) {m : Nat} (h : m ≠ n) : (quadStep s n a b).snsAt m = s.snsAt m := by
  by_cases ha : a = (s.snsAt n).qa
  · by_cases hb : b = (s.snsAt n).qb
    · rw [quadStep_same s ha hb]
    · rw [quadStep_one s (.inr ⟨ha, hb⟩), snsAt_setSns_ne _ _ h]
  · by_cases hb : b = (s.snsAt n).qb
    · rw [quadStep_one s (.inl ⟨ha, hb⟩), snsAt_setSns_ne _ _ h]
    · rw [quadStep_both s ha hb, snsAt_setSns_ne _ _ h]
      exact congrArg (fun l => List.getD l m Sns.init) ((quadErr_meets s hn _ rfl).2.2.2 .sns (by simp))

/-- The filter of an axis is as it was after a step of its decoder. -/
theorem filt_quadStep (hn : n < 6) : (quadStep s n a b).get (Fld.SNS_QCFG_FILT n) = s.get (Fld.SNS_QCFG_FILT n) := by
  have h : ∀ n < 6, 0x29010 ≤ Reg.SNS_QCFG n ∧
      ∀ f ∈ [Fld.SNS_CNT_QERR n, Fld.SNS_IRQ_STATUS_QERR], apart (Fld.SNS_QCFG_FILT n) f = true := by decide
  exact get_of_frame_pba (frame_quadStep s hn) (.inr (h n hn).1) (h n hn).2

theorem quadPins_eq (na nb : Nat) : quadPins s n a b na nb =
    quadStep s n (if s.get (Fld.SNS_QCFG_FILT n) < na then a else (s.snsAt n).qa)
      (if s.get (Fld.SNS_QCFG_FILT n) < nb then b else (s.snsAt n).qb) := by
  simp only [quadPins, State.stable, decide_eq_true_eq]

end

/-! ### The commands -/

section
variable {s : State} (hrun : s.pwr.hold = .running)
include hrun

theorem exec_quadEdge (n : Fin 6) (a b : Bool) (na nb : Nat) : exec (.quadEdge n a b na nb) s = .next (quadPins s n a b na nb) := by
  show execQuadEdge n a b na nb s = _
  rw [execQuadEdge, act_running _ _ hrun]

theorem exec_qzIndex (n : Fin 6) (a b : Bool) (na nb nz : Nat) : exec (.qzIndex n a b na nb nz) s =
    .next (if s.get (Fld.SNS_QCFG_FILT n) < nz then quadIndex (quadPins s n a b na nb) n else quadPins s n a b na nb) := by
  show execQzIndex n a b na nb nz s = _
  rw [execQzIndex, act_running _ _ hrun]
  simp only [State.stable, decide_eq_true_eq]
  rw [quadPins_eq, filt_quadStep s n.isLt]

theorem exec_sincosLatch (n : Fin 6) (sin cos : Int) :
    exec (.sincosLatch n sin cos) s = .next (heldLatch (latchPair s n (sarCode sin) (sarCode cos)) n) := by
  show execSincosLatch n sin cos s = _
  rw [execSincosLatch, act_running _ _ hrun]

theorem exec_tripThresholdWrite (n : Fin 6) (bus : Bool) (v : Word)
    (h : s.served (if bus then Reg.SNS_TRIPOV n else Reg.SNS_TRIPOC n) = true) :
    exec (.tripThresholdWrite n bus v) s = .next (tripThresholdWrite s n bus v) := by
  show execTripThresholdWrite n bus v s = _
  rw [execTripThresholdWrite, act_running _ _ hrun, if_pos h]

theorem exec_snsCntClr_axis (n : Fin 6) (h : s.served (Reg.SNS_CNT_CLR n) = true) :
    exec (.snsCntClr (.axis n)) s = .next (s.clrReg (Reg.SNS_CNT n)) := by
  show execSnsCntClr (.axis n) s = _
  rw [execSnsCntClr, act_running _ _ hrun]
  exact congrArg _ (if_pos h)

theorem exec_snsCntClr_modulator (k : Fin 4) (h : s.served (Reg.MOD_CNT_CLR k) = true) :
    exec (.snsCntClr (.modulator k)) s = .next (s.clrReg (Reg.MOD_CNT k)) := by
  show execSnsCntClr (.modulator k) s = _
  rw [execSnsCntClr, act_running _ _ hrun]
  exact congrArg _ (if_pos h)

end

/-- An index captures the count, and clears it with ZRST (R191). -/
theorem quadIndex_meets (s : State) (n : Nat) :
    let x := s.snsAt n
    let t := quadIndex s n
    let now : Bool := x.trigs.any fun g => g.at_ = s.cyc
    let q := if s.flag (Fld.SNS_QCFG_ZRST n) then 0 else x.qpos
    (s.flag (Fld.SNS_QCFG_ZEN n) = false → t = s) ∧
    (s.flag (Fld.SNS_QCFG_ZEN n) = true →
      t.snsAt n = ({ x with idx := if now then none else some x.qpos, qpos := q }.amend s.cyc fun g =>
        { g with idx := some x.qpos, qpos := q }) ∧ Frame [.sns] (bits []) s t) := by
  intro x t now q
  refine ⟨fun h => if_neg (by simp [h]), fun h => ?_⟩
  have ht : t = _ := if_pos h
  rw [ht]
  exact ⟨snsAt_setSns_same _ _ _, frame_setSns _ _ _ (by simp)⟩

/-- The oldest SIN/COS trigger latches the scaled pair (R186, R188). -/
theorem latchPair_meets (s : State) (n : Nat) (a b : Int) (g : ScTrig) (rest : List ScTrig) :
    ((s.snsAt n).scTrigs = [] → latchPair s n a b = s) ∧
    ((s.snsAt n).scTrigs = g :: rest →
      let p := scale g.calSin a
      let q := scale g.calCos b
      let t := latchPair s n a b
      t.snsAt n = { s.snsAt n with scTrigs := rest, pair := some ⟨g.at_, p.1, q.1, a, b, p.2 || q.2⟩ } ∧ Frame [.sns] (bits []) s t) := by
  refine ⟨fun h => ?_, fun h => ?_⟩
  · simp only [latchPair, h]
  · simp only [latchPair, h]
    exact ⟨snsAt_setSns_same _ _ _, frame_setSns _ _ _ (by simp)⟩

/-- A threshold above its ceiling stores the ceiling and sets CLAMPED (R197). -/
theorem thresholdStored_meets (s : State) (f g : Field) (th lim : Nat) (hf : fits f = true) (hw : f.width = 10) (hg : fits g = true)
    (hg1 : g.width = 1) (ha : apart f g = true) (hth : th < 1024) :
    ((s.put f (min th lim)).putB g (decide (lim < th))).get f = min th lim ∧
      ((s.put f (min th lim)).putB g (decide (lim < th))).flag g = decide (lim < th) ∧
      Frame [] (bits [f, g]) s ((s.put f (min th lim)).putB g (decide (lim < th))) := by
  refine ⟨?_, flag_putB_self _ _ hg hg1, frame_then_putB (frame_put _ _ (covers_of_fits (by simp) hf)) _ _ (covers_of_fits (by simp) hg)⟩
  have hkept : ((s.put f (min th lim)).putB g (decide (lim < th))).get f = (s.put f (min th lim)).get f := get_put_apart _ _ hg ha
  rw [hkept, get_put_self _ _ hf, hw]
  exact Nat.mod_eq_of_lt (lt_of_le_of_lt (min_le_left _ _) hth)

/-- Settles O42: the decoder by its three kinds of step, then one lemma per command. -/
theorem positionSensing : Obligations.PositionSensing := by
  unfold Obligations.PositionSensing
  intro s n hrun
  have hth (v : Word) : v.toNat % 1024 < 1024 := Nat.mod_lt _ (by omega)
  refine ⟨fun a b na nb nz => ⟨?_, ?_⟩, fun a b => ⟨quadStep_same s, fun ha hb => ?_, fun h => ?_, fun m _ h =>
      snsAt_quadStep_ne s n.isLt fun e => h (Fin.ext e)⟩,
    quadIndex_meets s n, exec_sincosLatch hrun n, latchPair_meets s n, fun v => ⟨fun h => ?_, fun h => ?_⟩,
    fun h => ⟨_, exec_snsCntClr_axis hrun n h, clrReg_meets s _⟩, fun k h => ⟨_, exec_snsCntClr_modulator hrun k h, clrReg_meets s _⟩⟩
  · rw [exec_quadEdge hrun, quadPins_eq]
  · rw [exec_qzIndex hrun, quadPins_eq]
  · obtain ⟨hirq, hcnt, hsns⟩ := quadStep_both_meets s n.isLt ha hb
    exact ⟨hirq, hcnt, hsns, frame_quadStep s n.isLt⟩
  · rw [quadStep_one s h]
    exact ⟨snsAt_setSns_same _ _ _, frame_setSns _ _ _ (by simp)⟩
  · exact ⟨_, exec_tripThresholdWrite hrun n false v h,
      thresholdStored_meets s (Fld.SNS_TRIPOC_TH n) (Fld.SNS_TRIPOC_CLAMPED n) _ _ rfl rfl rfl rfl rfl (hth v)⟩
  · exact ⟨_, exec_tripThresholdWrite hrun n true v h,
      thresholdStored_meets s (Fld.SNS_TRIPOV_TH n) (Fld.SNS_TRIPOV_CLAMPED n) _ _ rfl rfl rfl rfl rfl (hth v)⟩

end Sys2Proof.Proofs
end

section
/-!
PROOF. The reset of a function over a register store that is not in canonical form (for O29: R474).
-/

namespace Sys2Proof.Proofs
open Sys2Proof Sys2Proof.Machine Sys2Proof.Safety Sys2Proof.Laws

/-- A running state whose register store lists a word of the valve block before GLB_READY, out of the order that `sset` keeps. `sget`
stops at the first greater index, so that GLB_READY reads 0, its Reset value, though the store lists its bit 8. -/
def outOfOrder : State :=
  { State.reset with
    regs := [(Reg.VLV_IRQ_STATUS, 1), (Reg.GLB_READY, 0x100), (Reg.PWR_STATUS, 4)]
    pwr := { State.reset.pwr with hold := .running } }

theorem outOfOrder_meets : outOfOrder.served Reg.PWR_FRST = true ∧ frstAllowed outOfOrder 8 = true ∧ outOfOrder.ready 8 = false := by
  decide

/-- The reset of the valve function drops the words of its block, and with them what hid the listed READY bit. -/
theorem ready_pwrFrstWrite_outOfOrder : (pwrFrstWrite outOfOrder 0x100).ready 8 = true := by decide

theorem exec_pwrFrst {s : State} (hrun : s.pwr.hold = .running) (v : Word) (h : s.served Reg.PWR_FRST = true) :
    exec (.pwrFrst v) s = .next (pwrFrstWrite s v) := by
  show execPwrFrst v s = _
  rw [execPwrFrst, act_running _ _ hrun, if_pos h]

/-- Refutes O29: it speaks of every state, also of one whose register store is not in canonical form (strictly rising offsets, as every
write keeps it). There the filter that gives a block its Reset values can bring out a stale word of another block: on `outOfOrder` a write of
PWR_FRST with bit 8 leaves READY bit 8 set. -/
theorem not_functionsGetReady : ¬ Obligations.FunctionsGetReady := by
  unfold Obligations.FunctionsGetReady
  intro h
  obtain ⟨hserved, hallowed, -⟩ := outOfOrder_meets
  have hrun : outOfOrder.pwr.hold = .running := rfl
  obtain ⟨-, hfrst, -⟩ := h outOfOrder hrun
  obtain ⟨t, ht, hcleared, -⟩ := hfrst 0x100 hserved
  obtain rfl : pwrFrstWrite outOfOrder 0x100 = t := by
    rw [exec_pwrFrst hrun 0x100 hserved] at ht
    injection ht
  have hready := (hcleared 8 (by decide) (by decide) hallowed).1
  exact Bool.false_ne_true (hready.symm.trans ready_pwrFrstWrite_outOfOrder)

end Sys2Proof.Proofs
end
